-- ==== Sys2Proof/Word.lean ====
section
/-! DEFINITION. The byte and the byte string of the device, and nothing else: widths of registers stand where the registers are
declared (Machine/State.lean and the files under Machine/Types). -/

namespace Sys2Proof

/-- One byte. -/
abbrev Byte := BitVec 8

/-- A byte string, first byte first. -/
abbrev Bytes := List Byte

/-- A table of the state: pairs of a key and an entry, the keys strictly rising; a key that is not listed holds the
table's default. -/
abbrev Tbl (α : Type) := List (Nat × α)

end Sys2Proof
end

