-- ==== Sys2Proof/Config.lean ====
section
/-! DEFINITION. The free values: what the spec leaves open or defines by an outside standard. Each is an opaque constant with no
body, so no proof can see a value of it. The assumption log names each of them. -/

namespace Sys2Proof.Config

/-! ## Functions that outside standards define (log entry 2): uninterpreted here -/

/-- SHA3-256 of a byte string (FIPS 202), before it is brought to 32 bytes. -/
opaque sha3 : Bytes → Bytes
/-- KMAC256 of a key, a message and a customisation string (SP 800-185), before it is brought to 32 bytes. -/
opaque kmac : Bytes → Bytes → Bytes → Bytes
/-- ML-DSA-44 verification: public key, digest, signature (FIPS 204). -/
opaque dsaVerify : Bytes → Bytes → Bytes → Bool
/-- ML-DSA-44 deterministic signature by the device identity key: fuse words 624 to 631, digest. -/
opaque dsaSign : List Nat → Bytes → Bytes
/-- The device identity public key, from fuse words 624 to 631 (R488). -/
opaque identityKey : List Nat → Bytes
/-- ML-KEM-768 encapsulation: encapsulation key and randomness give the ciphertext and the shared secret (FIPS 203). -/
opaque kemCipher : Bytes → Bytes → Bytes
opaque kemSecret : Bytes → Bytes → Bytes
/-- SHAKE128 of a byte string, its first eight bytes as a number (R193). -/
opaque shake128 : Bytes → Nat

/-! ## Values that the spec does not fix -/

/-- The fused RC trim code: words 28 to 63 hold it at a place Table 19.3 does not state. -/
opaque fusedTrim : List Nat → Nat
/-- Thirty-two bytes of the entropy source at its n-th use (R489). -/
opaque entropy : Nat → Bytes
/-- A free 64-bit value at the n-th use of the model's own counter State.freeCtr. -/
opaque fresh : Nat → BitVec 64

/-! ## Functions accurate to 2 ulp (R111, R135): one fixed algorithm each, a function of the operand bits -/

/-- Which of the values within 2 ulp the algorithm of a function gives: its code (0x100 more for a derivative) and its operands; the number is
brought below that of the values. -/
opaque ulps : Nat → List (BitVec 32) → Nat
/-- GELU_TANH, GELU_ERF and SILU at −∞, where their formulas have no value. -/
opaque actAtInf : Nat → BitVec 32

/-! ## Places the spec does not fix -/

/-- The set of a cache slice that a line belongs to, before it is brought below 2,048 (R278 fixes the slice, not the set). -/
opaque cacheSet : Nat → Nat
/-- A byte of the memory-map lines (R270): the switched fences as pseudo-channel and band, the DEAD pseudo-channels, the address. The spec gives the
lines no layout. -/
opaque mapByte : List (Nat × Nat) → List Nat → Nat → BitVec 8
/-- A value of a tile outside the rows and columns of a command, where nothing supplies it (R98, R130): the command, the core's memory as
(address, byte), the accumulators it starts from, the element. -/
opaque outside : List Nat → List (Nat × BitVec 8) → List (BitVec 32) → Nat → BitVec 32
/-- Blocks of a whole parameter group of a sharded job, where several numbers fit the local shard: registration record, group (log entry 133). -/
opaque groupBlocks : List (BitVec 8) → Nat → Nat
/-- Which of a pool's frames not yet listed comes next in its first free list, brought below their number: frames of the pool, frames listed so
far. -/
opaque grantOrder : Nat → Nat → Nat
/-- Which of several equal candidates the device takes where the spec says only that it takes one (a transaction slot, a pool channel, a
work slot): the use; it is brought below the number of candidates. -/
opaque pick : Nat → Nat
/-- The row of a land in 0.00.210: Table 22.2 gives the groups and their sizes, and no assignment of each land (R501). -/
opaque landRow : Nat → BitVec 32
/-- Bytes of the save area whose layout Table 16.3 does not state, by use and offset. -/
opaque headerByte : Nat → Nat → BitVec 8

/-- A byte of a flash sector whose content is undefined (R510): the use, and the address. -/
opaque flashByte : Nat → Nat → BitVec 8

/-! ## Audio (R353): the parts computed by fixed algorithms -/

/-- Tap of the resampler: Lr, Mr, phase, tap. -/
opaque sincTap : Nat → Nat → Nat → Nat → BitVec 32
/-- How many samples the 64 taps of an output reach back from its position: R353 does not place them. -/
opaque tapDelay : Nat
/-- The periodic Hann window: length, index. -/
opaque hann : Nat → Nat → BitVec 32
/-- The power spectrum of a frame of n_fft windowed samples, bins 0 to n_fft / 2. -/
opaque power : List (BitVec 32) → List (BitVec 32)
/-- The mel bands of a power spectrum: n_mels, f_min, f_max, sample rate, n_fft. -/
opaque melBands : Nat → BitVec 32 → BitVec 32 → Nat → Nat → List (BitVec 32) → List (BitVec 32)

/-! ## Media (15): what the codecs' own standards define -/

/-- The bitstream of an encoded frame: the configuration, the frames and repeat frames encoded before it (newest first), the frame's
bytes, key frame or not, its blocks and vectors (R370, R371). -/
opaque encode : Bytes → List Bytes → Bytes → Bool → List (List Int) → Bytes
/-- The picture that the codec reconstructs of the newest of the frames encoded so far: 2-byte samples, plane by plane. -/
opaque recon : Bytes → List Bytes → Bytes
/-- The predicted blocks of a superblock: reference, position, size. -/
opaque blocks : Bytes → List Bytes → Bytes → Nat → Nat → List (Nat × Nat × Nat × Nat × Nat)
/-- Which of the candidate vectors a search step chooses, brought below their number: the frame and the block, the candidates. -/
opaque bestVector : List Nat → List (Int × Int) → Nat
/-- The bitstream of a repeat frame (R372). -/
opaque repeatFrame : Bytes → List Bytes → Bytes

end Sys2Proof.Config
end

