-- ==== Sys2Proof/Machine/Types/Obj.lean ====
section
/-! DEFINITION. The data of the object dictionary (02_object_dictionary.md): types and access codes (Tables 2.4 and 2.5), status
codes (Table 2.12), object descriptors, values, channels, items, requests and answers. -/

namespace Sys2Proof.Machine

/-- The types of R39, Table 2.4. -/
inductive Ty where
  | u8 | u16 | u32 | u64 | i8 | i16 | i32 | i64 | bool | f32 | enum8 | bits32 | bits64 | str | blob | table
deriving DecidableEq, Repr

/-- The access codes of R41, Table 2.5. -/
inductive Acc where
  | ro | rw | wo | rws | rwc | adm
deriving DecidableEq, Repr

/-- Where a default comes from (R8; the byte default_source of Table 2.10). -/
inductive DefSrc where
  | fuse | image | reset
deriving DecidableEq, Repr

/-- What the Meaning column of an object table allows as a value (check 9 of R50). -/
inductive Rng where
  /-- every value of the type -/
  | any
  /-- from lo to hi, as raw unsigned values -/
  | iv (lo hi : Nat)
  /-- one of the listed values -/
  | oneOf (l : List Nat)
  /-- a bit field: bits outside the mask are reserved, and a 1 written there is ignored (R39) -/
  | mask (m : Nat)
  /-- a range that depends on other objects or is no interval; written out in the check of R50 -/
  | special
deriving DecidableEq, Repr

/-- The value of an object: a scalar as its raw bit pattern, or bytes for STR, BLOB and TABLE. -/
inductive Val where
  | num (n : Nat)
  | bytes (b : Bytes)
deriving DecidableEq, Repr

/-- The character bytes of an ASCII string. -/
def strBytes (x : String) : Bytes := x.toList.map fun c => BitVec.ofNat 8 c.toNat

/-- One row of an object table. The object stands at `nodes` nodes from `node0`, at `banks` object numbers from `obj0`,
with `elems` elements each. -/
structure ObjDesc where
  area : Nat
  node0 : Nat
  nodes : Nat
  obj0 : Nat
  banks : Nat
  elems : Nat
  name : String
  ty : Ty
  acc : Acc
  src : DefSrc
  dflt : Val
  rng : Rng
  i3c : Bool
  subs : Bool
deriving DecidableEq, Repr

/-- The status codes of Table 2.12. -/
inductive Status where
  | ok | noObject | noElement | access | type | range | state | held | busy | domainOff | auth | conflict | aborted
  | limit | frozen | malformed | timeout | uncorrected | length
deriving DecidableEq, Repr

/-- A channel of R42: a management session by its slot, the PCIe host channel, or an in-band peer context. -/
inductive Chan where
  | session (n : Fin 16)
  | pcie
  | peer (n : Fin 4096)
deriving DecidableEq, Repr

/-- Whose command a command timeout ends (R483): a host queue's, or a request of a Foreri channel, HELLO's being none. -/
inductive Issuer where
  | queue (q : Fin 64)
  | foreri (ch : Option Chan)
deriving DecidableEq, Repr

/-- An item (R49): object id, type code, value. The value length is the length of the value. -/
structure Item where
  oid : BitVec 32
  ty : Byte
  value : Bytes
deriving DecidableEq, Repr

/-- A request as the engine receives it, op by op of Table 2.9. -/
inductive Req where
  | read (oid : BitVec 32)
  | write (inTxn : Bool) (i : Item)
  | readMulti (ids : List (BitVec 32))
  | writeMulti (inTxn : Bool) (items : List Item)
  | describe (oid : BitVec 32)
  | txnBegin
  | txnCommit
  | txnAbort
  | subscribe (oid : BitVec 32) (mode : Byte) (periodMs minIntervalMs : BitVec 16)
  | unsubscribe (num : Byte)
  | hello (role : Byte) (keyId nonce ek : Bytes)
  | auth (sig tag : Bytes)
  | close
deriving DecidableEq, Repr

/-- An answer: the fields of the response header that the rules fix, and the body (R45, R49). -/
structure Resp where
  op : Nat
  status : Status
  itemIndex : Nat := 0xFFFF
  detail : Nat := 0
  body : Bytes := []
  replay : Bool := false
  evicted : Bool := false
deriving DecidableEq, Repr

end Sys2Proof.Machine
end

