-- ==== Sys2Proof/Machine/Operands.lean ====
section
/-! DEFINITION. Operand forms: byte orders, byte slices, bit fields, two's complement, and the encoded object id (R36). -/

namespace Sys2Proof.Machine

/-- The n low bytes of a number, most significant first (R39). -/
def beBytes : Nat → Nat → Bytes
  | 0, _ => []
  | n + 1, v => BitVec.ofNat 8 (v / 256 ^ n) :: beBytes n v

/-- The number of a big-endian byte string. -/
def beNat (b : Bytes) : Nat := b.foldl (fun a x => a * 256 + x.toNat) 0

/-- The n low bytes of a number, least significant first (R71). -/
def leBytes : Nat → Nat → Bytes
  | 0, _ => []
  | n + 1, v => BitVec.ofNat 8 v :: leBytes n (v / 256)

/-- The number of a little-endian byte string. -/
def leNat : Bytes → Nat
  | [] => 0
  | x :: r => x.toNat + 256 * leNat r

/-- Bytes off to off + len - 1. -/
def slice (b : Bytes) (off len : Nat) : Bytes := (b.drop off).take len

/-- Brings a byte string to n bytes: cut, or filled with zeros. -/
def padTo (n : Nat) (b : Bytes) : Bytes := (b ++ List.replicate n 0).take n

/-- A big-endian field of a byte string. -/
def beAt (b : Bytes) (off len : Nat) : Nat := beNat (slice b off len)

/-- A little-endian field of a byte string. -/
def leAt (b : Bytes) (off len : Nat) : Nat := leNat (slice b off len)

/-- Bits [hi:lo] of a number. -/
def bits (v hi lo : Nat) : Nat := v / 2 ^ lo % 2 ^ (hi + 1 - lo)

/-- Bit i of a number. -/
def bit (v i : Nat) : Bool := v / 2 ^ i % 2 == 1

/-- A number with bit i set. -/
def setBit (v i : Nat) : Nat := if bit v i then v else v + 2 ^ i

/-- A number with bit i clear. -/
def clrBit (v i : Nat) : Nat := if bit v i then v - 2 ^ i else v

/-- The number of a list of bits, bit 0 first. -/
def ofBits : List Bool → Nat
  | [] => 0
  | b :: r => b.toNat + 2 * ofBits r

/-- The w-bit two's complement value of a raw number. -/
def toSigned (w v : Nat) : Int := if v < 2 ^ (w - 1) then (v : Int) else (v : Int) - 2 ^ w

/-- The raw w-bit number of a two's complement value. -/
def ofSigned (w : Nat) (v : Int) : Nat := (v % (2 ^ w : Int)).toNat

/-- The encoded object id (R36, Table 2.1). -/
def oidOf (area node obj elem : Nat) : Nat := area * 0x10000000 + node * 0x100000 + obj * 0x100 + elem

def oidArea (o : Nat) : Nat := o / 0x10000000 % 16
def oidNode (o : Nat) : Nat := o / 0x100000 % 256
def oidObj (o : Nat) : Nat := o / 0x100 % 4096
def oidElem (o : Nat) : Nat := o % 256

/-- A multiple of d. -/
def aligned (v d : Nat) : Bool := v % d == 0

/-- A power of two between lo and hi. -/
def isPow2In (v lo hi : Nat) : Bool := lo ≤ v && v ≤ hi && v == 2 ^ Nat.log2 v

/-- Uptime counts of a number of microseconds, and of milliseconds (25 MHz, R13). -/
def us (n : Nat) : Nat := 25 * n
def ms (n : Nat) : Nat := 25000 * n

/-- Splits a list into pieces of n. -/
def chunks {α : Type} : Nat → Nat → List α → List (List α)
  | _, 0, _ => []
  | n, f + 1, l => if l.isEmpty then [] else l.take n :: chunks n f (l.drop n)

end Sys2Proof.Machine
end

