-- ==== Sys2Proof/Machine/Num.lean ====
section
/-! DEFINITION. Number formats and exact arithmetic (03_number_formats.md): the element formats of Table 3.1, decoding, the one rounding
of R76, saturation (R70), and IEEE binary32 operations with one RNE rounding (R82, R135). -/

namespace Sys2Proof.Machine

/-- A binary32 value as its bits. -/
abbrev F32 := BitVec 32

/-- A value: NaN, an infinity, or a signed dyadic number m × 2^e. -/
inductive Fp where
  | nan
  | inf (neg : Bool)
  | fin (neg : Bool) (m : Nat) (e : Int)
deriving DecidableEq, Repr

/-- A row of Table 3.1: width, significand bits, exponent of the smallest step, magnitude code of maxf, codes of infinity and NaN,
integer format or not, emax. -/
structure Fmt where
  w : Nat
  p : Nat
  qmin : Int
  maxCode : Nat
  infCode : Option Nat
  nanCode : Option Nat
  isInt : Bool
  emax : Int
deriving DecidableEq, Repr

/-- IEEE binary32. -/
def fmt32 : Fmt := ⟨32, 24, -149, 0x7F7FFFFF, some 0x7F800000, some 0x7FC00000, false, 127⟩
/-- BF16. -/
def fmtBf16 : Fmt := ⟨16, 8, -133, 0x7F7F, some 0x7F80, some 0x7FC0, false, 127⟩

/-- The formats by code (R68, Table 3.1). -/
def fmtOf : Nat → Option Fmt
  | 0 => some fmt32
  | 1 => some fmtBf16
  | 2 => some ⟨16, 11, -24, 0x7BFF, some 0x7C00, some 0x7E00, false, 15⟩
  | 3 => some ⟨8, 4, -9, 0x7E, none, some 0x7F, false, 8⟩
  | 4 => some ⟨8, 3, -16, 0x7B, some 0x7C, some 0x7E, false, 15⟩
  | 5 => some ⟨6, 3, -4, 0x1F, none, none, false, 4⟩
  | 6 => some ⟨6, 4, -3, 0x1F, none, none, false, 2⟩
  | 7 => some ⟨4, 2, -1, 0x7, none, none, false, 2⟩
  | 8 => some ⟨8, 7, -6, 127, none, none, true, 0⟩
  | 9 => some ⟨8, 7, 0, 127, none, none, true, 6⟩
  | 10 => some ⟨4, 3, 0, 7, none, none, true, 2⟩
  | _ => none

/-- Is it a code of Table 3.1? -/
def fmtOk (f : Nat) : Bool := (fmtOf f).isSome

/-- The format of a code that a check has accepted. -/
def fmt! (f : Nat) : Fmt := (fmtOf f).getD fmt32

/-- Bits of an element. -/
def fmtBits (f : Nat) : Nat := (fmt! f).w

/-- Block shape (rows, columns) of a block mode (R73, Table 3.3). -/
def blockShape : Nat → Nat × Nat
  | 1 => (1, 16)
  | 2 => (1, 32)
  | 3 => (1, 64)
  | 4 => (1, 128)
  | 5 => (4, 4)
  | 6 => (8, 8)
  | _ => (1, 1)

/-- 1-D and 2-D block modes. -/
def is1D (b : Nat) : Bool := 1 ≤ b && b ≤ 4
def is2D (b : Nat) : Bool := b == 5 || b == 6

/-- May a format carry a block mode (R73, R75, Table 3.1)? -/
def pairOk (f b : Nat) : Bool :=
  fmtOk f && b ≤ 6 && (if f ≤ 2 then b == 0 else if f ≤ 4 then true else b != 0)

/-- Decodes an element's bits (R68, R69). -/
def Fmt.decode (f : Fmt) (raw : Nat) : Fp :=
  if f.isInt then
    let v := toSigned f.w (raw % 2 ^ f.w)
    .fin (decide (v < 0)) v.natAbs f.qmin
  else
    let neg := bit raw (f.w - 1)
    let mag := raw % 2 ^ (f.w - 1)
    let half := 2 ^ (f.p - 1)
    if f.infCode == some mag then .inf neg
    else if (match f.infCode with | some i => decide (i < mag) | none => f.nanCode == some mag) then .nan
    else if mag < half then .fin neg mag f.qmin
    else .fin neg (mag % half + half) (f.qmin + (mag / half : Nat) - 1)

/-- Brings m × 2^e to a multiple of 2^q with q the step of the format at that magnitude, rounded in the given mode (R76). -/
def roundMag (p : Nat) (qmin : Int) (rtz : Bool) (m : Nat) (e : Int) : Nat × Int :=
  let q := if m = 0 then qmin else max ((Nat.log2 m : Int) + e - ((p : Int) - 1)) qmin
  if m = 0 then (0, q)
  else if q ≤ e then (m * 2 ^ (e - q).toNat, q)
  else
    let d := 2 ^ (q - e).toNat
    let r := m % d
    let k := m / d
    let up := !rtz && (d < 2 * r || (2 * r == d && k % 2 == 1))
    (if up then k + 1 else k, q)

/-- The magnitude code of a rounded value, as if the format had no largest exponent. -/
def Fmt.magCode (f : Fmt) (rtz : Bool) (m : Nat) (e : Int) : Nat :=
  let r := roundMag f.p f.qmin rtz m e
  r.1 + (r.2 - f.qmin).toNat * 2 ^ (f.p - 1)

/-- Puts sign and magnitude code together. -/
def Fmt.signed (f : Fmt) (neg : Bool) (c : Nat) : Nat :=
  if f.isInt then (if neg then (2 ^ f.w - c) % 2 ^ f.w else c) else if neg then c + 2 ^ (f.w - 1) else c

/-- One narrowing conversion (R69, R70, R76): the element's bits, and whether it saturated. -/
def Fmt.narrow (f : Fmt) (rtz : Bool) : Fp → Nat × Bool
  | .nan => (f.nanCode.getD 0, false)
  | .inf neg => match f.infCode with
    | some i => (f.signed neg i, false)
    | none => (f.signed neg f.maxCode, true)
  | .fin neg m e =>
    let c := f.magCode rtz m e
    if f.maxCode < c then (f.signed neg f.maxCode, true) else (f.signed neg c, false)

/-- The value of a binary32. -/
def F32.fp (x : F32) : Fp := fmt32.decode x.toNat

/-- Rounds once to binary32 with RNE; overflow gives an infinity (R83). -/
def toF32 : Fp → F32
  | .nan => 0x7FC00000
  | .inf neg => if neg then 0xFF800000 else 0x7F800000
  | .fin neg m e =>
    let c := fmt32.magCode false m e
    BitVec.ofNat 32 (fmt32.signed neg (if 0x7F7FFFFF < c then 0x7F800000 else c))

/-- A value times 2^k, exactly. -/
def Fp.scale (x : Fp) (k : Int) : Fp :=
  match x with
  | .fin n m e => .fin n m (e + k)
  | y => y

def Fp.neg : Fp → Fp
  | .nan => .nan
  | .inf n => .inf !n
  | .fin n m e => .fin (!n) m e

def Fp.isNan : Fp → Bool
  | .nan => true
  | _ => false

/-- Finite. -/
def Fp.finite : Fp → Bool
  | .fin _ _ _ => true
  | _ => false

/-- A signed integer times a power of two. -/
def signedM (n : Bool) (m : Nat) : Int := if n then -(m : Int) else (m : Int)

/-- Exact sum. An exact zero is +0 unless both addends are negative zeros. -/
def Fp.add : Fp → Fp → Fp
  | .nan, _ => .nan
  | _, .nan => .nan
  | .inf a, .inf b => if a = b then .inf a else .nan
  | .inf a, _ => .inf a
  | _, .inf b => .inf b
  | .fin n₁ m₁ e₁, .fin n₂ m₂ e₂ =>
    let e := min e₁ e₂
    let v := signedM n₁ (m₁ * 2 ^ (e₁ - e).toNat) + signedM n₂ (m₂ * 2 ^ (e₂ - e).toNat)
    if v = 0 then .fin (n₁ && n₂) 0 e else .fin (decide (v < 0)) v.natAbs e

/-- Exact product. -/
def Fp.mul : Fp → Fp → Fp
  | .nan, _ => .nan
  | _, .nan => .nan
  | .inf a, .inf b => .inf (a != b)
  | .inf a, .fin b m _ => if m = 0 then .nan else .inf (a != b)
  | .fin a m _, .inf b => if m = 0 then .nan else .inf (a != b)
  | .fin n₁ m₁ e₁, .fin n₂ m₂ e₂ => .fin (n₁ != n₂) (m₁ * m₂) (e₁ + e₂)

/-- A quotient to more bits than binary32 holds, with a sticky last bit, so that one later rounding is correct. -/
def Fp.div : Fp → Fp → Fp
  | .nan, _ => .nan
  | _, .nan => .nan
  | .inf _, .inf _ => .nan
  | .inf a, .fin b _ _ => .inf (a != b)
  | .fin a _ _, .inf b => .fin (a != b) 0 0
  | .fin n₁ m₁ e₁, .fin n₂ m₂ e₂ =>
    if m₂ = 0 then (if m₁ = 0 then .nan else .inf (n₁ != n₂))
    else
      let k := 29 + Nat.log2 m₂
      let q := m₁ * 2 ^ k / m₂
      let r := m₁ * 2 ^ k % m₂
      .fin (n₁ != n₂) (2 * q + (if r = 0 then 0 else 1)) (e₁ - e₂ - k - 1)

/-- The integer square root by bits. -/
def isqrt (n : Nat) : Nat → Nat → Nat
  | 0, r => r
  | b + 1, r => if (r + 2 ^ b) * (r + 2 ^ b) ≤ n then isqrt n b (r + 2 ^ b) else isqrt n b r

/-- A square root to more bits than binary32 holds, with a sticky last bit. -/
def Fp.sqrt : Fp → Fp
  | .nan => .nan
  | .inf n => if n then .nan else .inf false
  | .fin n m e =>
    if m = 0 then .fin n 0 0
    else if n then .nan
    else
      let k : Int := if (e - 60) % 2 = 0 then 60 else 61
      let v := m * 2 ^ k.toNat
      let r := isqrt v (Nat.log2 v / 2 + 1) 0
      .fin false (2 * r + (if r * r = v then 0 else 1)) ((e - k) / 2 - 1)

/-- a < b, for values that are not NaN. -/
def Fp.lt : Fp → Fp → Bool
  | .nan, _ => false
  | _, .nan => false
  | .inf a, .inf b => a && !b
  | .inf a, _ => a
  | _, .inf b => !b
  | .fin n₁ m₁ e₁, .fin n₂ m₂ e₂ =>
    let e := min e₁ e₂
    decide (signedM n₁ (m₁ * 2 ^ (e₁ - e).toNat) < signedM n₂ (m₂ * 2 ^ (e₂ - e).toNat))

/-- The exact exponent of the magnitude of a non-zero finite value (R78). -/
def floorLog2 (m : Nat) (e : Int) : Int := (Nat.log2 m : Int) + e

/-! ## Binary32 operations, each rounding once with RNE -/

def f32One : F32 := 0x3F800000
def f32NegInf : F32 := 0xFF800000
def f32PosInf : F32 := 0x7F800000
def f32Nan : F32 := 0x7FC00000

def fadd (a b : F32) : F32 := toF32 (a.fp.add b.fp)
def fsub (a b : F32) : F32 := toF32 (a.fp.add b.fp.neg)
def fmul (a b : F32) : F32 := toF32 (a.fp.mul b.fp)
def fdiv (a b : F32) : F32 := toF32 (a.fp.div b.fp)
def fsqrt (a : F32) : F32 := toF32 a.fp.sqrt
/-- a × b + c, rounded once. -/
def ffma (a b c : F32) : F32 := toF32 ((a.fp.mul b.fp).add c.fp)
def fneg (a : F32) : F32 := if a.fp.isNan then f32Nan else a ^^^ 0x80000000
def fabs (a : F32) : F32 := if a.fp.isNan then f32Nan else a &&& 0x7FFFFFFF
def flt (a b : F32) : Bool := a.fp.lt b.fp

/-- MAX of Table 5.6: NaN if either is NaN, +0 over −0. -/
def fmax (a b : F32) : F32 :=
  if a.fp.isNan || b.fp.isNan then f32Nan else if flt a b then b else if flt b a then a
  else if a == 0x80000000 then b else a

/-- MIN of Table 5.6: NaN if either is NaN, −0 under +0. -/
def fmin (a b : F32) : F32 :=
  if a.fp.isNan || b.fp.isNan then f32Nan else if flt b a then b else if flt a b then a
  else if b == 0x80000000 then b else a

/-- A non-negative integer in binary32, rounded once. -/
def fofNat (n : Nat) : F32 := toF32 (.fin false n 0)

/-- Every NaN result is the canonical one (R69). -/
def canon (a : F32) : F32 := if a.fp.isNan then f32Nan else a

/-! ## Piecewise cubics (R113) -/

/-- A table: its segments (b, c0, c1, c2, c3). -/
abbrev Poly := List (F32 × F32 × F32 × F32 × F32)

/-- Reads a table from its bytes; none where R113 refuses it. -/
def polyOf (hdr : Nat) (seg : Nat → Nat → F32) : Option Poly :=
  if hdr = 0 || 32 < hdr then none
  else
    let l : Poly := (List.range hdr).map fun i => (seg i 0, seg i 1, seg i 2, seg i 3, seg i 4)
    let bs := l.map fun t => t.1
    if bs.all (fun b => b.fp.finite) && (bs.zip bs.tail).all (fun p => flt p.1 p.2) then some l else none

/-- The value of a table at x (R113): the segments' c0 at the infinities, three fused steps elsewhere. -/
def polyEval (t : Poly) (x : F32) : F32 :=
  match x.fp with
  | .nan => f32Nan
  | .inf n => match (if n then t.head? else t.getLast?) with
    | some g => canon g.2.1
    | none => 0
  | .fin _ _ _ =>
    let g := match (t.filter fun g => !flt x g.1).getLast? with
      | some g => g
      | none => (t.head?).getD (0, 0, 0, 0, 0)
    let d := fsub x g.1
    ffma (ffma (ffma g.2.2.2.2 d g.2.2.2.1) d g.2.2.1) d g.2.1

/-! ## Facet (R78 to R81) -/

/-- An encoded block: scale code, elements' bits with their saturation, and what Facet counts (R80). -/
structure Blk where
  scale : Nat
  codes : List (Nat × Bool)
  low : Bool := false
  high : Bool := false
  nanBlk : Bool := false
deriving DecidableEq, Repr

/-- The magnitude that enters amax: an infinity counts only where the format cannot hold it. -/
def amaxOf (f : Fmt) (x : F32) : Nat × Int :=
  match x.fp with
  | .fin _ m e => (m, e)
  | .inf _ => if f.infCode.isSome then (0, 0) else (0xFFFFFF, 104)
  | .nan => (0, 0)

/-- The larger of two magnitudes. -/
def magMax (a b : Nat × Int) : Nat × Int := if Fp.lt (.fin false a.1 a.2) (.fin false b.1 b.2) then b else a

/-- encode_block of R78. -/
def encodeBlock (f : Fmt) (rtz : Bool) (xs : List F32) : Blk :=
  if xs.any (fun x => x.fp.isNan) then { scale := 0xFF, codes := xs.map fun _ => (0, false), nanBlk := true }
  else
    let a := xs.foldl (fun a x => magMax a (amaxOf f x)) ((0, 0) : Nat × Int)
    let e₀ : Int := if a.1 = 0 then -127 else
      let e := floorLog2 a.1 a.2 - f.emax
      if f.maxCode < f.magCode rtz a.1 (a.2 - e) then e + 1 else e
    let e : Int := max (-127) (min 127 e₀)
    { scale := (e + 127).toNat, codes := xs.map fun x => f.narrow rtz (x.fp.scale (-e)),
      low := decide (e₀ < -127), high := decide (127 < e₀) }

/-- Decodes an element under a scale code (R72, R84): one RNE rounding to binary32. -/
def decodeElem (f : Fmt) (scale : Option Nat) (raw : Nat) : Fp :=
  match scale with
  | none => f.decode raw
  | some b => if b = 0xFF then .nan else (f.decode raw).scale ((b : Int) - 127)

/-! ## Packing (R71) -/

/-- Bytes of a row of n elements of w bits. -/
def rowBytes (w n : Nat) : Nat := (n * w + 7) / 8

/-- The bits of element i of a row that is packed little-endian. -/
def packAt (w : Nat) (row : Bytes) (i : Nat) : Nat := leNat (slice row (i * w / 8) ((i * w % 8 + w + 7) / 8)) / 2 ^ (i * w % 8) % 2 ^ w

/-- Packs elements of w bits into a row; padding bits are 0. -/
def packRow (w : Nat) (l : List Nat) : Bytes :=
  leBytes (rowBytes w l.length) (l.foldr (fun x a => x % 2 ^ w + 2 ^ w * a) 0)

end Sys2Proof.Machine
end

