-- ==== Sys2Proof/Machine/Types/Compute.lean ====
section
/-! DEFINITION. The state of the compute plane: Loupe rows (03), cores with their arrays, queues and DMA channels (04), vector engines
(05), and clusters with their window, Cameo and halo units (06). Every type is plain data. -/

namespace Sys2Proof.Machine

/-- A 64 × 64 tile, row-major; a missing tail reads as +0. -/
abbrev Tile := List F32

/-! ## Loupe (R89 to R93) -/

/-- An entry of a Loupe bank (Table 3.5): job slot, tensor, exponent of bin 31, largest magnitude, counts, bins. -/
structure LoupeRow where
  job : Nat
  tensor : Nat
  histTop : Int := 0
  maxMag : F32 := 0
  zeros : Nat := 0
  sats : Nat := 0
  nonfin : Nat := 0
  elements : Nat := 0
  bins : List Nat := List.replicate 32 0
deriving DecidableEq, Repr

/-- The two banks of Loupe, and the job slots whose present step is counted (8.00.010 takes effect at a boundary). -/
structure Loupe where
  live : List LoupeRow := []
  frozen : List LoupeRow := []
  muted : List Nat := []
deriving DecidableEq, Repr

/-! ## Core (R96 to R126) -/

/-- A stream descriptor (Table 4.5). -/
structure Stream where
  base : Nat := 0
  scaleBase : Nat := 0
  fmt : Nat := 0
  block : Nat := 0
  transpose : Bool := false
  r0Pitch : Nat := 0
  r1Pitch : Nat := 0
  r0Count : Nat := 0
  sr0 : Nat := 0
  sr1 : Nat := 0
  numeric : Nat := 0
deriving DecidableEq, Repr

/-- An MMA command (Table 4.4) with its piecewise table, read once at issue (R113). -/
structure Mma where
  mRows : Nat
  nCols : Nat
  k : Nat
  acc : Nat
  fn : Nat
  dest : Nat
  polyBase : Nat
  a : Stream
  b : Stream
  x : Stream
  out : Stream
  poly : Poly := []
deriving DecidableEq, Repr

/-- An accumulator bank: free, held by a command with dest 2 (R107), or finished and waiting for its drain (with its command), or
draining. -/
inductive BankState where
  | free | held | full | draining
deriving DecidableEq, Repr

/-- An accumulator bank. -/
structure Bank where
  st : BankState := .free
  tile : Tile := []
  cmd : Option Mma := none
deriving DecidableEq, Repr

/-- An entry of the finished-tile queue (R114, R115): claimed at the start of its drain, filled at its end. -/
structure QEntry where
  filled : Bool := false
  cmd : Mma
  tile : Tile := []
deriving DecidableEq, Repr

/-- A stage word (Table 5.3). -/
structure Stage where
  op : Nat
  selA : Nat
  idxA : Nat
  selB : Nat
  idxB : Nat
  axis : Bool
  acc : Bool
  red : Nat
  imm : Nat
deriving DecidableEq, Repr

/-- A VECTOR command (R132) with the piecewise tables of its POLY stages, read at issue. -/
structure VCmd where
  src : Nat
  srcReg : Nat
  rows : Nat
  cols : Nat
  stages : List Stage
  keepReg : Nat
  keep : Bool
  store : Bool
  aux : Bool
  causal : Bool
  segment : Bool
  rowBase : Nat
  colBase : Nat
  sSrc : Stream
  sAux : Stream
  sOut : Stream
  causalOffset : Int
  rowSeg : Nat
  colSeg : Nat
  kh : Nat
  kw : Nat
  sx : Nat
  dy : Nat
  dx : Nat
  cpg : Nat
  fresh : Bool
  tapBase : Nat
  polys : List Poly := []
deriving DecidableEq, Repr

/-- A line of a vector register: p, q, count. -/
structure VLine where
  p : F32 := 0
  q : F32 := 0
  count : Nat := 0
deriving DecidableEq, Repr

/-- A vector register (Table 5.1): its kind (0 none, else the code of the reduction), its lines and its empty word. -/
structure VReg where
  kind : Nat := 0
  lines : List VLine := []
  empty : Nat := 0
deriving DecidableEq, Repr

/-- A row span of the window buffer (R144): its tag and the decoded source bytes. -/
structure Span where
  addr : Nat
  fmt : Nat
  pitch : Nat
  len : Nat
  data : Bytes
deriving DecidableEq, Repr

/-- The state of a core's sequencer (R99). -/
inductive SeqState where
  | idle | run | fence | waitDma (ch : Nat) (n : Nat) | stopped
deriving DecidableEq, Repr

/-- A DMA channel (R122): queued descriptors, the start of the one that runs, halted or not (R126). State and counts are objects. -/
structure DmaCh where
  queue : List Bytes := []
  active : Option Nat := none
  halted : Bool := false
deriving DecidableEq, Repr

/-- A part of a query tile split under R179: job, lengths entry, tile, part, number of parts. -/
structure PartId where
  job : Nat
  entry : Nat
  tile : Nat
  part : Nat
  parts : Nat
deriving DecidableEq, Repr

/-- An entry of a core's gate queue (R171): job, list address, conditions (channel, slot, need READY); the entry of the schedule, or the part of a
split tile, that ends with its list. -/
structure Gate where
  job : Nat
  list : Nat
  conds : List (Nat × Nat × Bool)
  entry : Option Nat := none
  item : Option PartId := none
deriving DecidableEq, Repr

/-- A core (Table 4.1, Table 5.1). -/
structure CoreSt where
  seq : SeqState := .idle
  pc : Nat := 0
  entry : Option Nat := none
  item : Option PartId := none
  arrayQ : List Mma := []
  arrayAt : Nat := 0
  banks : List Bank := [{}, {}]
  queue : List QEntry := []
  vq : List VCmd := []
  vrun : Option Nat := none
  vstop : Bool := false
  tregs : Tbl Tile := []
  tflags : Tbl Nat := []
  vregs : Tbl VReg := []
  spans : List Span := []
  taps : Option (Nat × List F32) := none
  dma : Tbl DmaCh := []
  gates : List Gate := []
  began : Bool := false
deriving DecidableEq, Repr

/-! ## Cluster units (R150 to R175) -/

/-- A map descriptor (Table 6.2). -/
structure MapD where
  base : Nat
  scaleBase : Nat
  fmt : Nat
  block : Nat
  height : Nat
  width : Nat
  channels : Nat
  rowPitch : Nat
  numeric : Nat
deriving DecidableEq, Repr

/-- A window command (Table 6.3). -/
structure WinCmd where
  op : Nat
  kh : Nat
  kw : Nat
  sh : Nat
  sw : Nat
  padT : Nat
  padL : Nat
  padB : Nat
  padR : Nat
  countPad : Bool
  job : Nat
  rowFirst : Nat
  rowCount : Nat
  indexBase : Nat
  inM : MapD
  outM : MapD
deriving DecidableEq, Repr

/-- A Cameo command (Table 6.4). -/
structure CameoCmd where
  mode : Nat
  kh : Nat
  kw : Nat
  sh : Nat
  sw : Nat
  padT : Nat
  padL : Nat
  padB : Nat
  padR : Nat
  coFirst : Nat
  coCount : Nat
  job : Nat
  rowFirst : Nat
  rowCount : Nat
  weightBase : Nat
  bias : Bool
  biasBase : Nat
  a : MapD
  b : MapD
deriving DecidableEq, Repr

/-- The state of a halo token (Table 6.5). -/
inductive Token where
  | home | toConsumer | ready | toProducer
deriving DecidableEq, Repr

/-- A halo channel at its producer end (R168): the job, the consumer's cluster and channel, the two tokens, and how many tokens still travel
in front of an audit's marker and of its reply (R307). -/
structure HaloCh where
  job : Nat
  cons : Nat
  consCh : Nat
  t0 : Token := .home
  t1 : Token := .home
  ahead : Nat := 0
  behind : Nat := 0
deriving DecidableEq, Repr

/-- A partition of a cluster's memory (R154). -/
structure Part where
  job : Nat
  base : Nat
  size : Nat
deriving DecidableEq, Repr

/-- A command port of a cluster unit (R155). -/
inductive CluUnit where
  | window | cameo | halo
deriving DecidableEq, Repr

/-- A write to a command port: the port, the job, the bytes. -/
structure PortCmd where
  unit : CluUnit
  job : Nat
  data : Bytes
deriving DecidableEq, Repr

/-- A cluster's units: the queues of the window unit and of Cameo with the start of the running command, the halo channels it is the producer of,
the writes that hold its control core, oldest first, and the tokens it has sent that still travel, oldest first: producer's cluster and channel,
slot. -/
structure ClusterSt where
  winQ : List WinCmd := []
  winAt : Nat := 0
  camQ : List CameoCmd := []
  camAt : Nat := 0
  halo : Tbl HaloCh := []
  port : List PortCmd := []
  flying : List (Nat × Nat × Nat) := []
deriving DecidableEq, Repr

/-- The units of a core or cluster whose commands are bounded: the array, the vector engine, DMA channels, window unit, Cameo. -/
inductive RunUnit where
  | array (c : Fin 32) (k : Fin 16)
  | vector (c : Fin 32) (k : Fin 16)
  | dma (c : Fin 32) (k : Fin 16) (ch : Fin 4)
  | window (c : Fin 32)
  | cameo (c : Fin 32)
deriving DecidableEq, Repr

/-- An error met in a word of a memory: its byte address, and whether it is a double-bit error. -/
abbrev EccHit := BitVec 25 × Bool

/-- What a control core starts at the end of a walk: the final list of a core's walk or, with the address of a merge list, that list on the core
that ran part 0 of a split tile (R179). No field of a record names the merge list (log entry 143). -/
structure FinalStart where
  core : Fin 16
  merge : Option (BitVec 22) := none
deriving DecidableEq, Repr

end Sys2Proof.Machine
end

