-- ==== Sys2Proof/Machine/Types/Net.lean ====
section
/-! DEFINITION. The state of ports, contexts and plans (13), of the input pipeline (14) and of the media complexes (15) that is not held in
objects, and the operands of their commands. Every type is plain data. -/

namespace Sys2Proof.Machine

/-! ## Brodlu (R320 to R338) -/

/-- A Brodlu packet (Table 13.3) with its payload. -/
structure Packet where
  version : Nat := 1
  type : Nat
  first : Bool := false
  last : Bool := false
  ackReq : Bool := false
  retx : Bool := false
  gen : Nat := 0
  dst : Nat := 0
  src : Nat := 0
  payLen : Nat := 0
  seq : Nat := 0
  ack : Nat := 0
  sack : Nat := 0
  credit : Nat := 0
  ceEcho : Bool := false
  op : Nat := 0
  payload : Bytes := []
deriving DecidableEq, Repr

/-- A packet sent and not acknowledged: its buffers, the event its timer runs from, timeouts expired, whether the peer has shown it
received, whether it was resent fast, and the time from which it is due to be sent again. -/
structure Unacked where
  pkt : Packet
  bufs : Nat := 0
  timerAt : Nat
  tries : Nat := 0
  sacked : Bool := false
  fast : Bool := false
  retryAt : Option Nat := none
deriving DecidableEq, Repr

/-- A received packet accepted and not yet passed by ack: whether it has been applied, and the buffers it holds. -/
structure RxPkt where
  pkt : Packet
  applied : Bool := false
  bufs : Nat := 0
deriving DecidableEq, Repr

/-- A peer context (R321 to R330). Configuration, windows, state and counts are objects. -/
structure Ctx where
  gen : Nat := 0
  peerGen : Option Nat := none
  answered : Bool := false
  openedAt : Nat := 0
  lastSync : Nat := 0
  closedAt : Option Nat := none
  closing : Bool := false
  txSeq : Nat := 0
  unacked : List Unacked := []
  queue : List Packet := []
  peerLimit : Nat := 0
  sentLimit : Nat := 0
  rxAck : Nat := 0
  rx : List RxPkt := []
  accepted : Nat := 0
  ackDue : Option Nat := none
  msg : Bytes := []
  msgNo : Nat := 0
  dictIn : List Bytes := []
  consumed : Nat := 0
  ce : Bool := false
  echoed : Bool := false
  nextSend : Nat := 0
  nakAt : Tbl Nat := []
  plan : Option Nat := none
  pool : Option Nat := none
deriving DecidableEq, Repr

/-! ## Ports (R312 to R319, R331) -/

/-- A received packet that has passed the frame checks and waits for its row: the frame's buffers, where it came from, CE. -/
structure RxIn where
  pkt : Packet
  bufs : Nat
  mac : Nat
  ip : Bytes
  udpSrc : Nat
  ce : Bool
deriving DecidableEq, Repr

/-- A frame kept for replay (R319): its link sequence and its bytes, FCS apart. -/
structure LinkFrame where
  seq : Nat
  data : Bytes
deriving DecidableEq, Repr

/-- A received frame as the MAC delivers it: FCS and, on a native port, the start block; addresses, tags, EtherType, and what follows. -/
structure RxFrame where
  fcsGood : Bool
  startGood : Bool
  control : Bool
  linkSeq : BitVec 16
  size : BitVec 16
  dst : BitVec 48
  src : BitVec 48
  tags : List (BitVec 16)
  etherType : BitVec 16
  payload : Bytes
deriving DecidableEq, Repr

/-- A port, by its first lane: its link-receive channel, the packets received,
the frames that wait to leave, the native link's sequences, replay buffer and episode, PFC
and the send arbiter. -/
structure Port where
  pool : Nat := 0
  rxq : List RxIn := []
  outq : List Bytes := []
  txSeq : Nat := 0
  replay : List LinkFrame := []
  rxNext : Nat := 0
  unacked : Bool := false
  ackAt : Nat := 0
  episode : Option Nat := none
  resync : Bool := false
  paused : Tbl Nat := []
  xoff : Bool := false
  xoffAt : Nat := 0
  nakAt : Option Nat := none
  lastLc : Nat := 4095
  lastBe : Nat := 4095
  held : List RxFrame := []
deriving DecidableEq, Repr

/-- What a started plan step waits for: the acknowledgement of a sequence number, a message count, or nothing more. -/
inductive PlanWait where
  | acked (ctx seq : Nat) | count (ctx n : Nat) | nothing
deriving DecidableEq, Repr

/-- A running or waiting plan (R333 to R336): the entry it serves, its steps, how many started, which completed, and what each started
step waits for. -/
structure PlanRun where
  id : Nat
  job : Nat
  number : Nat
  entry : Option Nat
  gather : Bool := false
  steps : List Bytes
  running : Bool := false
  started : Nat := 0
  done : List Nat := []
  waits : List (Nat × PlanWait) := []
  status : Nat := 0
deriving DecidableEq, Repr

/-! ## Input pipeline (R340 to R359) -/

/-- The stages of a record in the pipeline. -/
inductive SampStage where
  | receiving | waitSlot | queued | decoding | ready | failed
deriving DecidableEq, Repr

/-- A rectangle of a picture in luma pixels; of audio, positions x to x + w − 1 of the sample. -/
structure Area where
  x : Nat
  y : Nat
  w : Nat
  h : Nat
deriving DecidableEq, Repr

/-- A damaged unit that a decoder detects (R375): picture or audio frame, error, the byte of the payload at which it was found, the resynchronisation
point that the syntax of HEVC or AV1 offers next, and the blocks from the first one of the unit up to where decoding resumes. -/
structure Found where
  frame : Nat
  error : Nat
  at_ : Nat
  next : Nat
  areas : List Area
deriving DecidableEq, Repr

/-- A damaged picture or frame as the log shows it (R377): frame, error, resynchronisation, concealed area, area. -/
structure Damage where
  frame : Nat
  error : Nat
  resync : Nat
  concealed : Nat
  area : Nat
deriving DecidableEq, Repr

/-- What a decoder finds in a record (R346, R363, R364, R376): the pictures or samples it delivers, and their description. It enters as
an operand: the decode processes are outside standards. Samples stand frame by frame, plane by plane, row by row. -/
structure Decoded where
  unsupported : Bool
  width : Nat
  height : Nat
  frames : Nat
  samples : Nat
  channels : Nat
  rate : Nat
  depth : Nat
  float : Bool
  /-- planes: 3 for YCbCr or RGB, 1 for greyscale -/
  planes : Nat
  /-- chroma subsampling of planes 1 and 2 -/
  subX : Nat
  subY : Nat
  /-- 0 RGB, else the signalled matrix code of Table 14.1; 0 beside ycbcr = true means not signalled -/
  ycbcr : Bool
  matrix : Nat
  data : List Nat
  /-- JPEG: progressive, and with restart intervals -/
  progressive : Bool := false
  restarts : Bool := false
  /-- AV1: the film grain of each sample, as that standard synthesises it -/
  grain : List Int := []
  damage : List Found
deriving DecidableEq, Repr

/-- A record that has consumed its sequence number (R343). -/
structure Sample where
  seq : Nat
  hdr : Bytes
  body : Bytes := []
  bufs : Nat := 0
  ended : Bool := false
  stage : SampStage := .receiving
  status : Nat := 0
  engine : Option Nat := none
  dispatchedAt : Nat := 0
  deadline : Option Nat := none
  waitSince : Nat := 0
  slot : Option Nat := none
  tokens : Nat := 0
  data : List F32 := []
  ids : List Nat := []
  concealed : Nat := 0
  wo : Nat := 0
  ho : Nat := 0
  frames : Nat := 0
  aborted : Bool := false
  ticket : Nat := 0
deriving DecidableEq, Repr

/-- A lengths-table entry of a Strand with its tokens' values and the work slot it holds until the Strand is written (R354, R356). -/
structure StrandEntry where
  seq : Nat
  first : Nat
  tokens : Nat
  status : Nat
  flags : Nat
  wo : Nat
  ho : Nat
  frames : Nat
  concealed : Nat
  data : List F32
  ids : List Nat
  slot : Option Nat := none
deriving DecidableEq, Repr

/-- A Strand being packed or closed and not yet written. -/
structure Strand where
  number : Nat
  entries : List StrandEntry := []
  used : Nat := 0
  firstAt : Nat := 0
  flags : Nat := 0
  waitFrom : Option Nat := none
deriving DecidableEq, Repr

/-- A packet of a record handed to a stream's IN channel: its place in the message, its bytes, its buffers, and how many of them still wait
to be handed over (R302). -/
structure Piece where
  first : Bool
  last : Bool
  data : Bytes
  bufs : Nat
  need : Nat := 0
deriving DecidableEq, Repr

/-- A sample stream (R340). Configuration, state and counts are objects. -/
structure StreamSt where
  pool : Nat := 0
  ctx : Nat := 0
  inq : List Piece := []
  records : List Sample := []
  discarding : Bool := false
  openStrand : Option Strand := none
  closed : List Strand := []
  nextStrand : Nat := 0
  completed : Nat := 0
  mean : Nat := 0
  flushAt : Option Nat := none
  closing : Bool := false
  lastTail : Nat := 0
deriving DecidableEq, Repr

/-! ## Media complexes (R361 to R374) -/

/-- What an engine works on: a sample, or a frame of an encode stream; with the start, its class, and the BE job it has put aside. -/
structure EngineJob where
  stream : Nat
  seq : Nat
  live : Bool
  start : Nat
deriving DecidableEq, Repr

/-- A motion window (R371): the superblock it stands at, and by plane (Y, Cb, Cr) its columns, each from the top. -/
structure MotionWin where
  cx : Nat
  cy : Nat
  planes : List (List (List Nat))
deriving DecidableEq, Repr

/-- An engine (R365), with the motion windows of an encoder, one for each reference frame. -/
structure Engine where
  now : Option EngineJob := none
  aside : Option EngineJob := none
  windows : List MotionWin := []
deriving DecidableEq, Repr

/-- A frame of an encode stream that has arrived (R369, R372): its slot's flags and content once read, and, once encoded, key frame, late, repeat
frame, and the time of completion. -/
structure EncFrame where
  number : Nat
  arrivedAt : Nat
  data : Bytes := []
  flags : Nat := 0
  key : Bool := false
  late : Bool := false
  rep : Bool := false
  doneAt : Nat := 0
deriving DecidableEq, Repr

/-- An encode stream (R367): the arrived frames not yet taken, the frame an encoder works on, an encoded frame not yet emitted, the frames read
so far, and since when the stream waits for output room or for source frames. Configuration, state and counts are objects. -/
structure EncSt where
  frames : List EncFrame := []
  head : Nat := 0
  arrived : Nat := 0
  encoding : Option EncFrame := none
  outHead : Nat := 0
  lastTail : Nat := 0
  keyDue : Bool := false
  closing : Bool := false
  history : List Bytes := []
  ready : Option (EncFrame × Bytes) := none
  outWait : Option Nat := none
  srcWait : Option Nat := none
  seen : Nat := 0
deriving DecidableEq, Repr

/-- A row of a complex's reject log (6.(30+m).020). -/
structure Reject where
  time : Nat
  stream : Nat
  status : Nat
  stage : Nat
  seq : Nat
  detail : Nat
deriving DecidableEq, Repr

/-- A row of a damage log (Table 15.6). -/
structure DamageRow where
  time : Nat
  stream : Nat
  seq : Nat
  codec : Nat
  d : Damage
deriving DecidableEq, Repr

/-- A row of the violation log (5.00.020). -/
structure Violation where
  time : Nat
  addr : Bytes
  ctx : Nat
  src : Nat
  lane : Nat
  code : Nat
  seq : Nat
deriving DecidableEq, Repr

/-- Ports, contexts, plans, streams, engines and their logs; the order of samples in the queues, the decode jobs of each kind summed over
time in the present period with the time of the last change, the start of the period (R359), and the BE encode stream served last (R372). -/
structure Net where
  ports : Tbl Port := []
  rcAt : Nat := 0
  ctxs : Tbl Ctx := []
  plans : List PlanRun := []
  nextPlan : Nat := 0
  violations : List Violation := []
  streams : Tbl StreamSt := []
  encs : Tbl EncSt := []
  engines : Tbl Engine := []
  rejects : Tbl (List Reject) := []
  damage : Tbl (List DamageRow) := []
  tickets : Nat := 0
  occ : Tbl (List Nat × Nat) := []
  splitAt : Tbl Nat := []
  lastEnc : Tbl Nat := []
deriving DecidableEq, Repr

end Sys2Proof.Machine
end

