-- ==== Sys2Proof/Machine/Types/Control.lean ====
section
/-! DEFINITION. The state of the control plane that is not held in dictionary objects: crossings (01), the Foreri engine (02), the
host port (17), power and clocks (18), start-up (19), errors and Assay (20), Signet (21) and the board pins (22), and the
operands of their commands. Every type is plain data. -/

namespace Sys2Proof.Machine

/-! ## Crossings (R28, R29) -/

/-- A flit of a crossing (R28, R294): its class (REQ, RSP, WR, CTL), its hop set on a ring edge, the master it serves, its bytes, and the counts
of credits returned so far that it carries for the queues of the other direction. -/
structure Flit where
  cls : Nat
  hop : Nat
  master : Nat
  data : Bytes
  rets : List Nat := []
deriving DecidableEq, Repr

/-- One direction of a crossing: items presented and not delivered, oldest first, and the items that stand in the destination queue. -/
structure Crossing where
  fifo : List Flit := []
  delivered : List Flit := []
deriving DecidableEq, Repr

/-- What happens at a crossing (R28, R294, R295, R298): the source presents a flit; the head of a queue is delivered with the link error it meets
(0 none, 1 corrected, 2 uncorrected payload, 3 uncorrected header); the receiver frees an entry, with the bytes of the response that a REQ or WR
produces; a diagonal flit goes on to the second edge of its route; an idle flit carries credits. -/
inductive XOp where
  | present (cls : Fin 4) (hop : Fin 2) (master : BitVec 16) (data : Bytes)
  | deliver (cls : Fin 4) (hop : Fin 2) (err : Fin 4)
  | free (cls : Fin 4) (hop : Fin 2) (rsp : Bytes)
  | forward (cls : Fin 4)
  | idle
deriving DecidableEq, Repr

/-! ## Foreri engine (R42 to R66) -/

/-- A stored answer of the duplicate window (R53): kept whole, discarded as too large a store, or of an id that was executed
and whose answer is kept. -/
inductive Stored where
  | kept (r : Resp)
  | discarded (op : Nat) (st : Status)
deriving DecidableEq, Repr

/-- A subscription (R65). -/
structure Sub where
  num : Nat
  oid : Nat
  periodic : Bool
  periodMs : Nat
  minMs : Nat
  lastSent : Option Nat
  lastVal : Val
  start : Nat
deriving DecidableEq, Repr

/-- A message being reassembled (R47): the header fields that every segment repeats, the arrival of the first segment, and
the segments present. -/
structure Reasm where
  op : Nat
  rid : Nat
  bodyLen : Nat
  segCount : Nat
  sid : Nat
  firstAt : Nat
  segs : Tbl Bytes
  tag : Bytes
  flags : Nat
deriving DecidableEq, Repr

/-- A request passed to the engine and not yet answered (R44): when it arrived, the request slot it came by (R406), and the slots by which
duplicates of it came, that are held until it completes (R54); once it has been reported E_TIMEOUT it still waits to be executed (R485). -/
structure Waiting where
  ch : Option Chan
  rid : Nat
  req : Req
  since : Nat
  via : Option Nat := none
  held : List (Option Nat) := []
  timedOut : Bool := false
deriving DecidableEq, Repr

/-- A staged item of a dictionary transaction (R62), with the write sequence the object had when it was staged. -/
structure Staged where
  item : Item
  seqAt : Nat
deriving DecidableEq, Repr

/-- A dictionary transaction (R62): staged items in staging order and the time of its last request. -/
structure DictTxn where
  staged : List Staged := []
  lastReq : Nat
deriving DecidableEq, Repr

/-- What the engine keeps per channel: the highest id accepted, the ids executed with their stored answers (newest first), the
subscriptions, the next notification number, the messages in reassembly, the report stored for the channel (R493), its open dictionary
transaction (R62), and whether its last one aborted before it was committed (R64). -/
structure ChanState where
  h : Option Nat := none
  done : List (Nat × Stored) := []
  subs : List Sub := []
  notifySeq : Nat := 1
  reasm : List Reasm := []
  report : Option Bytes := none
  txn : Option DictTxn := none
  txnLost : Bool := false
deriving DecidableEq, Repr

/-- The states of a management session slot (R56). -/
inductive SessPhase where
  | free | pending | isOpen
deriving DecidableEq, Repr

/-- A management session slot (R56 to R59). The object views of a slot are F.00.020 to F.00.023. -/
structure Session where
  phase : SessPhase := .free
  sid : Nat := 0
  role : Nat := 0xFF
  keySlot : Nat := 0xFF
  nonce : Bytes := []
  helloHash : Bytes := []
  key : Bytes := []
  since : Nat := 0
  lastReq : Nat := 0
deriving DecidableEq, Repr

/-- A stored HELLO response (R57). -/
structure HelloStore where
  nonce : Bytes
  slot : Option Nat
  sentAt : Nat
  resp : Resp
deriving DecidableEq, Repr

/-- The state of the Foreri engine. -/
structure Foreri where
  sessions : Tbl Session := []
  chans : Tbl ChanState := []
  hellos : List HelloStore := []
  engine : List Waiting := []
  nextSid : Nat := 1
  pcieAdmin : Bool := false
  pcieHello : Option (Bytes × Nat × Nat) := none
  owners : List (Nat × Nat × Nat) := []
  writeSeq : Tbl Nat := []
  imageSet : List Nat := []
deriving DecidableEq, Repr

/-! ## Errors, Assay and frozen masters (20) -/

/-- An error record (Table 20.2). -/
structure ErrRec where
  time : Nat
  seq : Nat
  cls : Nat
  unit : Nat
  node : Nat
  elem : Nat
  master : Nat
  status : Nat
  result : Nat
  addr : Nat
  cause : Nat
deriving DecidableEq, Repr

/-- An event to be recorded (R471): the fields of its record but the time and the sequence. -/
structure Ev where
  cls : Nat
  unit : Nat := 0
  node : Nat := 0
  elem : Nat := 0
  master : Nat := 0xFFFF
  status : Nat := 0
  result : Nat := 0
  addr : Nat := 0
  cause : Nat := 0
deriving DecidableEq, Repr

/-- A limited source of records (R472): class, unit, node, element; time of the last record and events not recorded since. -/
structure ErrSrc where
  cls : Nat
  unit : Nat
  node : Nat
  elem : Nat
  last : Nat
  missed : Nat
deriving DecidableEq, Repr

/-- A row of A.00.031. -/
structure FrozenRow where
  master : Nat
  seq : Nat
  time : Nat
deriving DecidableEq, Repr

/-- A requested or running test (R477, R478). -/
structure AssayReq where
  die : Nat
  unit : Nat
  node : Nat
  elem : Nat
  addr : Nat
  cause : Nat
deriving DecidableEq, Repr

/-- A test that passed (R477, R479). -/
structure AssayPass where
  unit : Nat
  node : Nat
  elem : Nat
  time : Nat
deriving DecidableEq, Repr

/-- A physical core slot's condition (Table 1.11 status). -/
inductive SlotStatus where
  | inService | spare | retired | fusedOff
deriving DecidableEq, Repr

/-- The mapping of a cluster's logical cores to physical slots (R17, R458, R480): the slots of logical cores 0, 1, … in order,
whether slot 16 is good and unused, the status of each slot, and whether the cluster is fused off or withdrawn. -/
structure ClusterMap where
  slots : List Nat := [0, 1, 2, 3, 4, 5, 6, 7, 8, 9, 10, 11, 12, 13, 14, 15]
  spareFree : Bool := true
  status : List SlotStatus := List.replicate 16 .inService ++ [.spare]
  off : Bool := false
deriving DecidableEq, Repr

/-- The state of the error recorder, of Assay and of retirement. -/
structure Errors where
  log : List ErrRec := []
  seq : Nat := 0
  srcs : List ErrSrc := []
  fatalStop : Bool := false
  island1Stop : Bool := false
  faultN : Bool := false
  frozen : List FrozenRow := []
  pending : List AssayReq := []
  running : Tbl AssayReq := []
  passes : List AssayPass := []
  burns : List Nat := []
  unburned : List Nat := []
  maps : Tbl ClusterMap := []
  waysRetired : List (Nat × Nat) := []
deriving DecidableEq, Repr

/-! ## Host port (17) -/

/-- An MSI-X table entry. The mask bit is set at reset. -/
structure Msix where
  addr : Nat := 0
  data : Nat := 0
  masked : Bool := true
deriving DecidableEq, Repr

/-- The state of a Foreri request slot (R406). -/
inductive SlotState where
  | idle | busy | ready
deriving DecidableEq, Repr

/-- A Foreri request slot: its state, the message or answer it holds, and the control word's length. -/
structure ReqSlot where
  st : SlotState := .idle
  msg : Bytes := []
  resp : Option Resp := none
  rid : Nat := 0
deriving DecidableEq, Repr

/-- A fetched command of a host queue that has not completed (R409), with its entry (Table 17.5): when it was fetched and started, the time its timer
spent paused (R484), whether it has been reported timed out (R414), and whether a reset of the port discarded its completion (R403). -/
structure HostCmd where
  id : Nat
  opcode : Nat
  fence : Bool
  args : Bytes
  fetched : Nat := 0
  started : Option Nat := none
  paused : Nat := 0
  hold : Option Nat := none
  timedOut : Bool := false
  gone : Bool := false
deriving DecidableEq, Repr

/-- What goes wrong with host memory (R402): the read of a queue's entries or of a TXN_WRITE's data fails, or a poisoned write arrives for BAR0. -/
inductive HostFault where
  | entries | data | poisonedWrite
deriving DecidableEq, Repr

/-- A completion (Table 17.6) without its phase and sq_head, which are set when it is posted. -/
structure Compl where
  id : Nat
  status : Status
  detail : Nat := 0
  result : Nat := 0
  event : Bool := false
  replay : Bool := false
deriving DecidableEq, Repr

/-- A host queue (R408 to R412). Its state, statistics and configuration are objects B.7F.010 to B.7F.019. -/
structure HostQueue where
  sqHead : Nat := 0
  sqTail : Nat := 0
  cqHead : Nat := 0
  cqTail : Nat := 0
  phase : Bool := true
  cmds : List HostCmd := []
  posting : List Compl := []
  h : Option Nat := none
  done : List (Nat × Option Compl) := []
  dups : List Nat := []
deriving DecidableEq, Repr

/-- A private mailbox channel (R416, R417). -/
structure Mailbox where
  word : Nat := 0
  full : Bool := false
  lastTag : Option Nat := none
  overrun : Bool := false
deriving DecidableEq, Repr

/-- A shared mailbox (R418). -/
structure SharedBox where
  word : Nat := 0
  full : Bool := false
  collision : Bool := false
  writer : Nat := 0
deriving DecidableEq, Repr

/-- A doorbell: status and mask (R419). -/
structure Doorbell where
  status : Nat := 0
  mask : Nat := 0
deriving DecidableEq, Repr

/-- The state of the host port, the mailboxes and the doorbells; the queue that had the last fetch turn of each priority. -/
structure HostPort where
  cause : Nat := 0
  causeMask : Nat := 0
  notifyHead : Nat := 0
  notifyTail : Nat := 0
  msix : Tbl Msix := []
  pba : List Nat := []
  slots : Tbl ReqSlot := []
  queues : Tbl HostQueue := []
  fetchLast : Tbl Nat := []
  boxes : Tbl Mailbox := []
  shared : Tbl SharedBox := []
  bells : Tbl Doorbell := []
  perstN : Bool := false
  termination : Bool := false
  training : Bool := false
  firstConfigDone : Bool := false
deriving DecidableEq, Repr

/-! ## Power and clocks (18) -/

/-- A move of a compute domain's operating point (R433). -/
structure OpMove where
  src : Nat
  dst : Nat
  start : Nat
  lockDone : Bool := false
  rampStart : Option Nat := none
  rampDone : Bool := false
deriving DecidableEq, Repr

/-- The present point of a compute domain, its PLL in use, its assist codes (w, n) and the move in progress. -/
structure OpState where
  point : Nat := 7
  pllB : Bool := false
  w : Nat := 0
  n : Nat := 3
  move : Option OpMove := none
  pendingChange : Bool := false
deriving DecidableEq, Repr

/-- The transitions of the power state in progress (Tables 18.7 and 18.8). -/
inductive Transition where
  | none
  | entering (target : Nat)
  | exiting (target : Nat)
deriving DecidableEq, Repr

/-- The state of power, clocks and wake logic that is not held in objects. -/
structure Power where
  waitOn : Tbl (List Nat) := []
  ops : Tbl OpState := []
  gated : List Nat := []
  idleSince : Tbl Nat := []
  sensors : Tbl Int := []
  belowSince : Tbl Nat := []
  beHold : List Nat := []
  trip : Bool := false
  below95 : Nat := 0
  trans : Transition := .none
  pendingWakes : List Nat := []
  wakeHeld : Bool := false
  recorded : List Nat := []
  autoSince : Nat := 0
  locket : Tbl (List (Nat × Val)) := []
  timerArmed : Bool := false
  wakeNDriven : Bool := false
  ainArmed : Bool := true
  retention : Bool := false
  selfRefresh : Bool := false
  lanesIdle : Bool := false
deriving DecidableEq, Repr

/-! ## Start-up (19) -/

/-- A warm-reset request accepted and not yet begun (R468). -/
structure ResetReq where
  kind : Nat
  nonce : Nat
  at_ : Nat
deriving DecidableEq, Repr

/-- A domain whose switch ends, and, where the save or restore of its Locket region met an uncorrected error, the byte offset of the error (R447). -/
structure Switched where
  dom : Fin 24
  bad : Option (BitVec 16) := none
deriving DecidableEq, Repr

/-- An operation of the configuration flash in progress (R467). -/
inductive FlashOp where
  | program (offset : Nat) (data : Bytes)
  | erase (sector : Nat)
deriving DecidableEq, Repr

/-- The configuration flash: its bytes, where an unlisted one reads 0xFF, and the sectors of 65,536 bytes whose content is undefined since
a reset met an operation in their slot, each with the use that their free bytes stand for (R510). -/
structure Flash where
  bytes : Tbl Byte := []
  undef : Tbl Nat := []
deriving DecidableEq, Repr

/-- How the I3C controller assigns the dynamic address (R511). -/
inductive I3cAssign where
  | entdaa (a : BitVec 7)
  | setdasa (a : BitVec 7)
deriving DecidableEq, Repr

/-- The address that an assignment gives. -/
def I3cAssign.addr : I3cAssign → BitVec 7
  | .entdaa a | .setdasa a => a

/-- What the SFDP table of the flash shows: its size in bytes, and whether it has an xSPI Profile 1.0 table (R510). -/
structure FlashId where
  bytes : BitVec 32
  profile : Bool
deriving DecidableEq, Repr

/-- What FUSE_LOAD reads in one word (R457). -/
structure FuseWord where
  value : BitVec 32
  corrected : Bool
  uncorrectable : Bool
deriving DecidableEq, Repr

/-- The state of start-up that is not held in objects. -/
structure Startup where
  powered : Bool := false
  sysRstLow : Bool := false
  powerOn : Bool := false
  fuses : Tbl Nat := []
  image : Bytes := []
  times : List (Nat × Nat) := []
  holding : Bool := false
  toSafe : Bool := false
  warmHbm : Bool := false
  slotsLeft : List Nat := []
  flashRead : Bytes := []
  resetReq : Option ResetReq := none
  dflts : Tbl Val := []
  flashOp : Option FlashOp := none
  termPins : Bool := false
deriving DecidableEq, Repr

/-! ## Signet and debug (21) -/

/-- The state of Signet that is not held in objects. -/
structure Signet where
  healthyRun : Nat := 0
  halted : List Nat := []
  freshChallenge : Nat := 0
  rollbackBits : Nat := 0
deriving DecidableEq, Repr

/-! ## Board pins (22) -/

/-- A rail's recent readings, newest first (at most eleven), and whether it is good (R504, R505). -/
structure Rail where
  hist : List Nat := []
  good : Bool := false
deriving DecidableEq, Repr

/-- What the retention latch of a GPIO holds (R517): the level it drove, if any, and whether D0 drives it as the rail enable. -/
structure PadLatch where
  drive : Option Bool
  rail : Bool
deriving DecidableEq, Repr

/-- The state of the pins and board interfaces that is not held in objects. -/
structure Board where
  rails : Tbl Rail := []
  pointer : Nat := 0x00010000
  ibiMask : Nat := 0
  lastIbi : Option Nat := none
  ibiSeenErr : Nat := 0
  ibiSeenState : Nat := 0
  dynAddr : Nat := 0
  gpioRetain : Option (List PadLatch) := none
  gpioPads : Nat := 0
  railEnable : Bool := true
  scanHeld : Bool := false
  thermTripN : Bool := false
deriving DecidableEq, Repr

/-- What the device has put out on its interfaces, newest first in the state: answers, notifications, interrupts, writes to
host memory, packets and frames. -/
inductive Out where
  /-- the answer to a command that comes as a row of its own -/
  | reply (st : Status) (detail : Nat)
  /-- the payload of a UDP datagram of the management port (R46) -/
  | mgmt (data : Bytes)
  /-- an MSI-X message of a vector -/
  | msix (vec addr data : Nat)
  /-- a write of host memory by the device -/
  | hostWrite (addr : Nat) (data : Bytes)
  /-- a completion entry posted to a host queue: queue, index, completion, sq_head, phase -/
  | completion (q idx : Nat) (c : Compl) (sqHead : Nat) (phase : Bool)
  /-- the answer to a PCIe configuration request: true is successful, false is retry status -/
  | config (ok : Bool)
  /-- the answer to a host read through a BAR: none is Completer Abort -/
  | hostRead (data : Option Bytes)
  /-- bytes returned to an I3C read, before the fill of 0xFF -/
  | i3c (data : Bytes)
  /-- an in-band interrupt with its payload -/
  | ibi (mask : Nat)
  /-- data shifted out of the TAP for an instruction -/
  | tap (code : Nat) (reg : Nat)
  /-- an interrupt of a receiver other than the host (R419) -/
  | localIrq (receiver : Nat)
  /-- the data a memory access returns to its master, with its status -/
  | data (master : Nat) (st : Status) (bytes : Bytes)
  /-- a frame sent on a port: the native start block (R318), empty on an Ethernet port, and the bytes from destination address on, FCS apart -/
  | frame (lane : Nat) (start data : Bytes)
  /-- the completion event of a core's command list, to the control core of its cluster: cluster and logical core (R155) -/
  | listEnded (c k : Nat)
deriving DecidableEq, Repr

end Sys2Proof.Machine
end

