-- ==== Sys2Proof/Machine/Types/Memory.lean ====
section
/-! DEFINITION. The state of the memory system: the memories, the map, fences and retraining (11), the memory-side caches (11), Clasp
(10), the staging pools and the ledgers (12). Every type is plain data. -/

namespace Sys2Proof.Machine

/-- A memory: the bytes that differ from what a byte that nothing has written reads as (zero, log entry 4), keys rising. -/
abbrev Memory := List Host.Cell

/-- A row of the segment table (Table 11.2). -/
structure Seg where
  base : Nat
  mode : Nat
  system : Bool
  pcFirst : Nat
  pcCount : Nat
  u0 : Nat
  height : Nat
deriving DecidableEq, Repr

/-- A fence (R287, R288): its pseudo-channel and band, the uptime at its entry to FENCING, the copy begun or not, and, once
switched, the uptime of the switch. -/
structure Fence where
  p : Nat
  band : Nat
  start : Nat
  copying : Bool := false
  lost : Nat := 0
  switched : Option Nat := none
  died : Bool := false
deriving DecidableEq, Repr

/-- A pseudo-channel made DEAD and when (row of 4.00.020). -/
structure DeadPc where
  p : Nat
  start : Nat
  lost : Nat := 0
deriving DecidableEq, Repr

/-- A line of a memory-side cache (R278): the line address, the valid and the dirty sectors. Its bytes stand in the memory itself,
since a line has never a second copy (R18). -/
structure CLine where
  line : Nat
  valid : Nat := 0
  dirty : Nat := 0
deriving DecidableEq, Repr

/-- The operations on one HBM location (R278, R281): types are 0 U32, 1 U64, 2 I32, 3 I64, 4 FP32, 5 BF16. -/
inductive MemOp where
  | read (len : Nat)
  | write (data : Bytes)
  | fetchAdd (wide : Bool) (v : Nat)
  | cas (wide : Bool) (cmp new : Nat)
  | fadd (ty : Nat) (vals : List Nat)
  | max (ty : Nat) (vals : List Nat)
  | min (ty : Nat) (vals : List Nat)
  | copy64 (src : Nat)
deriving DecidableEq, Repr

/-- An access that waits: for an unlock (Table 10.3), or for the reload of the map (R288). -/
structure Access where
  master : Nat
  addr : Nat
  op : MemOp
  since : Nat
  transactional : Option Nat := none
deriving DecidableEq, Repr

/-- The states of a Clasp slot (Table 10.6). -/
inductive TxnState where
  | opened | doomed | preparing | installing
deriving DecidableEq, Repr

/-- A participant's part in a commit (R251 to R254): not yet reached; its prepare waiting for the prepare engine, or for a lock, since a time;
voted yes, with its locks held; voted no with a reason; the yes vote has reached the coordinator; installed; the install is reported. -/
inductive PartState where
  | todo | queued (since : Nat) | waiting (since : Nat) | yes | no (reason : Nat) | counted | installed | reported
deriving DecidableEq, Repr

/-- A transaction (R240 to R259): the opening master, times, the tracked lines, the buffered bytes (address, byte), the reason it
ends with, the tracked lines written since they were read, and the participants in increasing die number. -/
structure Txn where
  master : Nat
  state : TxnState := .opened
  openedAt : Nat
  limit : Nat
  tracked : List Nat := []
  written : List Nat := []
  buf : Memory := []
  masks : List Nat := []
  reason : Nat := 0
  stale : List Nat := []
  parts : List (Nat × PartState) := []
deriving DecidableEq, Repr

/-- The abort status that a master has still to receive (R256). -/
structure AbortDue where
  master : Nat
  slot : Nat
  reason : Nat
deriving DecidableEq, Repr

/-- A record of an abort log (Table 10.7). -/
structure AbortRec where
  time : Nat
  master : Nat
  reason : Nat
  status : Nat
  parts : Nat
deriving DecidableEq, Repr

/-- A transactional region (Table 10.1). -/
structure Region where
  base : Nat
  size : Nat
  kind : Nat
  job : Nat
deriving DecidableEq, Repr

/-- A staging-pool channel (R300 to R304). Kind, reservation, cap, class, held, refusals and owner are objects; this holds the
urgent buffers it is charged, and the channels its waiting handoffs go to, in order. -/
structure PoolCh where
  urgent : Nat := 0
  handoffs : List Nat := []
deriving DecidableEq, Repr

/-- The state of a ledger (C.00.010). -/
inductive LedgerState where
  | normal | faulted | void
deriving DecidableEq, Repr

/-- The phases of an audit of a two-sided ledger (R307): the marker is on its way, or its reply. -/
inductive AuditPhase where
  | marker (sM : Nat) (start : Nat)
  | reply (sM rM fM : Nat) (start : Nat)
deriving DecidableEq, Repr

/-- A ledger: state, the counts of its last passed audit, its audit in progress, the uptime at which the next is due, the time of its last fault
row. -/
structure Ledger where
  state : LedgerState := .normal
  free : Nat := 0
  held : Nat := 0
  inFlight : Nat := 0
  audit : Option AuditPhase := none
  auditDue : Nat := 0
  lastRow : Option Nat := none
deriving DecidableEq, Repr

/-- A queue of flits or tokens with credits (R294, R307): sent and received flits, credits returned, credits received back, and since when the
sender waits for a credit. -/
structure Credit where
  sent : Nat := 0
  received : Nat := 0
  returned : Nat := 0
  back : Nat := 0
  since : Option Nat := none
deriving DecidableEq, Repr

/-- A row of the ledger-fault log (C.00.013). -/
structure LedgerFault where
  time : Nat
  id : Nat
  kind : Nat
  void : Bool
  total : Nat
  observed : Nat
deriving DecidableEq, Repr

/-- The memory system. A pseudo-channel with no training time or temperature of its own was last trained in TRAIN, at trainBase and its
stack's tempBase; hot lists the stacks that take requests at half rate (R438). A waiting retraining stands with its trigger's uptime;
deadDue lists the DEAD pseudo-channels whose switch transaction is still to come (R290); scrubbed gives, by pseudo-channel × 2^23 + granule,
when patrol scrub last read a granule; stalls gives, by master, since when a unit's access waits and at which die; sliceLast the master that
each cache slice served last (R30), cache the lines of a slice, by 16 × die + slice, most recently used first (R278), allocAt, by die, the
channel at which the pool's allocator begins (R303). Keys: hbm by the byte's place on the stacks before fences, clm by cluster × 25,165,824
+ address, cm by (16 × cluster + logical core) × 4,194,304 + address. -/
structure MemSys where
  hbm : Memory := []
  clm : Memory := []
  cm : Memory := []
  segs : List Seg := []
  fences : List Fence := []
  dead : List DeadPc := []
  deadDue : List Nat := []
  lostLines : List (Nat × Nat × Nat) := []
  waiting : List Access := []
  stalls : Tbl (Nat × Nat) := []
  sliceLast : Tbl Nat := []
  cache : Tbl (List CLine) := []
  retrainQ : Tbl (List (Nat × Nat)) := []
  retrainNow : Tbl (Nat × Nat) := []
  trainedAt : Tbl Nat := []
  trainedTemp : Tbl Int := []
  trainBase : Nat := 0
  tempBase : Tbl Int := []
  hot : List Nat := []
  scrubbed : Tbl Nat := []
  txns : Tbl Txn := []
  due : List AbortDue := []
  aborts : Tbl (List AbortRec) := []
  regions : List Region := []
  pool : Tbl PoolCh := []
  allocAt : Tbl Nat := []
  ledgers : Tbl Ledger := []
  credits : Tbl Credit := []
  ledgerLog : List LedgerFault := []
deriving DecidableEq, Repr

/-- Wrong symbols that a read meets in one codeword of a line: the codeword (0 to 7) and, for each wrong symbol, its number and the value
added to it. -/
structure SymErr where
  line : BitVec 33
  word : Fin 8
  errs : List (Fin 36 × BitVec 4)
deriving DecidableEq, Repr

/-- An operand of a command, and the symbol errors that the command's accesses to HBM meet. -/
structure Met (α : Type) where
  val : α
  errs : List SymErr := []
deriving DecidableEq, Repr

/-- A block of a sequence with its 64 token ids, 256 bytes little-endian. -/
structure KvBlock where
  index : BitVec 32
  tokens : Bytes
deriving DecidableEq, Repr

/-- The errors that a descriptor meets: in core memory, in cluster memory, in HBM. -/
structure DmaMet where
  core : List EccHit := []
  cluster : List EccHit := []
  hbm : List SymErr := []
deriving DecidableEq, Repr

/-- What a page command of the host meets: transaction by transaction, how many attempts other masters' commits abort; the token ids of the block
that it inserts; symbol errors. -/
structure PageMet where
  conflicts : List (BitVec 16) := []
  tokens : Bytes := []
  errs : List SymErr := []
deriving DecidableEq, Repr

end Sys2Proof.Machine
end

