-- ==== Sys2Proof/Syntax.lean ====
section
/-! DEFINITION. The commands of the device, one constructor for each row of the opcode table, in its order. Numbers of units are
Fin, fields of fixed width BitVec, data of variable length lists. What a command carries besides the unit it acts on is what reaches the
device with it: bytes, readings, errors met in memory, or a choice the spec leaves to the device. -/

namespace Sys2Proof
open Machine

inductive Instr where
  /-- CROSSING_DELIVERY (R28): An item presented to an asynchronous crossing is delivered to the destination island 2 to 4 cycles later, in
  order. -/
  | crossingDelivery (x : Fin 66) (dir : Fin 2) (op : XOp)
  /-- FORERI_SEGMENT (R47): A Foreri segment or whole message arrives on a channel and is reassembled, checked and passed to the engine. -/
  | foreriSegment (src : Option (Fin 4096)) (data : Bytes)
  /-- REASSEMBLY_TIMEOUT (R47): A message whose segments are not all present 50 ms after the first is discarded and counted. -/
  | reassemblyTimeout (ch : Chan) (rid : BitVec 32)
  /-- READ (R50): A Foreri READ returns one item after the read checks. -/
  | read (ch : Chan) (rid : BitVec 32) (oid : BitVec 32)
  /-- WRITE (R50): A Foreri WRITE checks one item in fixed order and writes or stages it. -/
  | write (ch : Chan) (rid : BitVec 32) (inTxn : Bool) (i : Item)
  /-- READ_MULTI (R51): A Foreri READ_MULTI returns a status and item for each listed object. -/
  | readMulti (ch : Chan) (rid : BitVec 32) (ids : List (BitVec 32))
  /-- WRITE_MULTI (R51): A Foreri WRITE_MULTI checks every item and then writes all in order or none. -/
  | writeMulti (ch : Chan) (rid : BitVec 32) (inTxn : Bool) (items : List Item)
  /-- DESCRIBE (R49): A Foreri DESCRIBE returns the descriptor of an object. -/
  | describe (ch : Chan) (rid : BitVec 32) (oid : BitVec 32)
  /-- TXN_BEGIN (R62): Opens the session's dictionary transaction. -/
  | txnBegin (ch : Chan) (rid : BitVec 32)
  /-- TXN_COMMIT (R63): Commits every staged item or none as a Clasp transaction. -/
  | txnCommit (ch : Chan) (rid : BitVec 32)
  /-- TXN_ABORT (R62): Discards the session's open dictionary transaction. -/
  | txnAbort (ch : Chan) (rid : BitVec 32)
  /-- SUBSCRIBE (R65): Creates an on-change or periodic subscription for the channel. -/
  | subscribe (ch : Chan) (rid : BitVec 32) (oid : BitVec 32) (mode : Byte) (periodMs : BitVec 16) (minMs : BitVec 16)
  /-- UNSUBSCRIBE (R65): Ends a subscription of the channel. -/
  | unsubscribe (ch : Chan) (rid : BitVec 32) (num : Byte)
  /-- NOTIFY_ON_CHANGE (R65): A subscribed object changes and, after the minimum interval, a NOTIFY with its latest value is sent. -/
  | notifyOnChange (ch : Chan) (num : Byte)
  /-- NOTIFY_PERIODIC (R65): A periodic subscription's period expires and a NOTIFY is sent. -/
  | notifyPeriodic (ch : Chan) (num : Byte)
  /-- HELLO (R56): Starts a management session handshake, taking a slot and answering with the signed HELLO response. -/
  | hello (pcie : Bool) (rid : BitVec 32) (role : Byte) (keyId : Bytes) (nonce : Bytes) (ek : Bytes)
  /-- AUTH (R56): Verifies the operator signature and tag and opens the session in the requested role. -/
  | auth (ch : Chan) (rid : BitVec 32) (sig : Bytes) (tag : Bytes)
  /-- AUTH_TIMEOUT (R56): No valid AUTH within 5,000 ms frees the pending slot. -/
  | authTimeout (n : Fin 16)
  /-- HELLO_STORE_EXPIRY (R57): A stored HELLO response is discarded 5,000 ms after it was sent. -/
  | helloStoreExpiry (nonce : Bytes)
  /-- CLOSE (R59): Ends a management session, or returns the PCIe host channel to operator rights. -/
  | close (ch : Chan) (rid : BitVec 32)
  /-- SESSION_IDLE_TIMEOUT (R59): A session with no valid request for F.00.010 seconds ends. -/
  | sessionIdleTimeout (n : Fin 16)
  /-- TXN_IDLE_TIMEOUT (R64): An open dictionary transaction idle for F.00.011 ms aborts. -/
  | txnIdleTimeout (ch : Chan)
  /-- REGISTER_WRITE (R50): A write to an object that has no row of its own is checked and applied. -/
  | registerWrite (ch : Chan) (i : Item)
  /-- MMA (R100): The sequencer issues a matrix command into the array command queue after its checks. -/
  | mma (c : Fin 32) (k : Fin 16)
  /-- ARRAY_COMPUTE_END (R98): The array finishes the K-steps of a command and its bank becomes ready to drain or held. -/
  | arrayComputeEnd (c : Fin 32) (k : Fin 16) (bankCycles : BitVec 32) (stall : BitVec 32) (hits : List EccHit)
  /-- DRAIN_START (R114): A finished bank claims a free finished-tile queue entry and starts draining. -/
  | drainStart (c : Fin 32) (k : Fin 16)
  /-- DRAIN_END (R110): A drain ends, placing the tile, optionally multiplied by f prime, in the queue and freeing the bank. -/
  | drainEnd (c : Fin 32) (k : Fin 16) (hits : List EccHit)
  /-- DIRECT_STORE_END (R108): The direct-store port finishes writing a queue entry through Facet and the entry leaves the queue. -/
  | directStoreEnd (c : Fin 32) (k : Fin 16) (hits : List EccHit)
  /-- FENCE (R99): The sequencer reaches FENCE and holds until earlier MMA and VECTOR commands are done. -/
  | fence (c : Fin 32) (k : Fin 16)
  /-- FENCE_RELEASE (R99): The fence condition is met and the sequencer resumes. -/
  | fenceRelease (c : Fin 32) (k : Fin 16)
  /-- DMA (R99): The sequencer queues a DMA descriptor on a channel. -/
  | dma (c : Fin 32) (k : Fin 16)
  /-- WAIT_DMA (R99): The sequencer holds until a channel's completion count reaches the argument. -/
  | waitDma (c : Fin 32) (k : Fin 16)
  /-- WAIT_DMA_RELEASE (R99): The completion count reaches the target and the sequencer resumes. -/
  | waitDmaRelease (c : Fin 32) (k : Fin 16)
  /-- VECTOR (R131): The sequencer issues a VECTOR command into the vector command queue. -/
  | vector (c : Fin 32) (k : Fin 16)
  /-- END (R155): A command list reaches END and the control core receives a completion event. -/
  | listEnd (c : Fin 32) (k : Fin 16)
  /-- DMA_COPY (R124): A DMA channel starts a copy descriptor after its checks. -/
  | dmaCopy (c : Fin 32) (k : Fin 16) (j : Fin 4)
  /-- DMA_CONVERT (R124): A DMA channel starts a convert descriptor through Facet after its checks. -/
  | dmaConvert (c : Fin 32) (k : Fin 16) (j : Fin 4)
  /-- DMA_FILL (R124): A DMA channel starts a fill descriptor after its checks. -/
  | dmaFill (c : Fin 32) (k : Fin 16) (j : Fin 4)
  /-- DMA_DESCRIPTOR_COMPLETE (R122): A descriptor completes, its writes become visible and the completion count rises. -/
  | dmaDescriptorComplete (c : Fin 32) (k : Fin 16) (j : Fin 4) (bad : Option (BitVec 32)) (met : DmaMet)
  /-- CMEM_SCRUB (R121): Patrol scrub reads core-memory lines within each scrub period. -/
  | cmemScrub (c : Fin 32) (k : Fin 16) (hits : List EccHit)
  /-- VECTOR_PASS_START (R130): The vector engine starts a pass once its source, such as the queue head, is available. -/
  | vectorPassStart (c : Fin 32) (k : Fin 16)
  /-- VECTOR_PASS_END (R136): A pass ends, committing its reductions, keep and stores and popping its queue entry. -/
  | vectorPassEnd (c : Fin 32) (k : Fin 16) (wait : BitVec 32) (overlap : BitVec 32) (row : Fin 64) (hits : List EccHit)
  /-- WINDOW_MAX (R159): The window unit runs a MAX pooling command. -/
  | windowMax (c : Fin 32) (b : Bytes)
  /-- WINDOW_AVG (R159): The window unit runs an AVG pooling command. -/
  | windowAvg (c : Fin 32) (b : Bytes)
  /-- WINDOW_MAX_IDX (R159): The window unit runs MAX pooling and records the chosen indices. -/
  | windowMaxIdx (c : Fin 32) (b : Bytes)
  /-- WINDOW_MAX_BWD (R160): The window unit adds dy to the dx elements named by the index array. -/
  | windowMaxBwd (c : Fin 32) (b : Bytes)
  /-- WINDOW_AVG_BWD (R160): The window unit adds dy divided by n to every real element of each window. -/
  | windowAvgBwd (c : Fin 32) (b : Bytes)
  /-- WINDOW_COMMAND_END (R162): A window command completes. -/
  | windowCommandEnd (c : Fin 32) (wait : BitVec 32) (bad : Option (BitVec 16)) (hits : List EccHit)
  /-- CAMEO_STEM (R164): Cameo runs a STEM direct convolution. -/
  | cameoStem (c : Fin 32) (b : Bytes)
  /-- CAMEO_HEAD (R164): Cameo runs a HEAD direct convolution. -/
  | cameoHead (c : Fin 32) (b : Bytes)
  /-- CAMEO_STEM_WGRAD (R164): Cameo adds the stem weight and bias gradients into FP32 weights. -/
  | cameoStemWgrad (c : Fin 32) (b : Bytes)
  /-- CAMEO_COMMAND_END (R166): A Cameo command completes. -/
  | cameoCommandEnd (c : Fin 32) (wait : BitVec 32) (bad : Option (BitVec 16)) (hits : List EccHit)
  /-- CLMEM_SCRUB (R153): Patrol scrub reads cluster-memory lines within each scrub period. -/
  | clmemScrub (c : Fin 32) (hits : List EccHit)
  /-- HALO_READY (R170): The producer sends a HOME token toward the consumer. -/
  | haloReady (c : Fin 32) (b : Bytes)
  /-- HALO_RETURN (R170): The consumer sends a READY token back to the producer. -/
  | haloReturn (c : Fin 32) (b : Bytes)
  /-- HALO_GATE (R171): A GATE entry enters a core's gate queue. -/
  | haloGate (c : Fin 32) (b : Bytes)
  /-- HALO_TOKEN_ARRIVAL (R170): A token in flight reaches its destination end and changes state. -/
  | haloTokenArrival (c : Fin 32) (h : Fin 64) (slot : Fin 2)
  /-- GATE_START (R171): The head gate entry starts its command list once the core is idle and every condition holds. -/
  | gateStart (c : Fin 32) (k : Fin 16) (waited : List (BitVec 32))
  /-- WALK_START (R184): A control core starts a work item's walk, pinning in the pool in paged mode. -/
  | walkStart (c : Fin 32) (b : Bytes)
  /-- WALK_PIN_DONE (R184): The pin atomic completes and the control core starts the init list. -/
  | walkPinDone (c : Fin 32) (k : Fin 16)
  /-- WALK_BLOCK_START (R184): The control core reads a page-table entry, emits the block's descriptor and starts its block program. -/
  | walkBlockStart (c : Fin 32) (k : Fin 16)
  /-- WALK_PIN_RELEASE (R184): The last descriptor completes and the control core releases its pin. -/
  | walkPinRelease (c : Fin 32) (k : Fin 16)
  /-- WALK_FINAL_START (R184): After the last block program ends, the control core starts the final list. -/
  | walkFinalStart (c : Fin 32) (k : FinalStart)
  /-- ALLOC (R189): Takes a free frame for page-table entry b. -/
  | alloc (c : Fin 32) (p : Fin 8) (pt : BitVec 64) (b : BitVec 32) (conflicts : Met (BitVec 16))
  /-- LOOKUP (R193): Looks up a block in the prefix tree and shares its frame on a confirmed hit. -/
  | lookup (c : Fin 32) (p : Fin 8) (pt : BitVec 64) (b : BitVec 32) (tokens : Bytes) (conflicts : Met (BitVec 16))
  /-- INSERT (R189): Creates a prefix-tree node for the frame of entry b. -/
  | insert (c : Fin 32) (p : Fin 8) (pt : BitVec 64) (b : KvBlock) (conflicts : Met (BitVec 16))
  /-- COW (R191): Copies a shared frame to a free frame before it is written. -/
  | cow (c : Fin 32) (p : Fin 8) (pt : BitVec 64) (b : Met (BitVec 32))
  /-- COW_COPY_END (R191): The frame copy completes and the COW transaction commits or aborts. -/
  | cowCopyEnd (i : BitVec 8)
  /-- FILL (R189): Sets the fill of a page-table entry. -/
  | fill (c : Fin 32) (p : Fin 8) (pt : BitVec 64) (b : BitVec 32) (n : BitVec 8) (conflicts : Met (BitVec 16))
  /-- PAGE_RELEASE (R192): Clears a sequence's valid entries from b upward in transactions of at most 256. -/
  | pageRelease (c : Fin 32) (p : Fin 8) (pt : BitVec 64) (b : BitVec 32) (conflicts : Met (List (BitVec 16)))
  /-- PRUNE (R189): Removes a childless prefix-tree node and its count. -/
  | prune (c : Fin 32) (p : Fin 8) (frame : BitVec 24) (conflicts : Met (BitVec 16))
  /-- GATHER (R206): A GATHER entry starts its collective plan into a gather buffer. -/
  | gather (j : Fin 32)
  /-- FWD (R199): A FWD entry starts the command lists of its start table on the group's cores. -/
  | fwd (j : Fin 32)
  /-- BWD (R199): A BWD entry starts the command lists of its start table on the group's cores. -/
  | bwd (j : Fin 32)
  /-- REDUCE (R207): A REDUCE entry starts its collective plan. -/
  | reduce (j : Fin 32)
  /-- UPDATE (R227): An UPDATE entry starts the update units on its range list. -/
  | update (j : Fin 32)
  /-- RELEASE (R206): A RELEASE entry empties a gather buffer and completes at once. -/
  | release (j : Fin 32)
  /-- DISPATCH (R216): A DISPATCH entry places tokens in branch queues and writes the dispatch record. -/
  | dispatch (j : Fin 32)
  /-- SCHEDULE_END (R208): The END entry starts and completes when every earlier entry has completed. -/
  | scheduleEnd (j : Fin 32)
  /-- SCHEDULE_ENTRY_COMPLETE (R199): A schedule entry completes, possibly allowing later entries to start. -/
  | scheduleEntryComplete (j : Fin 32) (i : BitVec 16)
  /-- STEP_BOUNDARY (R208): After END completes and streams have drained, the boundary sequence runs. -/
  | stepBoundary (j : Fin 32)
  /-- PATCH_APPLY (R208): Control cores apply the patches of changed selector entries, when the job is on its cores. -/
  | patchApply (j : Fin 32)
  /-- APPLY_PASS (R232): An update unit starts APPLY on the next block of its run. -/
  | applyPass (u : Fin 20) (errs : List SymErr)
  /-- NORM_PASS (R228): An update unit sums squared gradients over its run. -/
  | normPass (u : Fin 20) (errs : List SymErr)
  /-- TRUST_PASS (R228): An update unit computes the LAMB trust sums over its run. -/
  | trustPass (u : Fin 20) (errs : List SymErr)
  /-- UPDATE_BLOCK_COMMIT (R232): A block's transaction commits, retries on conflict or ends the entry. -/
  | updateBlockCommit (u : Fin 20)
  /-- SLOT_WAIT_RETRY (R232): An update unit refused a slot retries OPEN every 1 µs. -/
  | slotWaitRetry (u : Fin 20) (errs : List SymErr)
  /-- CLASP_OPEN (R244): Takes a free transaction slot on the coordinator die. -/
  | claspOpen (m : BitVec 16)
  /-- CLASP_READ (R245): A tracked read at the line's home die. -/
  | claspRead (m : BitVec 16) (slot : BitVec 8) (a : BitVec 40) (whole : Bool) (errs : List SymErr)
  /-- CLASP_WRITE (R244): Buffers masked bytes in the transaction's slot. -/
  | claspWrite (m : BitVec 16) (slot : BitVec 8) (line : BitVec 33) (data : Bytes) (mask : BitVec 128)
  /-- CLASP_COMMIT (R251): Starts the commit sequence of a transaction. -/
  | claspCommit (m : BitVec 16) (slot : Met (BitVec 8))
  /-- CLASP_ABORT (R256): Discards a transaction and frees its slot. -/
  | claspAbort (m : BitVec 16) (slot : BitVec 8)
  /-- PREPARE (R252): A prepare arrives at a participant and validates, locks and votes. -/
  | prepare (q : Fin 4) (n : Fin 64) (d : Fin 4)
  /-- PREPARE_RESUME (R252): A waiting prepare resumes after a write lock is released. -/
  | prepareResume (q : Fin 4) (n : Fin 64) (d : Fin 4)
  /-- VOTE (R251): A vote reaches the coordinator, aborting or advancing to the next participant or commit point. -/
  | vote (q : Fin 4) (n : Fin 64) (d : Fin 4)
  /-- INSTALL (R254): COMMIT reaches a participant, which installs its lines and releases locks. -/
  | install (q : Fin 4) (n : Fin 64) (d : Fin 4)
  /-- INSTALL_REPORT (R251): The last install is reported and OK returns to the issuer. -/
  | installReport (q : Fin 4) (n : Fin 64) (d : Fin 4)
  /-- TXN_TIME_LIMIT (R256): A transaction open longer than 4.00.203 aborts with TIME_LIMIT. -/
  | txnTimeLimit (q : Fin 4) (n : Fin 64)
  /-- LOCK_WAIT_LIMIT (R252): A prepare waiting on locks beyond 4.00.204 votes no. -/
  | lockWaitLimit (q : Fin 4) (n : Fin 64) (d : Fin 4)
  /-- CACHED_READ (R278): A cached HBM read served by the home memory-side cache. -/
  | cachedRead (m : BitVec 16) (a : BitVec 40) (n : BitVec 16) (errs : List SymErr)
  /-- CACHED_WRITE (R278): A cached HBM write in the home slice. -/
  | cachedWrite (m : BitVec 16) (a : BitVec 40) (data : Bytes) (errs : List SymErr)
  /-- UNCACHED_ACCESS (R279): A non-allocating uncached HBM access, checked against regions. -/
  | uncachedAccess (m : BitVec 16) (a : BitVec 40) (n : BitVec 16) (write : Option Bytes) (errs : List SymErr)
  /-- ATOMIC_FETCH_ADD (R281): FETCH_ADD atomic in the home slice. -/
  | atomicFetchAdd (m : BitVec 16) (a : BitVec 40) (wide : Bool) (v : BitVec 64) (errs : List SymErr)
  /-- ATOMIC_CAS (R281): CAS atomic in the home slice. -/
  | atomicCas (m : BitVec 16) (a : BitVec 40) (wide : Bool) (cmp : BitVec 64) (new : BitVec 64) (errs : List SymErr)
  /-- ATOMIC_FADD (R281): FADD atomic in the home slice. -/
  | atomicFadd (m : BitVec 16) (a : BitVec 40) (ty : Fin 6) (vals : List (BitVec 64)) (errs : List SymErr)
  /-- ATOMIC_MAX (R281): MAX atomic in the home slice. -/
  | atomicMax (m : BitVec 16) (a : BitVec 40) (ty : Fin 6) (vals : List (BitVec 64)) (errs : List SymErr)
  /-- ATOMIC_MIN (R281): MIN atomic in the home slice. -/
  | atomicMin (m : BitVec 16) (a : BitVec 40) (ty : Fin 6) (vals : List (BitVec 64)) (errs : List SymErr)
  /-- ATOMIC_COPY64 (R281): COPY64 atomic holding both lines. -/
  | atomicCopy64 (m : BitVec 16) (dst : BitVec 40) (src : BitVec 40) (errs : List SymErr)
  /-- REFRESH (R284): Each bank is refreshed once per refresh interval. -/
  | refresh (k : Fin 20)
  /-- RETRAIN_PERIOD_EXPIRY (R285): A pseudo-channel's retrain period expires and it is queued for retraining. -/
  | retrainPeriodExpiry (p : Fin 640)
  /-- RETRAIN_TEMPERATURE_TRIGGER (R285): A stack temperature change queues retraining. -/
  | retrainTemperatureTrigger (k : Fin 20) (temp : BitVec 16)
  /-- RETRAIN_ERROR_RATE_TRIGGER (R285): A corrected-error rate above the limit queues retraining. -/
  | retrainErrorRateTrigger (p : Fin 640) (rate : BitVec 32)
  /-- RETRAIN_START (R285): The die starts the next waiting retraining, withholding credits. -/
  | retrainStart (q : Fin 4)
  /-- RETRAIN_SUCCESS (R285): Retraining succeeds and credits are restored. -/
  | retrainSuccess (q : Fin 4)
  /-- RETRAIN_TIMEOUT (R285): Retraining not complete 38 µs after start falls back to 4.8 Gbit/s and enters FENCING. -/
  | retrainTimeout (q : Fin 4)
  /-- FENCE_COPY_START (R288): A fence's copy begins once any earlier fence has ended. -/
  | fenceCopyStart (k : Fin 2)
  /-- FENCE_COPY_END (R288): The copy ends; the cache flushes, the map switch commits and held requests are released. -/
  | fenceCopyEnd (k : Fin 2) (lost : List (BitVec 23 × Bool))
  /-- HBM_SCRUB (R277): Patrol scrub reads mapped granules within each period. -/
  | hbmScrub (p : Fin 640) (u : BitVec 23) (errs : List SymErr)
  /-- SEGMENT_TABLE_WRITE (R267): The segment table is written whole and checked. -/
  | segmentTableWrite (v : Bytes)
  /-- STACK_THERMAL_LIMIT (R438): A stack at 95 °C halves admission until it falls below 92 °C. -/
  | stackThermalLimit (k : Fin 20) (temp : BitVec 16)
  /-- HANDOFF_RETRY (R302): A waiting handoff at the head of a channel's queue is granted. -/
  | handoffRetry (q : Fin 4) (a : Fin 1024)
  /-- LEDGER_AUDIT (R307): Every 1 µs a ledger starts an audit. -/
  | ledgerAudit (kind : Fin 8) (inst : BitVec 12)
  /-- AUDIT_MARKER_ARRIVAL (R307): An audit marker reaches the receiver, which records counts and replies. -/
  | auditMarkerArrival (kind : Fin 8) (inst : BitVec 12) (seen : Option (BitVec 32 × BitVec 32))
  /-- AUDIT_REPLY_ARRIVAL (R307): The audit reply reaches the sender and the audit is judged. -/
  | auditReplyArrival (kind : Fin 8) (inst : BitVec 12) (back : Option (BitVec 32))
  /-- AUDIT_STALL (R308): An audit outstanding beyond C.00.005 with islands running raises a fault. -/
  | auditStall (kind : Fin 8) (inst : BitVec 12)
  /-- PORT_MODE_WRITE (R312): A port_mode write claims or releases the port's lanes and starts or stops the port. -/
  | portModeWrite (l : Fin 96) (mode : BitVec 8)
  /-- PORT_TRAINING_COMPLETE (R314): A port finishes training and goes up. -/
  | portTrainingComplete (l : Fin 96) (native : Bool)
  /-- PORT_DOWN (R315): A port goes down and transmission stops. -/
  | portDown (l : Fin 96)
  /-- FRAME_RECEIVE (R317): A received frame is checked in order and dropped, answered or passed on. -/
  | frameReceive (l : Fin 96) (f : RxFrame)
  /-- PFC_XOFF_REPEAT (R331): XOFF is repeated every 10 µs while above threshold. -/
  | pfcXoffRepeat (l : Fin 96)
  /-- LINK_ACK (R319): A native link ACK frees covered frames from the replay buffer. -/
  | linkAck (l : Fin 96) (seq : BitVec 16)
  /-- LINK_REPLAY (R319): A native REPLAY makes the sender resend from the named frame. -/
  | linkReplay (l : Fin 96) (seq : BitVec 16)
  /-- LINK_ACK_TIMER (R319): Every 1 µs the receiver sends a link ACK while frames are unacknowledged. -/
  | linkAckTimer (l : Fin 96)
  /-- LINK_EPISODE_TIMEOUT (R319): An episode not ended within 8 µs skips the missing frames. -/
  | linkEpisodeTimeout (l : Fin 96)
  /-- BRODLU_WRITE (R325): A received WRITE packet is checked and applied on arrival. -/
  | brodluWrite (l : Fin 96)
  /-- BRODLU_REDUCE (R325): A received REDUCE packet is applied in sequence order by FADD. -/
  | brodluReduce (l : Fin 96)
  /-- BRODLU_SEND (R329): A received SEND packet is applied in order and its message delivered to a ring or the input pipeline. -/
  | brodluSend (l : Fin 96)
  /-- BRODLU_DICT (R337): A completed DICT message is passed to the Foreri engine. -/
  | brodluDict (l : Fin 96)
  /-- BRODLU_ACK (R327): A received ACK frees acknowledged packets and may trigger fast retransmit. -/
  | brodluAck (l : Fin 96)
  /-- BRODLU_NAK (R338): A received NAK triggers the sender action of its code. -/
  | brodluNak (l : Fin 96)
  /-- BRODLU_SYNC (R322): A received SYNC is accepted, answered or refused. -/
  | brodluSync (l : Fin 96)
  /-- BRODLU_FIN (R323): A received FIN is applied in order and closes the context. -/
  | brodluFin (l : Fin 96)
  /-- PACKET_TRANSMIT (R327): A sender transmits a packet when credit, window, rate and buffer allow. -/
  | packetTransmit (l : Fin 96)
  /-- CTX_OPEN (R322): Opens a context and starts its SYNC handshake. -/
  | ctxOpen (n : Fin 4096)
  /-- CTX_CLOSE (R323): Starts closing a context. -/
  | ctxClose (n : Fin 4096)
  /-- CTX_THAW (R332): An administrator thaws a FROZEN context to CLOSED. -/
  | ctxThaw (n : Fin 4096)
  /-- SYNC_INTERVAL (R322): SYNC is resent every 100 µs while SYNC_SENT. -/
  | syncInterval (n : Fin 4096)
  /-- SYNC_TIMEOUT (R322): 5.00.014 expires and the context fails. -/
  | syncTimeout (n : Fin 4096)
  /-- ACK_DELAY_TIMER (R326): 5 µs after the first unacknowledged packet an ACK is sent. -/
  | ackDelayTimer (n : Fin 4096)
  /-- RETRANSMIT_TIMEOUT (R327): The oldest unacknowledged packet is retransmitted on timeout. -/
  | retransmitTimeout (n : Fin 4096)
  /-- NO_BUFFER_RETRY (R338): A packet refused with NO_BUFFER is retransmitted after 5 µs. -/
  | noBufferRetry (n : Fin 4096)
  /-- RATE_CONTROL_PERIOD (R330): Each rc period every context adjusts its rate from ce_echo. -/
  | rateControlPeriod
  /-- PUT (R334): A plan step sends one WRITE message. -/
  | put (id : BitVec 32)
  /-- PUT_ADD (R334): A plan step sends one REDUCE message. -/
  | putAdd (id : BitVec 32)
  /-- LOCAL_STEP (R334): A local plan step copies or adds through the home cache. -/
  | localStep (id : BitVec 32)
  /-- WAIT_IN (R334): A plan step waits for the context's notify count. -/
  | waitIn (id : BitVec 32)
  /-- PLAN_STEP_COMPLETE (R334): A plan step completes, letting dependent steps and the plan finish. -/
  | planStepComplete (id : BitVec 32) (i : Fin 4096)
  /-- STREAM_OPEN (R341): Opens a sample stream after its configuration checks. -/
  | streamOpen (m : Fin 4) (n : Fin 64)
  /-- STREAM_CLOSE (R358): Starts closing a sample stream. -/
  | streamClose (m : Fin 4) (n : Fin 64)
  /-- STREAM_CLOSE_COMPLETE (R358): The last Strand is written and the stream releases its channel and context. -/
  | streamCloseComplete (m : Fin 4) (n : Fin 64)
  /-- STREAM_FLUSH (R356): Closes the open Strand once earlier samples are placed. -/
  | streamFlush (m : Fin 4) (n : Fin 64)
  /-- STREAM_THAW (R360): An administrator thaws a FROZEN stream to CLOSED. -/
  | streamThaw (m : Fin 4) (n : Fin 64)
  /-- RECORD_ARRIVAL (R343): A record's first packet arrives and structural checks run. -/
  | recordArrival (m : Fin 4) (n : Fin 64)
  /-- WORK_SLOT_GRANT (R344): An admitted record obtains a free work slot. -/
  | workSlotGrant (m : Fin 4) (n : Fin 64)
  /-- DECODE_DISPATCH (R365): A free engine takes the head of the LC, then BE, queue. -/
  | decodeDispatch (m : Fin 4) (kind : Fin 4)
  /-- DECODE_COMPLETE (R347): A decoder writes a sample's last plane; geometry and colour follow. -/
  | decodeComplete (m : Fin 4) (e : Fin 17) (d : Decoded) (unc : Bool)
  /-- DECODE_DEADLINE (R348): A sample not finished at its deadline is aborted as a failed slot. -/
  | decodeDeadline (m : Fin 4) (n : Fin 64) (seq : BitVec 32)
  /-- LC_SWITCH (R365): At a switch point an engine switches from a BE job to a waiting LC job. -/
  | lcSwitch (m : Fin 4) (e : Fin 17)
  /-- SAMPLE_PLACE (R356): The next item in sequence order is placed in the open Strand. -/
  | samplePlace (m : Fin 4) (n : Fin 64)
  /-- PACK_TIMEOUT (R356): The open Strand closes pack_timeout_us after its first entry. -/
  | packTimeout (m : Fin 4) (n : Fin 64)
  /-- STRAND_WRITE (R357): A closed Strand is written when the ring has room, then head advances. -/
  | strandWrite (m : Fin 4) (n : Fin 64)
  /-- SPLIT_RATIO_UPDATE (R359): Each period the split ratio per kind is updated. -/
  | splitRatioUpdate (m : Fin 4)
  /-- ENCODE_OPEN (R368): Opens an encode stream after its checks. -/
  | encodeOpen (m : Fin 4) (n : Fin 64)
  /-- ENCODE_CLOSE (R374): Starts closing an encode stream. -/
  | encodeClose (m : Fin 4) (n : Fin 64)
  /-- ENCODE_THAW (R374): An administrator thaws a FROZEN encode stream. -/
  | encodeThaw (m : Fin 4) (n : Fin 64)
  /-- SOURCE_HEAD_POLL (R369): The device reads the source ring head and frames arrive. -/
  | sourceHeadPoll (m : Fin 4) (n : Fin 64)
  /-- ENCODE_FRAME_START (R372): An encoder takes the next frame by deadline or round-robin. -/
  | encodeFrameStart (m : Fin 4)
  /-- ENCODE_FRAME_END (R373): An encoded frame is emitted to ring or datagrams. -/
  | encodeFrameEnd (m : Fin 4) (n : Fin 64)
  /-- FRAME_DEADLINE (R372): An LC frame not started at its deadline becomes a repeat frame. -/
  | frameDeadline (m : Fin 4) (n : Fin 64)
  /-- REGISTER (R380): Registers a job from its record after checks. -/
  | register (j : Fin 32)
  /-- ADMIT (R382): Admits a job to residency after checks. -/
  | jobAdmit (j : Fin 32)
  /-- LEAVE (R384): A job leaves residency and returns to REGISTERED. -/
  | leave (j : Fin 32)
  /-- SUSPEND (R384): A job saves its image and leaves residency as SUSPENDED. -/
  | suspend (j : Fin 32)
  /-- DEREGISTER (R380): Frees a REGISTERED or SUSPENDED job slot. -/
  | deregister (j : Fin 32)
  /-- JOB_THAW (R396): An administrator thaws a FROZEN job to STOPPED. -/
  | jobThaw (j : Fin 32)
  /-- STEP_SUBMIT (R387): A step descriptor written to 7.00.122 is checked and accepted. -/
  | stepSubmit (j : Fin 32) (d : Bytes)
  /-- STEP_START (R387): An accepted step starts after the previous boundary and the slot table is applied. -/
  | stepStart (j : Fin 32) (conflicts : List (List (BitVec 16)))
  /-- SLICE_END (R385): A BE job's slice ends and it is pre-empted or begins a new slice. -/
  | sliceEnd (j : Fin 32)
  /-- CHEAP_POINT_REACHED (R390): An outgoing core stops at a cheap point and its live state is saved. -/
  | cheapPointReached (c : Fin 32) (k : Fin 16)
  /-- CHEAP_POINT_TIMEOUT (R391): No cheap point within 7.00.012: the current command completes and a full save follows. -/
  | cheapPointTimeout (c : Fin 32) (k : Fin 16)
  /-- CORE_SAVE_COMPLETE (R391): A core's save ends and the core is cleared. -/
  | coreSaveComplete (c : Fin 32) (k : Fin 16)
  /-- CORE_CLEAR_COMPLETE (R391): A core is cleared and the incoming job's record is restored or its lists start. -/
  | coreClearComplete (c : Fin 32) (k : Fin 16)
  /-- CORE_RESTORE_COMPLETE (R391): A core's restore ends and the incoming job starts on it. -/
  | coreRestoreComplete (c : Fin 32) (k : Fin 16)
  /-- COMMAND_RUN_LIMIT (R395): A non-pre-emptible command running 200 µs freezes its job core group. -/
  | commandRunLimit (u : RunUnit) (stopped : BitVec 32) (rows : BitVec 32)
  /-- JOB_WATCHDOG_EXPIRY (R398): A step's watchdog expires and the step ends with E_TIMEOUT. -/
  | jobWatchdogExpiry (j : Fin 32)
  /-- PERST_N_ASSERT (R403): PERST_N resets the host port only. -/
  | perstNAssert
  /-- PERST_N_DEASSERT (R463): PERST_N rises; the endpoint presents termination and link training starts. -/
  | perstNDeassert
  /-- HOT_RESET (R403): A hot reset resets the host port only. -/
  | hotReset
  /-- FUNCTION_LEVEL_RESET (R403): FLR resets the host port only. -/
  | functionLevelReset
  /-- SQ_TAIL_DOORBELL (R409): The driver writes a submission queue tail. -/
  | sqTailDoorbell (q : Fin 64) (v : BitVec 32)
  /-- CQ_HEAD_DOORBELL (R410): The driver writes a completion queue head, freeing CQ room. -/
  | cqHeadDoorbell (q : Fin 64) (v : BitVec 32)
  /-- CAUSE_CLEAR (R405): Write 1 to clear cause bits. -/
  | causeClear (v : BitVec 32)
  /-- CAUSE_MASK_WRITE (R405): Writing cause_mask may raise vector 0. -/
  | causeMaskWrite (v : BitVec 32)
  /-- DOORBELL_STATUS_CLEAR (R405): Write 1 to clear receiver doorbell status bits. -/
  | doorbellStatusClear (r : Fin 34) (v : BitVec 32)
  /-- DOORBELL_MASK_WRITE (R405): Writing a doorbell mask may raise its interrupt. -/
  | doorbellMaskWrite (r : Fin 34) (v : BitVec 32)
  /-- NOTIFY_HEAD_WRITE (R407): The driver advances notify_head. -/
  | notifyHeadWrite (v : BitVec 32)
  /-- FORERI_SLOT_SUBMIT (R406): A length write to a request slot submits a Foreri message. -/
  | foreriSlotSubmit (k : Fin 8) (len : BitVec 16) (area : Bytes)
  /-- FORERI_SLOT_FREE (R406): Writing 0 frees a READY request slot. -/
  | foreriSlotFree (k : Fin 8)
  /-- MAILBOX_SEND (R417): A message word written to a send slot is settled. -/
  | mailboxSend (sender : BitVec 16) (r : Fin 34) (word : BitVec 64)
  /-- SHARED_MAILBOX_SEND (R418): A word written to a shared mailbox is stored. -/
  | sharedMailboxSend (writer : BitVec 16) (r : Fin 34) (word : BitVec 64)
  /-- MAILBOX_CONSUME (R417): The receiver writes 1 to full to consume a word. -/
  | mailboxConsume (r : Fin 34) (slot : Option (Fin 28))
  /-- MAILBOX_FLAG_CLEAR (R417): Clears a receive slot's overrun or collision flag. -/
  | mailboxFlagClear (r : Fin 34) (slot : Option (Fin 28))
  /-- SEND_STATUS_OVERRUN_CLEAR (R417): A sender clears its sticky overrun flag. -/
  | sendStatusOverrunClear (sender : BitVec 16) (r : Fin 34)
  /-- MB_ENABLE (R416): Enables or disables a private mailbox channel row. -/
  | mbEnable (n : Fin 256) (on : Bool)
  /-- SQ_FETCH (R409): In its fetch turn a queue fetches up to 8 entries. -/
  | sqFetch (q : Fin 64) (entries : List Bytes)
  /-- NOP (R410): Host command NOP. -/
  | nop (q : Fin 64)
  /-- STEP (R413): Host command submitting a step descriptor. -/
  | step (q : Fin 64)
  /-- PAGE_OP (R411): Host command running a page operation. -/
  | pageOp (q : Fin 64) (met : PageMet)
  /-- PT_EDIT (R411): Host command editing page-table entries in one transaction. -/
  | ptEdit (q : Fin 64) (conflicts : Met (BitVec 16))
  /-- TXN_OPEN (R411): Host command opening a Clasp transaction. -/
  | txnOpen (q : Fin 64)
  /-- TXN_READ (R411): Host command doing a tracked read into host memory. -/
  | txnRead (q : Fin 64) (errs : List SymErr)
  /-- TXN_WRITE (R411): Host command buffering a transactional write from host memory. -/
  | txnWrite (q : Fin 64) (data : Bytes)
  /-- HOST_TXN_COMMIT (R411): Host command committing the queue's transaction. -/
  | hostTxnCommit (q : Met (Fin 64))
  /-- HOST_TXN_ABORT (R411): Host command aborting the queue's transaction. -/
  | hostTxnAbort (q : Fin 64)
  /-- COMPLETION_POST (R410): A completion is written to the CQ when it has room. -/
  | completionPost (q : Fin 64)
  /-- COMMAND_TIMEOUT (R414): A command not completed within the command timeout completes with E_TIMEOUT. -/
  | commandTimeout (who : Issuer) (id : BitVec 32)
  /-- QUEUE_ENABLE (R408): Enables a queue after checking its configuration. -/
  | queueEnable (q : Fin 64)
  /-- QUEUE_DISABLE (R408): Stops fetching; the queue drains then disables. -/
  | queueDisable (q : Fin 64)
  /-- QUEUE_THAW (R411): An administrator thaws a FROZEN queue to disabled. -/
  | queueThaw (q : Fin 64)
  /-- HOST_MEMORY_ERROR (R402): A failed DMA read of queue host memory puts the queue in ERROR. -/
  | hostMemoryError (q : Fin 64) (f : HostFault)
  /-- BAR2_READ (R415): A host read through BAR2. -/
  | bar2Read (off : BitVec 26) (n : BitVec 13) (errs : List SymErr)
  /-- BAR2_WRITE (R415): A host write through BAR2. -/
  | bar2Write (off : BitVec 26) (data : Bytes) (poisoned : Bool) (errs : List SymErr)
  /-- DOMAIN_ON (R423): Request to switch on a media or compute domain. -/
  | domainOn (d : Fin 24)
  /-- DOMAIN_ON_COMPLETE (R423): A domain finishes switch-on and is reported on. -/
  | domainOnComplete (d : Switched)
  /-- DOMAIN_OFF (R424): Request to switch off a media or compute domain, checked under R24. -/
  | domainOff (d : Fin 24)
  /-- DOMAIN_OFF_COMPLETE (R424): The power switch opens and the domain is off. -/
  | domainOffComplete (d : Switched)
  /-- CRYSTAL_STABLE (R425): The crystal count completes and island 0 switches to it. -/
  | crystalStable
  /-- CRYSTAL_ABSENT (R425): The crystal count fails after 20 ms and start-up continues on RC. -/
  | crystalAbsent
  /-- RC_RETRIM (R426): The RC oscillator is re-trimmed periodically. -/
  | rcRetrim (n : BitVec 16)
  /-- CLOCK_ENABLE_WRITE (R429): Writes a clock's run, sleep and deep enables. -/
  | clockEnableWrite (i : Fin 46) (v : BitVec 32)
  /-- OP_REQUEST (R432): Writes a compute domain's requested operating point. -/
  | opRequest (i : Fin 16) (p : Fin 8)
  /-- OP_MOVE_LOCK_DONE (R433): The new PLL lock time passes and the island switches or the ramp proceeds. -/
  | opMoveLockDone (i : Fin 16)
  /-- OP_MOVE_RAMP_DONE (R433): The voltage ramp ends and the move completes. -/
  | opMoveRampDone (i : Fin 16)
  /-- THERMAL_EVALUATION (R436): Every 100 µs each die's thermal cap is evaluated. -/
  | thermalEvaluation (q : Fin 4) (readings : List (BitVec 16))
  /-- THERMAL_TRIP (R437): A sensor reaching 110 °C asserts THERM_TRIP_N and stops islands. -/
  | thermalTrip (q : Fin 4) (sensor : Fin 8) (reading : BitVec 16)
  /-- POWER_EVALUATION (R439): Every 1 ms the power estimate adjusts the power cap. -/
  | powerEvaluation (mw : BitVec 32)
  /-- REQUEST_RUN (R441): Requests power state RUN. -/
  | requestRun
  /-- REQUEST_IDLE (R441): Requests power state IDLE. -/
  | requestIdle
  /-- REQUEST_SLEEP (R441): Requests power state SLEEP, starting the entry sequence. -/
  | requestSleep
  /-- REQUEST_DEEP (R441): Requests power state DEEP, starting the entry sequence. -/
  | requestDeep
  /-- ISLAND_GATE (R442): In IDLE an idle island is gated after 2.00.003 µs. -/
  | islandGate (i : Fin 20)
  /-- ISLAND_UNGATE (R442): An item entering a crossing restarts a gated island. -/
  | islandUngate (i : Fin 20)
  /-- IDLE_AUTO_EXPIRY (R442): With no work for 2.00.004 ms the device enters IDLE. -/
  | idleAutoExpiry
  /-- SLEEP_ENTRY_COMPLETE (R443): The SLEEP entry sequence ends. -/
  | sleepEntryComplete
  /-- SLEEP_EXIT (R443): A wake starts the SLEEP exit sequence. -/
  | sleepExit
  /-- SLEEP_EXIT_COMPLETE (R443): The SLEEP exit ends in the requested state or RUN. -/
  | sleepExitComplete
  /-- DEEP_ENTRY_COMPLETE (R444): DEEP entry ends with D1 to D3 off. -/
  | deepEntryComplete
  /-- DEEP_EXIT (R444): A wake restarts start-up from RC_TRIM. -/
  | deepExit
  /-- WAKE_AIN_TRIP (R450): The WAKE_AIN comparator trips. -/
  | wakeAinTrip (mv : BitVec 16)
  /-- WAKE_AIN_REARM (R450): The comparator re-arms past the hysteresis level. -/
  | wakeAinRearm (mv : BitVec 16)
  /-- WAKE_N_LOW (R448): Another agent drives WAKE_N low. -/
  | wakeNLow
  /-- WAKE_FRAME (R451): A Wake-on-LAN frame reaches the management port. -/
  | wakeFrame (mac : BitVec 48) (etherType : BitVec 16) (udpPort : Option (BitVec 16)) (payload : Bytes) (fcsGood : Bool)
  /-- WAKE_TIMER (R448): The uptime counter reaches 2.00.012. -/
  | wakeTimer
  /-- LOCKET_CLEAR (R447): An administrator invalidates every Locket region. -/
  | locketClear
  /-- VDD_AON_RISE (R455): VDD_AON rises with SYS_RST_N high and start-up begins at AON_UP. -/
  | vddAonRise
  /-- VDD_AON_LOSS (R508): Loss of VDD_AON ends every state in OFF. -/
  | vddAonLoss
  /-- SYS_RST_N_ASSERT (R516): SYS_RST_N held low for 1 µs is a cold reset. -/
  | sysRstNAssert
  /-- SYS_RST_N_RELEASE (R516): SYS_RST_N rises and start-up begins at AON_UP. -/
  | sysRstNRelease
  /-- RAILS_GOOD (R455): The rails of step 3 become good, D1 switches on and RC trim runs. -/
  | railsGood
  /-- RC_TRIM_COMPLETE (R426): The initial trim ends and FUSE_LOAD starts. -/
  | rcTrimComplete (n : BitVec 16)
  /-- FUSE_LOAD_COMPLETE (R457): Fuse words are read and checked; start-up continues or enters FUSE_FAIL. -/
  | fuseLoadComplete (words : List FuseWord)
  /-- IMAGE_SLOT_CHECKED (R459): A slot's read and checks end; it is used, the next slot tried, or IMAGE_FAIL entered. -/
  | imageSlotChecked (k : Fin 2) (readOk : Bool) (flash : FlashId)
  /-- CONFIGURE_COMPLETE (R462): CONFIGURE ends, holding or starting TRAIN. -/
  | configureComplete
  /-- CONFIGURE_RELEASE (R462): A write of 1 to 0.00.108 ends the hold. -/
  | configureRelease
  /-- TRAIN_COMPLETE (R464): TRAIN ends; READY or SAFE follows. -/
  | trainComplete (failed : List (Fin 640)) (cacheFail : Option (Fin 64)) (ids : List (Option (BitVec 32)))
  /-- SLOT_BACKGROUND_CHECK (R459): At READY the unused slot is checked in the background. -/
  | slotBackgroundCheck (k : Fin 2) (readOk : Bool)
  /-- WARM_RESET_KIND_1 (R468): Requests a warm reset restarting at IMAGE_LOAD. -/
  | warmResetKind1 (nonce : BitVec 32)
  /-- WARM_RESET_KIND_2 (R468): Requests a warm reset ending in SAFE. -/
  | warmResetKind2 (nonce : BitVec 32)
  /-- WARM_RESET_KIND_3 (R468): Requests a cold reset. -/
  | warmResetKind3 (nonce : BitVec 32)
  /-- WARM_RESET_BEGIN (R468): 1 ms after the response the reset shutdown begins. -/
  | warmResetBegin
  /-- FLASH_DATA_WRITE (R467): Programs bytes at flash_offset. -/
  | flashDataWrite (data : Bytes)
  /-- FLASH_ERASE (R467): Erases a 64 KiB flash sector. -/
  | flashErase (off : BitVec 32)
  /-- FLASH_OP_COMPLETE (R510): A flash program or erase completes or times out. -/
  | flashOpComplete (ok : Bool)
  /-- ASSAY_TEST_START (R478): The next requested test of a die starts. -/
  | assayTestStart (die : Fin 4)
  /-- ASSAY_TEST_END (R479): A test ends with a result and any lasting action. -/
  | assayTestEnd (die : Fin 4) (pass : Bool)
  /-- FUSE_BURN_COMPLETE (R482): A retirement word burn ends. -/
  | fuseBurnComplete (ok : Bool)
  /-- LOCKSTEP_MISMATCH (R474): A device-manager lockstep mismatch is uncorrected-fatal. -/
  | lockstepMismatch
  /-- MASTER_THAW (R476): A write to A.00.030 thaws the named master. -/
  | masterThaw (m : BitVec 16)
  /-- ATTEST_REQUEST (R493): A nonce write builds and signs an attestation report. -/
  | attestRequest (ch : Chan) (nonce : Bytes)
  /-- ROLLBACK_COMMIT (R491): Raises the fused anti-rollback counter. -/
  | rollbackCommit (n : BitVec 16) (failAfter : Option (BitVec 16))
  /-- DEBUG_TOKEN (R496): A debug token is checked and unlocks its scope. -/
  | debugToken (t : Bytes)
  /-- DEBUG_LOCK (R497): A write of 1 to E.00.003 locks debug. -/
  | debugLock
  /-- DEBUG_EXPIRY (R497): The uptime counter reaches E.00.004 and debug locks. -/
  | debugExpiry
  /-- ENTROPY_HEALTH_TEST (R489): A continuous health test of the entropy source passes or fails. -/
  | entropyHealthTest (pass : Bool)
  /-- I3C_POINTER_WRITE (R512): A 4-byte private write sets the object pointer. -/
  | i3cPointerWrite (oid : BitVec 32)
  /-- I3C_WAKE_COMMAND (R512): A one-byte 0x57 write is wake source 6. -/
  | i3cWakeCommand
  /-- I3C_IGNORED_WRITE (R512): A write of other length is ignored and counted. -/
  | i3cIgnoredWrite (data : Bytes)
  /-- I3C_READ (R512): A read returns status, type, length and value of the pointed object. -/
  | i3cRead (i2c : Option Byte)
  /-- I3C_IBI (R512): The target raises an IBI carrying its event mask, at most once per 1 ms. -/
  | i3cIbi
  /-- I3C_DYNAMIC_ADDRESS (R511): ENTDAA or SETDASA assigns the dynamic address. -/
  | i3cDynamicAddress (a : I3cAssign)
  /-- IDCODE (R514): TAP instruction IDCODE. -/
  | idcode
  /-- BYPASS (R514): TAP instruction BYPASS. -/
  | bypass
  /-- SAMPLE_PRELOAD (R514): TAP instruction SAMPLE/PRELOAD. -/
  | samplePreload
  /-- EXTEST (R515): TAP instruction EXTEST taking the pins. -/
  | extest
  /-- EXTEST_PULSE (R515): TAP instruction EXTEST_PULSE. -/
  | extestPulse
  /-- EXTEST_TRAIN (R515): TAP instruction EXTEST_TRAIN. -/
  | extestTrain
  /-- HIGHZ (R515): TAP instruction HIGHZ. -/
  | highz
  /-- CLAMP (R515): TAP instruction CLAMP. -/
  | clamp
  /-- DEBUG_ACCESS (R514): TAP instruction giving the debug port. -/
  | debugAccess (halt : Option (Fin 32 × Bool)) (peek : Option (BitVec 40))
  /-- TRACE (R514): TAP instruction controlling firmware trace. -/
  | trace
  /-- MFG_TEST (R514): TAP instruction for manufacturing scan. -/
  | mfgTest
  /-- TEST_LOGIC_RESET (R515): Test-Logic-Reset or TRST_N resets the TAP and returns the pins. -/
  | testLogicReset
  /-- RAIL_SAMPLE (R505): Every 10 µs every rail's sense pair is read. -/
  | railSample (mv : List (BitVec 16))
  /-- GPIO_FUNCTION_WRITE (R517): Sets a GPIO's function, claiming or releasing it. -/
  | gpioFunctionWrite (n : Fin 16) (f : Byte)
  /-- GPIO_PULSE_EDGE (R517): A rising edge held 1 µs is counted on a function-6 GPIO. -/
  | gpioPulseEdge (n : Fin 16)
  /-- PFC_PAUSE_EXPIRY (R331): The pause quanta of a received PFC frame run out and the device resumes sending on that priority. -/
  | pfcPauseExpiry (l : Fin 96) (prio : Fin 8)
  /-- PCIE_CONFIGURATION_REQUEST (R463): A PCIe configuration request from the host completes with retry status before CONFIGURE releases,
  or successfully after, and the first success ends the WAKE_N hold. -/
  | pcieConfigurationRequest
  /-- PCIE_LINK_UP (R463): PCIe link training started after PERST_N deassertion completes and the link comes up at the rate and width
  reached. -/
  | pcieLinkUp (rate : Fin 6) (width : Fin 3)
  /-- MSIX_TABLE_WRITE (R405): The host writes an MSI-X table entry, and unmasking a vector whose PBA bit is set sends its pending message.
  -/
  | msixTableWrite (v : Fin 64) (addr : BitVec 64) (data : BitVec 32) (masked : Bool)
  /-- REFERENCE_CLOCK_PRESENCE_CHANGE (R509): A reference clock input enters or leaves 1 % of nominal, updating 0.00.230 and the ability of
  its users to train. -/
  | referenceClockPresenceChange (i : Fin 7) (present : Bool)
  /-- SEND_STATUS_READ (R420): A host read of a send slot, send status or shared send slot whose receiver domain is off returns Completer
  Abort and is counted in B.7F.008. -/
  | sendStatusRead (page : Fin 64) (r : Fin 34) (kind : Fin 3)
deriving DecidableEq, Repr

end Sys2Proof
end

