-- ==== Sys2Proof/Machine/Flags.lean ====
section
/-! DEFINITION. Status codes, type and access codes, and the flag computations that several units share (Tables 2.4, 2.5, 2.12). -/

namespace Sys2Proof.Machine

/-- Status codes (Table 2.12). -/
def Status.code : Status → Nat
  | .ok => 0x00 | .noObject => 0x01 | .noElement => 0x02 | .access => 0x03 | .type => 0x04 | .range => 0x05
  | .state => 0x06 | .held => 0x07 | .busy => 0x08 | .domainOff => 0x09 | .auth => 0x0A | .conflict => 0x0B
  | .aborted => 0x0C | .limit => 0x0D | .frozen => 0x0E | .malformed => 0x0F | .timeout => 0x10
  | .uncorrected => 0x11 | .length => 0x12

/-- Type codes (Table 2.4). -/
def Ty.code : Ty → Nat
  | .u8 => 1 | .u16 => 2 | .u32 => 3 | .u64 => 4 | .i8 => 5 | .i16 => 6 | .i32 => 7 | .i64 => 8 | .bool => 9 | .f32 => 10
  | .enum8 => 11 | .bits32 => 12 | .bits64 => 13 | .str => 14 | .blob => 15 | .table => 16

/-- Value bytes of a scalar type (Table 2.4); none for STR, BLOB and TABLE. -/
def Ty.width : Ty → Option Nat
  | .u8 | .i8 | .bool | .enum8 => some 1
  | .u16 | .i16 => some 2
  | .u32 | .i32 | .f32 | .bits32 => some 4
  | .u64 | .i64 | .bits64 => some 8
  | .str | .blob | .table => none

/-- The largest raw value of a type. -/
def Ty.maxVal (t : Ty) : Nat := 256 ^ (t.width.getD 8) - 1

/-- Access codes (Table 2.5). -/
def Acc.code : Acc → Nat
  | .ro => 1 | .rw => 2 | .wo => 3 | .rws => 4 | .rwc => 5 | .adm => 6

/-- default_source of Table 2.10. -/
def DefSrc.code : DefSrc → Nat
  | .fuse => 0 | .image => 1 | .reset => 2

/-- A write-1-to-clear register after a write. -/
def w1c (reg val : Nat) (width : Nat) : Nat :=
  ofBits ((List.range width).map fun i => bit reg i && !bit val i)

/-- The bits that are set in both. -/
def andBits (a b : Nat) (width : Nat) : Nat :=
  ofBits ((List.range width).map fun i => bit a i && bit b i)

/-- UTF-8 well-formedness of a byte string (STR values, Table 2.4): lead and continuation bytes, no overlong form, no
surrogate, nothing above U+10FFFF. -/
def utf8Ok : Nat → Bytes → Bool
  | 0, b => b.isEmpty
  | f + 1, b =>
    let cont (x : Byte) : Bool := 0x80 ≤ x.toNat && x.toNat < 0xC0
    match b with
    | [] => true
    | a :: r =>
      let n := a.toNat
      if n < 0x80 then utf8Ok f r
      else if 0xC2 ≤ n && n < 0xE0 then
        match r with
        | x :: r => cont x && utf8Ok f r
        | _ => false
      else if 0xE0 ≤ n && n < 0xF0 then
        match r with
        | x :: y :: r => cont x && cont y && !(n == 0xE0 && x.toNat < 0xA0) && !(n == 0xED && 0xA0 ≤ x.toNat) && utf8Ok f r
        | _ => false
      else if 0xF0 ≤ n && n < 0xF5 then
        match r with
        | x :: y :: z :: r => cont x && cont y && cont z && !(n == 0xF0 && x.toNat < 0x90) && !(n == 0xF4 && 0x90 ≤ x.toNat) &&
            utf8Ok f r
        | _ => false
      else false

end Sys2Proof.Machine
end

