-- ==== Sys2Proof/Machine/ObjTable.lean ====
section
/-! DEFINITION. The object table: one row per object of the dictionary, written from the object tables of every chapter of spec/
(Object, Name, Type, Access, Default, and the range the Meaning column states). The rows are grouped by area (R38). -/
namespace Sys2Proof.Machine

/-- Rows of area 0: 0.00.000 to 0.00.109. -/
def objRows0_0 : List ObjDesc := [
  ⟨0x0, 0x00, 1, 0x000, 1, 1, "vendor_name", .str, .ro, .reset, .bytes (strBytes "Kwaduvia Microsystems"), .any, false, false⟩,
  ⟨0x0, 0x00, 1, 0x001, 1, 1, "part_number", .str, .ro, .reset, .bytes (strBytes "KWP-720-LA"), .any, false, false⟩,
  ⟨0x0, 0x00, 1, 0x002, 1, 1, "stepping", .str, .ro, .fuse, .bytes (strBytes "A1"), .any, false, false⟩,
  ⟨0x0, 0x00, 1, 0x003, 1, 1, "device_serial", .u64, .ro, .fuse, .num 0, .any, false, false⟩,
  ⟨0x0, 0x00, 1, 0x010, 1, 1, "die_count", .u8, .ro, .reset, .num 4, .any, false, false⟩,
  ⟨0x0, 0x00, 1, 0x011, 1, 1, "cluster_count", .u8, .ro, .reset, .num 32, .any, false, false⟩,
  ⟨0x0, 0x00, 1, 0x012, 1, 1, "enabled_core_count", .u16, .ro, .fuse, .num 512, .any, false, false⟩,
  ⟨0x0, 0x00, 1, 0x013, 1, 1, "spare_core_count", .u8, .ro, .fuse, .num 32, .any, false, false⟩,
  ⟨0x0, 0x00, 1, 0x014, 1, 1, "stack_count", .u8, .ro, .reset, .num 20, .any, false, false⟩,
  ⟨0x0, 0x00, 1, 0x015, 1, 1, "hbm_installed_bytes", .u64, .ro, .reset, .num 720000000000, .any, false, false⟩,
  ⟨0x0, 0x00, 1, 0x016, 1, 1, "lane_count", .u8, .ro, .reset, .num 96, .any, false, false⟩,
  ⟨0x0, 0x00, 1, 0x017, 1, 1, "media_complex_count", .u8, .ro, .reset, .num 4, .any, false, false⟩,
  ⟨0x0, 0x00, 1, 0x020, 1, 1, "inventory_count", .u16, .ro, .reset, .num 849, .any, false, false⟩,
  ⟨0x0, 0x00, 1, 0x021, 1, 1, "inventory_table", .table, .ro, .fuse, .bytes [], .any, false, false⟩,
  ⟨0x0, 0x08, 4, 0x040, 1, 1, "die_serial", .u64, .ro, .fuse, .num 0, .any, false, false⟩,
  ⟨0x0, 0x40, 32, 0x030, 1, 16, "core_physical_slot", .u8, .ro, .fuse, .num 0, .any, false, false⟩,
  ⟨0x0, 0x40, 32, 0x031, 1, 1, "cluster_core_count", .u8, .ro, .fuse, .num 16, .any, false, false⟩,
  ⟨0x0, 0x40, 32, 0x032, 1, 1, "cluster_reduced", .bool, .ro, .fuse, .num 0, .any, false, false⟩,
  ⟨0x0, 0x60, 20, 0x050, 1, 1, "stack_capacity_bytes", .u64, .ro, .reset, .num 36000000000, .any, false, false⟩,
  ⟨0x0, 0x60, 20, 0x051, 1, 1, "stack_device_id", .u32, .ro, .reset, .num 0, .any, false, false⟩,
  ⟨0x0, 0x00, 1, 0x100, 1, 1, "startup_state", .enum8, .ro, .reset, .num 0x00, .any, true, false⟩,
  ⟨0x0, 0x00, 1, 0x101, 1, 1, "startup_failure", .u32, .ro, .reset, .num 0, .any, true, false⟩,
  ⟨0x0, 0x00, 1, 0x102, 1, 1, "startup_times", .table, .ro, .reset, .bytes [], .any, false, false⟩,
  ⟨0x0, 0x00, 1, 0x103, 1, 1, "last_reset_kind", .enum8, .ro, .reset, .num 0, .any, false, false⟩,
  ⟨0x0, 0x00, 1, 0x104, 1, 1, "reset_request", .blob, .wo, .reset, .bytes [], .any, false, false⟩,
  ⟨0x0, 0x00, 1, 0x105, 1, 1, "last_reset_nonce", .u32, .ro, .reset, .num 0, .any, false, false⟩,
  ⟨0x0, 0x00, 1, 0x106, 1, 1, "startup_warnings", .bits32, .ro, .reset, .num 0, .any, true, false⟩,
  ⟨0x0, 0x00, 1, 0x107, 1, 1, "configure_hold", .bool, .rwc, .image, .num 0, .any, false, false⟩,
  ⟨0x0, 0x00, 1, 0x108, 1, 1, "configure_release", .bool, .wo, .reset, .num 0, .special, false, false⟩,
  ⟨0x0, 0x00, 1, 0x109, 1, 1, "ready_domains", .bits32, .rwc, .image, .num 0x00FFFFF0, .mask 0xFFFFF0, false, false⟩]

/-- Rows of area 0: 0.00.110 to 0.00.260. -/
def objRows0_1 : List ObjDesc := [
  ⟨0x0, 0x00, 1, 0x110, 1, 1, "fuse_map_version", .u16, .ro, .fuse, .num 0, .any, false, false⟩,
  ⟨0x0, 0x00, 1, 0x111, 1, 1, "fuse_corrected_words", .u16, .ro, .reset, .num 0, .any, false, false⟩,
  ⟨0x0, 0x00, 1, 0x112, 1, 1, "fuse_readback", .table, .adm, .fuse, .bytes [], .any, false, false⟩,
  ⟨0x0, 0x00, 1, 0x200, 1, 1, "package_code", .str, .ro, .reset, .bytes (strBytes "LGA-12544"), .any, false, false⟩,
  ⟨0x0, 0x00, 1, 0x210, 1, 1, "land_map", .table, .ro, .reset, .bytes [], .any, false, false⟩,
  ⟨0x0, 0x00, 1, 0x220, 1, 1, "rail_status", .bits32, .ro, .reset, .num 0, .any, true, false⟩,
  ⟨0x0, 0x00, 1, 0x221, 1, 20, "rail_mv", .u16, .ro, .reset, .num 0, .any, true, false⟩,
  ⟨0x0, 0x00, 1, 0x222, 1, 1, "rail_faults", .u32, .ro, .reset, .num 0, .any, false, false⟩,
  ⟨0x0, 0x00, 1, 0x230, 1, 1, "refclk_present", .bits32, .ro, .reset, .num 0, .any, false, false⟩,
  ⟨0x0, 0x00, 1, 0x240, 1, 1, "i3c_static_address", .u8, .ro, .reset, .num 76, .any, false, false⟩,
  ⟨0x0, 0x00, 1, 0x241, 1, 1, "i3c_dynamic_address", .u8, .ro, .reset, .num 0, .any, false, false⟩,
  ⟨0x0, 0x00, 1, 0x242, 1, 1, "i3c_ibi_enable", .bool, .rw, .image, .num 0, .any, false, false⟩,
  ⟨0x0, 0x00, 1, 0x243, 1, 1, "i3c_ignored_writes", .u32, .ro, .reset, .num 0, .any, false, false⟩,
  ⟨0x0, 0x00, 1, 0x250, 1, 16, "gpio_function", .enum8, .rw, .image, .num 0, .iv 0 7, false, false⟩,
  ⟨0x0, 0x00, 1, 0x251, 1, 16, "gpio_arg", .u8, .rw, .image, .num 0, .special, false, false⟩,
  ⟨0x0, 0x00, 1, 0x252, 1, 1, "gpio_output", .bits32, .rw, .image, .num 0, .mask 0xFFFF, false, false⟩,
  ⟨0x0, 0x00, 1, 0x253, 1, 1, "gpio_input", .bits32, .ro, .reset, .num 0, .any, false, false⟩,
  ⟨0x0, 0x00, 1, 0x254, 1, 16, "gpio_pulse_count", .u64, .ro, .reset, .num 0, .any, false, false⟩,
  ⟨0x0, 0x00, 1, 0x260, 1, 1, "bezel_state", .enum8, .ro, .reset, .num 0, .any, false, false⟩]

/-- Rows of area 1: 1.00.000 to 1.00.024. -/
def objRows1_0 : List ObjDesc := [
  ⟨0x1, 0x00, 1, 0x000, 1, 1, "image_slot_used", .enum8, .ro, .reset, .num 0xFF, .any, false, false⟩,
  ⟨0x1, 0x00, 1, 0x001, 1, 2, "slot_status", .enum8, .ro, .reset, .num 0, .any, false, false⟩,
  ⟨0x1, 0x00, 1, 0x002, 1, 2, "slot_image_version", .u64, .ro, .reset, .num 0, .any, false, false⟩,
  ⟨0x1, 0x00, 1, 0x003, 1, 2, "slot_anti_rollback", .u16, .ro, .reset, .num 0, .any, false, false⟩,
  ⟨0x1, 0x00, 1, 0x004, 1, 1, "records_applied", .u32, .ro, .reset, .num 0, .any, false, false⟩,
  ⟨0x1, 0x00, 1, 0x005, 1, 1, "records_skipped", .u32, .ro, .reset, .num 0, .any, false, false⟩,
  ⟨0x1, 0x00, 1, 0x006, 1, 1, "image_digest", .blob, .ro, .reset, .bytes (List.replicate 32 0), .any, false, false⟩,
  ⟨0x1, 0x00, 1, 0x010, 1, 1, "next_boot_slot", .enum8, .rw, .reset, .num 0xFF, .oneOf [0, 1, 255], false, false⟩,
  ⟨0x1, 0x00, 1, 0x020, 1, 1, "flash_offset", .u32, .rwc, .reset, .num 0, .special, false, false⟩,
  ⟨0x1, 0x00, 1, 0x021, 1, 1, "flash_data", .blob, .rwc, .reset, .bytes [], .any, false, false⟩,
  ⟨0x1, 0x00, 1, 0x022, 1, 1, "flash_erase", .u32, .rwc, .reset, .num 0, .special, false, false⟩,
  ⟨0x1, 0x00, 1, 0x023, 1, 1, "flash_state", .enum8, .ro, .reset, .num 0, .any, false, false⟩,
  ⟨0x1, 0x00, 1, 0x024, 1, 1, "flash_bytes", .u32, .ro, .reset, .num 0, .any, false, false⟩]

/-- Rows of area 2: 2.00.000 to 2.00.051. -/
def objRows2_0 : List ObjDesc := [
  ⟨0x2, 0x00, 1, 0x000, 1, 1, "power_state", .enum8, .ro, .reset, .num 0, .any, false, false⟩,
  ⟨0x2, 0x00, 1, 0x001, 1, 1, "power_state_request", .enum8, .wo, .reset, .num 0, .oneOf [0, 1, 2, 3], false, false⟩,
  ⟨0x2, 0x00, 1, 0x002, 1, 1, "power_transition", .enum8, .ro, .reset, .num 0, .any, false, false⟩,
  ⟨0x2, 0x00, 1, 0x003, 1, 1, "idle_gate_us", .u32, .rw, .image, .num 1, .iv 1 1000, false, false⟩,
  ⟨0x2, 0x00, 1, 0x004, 1, 1, "idle_auto_ms", .u32, .rw, .image, .num 0, .iv 0 3600000, false, false⟩,
  ⟨0x2, 0x00, 1, 0x010, 1, 1, "last_wake", .blob, .ro, .reset, .bytes (List.replicate 16 0), .any, false, false⟩,
  ⟨0x2, 0x00, 1, 0x011, 1, 1, "wake_enable", .bits32, .rw, .image, .num 0x000001FE, .mask 0x1FE, false, false⟩,
  ⟨0x2, 0x00, 1, 0x012, 1, 1, "wake_timer", .u64, .rw, .reset, .num 0, .any, false, false⟩,
  ⟨0x2, 0x00, 1, 0x013, 1, 1, "wake_frame_password", .blob, .adm, .reset, .bytes [], .any, false, false⟩,
  ⟨0x2, 0x00, 1, 0x014, 1, 1, "wake_n_assert", .bool, .rw, .image, .num 1, .any, false, false⟩,
  ⟨0x2, 0x00, 1, 0x020, 1, 1, "wake_ain_threshold", .u8, .rw, .image, .num 50, .iv 0 100, false, false⟩,
  ⟨0x2, 0x00, 1, 0x021, 1, 1, "wake_ain_hysteresis", .u8, .rw, .image, .num 5, .iv 0 20, false, false⟩,
  ⟨0x2, 0x00, 1, 0x022, 1, 1, "wake_ain_polarity", .enum8, .rw, .image, .num 1, .oneOf [0, 1], false, false⟩,
  ⟨0x2, 0x00, 1, 0x023, 1, 1, "wake_ain_filter", .u16, .rw, .image, .num 2500, .any, false, false⟩,
  ⟨0x2, 0x00, 1, 0x024, 1, 1, "wake_ain_state", .bool, .ro, .reset, .num 0, .any, true, true⟩,
  ⟨0x2, 0x00, 1, 0x025, 1, 1, "wake_ain_trips", .u32, .ro, .reset, .num 0, .any, false, false⟩,
  ⟨0x2, 0x00, 1, 0x030, 1, 46, "clock_enables", .bits32, .rw, .reset, .num 0, .mask 0x7, false, false⟩,
  ⟨0x2, 0x00, 1, 0x031, 1, 36, "island_frequency_khz", .u32, .ro, .reset, .num 0, .any, false, false⟩,
  ⟨0x2, 0x00, 1, 0x032, 1, 36, "island_source", .enum8, .ro, .reset, .num 0, .any, false, false⟩,
  ⟨0x2, 0x00, 1, 0x033, 1, 36, "island_switches", .u64, .ro, .reset, .num 0, .any, false, false⟩,
  ⟨0x2, 0x00, 1, 0x034, 1, 1, "rc_trim_code", .u16, .ro, .fuse, .num 0, .any, false, false⟩,
  ⟨0x2, 0x00, 1, 0x035, 1, 1, "rc_trim_reference", .enum8, .ro, .reset, .num 0, .any, false, false⟩,
  ⟨0x2, 0x00, 1, 0x036, 1, 1, "rc_retrim_ms", .u32, .rw, .reset, .num 100, .iv 10 10000, false, false⟩,
  ⟨0x2, 0x00, 1, 0x037, 1, 1, "crystal_status", .enum8, .ro, .reset, .num 0, .any, false, false⟩,
  ⟨0x2, 0x00, 1, 0x040, 1, 1, "op_table", .table, .ro, .fuse, .bytes [], .any, false, false⟩,
  ⟨0x2, 0x00, 1, 0x041, 1, 1, "power_limit_w", .u16, .rw, .image, .num 3000, .iv 800 3000, false, false⟩,
  ⟨0x2, 0x00, 1, 0x042, 1, 1, "power_mw", .u32, .ro, .reset, .num 0, .any, false, false⟩,
  ⟨0x2, 0x00, 1, 0x043, 1, 1, "power_cap_point", .u8, .ro, .reset, .num 0, .any, false, false⟩,
  ⟨0x2, 0x00, 1, 0x050, 1, 1, "throttle_c", .u8, .rw, .image, .num 100, .iv 85 100, false, false⟩,
  ⟨0x2, 0x00, 1, 0x051, 1, 1, "trip_c", .u8, .ro, .reset, .num 110, .any, false, false⟩]

/-- Rows of area 2: 2.00.052[q] to 2.(10+d).065. -/
def objRows2_1 : List ObjDesc := [
  ⟨0x2, 0x00, 1, 0x052, 1, 4, "die_temperature_qc", .i16, .ro, .reset, .num 0, .any, true, false⟩,
  ⟨0x2, 0x00, 1, 0x053, 1, 4, "thermal_cap_point", .u8, .ro, .reset, .num 0, .any, false, false⟩,
  ⟨0x2, 0x00, 1, 0x054, 1, 4, "throttle_events", .u32, .ro, .reset, .num 0, .any, false, false⟩,
  ⟨0x2, 0x00, 1, 0x056, 1, 1, "thermal_trip_record", .blob, .ro, .reset, .bytes (List.replicate 16 0), .any, true, false⟩,
  ⟨0x2, 0x00, 1, 0x070, 1, 1, "locket_valid", .bits32, .ro, .reset, .num 0, .any, false, false⟩,
  ⟨0x2, 0x00, 1, 0x071, 1, 1, "locket_clear", .bool, .adm, .reset, .num 0, .any, false, false⟩,
  ⟨0x2, 0x00, 1, 0x072, 1, 1, "locket_errors", .u32, .ro, .reset, .num 0, .any, false, false⟩,
  ⟨0x2, 0x10, 24, 0x060, 1, 1, "domain_state", .enum8, .ro, .reset, .num 0, .any, false, false⟩,
  ⟨0x2, 0x10, 24, 0x061, 1, 1, "domain_control", .enum8, .wo, .reset, .num 0, .oneOf [1, 2], false, false⟩,
  ⟨0x2, 0x18, 16, 0x062, 1, 1, "op_request", .enum8, .rw, .image, .num 0, .oneOf [0, 1, 2, 3, 4, 5, 6, 7], false, false⟩,
  ⟨0x2, 0x18, 16, 0x063, 1, 1, "op_effective", .enum8, .ro, .reset, .num 7, .any, false, false⟩,
  ⟨0x2, 0x18, 16, 0x064, 1, 1, "op_changes", .u64, .ro, .reset, .num 0, .any, false, false⟩,
  ⟨0x2, 0x10, 24, 0x065, 1, 1, "domain_voltage_mv", .u16, .ro, .reset, .num 0, .any, false, false⟩]

/-- Rows of area 3: 3.00.000 to 3.(40+c).114[k]. -/
def objRows3_0 : List ObjDesc := [
  ⟨0x3, 0x00, 1, 0x000, 1, 1, "array_formats", .bits32, .ro, .reset, .num 0x000007FE, .any, false, false⟩,
  ⟨0x3, 0x00, 1, 0x001, 1, 1, "drain_functions", .bits32, .ro, .reset, .num 0x000001FF, .any, false, false⟩,
  ⟨0x3, 0x00, 1, 0x002, 1, 1, "core_memory_bytes", .u32, .ro, .reset, .num 4194304, .any, false, false⟩,
  ⟨0x3, 0x40, 32, 0x000, 1, 16, "core_state", .enum8, .ro, .reset, .num 0, .any, false, false⟩,
  ⟨0x3, 0x40, 32, 0x010, 1, 16, "array_busy_cycles", .u64, .ro, .reset, .num 0, .any, false, false⟩,
  ⟨0x3, 0x40, 32, 0x011, 1, 16, "queue_stall_cycles", .u64, .ro, .reset, .num 0, .any, false, false⟩,
  ⟨0x3, 0x40, 32, 0x012, 1, 16, "operand_stall_cycles", .u64, .ro, .reset, .num 0, .any, false, false⟩,
  ⟨0x3, 0x40, 32, 0x013, 1, 16, "tiles_drained", .u64, .ro, .reset, .num 0, .any, false, false⟩,
  ⟨0x3, 0x40, 32, 0x014, 1, 16, "queue_peak", .u8, .ro, .reset, .num 0, .any, false, false⟩,
  ⟨0x3, 0x40, 32, 0x015, 1, 16, "last_command_status", .u8, .ro, .reset, .num 0x00, .any, false, false⟩,
  ⟨0x3, 0x40, 32, 0x020, 1, 16, "cmem_corrected", .u32, .ro, .reset, .num 0, .any, false, false⟩,
  ⟨0x3, 0x40, 32, 0x021, 1, 16, "cmem_uncorrected", .u32, .ro, .reset, .num 0, .any, false, false⟩,
  ⟨0x3, 0x40, 32, 0x022, 1, 16, "cmem_last_error_address", .u32, .ro, .reset, .num 0, .any, false, false⟩,
  ⟨0x3, 0x40, 32, 0x023, 1, 1, "cmem_scrub_period_ms", .u32, .rw, .image, .num 1000, .iv 100 60000, false, false⟩,
  ⟨0x3, 0x40, 32, 0x030, 1, 64, "dma_state", .enum8, .ro, .reset, .num 0, .any, false, false⟩,
  ⟨0x3, 0x40, 32, 0x031, 1, 64, "dma_completed", .u64, .ro, .reset, .num 0, .any, false, false⟩,
  ⟨0x3, 0x40, 32, 0x032, 1, 64, "dma_last_status", .u8, .ro, .reset, .num 0x00, .any, false, false⟩,
  ⟨0x3, 0x40, 32, 0x033, 1, 64, "dma_bytes", .u64, .ro, .reset, .num 0, .any, false, false⟩,
  ⟨0x3, 0x40, 32, 0x034, 1, 1, "dma_length_violations", .u32, .ro, .reset, .num 0, .any, false, false⟩,
  ⟨0x3, 0x00, 1, 0x100, 1, 1, "vector_lanes", .u8, .ro, .reset, .num 64, .any, false, false⟩,
  ⟨0x3, 0x00, 1, 0x101, 1, 1, "tile_registers", .u8, .ro, .reset, .num 8, .any, false, false⟩,
  ⟨0x3, 0x00, 1, 0x102, 1, 1, "vector_registers", .u8, .ro, .reset, .num 8, .any, false, false⟩,
  ⟨0x3, 0x00, 1, 0x103, 1, 1, "window_rows", .u8, .ro, .reset, .num 16, .any, false, false⟩,
  ⟨0x3, 0x00, 1, 0x104, 1, 1, "window_positions", .u8, .ro, .reset, .num 128, .any, false, false⟩,
  ⟨0x3, 0x40, 32, 0x100, 1, 16, "vector_state", .enum8, .ro, .reset, .num 0, .any, false, false⟩,
  ⟨0x3, 0x40, 32, 0x110, 1, 16, "vector_busy_cycles", .u64, .ro, .reset, .num 0, .any, false, false⟩,
  ⟨0x3, 0x40, 32, 0x111, 1, 16, "vector_wait_cycles", .u64, .ro, .reset, .num 0, .any, false, false⟩,
  ⟨0x3, 0x40, 32, 0x112, 1, 16, "vector_commands", .u64, .ro, .reset, .num 0, .any, false, false⟩,
  ⟨0x3, 0x40, 32, 0x113, 1, 16, "empty_lines", .u64, .ro, .reset, .num 0, .any, false, false⟩,
  ⟨0x3, 0x40, 32, 0x114, 1, 16, "last_empty_rows", .bits64, .ro, .reset, .num 0, .any, false, false⟩]

/-- Rows of area 3: 3.(40+c).115[k] to 3.(40+c).240. -/
def objRows3_1 : List ObjDesc := [
  ⟨0x3, 0x40, 32, 0x115, 1, 16, "last_vector_status", .u8, .ro, .reset, .num 0x00, .any, false, false⟩,
  ⟨0x3, 0x40, 32, 0x120, 1, 16, "window_span_reads", .u64, .ro, .reset, .num 0, .any, false, false⟩,
  ⟨0x3, 0x40, 32, 0x121, 1, 16, "window_span_hits", .u64, .ro, .reset, .num 0, .any, false, false⟩,
  ⟨0x3, 0x40, 32, 0x122, 1, 16, "depthwise_commands", .u64, .ro, .reset, .num 0, .any, false, false⟩,
  ⟨0x3, 0x00, 1, 0x200, 1, 1, "cluster_memory_bytes", .u32, .ro, .reset, .num 25165824, .any, false, false⟩,
  ⟨0x3, 0x00, 1, 0x201, 1, 1, "cameo_lanes", .u16, .ro, .reset, .num 1024, .any, false, false⟩,
  ⟨0x3, 0x00, 1, 0x202, 1, 1, "halo_channels", .u8, .ro, .reset, .num 64, .any, false, false⟩,
  ⟨0x3, 0x00, 1, 0x203, 1, 1, "unit_command_cycle_limit", .u32, .ro, .reset, .num 30000, .any, false, false⟩,
  ⟨0x3, 0x40, 32, 0x201, 1, 1, "clmem_corrected", .u32, .ro, .reset, .num 0, .any, false, false⟩,
  ⟨0x3, 0x40, 32, 0x202, 1, 1, "clmem_uncorrected", .u32, .ro, .reset, .num 0, .any, false, false⟩,
  ⟨0x3, 0x40, 32, 0x203, 1, 1, "clmem_last_error_address", .u32, .ro, .reset, .num 0, .any, false, false⟩,
  ⟨0x3, 0x40, 32, 0x204, 1, 1, "clmem_scrub_period_ms", .u32, .rw, .image, .num 1000, .iv 100 60000, false, false⟩,
  ⟨0x3, 0x40, 32, 0x210, 1, 1, "window_state", .enum8, .ro, .reset, .num 0, .any, false, false⟩,
  ⟨0x3, 0x40, 32, 0x211, 1, 1, "window_commands", .u64, .ro, .reset, .num 0, .any, false, false⟩,
  ⟨0x3, 0x40, 32, 0x212, 1, 1, "window_busy_cycles", .u64, .ro, .reset, .num 0, .any, false, false⟩,
  ⟨0x3, 0x40, 32, 0x213, 1, 1, "window_wait_cycles", .u64, .ro, .reset, .num 0, .any, false, false⟩,
  ⟨0x3, 0x40, 32, 0x214, 1, 1, "window_last_status", .u8, .ro, .reset, .num 0x00, .any, false, false⟩,
  ⟨0x3, 0x40, 32, 0x220, 1, 1, "cameo_state", .enum8, .ro, .reset, .num 0, .any, false, false⟩,
  ⟨0x3, 0x40, 32, 0x221, 1, 1, "cameo_commands", .u64, .ro, .reset, .num 0, .any, false, false⟩,
  ⟨0x3, 0x40, 32, 0x222, 1, 1, "cameo_busy_cycles", .u64, .ro, .reset, .num 0, .any, false, false⟩,
  ⟨0x3, 0x40, 32, 0x223, 1, 1, "cameo_wait_cycles", .u64, .ro, .reset, .num 0, .any, false, false⟩,
  ⟨0x3, 0x40, 32, 0x224, 1, 1, "cameo_last_status", .u8, .ro, .reset, .num 0x00, .any, false, false⟩,
  ⟨0x3, 0x40, 32, 0x230, 1, 64, "halo_role", .enum8, .ro, .reset, .num 0, .any, false, false⟩,
  ⟨0x3, 0x40, 32, 0x231, 1, 64, "halo_token_states", .u8, .ro, .reset, .num 0x00, .any, false, false⟩,
  ⟨0x3, 0x40, 32, 0x232, 1, 64, "halo_wait_cycles", .u64, .ro, .reset, .num 0, .any, false, false⟩,
  ⟨0x3, 0x40, 32, 0x233, 1, 1, "halo_refusals", .u32, .ro, .reset, .num 0, .any, false, false⟩,
  ⟨0x3, 0x40, 32, 0x240, 1, 1, "clmem_partition_table", .table, .ro, .reset, .bytes [], .any, false, false⟩]

/-- Rows of area 4: 4.00.200 to 4.00.030. -/
def objRows4_0 : List ObjDesc := [
  ⟨0x4, 0x00, 1, 0x200, 1, 1, "txn_slots_per_die", .u8, .ro, .reset, .num 64, .any, false, false⟩,
  ⟨0x4, 0x00, 1, 0x201, 1, 1, "txn_max_written_lines", .u16, .ro, .reset, .num 2048, .any, false, false⟩,
  ⟨0x4, 0x00, 1, 0x202, 1, 1, "txn_max_tracked_lines", .u16, .ro, .reset, .num 4096, .any, false, false⟩,
  ⟨0x4, 0x00, 1, 0x203, 1, 1, "txn_time_limit_us", .u32, .rw, .image, .num 1000, .iv 100 100000, false, false⟩,
  ⟨0x4, 0x00, 1, 0x204, 1, 1, "txn_lock_wait_limit_us", .u32, .rw, .image, .num 10, .iv 1 1000, false, false⟩,
  ⟨0x4, 0x00, 1, 0x205, 1, 1, "txn_region_table", .table, .ro, .reset, .bytes [], .any, false, false⟩,
  ⟨0x4, 0x00, 1, 0x206, 1, 1, "txn_region_count", .u16, .ro, .reset, .num 0, .any, false, false⟩,
  ⟨0x4, 0x08, 4, 0x210, 1, 1, "txn_open", .u8, .ro, .reset, .num 0, .any, false, false⟩,
  ⟨0x4, 0x08, 4, 0x211, 1, 1, "txn_open_peak", .u8, .ro, .reset, .num 0, .any, false, false⟩,
  ⟨0x4, 0x08, 4, 0x212, 1, 1, "txn_marked_lines", .u32, .ro, .reset, .num 0, .any, false, false⟩,
  ⟨0x4, 0x08, 4, 0x213, 1, 1, "txn_commits", .u64, .ro, .reset, .num 0, .any, false, false⟩,
  ⟨0x4, 0x08, 4, 0x214, 1, 1, "txn_commits_cross_die", .u64, .ro, .reset, .num 0, .any, false, false⟩,
  ⟨0x4, 0x08, 4, 0x215, 1, 1, "txn_open_refusals", .u64, .ro, .reset, .num 0, .any, false, false⟩,
  ⟨0x4, 0x08, 4, 0x216, 1, 1, "txn_lock_wait_ns", .u64, .ro, .reset, .num 0, .any, false, false⟩,
  ⟨0x4, 0x08, 4, 0x220, 1, 14, "txn_aborts", .u64, .ro, .reset, .num 0, .any, false, false⟩,
  ⟨0x4, 0x08, 4, 0x222, 1, 1, "txn_abort_log", .table, .ro, .reset, .bytes [], .any, false, false⟩,
  ⟨0x4, 0x08, 4, 0x223, 1, 1, "txn_uncached_violations", .u32, .ro, .reset, .num 0, .any, false, false⟩,
  ⟨0x4, 0x08, 4, 0x230, 1, 64, "txn_slot_state", .enum8, .ro, .reset, .num 0, .any, false, false⟩,
  ⟨0x4, 0x08, 4, 0x231, 1, 64, "txn_slot_master", .u16, .ro, .reset, .num 0xFFFF, .any, false, false⟩,
  ⟨0x4, 0x00, 1, 0x000, 1, 1, "hbm_mapped_bytes", .u64, .ro, .reset, .num 717315604480, .any, false, false⟩,
  ⟨0x4, 0x00, 1, 0x001, 1, 1, "hbm_spare_bands_free", .u8, .ro, .reset, .num 2, .any, false, false⟩,
  ⟨0x4, 0x00, 1, 0x004, 1, 1, "hbm_out_of_service_bytes", .u64, .ro, .reset, .num 0, .any, false, false⟩,
  ⟨0x4, 0x00, 1, 0x005, 1, 1, "hbm_lost_bytes", .u64, .ro, .reset, .num 0, .any, false, false⟩,
  ⟨0x4, 0x00, 1, 0x010, 1, 1, "segment_table", .table, .rwc, .image, .bytes [], .any, false, false⟩,
  ⟨0x4, 0x00, 1, 0x011, 1, 1, "segment_count", .u16, .ro, .reset, .num 85, .any, false, false⟩,
  ⟨0x4, 0x00, 1, 0x020, 1, 1, "fence_table", .table, .ro, .reset, .bytes [], .any, false, false⟩,
  ⟨0x4, 0x00, 1, 0x021, 1, 1, "lost_line_table", .table, .ro, .reset, .bytes [], .any, false, false⟩,
  ⟨0x4, 0x00, 1, 0x022, 1, 1, "lost_line_count", .u16, .ro, .reset, .num 0, .any, false, false⟩,
  ⟨0x4, 0x00, 1, 0x023, 1, 1, "dead_pcs", .blob, .ro, .reset, .bytes (List.replicate 80 0), .any, false, false⟩,
  ⟨0x4, 0x00, 1, 0x030, 1, 1, "retrain_period_ms", .u32, .rw, .image, .num 1000, .iv 100 60000, false, false⟩]

/-- Rows of area 4: 4.00.031 to 4.(60+s).111. -/
def objRows4_1 : List ObjDesc := [
  ⟨0x4, 0x00, 1, 0x031, 1, 1, "retrain_temp_delta_c", .u8, .rw, .reset, .num 8, .iv 2 20, false, false⟩,
  ⟨0x4, 0x00, 1, 0x032, 1, 1, "retrain_stall_bound_us", .u16, .ro, .reset, .num 40, .any, false, false⟩,
  ⟨0x4, 0x00, 1, 0x033, 1, 1, "hbm_scrub_period_s", .u32, .rw, .image, .num 86400, .iv 3600 604800, false, false⟩,
  ⟨0x4, 0x00, 1, 0x034, 1, 1, "fence_hold_bound_us", .u16, .ro, .reset, .num 100, .any, false, false⟩,
  ⟨0x4, 0x00, 1, 0x035, 1, 1, "retrain_corrected_rate", .u32, .rw, .reset, .num 1000, .iv 10 1000000, false, false⟩,
  ⟨0x4, 0x08, 4, 0x040, 1, 1, "cache_hits", .u64, .ro, .reset, .num 0, .any, false, false⟩,
  ⟨0x4, 0x08, 4, 0x041, 1, 1, "cache_misses", .u64, .ro, .reset, .num 0, .any, false, false⟩,
  ⟨0x4, 0x08, 4, 0x042, 1, 1, "cache_writebacks", .u64, .ro, .reset, .num 0, .any, false, false⟩,
  ⟨0x4, 0x08, 4, 0x043, 1, 1, "atomics", .u64, .ro, .reset, .num 0, .any, false, false⟩,
  ⟨0x4, 0x08, 4, 0x044, 1, 1, "reduction_adds", .u64, .ro, .reset, .num 0, .any, false, false⟩,
  ⟨0x4, 0x08, 4, 0x045, 1, 1, "uncached_accesses", .u64, .ro, .reset, .num 0, .any, false, false⟩,
  ⟨0x4, 0x08, 4, 0x046, 1, 1, "nonallocating_fills", .u64, .ro, .reset, .num 0, .any, false, false⟩,
  ⟨0x4, 0x08, 4, 0x047, 1, 1, "map_violations", .u32, .ro, .reset, .num 0, .any, false, false⟩,
  ⟨0x4, 0x08, 4, 0x048, 1, 1, "cache_corrected", .u32, .ro, .reset, .num 0, .any, false, false⟩,
  ⟨0x4, 0x60, 20, 0x100, 1, 32, "pc_state", .enum8, .ro, .reset, .num 0, .any, false, false⟩,
  ⟨0x4, 0x60, 20, 0x101, 1, 32, "pc_corrected", .u32, .ro, .reset, .num 0, .any, false, false⟩,
  ⟨0x4, 0x60, 20, 0x102, 1, 32, "pc_uncorrected", .u32, .ro, .reset, .num 0, .any, false, false⟩,
  ⟨0x4, 0x60, 20, 0x103, 1, 32, "pc_last_error_granule", .u32, .ro, .reset, .num 0, .any, false, false⟩,
  ⟨0x4, 0x60, 20, 0x104, 1, 32, "pc_retrain_count", .u32, .ro, .reset, .num 0, .any, false, false⟩,
  ⟨0x4, 0x60, 20, 0x105, 1, 32, "pc_stall_total_ns", .u64, .ro, .reset, .num 0, .any, false, false⟩,
  ⟨0x4, 0x60, 20, 0x106, 1, 32, "pc_stall_max_ns", .u32, .ro, .reset, .num 0, .any, false, false⟩,
  ⟨0x4, 0x60, 20, 0x107, 1, 32, "pc_rate_mbps", .u16, .ro, .reset, .num 9600, .any, false, false⟩,
  ⟨0x4, 0x60, 20, 0x110, 1, 1, "stack_temperature_c", .i16, .ro, .reset, .num 0, .any, false, false⟩,
  ⟨0x4, 0x60, 20, 0x111, 1, 1, "refresh_mode", .enum8, .ro, .reset, .num 0, .any, false, false⟩]

/-- Rows of area 5: 5.00.000 to 5.(A0+l).00B. -/
def objRows5_0 : List ObjDesc := [
  ⟨0x5, 0x00, 1, 0x000, 1, 1, "brodlu_udp_port", .u16, .rwc, .image, .num 50321, .any, false, false⟩,
  ⟨0x5, 0x00, 1, 0x001, 1, 1, "context_count", .u16, .ro, .reset, .num 4096, .any, false, false⟩,
  ⟨0x5, 0x00, 1, 0x010, 1, 1, "rc_decrease", .f32, .rw, .reset, .num 0x3E000000, .special, false, false⟩,
  ⟨0x5, 0x00, 1, 0x011, 1, 1, "rc_period_us", .u16, .rw, .reset, .num 50, .iv 10 1000, false, false⟩,
  ⟨0x5, 0x00, 1, 0x012, 1, 1, "rc_increase_mbps", .u32, .rw, .reset, .num 2000, .iv 1 100000, false, false⟩,
  ⟨0x5, 0x00, 1, 0x013, 1, 1, "rc_min_mbps", .u32, .rw, .reset, .num 1000, .iv 1 100000, false, false⟩,
  ⟨0x5, 0x00, 1, 0x014, 1, 1, "sync_timeout_ms", .u32, .rw, .reset, .num 1000, .iv 10 600000, false, false⟩,
  ⟨0x5, 0x00, 1, 0x020, 1, 1, "violation_log", .table, .ro, .reset, .bytes [], .any, false, false⟩,
  ⟨0x5, 0x00, 1, 0x021, 1, 1, "violation_count", .u64, .ro, .reset, .num 0, .any, false, false⟩,
  ⟨0x5, 0x00, 1, 0x030, 1, 32, "plans_completed", .u64, .ro, .reset, .num 0, .any, false, false⟩,
  ⟨0x5, 0x00, 1, 0x031, 1, 32, "last_plan_status", .u8, .ro, .reset, .num 0x00, .any, false, false⟩,
  ⟨0x5, 0x00, 1, 0x032, 1, 32, "last_plan_number", .u16, .ro, .reset, .num 0xFFFF, .any, false, false⟩,
  ⟨0x5, 0x00, 1, 0x100, 16, 256, "ctx_config", .blob, .rws, .reset, .bytes [], .any, false, false⟩,
  ⟨0x5, 0x00, 1, 0x110, 16, 256, "ctx_windows", .blob, .rws, .reset, .bytes [], .any, false, false⟩,
  ⟨0x5, 0x00, 1, 0x120, 16, 256, "ctx_control", .enum8, .wo, .reset, .num 0, .oneOf [1, 2], false, false⟩,
  ⟨0x5, 0x00, 1, 0x130, 16, 256, "ctx_state", .enum8, .ro, .reset, .num 0, .any, false, false⟩,
  ⟨0x5, 0x00, 1, 0x140, 16, 256, "ctx_thaw", .bool, .adm, .reset, .num 0, .any, false, false⟩,
  ⟨0x5, 0x00, 1, 0x150, 16, 256, "ctx_stats", .blob, .ro, .reset, .bytes (List.replicate 64 0), .any, false, false⟩,
  ⟨0x5, 0xA0, 96, 0x000, 1, 1, "port_mode", .enum8, .rw, .image, .num 0, .oneOf [0, 1, 2], false, false⟩,
  ⟨0x5, 0xA0, 96, 0x001, 1, 1, "port_lanes", .u8, .rws, .image, .num 1, .oneOf [1, 2, 4, 8], false, false⟩,
  ⟨0x5, 0xA0, 96, 0x002, 1, 1, "port_media", .enum8, .rws, .image, .num 0, .oneOf [0, 1, 2, 3], false, false⟩,
  ⟨0x5, 0xA0, 96, 0x003, 1, 1, "mac_address", .u64, .rws, .image, .num 0, .mask 0xFFFFFFFFFFFF, false, false⟩,
  ⟨0x5, 0xA0, 96, 0x004, 1, 1, "ipv4_address", .u32, .rws, .reset, .num 0, .any, false, false⟩,
  ⟨0x5, 0xA0, 96, 0x005, 1, 1, "ipv6_address", .blob, .rws, .reset, .bytes (List.replicate 16 0), .any, false, false⟩,
  ⟨0x5, 0xA0, 96, 0x006, 1, 1, "vlan", .bits32, .rws, .reset, .num 0, .mask 0xFFFF, false, false⟩,
  ⟨0x5, 0xA0, 96, 0x007, 1, 1, "dscp", .u8, .rws, .reset, .num 0, .iv 0 63, false, false⟩,
  ⟨0x5, 0xA0, 96, 0x008, 1, 1, "ip_mtu", .u16, .rws, .reset, .num 9000, .iv 1280 9194, false, false⟩,
  ⟨0x5, 0xA0, 96, 0x009, 1, 1, "ecn_enable", .bool, .rws, .reset, .num 1, .any, false, false⟩,
  ⟨0x5, 0xA0, 96, 0x00A, 1, 1, "pfc_mask", .bits32, .rws, .reset, .num 0, .mask 0xFF, false, false⟩,
  ⟨0x5, 0xA0, 96, 0x00B, 1, 1, "pfc_xoff", .u16, .rws, .reset, .num 0, .any, false, false⟩]

/-- Rows of area 5: 5.(A0+l).00C to 5.(A0+l).022. -/
def objRows5_1 : List ObjDesc := [
  ⟨0x5, 0xA0, 96, 0x00C, 1, 1, "pfc_xon", .u16, .rws, .reset, .num 0, .any, false, false⟩,
  ⟨0x5, 0xA0, 96, 0x00D, 1, 1, "peer_mac", .u64, .rws, .reset, .num 0, .mask 0xFFFFFFFFFFFF, false, false⟩,
  ⟨0x5, 0xA0, 96, 0x00E, 1, 1, "rx_reserve", .u16, .rws, .reset, .num 256, .iv 0 1024, false, false⟩,
  ⟨0x5, 0xA0, 96, 0x00F, 1, 1, "rx_cap", .u16, .rws, .reset, .num 2048, .any, false, false⟩,
  ⟨0x5, 0xA0, 96, 0x010, 1, 1, "port_state", .enum8, .ro, .reset, .num 0, .any, false, false⟩,
  ⟨0x5, 0xA0, 96, 0x011, 1, 1, "rx_drops", .u64, .ro, .reset, .num 0, .any, false, false⟩,
  ⟨0x5, 0xA0, 96, 0x012, 1, 1, "rx_class", .enum8, .rws, .reset, .num 0, .oneOf [0, 1], false, false⟩,
  ⟨0x5, 0xA0, 96, 0x013, 1, 1, "pause_ignored", .u64, .ro, .reset, .num 0, .any, false, false⟩,
  ⟨0x5, 0xA0, 96, 0x014, 1, 1, "pfc_sent", .u64, .ro, .reset, .num 0, .any, false, false⟩,
  ⟨0x5, 0xA0, 96, 0x015, 1, 1, "link_replays", .u64, .ro, .reset, .num 0, .any, false, false⟩,
  ⟨0x5, 0xA0, 96, 0x016, 1, 1, "link_replay_skips", .u64, .ro, .reset, .num 0, .any, false, false⟩,
  ⟨0x5, 0xA0, 96, 0x020, 1, 1, "lane_state", .enum8, .ro, .reset, .num 0, .any, false, false⟩,
  ⟨0x5, 0xA0, 96, 0x021, 1, 1, "fec_corrected", .u64, .ro, .reset, .num 0, .any, false, false⟩,
  ⟨0x5, 0xA0, 96, 0x022, 1, 1, "fec_uncorrected", .u64, .ro, .reset, .num 0, .any, false, false⟩]

/-- Rows of area 6: 6.00.000 to 6.(30+m).100[s]. -/
def objRows6_0 : List ObjDesc := [
  ⟨0x6, 0x00, 1, 0x000, 1, 1, "input_streams", .u16, .ro, .reset, .num 256, .any, false, false⟩,
  ⟨0x6, 0x00, 1, 0x001, 1, 1, "strand_max_tokens", .u32, .ro, .reset, .num 65536, .any, false, false⟩,
  ⟨0x6, 0x00, 1, 0x002, 1, 1, "strand_max_samples", .u8, .ro, .reset, .num 64, .any, false, false⟩,
  ⟨0x6, 0x00, 1, 0x003, 1, 1, "mesh_max_nodes", .u8, .ro, .reset, .num 129, .any, false, false⟩,
  ⟨0x6, 0x00, 1, 0x004, 1, 1, "stft_max_points", .u16, .ro, .reset, .num 2048, .any, false, false⟩,
  ⟨0x6, 0x00, 1, 0x005, 1, 1, "mel_max_bands", .u16, .ro, .reset, .num 256, .any, false, false⟩,
  ⟨0x6, 0x00, 1, 0x010, 1, 1, "split_period_us", .u32, .rw, .image, .num 1000, .iv 100 100000, false, false⟩,
  ⟨0x6, 0x00, 1, 0x011, 1, 1, "split_step", .u16, .rw, .reset, .num 16, .iv 1 256, false, false⟩,
  ⟨0x6, 0x00, 1, 0x012, 1, 1, "split_high", .f32, .rw, .reset, .num 0x3F400000, .special, false, false⟩,
  ⟨0x6, 0x00, 1, 0x013, 1, 1, "split_low", .f32, .rw, .reset, .num 0x3E800000, .special, false, false⟩,
  ⟨0x6, 0x30, 4, 0x000, 1, 4, "split_ratio", .u16, .ro, .reset, .num 0, .any, false, true⟩,
  ⟨0x6, 0x30, 4, 0x001, 1, 4, "decode_occupancy", .f32, .ro, .reset, .num 0x00000000, .any, false, false⟩,
  ⟨0x6, 0x30, 4, 0x010, 1, 64, "stream_config", .blob, .rws, .reset, .bytes [], .any, false, false⟩,
  ⟨0x6, 0x30, 4, 0x011, 1, 64, "stream_control", .enum8, .wo, .reset, .num 0, .oneOf [1, 2, 3], false, false⟩,
  ⟨0x6, 0x30, 4, 0x012, 1, 64, "stream_state", .enum8, .ro, .reset, .num 0, .any, false, false⟩,
  ⟨0x6, 0x30, 4, 0x013, 1, 64, "next_sample_seq", .u32, .rws, .reset, .num 0, .any, false, false⟩,
  ⟨0x6, 0x30, 4, 0x014, 1, 64, "mean_decode_ns", .u32, .ro, .reset, .num 0, .any, false, false⟩,
  ⟨0x6, 0x30, 4, 0x015, 1, 64, "stream_stats", .blob, .ro, .reset, .bytes (List.replicate 96 0), .any, false, false⟩,
  ⟨0x6, 0x30, 4, 0x016, 1, 64, "strand_head", .u64, .ro, .reset, .num 0, .any, false, false⟩,
  ⟨0x6, 0x30, 4, 0x017, 1, 64, "stream_thaw", .bool, .adm, .reset, .num 0, .any, false, false⟩,
  ⟨0x6, 0x30, 4, 0x020, 1, 1, "reject_log", .table, .ro, .reset, .bytes [], .any, false, false⟩,
  ⟨0x6, 0x00, 1, 0x100, 1, 1, "video_decode_engines", .u8, .ro, .reset, .num 8, .any, false, false⟩,
  ⟨0x6, 0x00, 1, 0x101, 1, 1, "jpeg_engines", .u8, .ro, .reset, .num 4, .any, false, false⟩,
  ⟨0x6, 0x00, 1, 0x102, 1, 1, "png_engines", .u8, .ro, .reset, .num 2, .any, false, false⟩,
  ⟨0x6, 0x00, 1, 0x103, 1, 1, "encoders", .u8, .ro, .reset, .num 2, .any, false, false⟩,
  ⟨0x6, 0x00, 1, 0x104, 1, 1, "decode_codecs", .bits32, .ro, .reset, .num 0x00000FFF, .any, false, false⟩,
  ⟨0x6, 0x00, 1, 0x105, 1, 1, "encode_codecs", .bits32, .ro, .reset, .num 0x0000000F, .any, false, false⟩,
  ⟨0x6, 0x00, 1, 0x110, 1, 1, "conceal_limit_permille", .u16, .rw, .image, .num 500, .iv 0 1000, false, false⟩,
  ⟨0x6, 0x00, 1, 0x111, 1, 1, "av1_film_grain", .bool, .rw, .reset, .num 0, .any, false, false⟩,
  ⟨0x6, 0x30, 4, 0x100, 1, 64, "encode_config", .blob, .rws, .reset, .bytes [], .any, false, false⟩]

/-- Rows of area 6: 6.(30+m).101[s] to 6.(30+m).123. -/
def objRows6_1 : List ObjDesc := [
  ⟨0x6, 0x30, 4, 0x101, 1, 64, "encode_control", .enum8, .wo, .reset, .num 0, .oneOf [1, 2], false, false⟩,
  ⟨0x6, 0x30, 4, 0x102, 1, 64, "encode_state", .enum8, .ro, .reset, .num 0, .any, false, false⟩,
  ⟨0x6, 0x30, 4, 0x103, 1, 64, "encode_stats", .blob, .ro, .reset, .bytes (List.replicate 64 0), .any, false, false⟩,
  ⟨0x6, 0x30, 4, 0x104, 1, 64, "encode_thaw", .bool, .adm, .reset, .num 0, .any, false, false⟩,
  ⟨0x6, 0x30, 4, 0x110, 1, 18, "engine_state", .enum8, .ro, .reset, .num 0, .any, false, false⟩,
  ⟨0x6, 0x30, 4, 0x111, 1, 256, "engine_busy_ns", .u64, .ro, .reset, .num 0, .any, false, false⟩,
  ⟨0x6, 0x30, 4, 0x112, 1, 256, "engine_output", .u64, .ro, .reset, .num 0, .any, false, false⟩,
  ⟨0x6, 0x30, 4, 0x120, 1, 1, "damage_log", .table, .ro, .reset, .bytes [], .any, false, false⟩,
  ⟨0x6, 0x30, 4, 0x121, 1, 1, "damage_count", .u64, .ro, .reset, .num 0, .any, false, false⟩,
  ⟨0x6, 0x30, 4, 0x122, 1, 1, "unsupported_samples", .u64, .ro, .reset, .num 0, .any, false, false⟩,
  ⟨0x6, 0x30, 4, 0x123, 1, 1, "lc_switch_wait_ns", .u64, .ro, .reset, .num 0, .any, false, false⟩]

/-- Rows of area 7: 7.00.000 to 7.00.120[j]. -/
def objRows7_0 : List ObjDesc := [
  ⟨0x7, 0x00, 1, 0x000, 1, 1, "job_slots", .u8, .ro, .reset, .num 32, .any, false, false⟩,
  ⟨0x7, 0x00, 1, 0x001, 1, 1, "resident_limit", .u8, .ro, .reset, .num 8, .any, false, false⟩,
  ⟨0x7, 0x00, 1, 0x002, 1, 1, "core_record_bytes", .u32, .ro, .reset, .num 4497408, .any, false, false⟩,
  ⟨0x7, 0x00, 1, 0x003, 1, 1, "cheap_point_cycles", .u32, .ro, .reset, .num 120000, .any, false, false⟩,
  ⟨0x7, 0x00, 1, 0x004, 1, 1, "nonpreemptible_us", .u16, .ro, .reset, .num 50, .any, false, false⟩,
  ⟨0x7, 0x00, 1, 0x005, 1, 1, "resident_count", .u8, .ro, .reset, .num 0, .any, false, false⟩,
  ⟨0x7, 0x00, 1, 0x010, 1, 1, "save_pool_base", .u64, .rwc, .image, .num 0x4C00000000, .special, false, false⟩,
  ⟨0x7, 0x00, 1, 0x011, 1, 1, "save_pool_bytes", .u64, .rwc, .image, .num 0x400000000, .special, false, false⟩,
  ⟨0x7, 0x00, 1, 0x012, 1, 1, "cheap_point_wait_us", .u32, .rw, .image, .num 200, .iv 50 10000, false, false⟩,
  ⟨0x7, 0x00, 1, 0x013, 1, 1, "watchdog_default_ms", .u32, .rw, .image, .num 1000, .special, false, false⟩,
  ⟨0x7, 0x00, 1, 0x014, 1, 1, "save_pool_free_bytes", .u64, .ro, .reset, .num 0x400000000, .any, false, false⟩,
  ⟨0x7, 0x00, 1, 0x100, 1, 32, "job_state", .enum8, .ro, .reset, .num 0, .any, false, false⟩,
  ⟨0x7, 0x00, 1, 0x101, 1, 32, "job_class", .enum8, .ro, .reset, .num 0, .any, false, false⟩,
  ⟨0x7, 0x00, 1, 0x102, 1, 32, "slice_us", .u32, .rw, .reset, .num 0, .iv 1000 100000, false, false⟩,
  ⟨0x7, 0x00, 1, 0x103, 1, 32, "watchdog_ms", .u32, .rw, .reset, .num 0, .special, false, false⟩,
  ⟨0x7, 0x00, 1, 0x104, 1, 32, "step_record", .blob, .ro, .reset, .bytes (List.replicate 32 0), .any, false, false⟩,
  ⟨0x7, 0x00, 1, 0x105, 1, 32, "steps_pending", .u8, .ro, .reset, .num 0, .any, false, false⟩,
  ⟨0x7, 0x00, 1, 0x106, 1, 32, "steps_completed", .u64, .ro, .reset, .num 0, .any, false, false⟩,
  ⟨0x7, 0x00, 1, 0x107, 1, 32, "save_area_base", .u64, .ro, .reset, .num 0, .any, false, false⟩,
  ⟨0x7, 0x00, 1, 0x108, 1, 32, "save_area_bytes", .u64, .ro, .reset, .num 0, .any, false, false⟩,
  ⟨0x7, 0x00, 1, 0x109, 1, 32, "slice_debt_us", .u32, .ro, .reset, .num 0, .any, false, false⟩,
  ⟨0x7, 0x00, 1, 0x110, 1, 32, "preemptions", .u64, .ro, .reset, .num 0, .any, false, false⟩,
  ⟨0x7, 0x00, 1, 0x111, 1, 32, "last_release_ns", .u32, .ro, .reset, .num 0, .any, false, false⟩,
  ⟨0x7, 0x00, 1, 0x112, 1, 32, "max_release_ns", .u32, .ro, .reset, .num 0, .any, false, false⟩,
  ⟨0x7, 0x00, 1, 0x113, 1, 32, "long_commands", .u64, .ro, .reset, .num 0, .any, false, false⟩,
  ⟨0x7, 0x00, 1, 0x114, 1, 32, "longest_command_ns", .u32, .ro, .reset, .num 0, .any, false, false⟩,
  ⟨0x7, 0x00, 1, 0x115, 1, 32, "watchdog_expiries", .u32, .ro, .reset, .num 0, .any, false, false⟩,
  ⟨0x7, 0x00, 1, 0x116, 1, 32, "forced_saves", .u64, .ro, .reset, .num 0, .any, false, false⟩,
  ⟨0x7, 0x00, 1, 0x117, 1, 32, "live_save_bytes", .u64, .ro, .reset, .num 0, .any, false, false⟩,
  ⟨0x7, 0x00, 1, 0x120, 1, 32, "job_control", .enum8, .wo, .reset, .num 0, .oneOf [1, 2, 3, 4, 5], false, false⟩]

/-- Rows of area 7: 7.00.121[j] to 7.(40+c).130[k]. -/
def objRows7_1 : List ObjDesc := [
  ⟨0x7, 0x00, 1, 0x121, 1, 32, "registration_address", .u64, .rws, .reset, .num 0, .any, false, false⟩,
  ⟨0x7, 0x00, 1, 0x122, 1, 32, "step_submit", .blob, .wo, .reset, .bytes [], .any, false, false⟩,
  ⟨0x7, 0x00, 1, 0x123, 1, 32, "job_thaw", .bool, .adm, .reset, .num 0, .any, false, false⟩,
  ⟨0x7, 0x40, 32, 0x130, 1, 16, "core_occupant", .u8, .ro, .reset, .num 0xFF, .any, false, false⟩]

/-- Rows of area 8: 8.00.000 to 8.00.121. -/
def objRows8_0 : List ObjDesc := [
  ⟨0x8, 0x00, 1, 0x000, 1, 1, "format_support", .bits32, .ro, .reset, .num 0x000007FF, .any, false, false⟩,
  ⟨0x8, 0x00, 1, 0x001, 1, 1, "block_mode_support", .bits32, .ro, .reset, .num 0x0000007F, .any, false, false⟩,
  ⟨0x8, 0x00, 1, 0x002, 1, 1, "stochastic_rounding", .bool, .ro, .reset, .num 0, .any, false, false⟩,
  ⟨0x8, 0x00, 1, 0x010, 1, 1, "loupe_enable", .bool, .rw, .image, .num 1, .any, false, false⟩,
  ⟨0x8, 0x00, 1, 0x011, 1, 1, "loupe_capacity", .u16, .ro, .reset, .num 4096, .any, false, false⟩,
  ⟨0x8, 0x00, 1, 0x012, 1, 1, "loupe_entries_used", .u16, .ro, .reset, .num 0, .any, false, false⟩,
  ⟨0x8, 0x00, 1, 0x013, 1, 1, "loupe_untracked_elements", .u64, .ro, .reset, .num 0, .any, false, false⟩,
  ⟨0x8, 0x00, 1, 0x020, 1, 1, "loupe_live_table", .table, .ro, .reset, .bytes [], .any, false, false⟩,
  ⟨0x8, 0x00, 1, 0x021, 1, 1, "loupe_frozen_table", .table, .ro, .reset, .bytes [], .any, false, false⟩,
  ⟨0x8, 0x00, 1, 0x022, 1, 32, "loupe_frozen_step", .u32, .ro, .reset, .num 0, .any, false, false⟩,
  ⟨0x8, 0x00, 1, 0x030, 1, 1, "facet_low_clamps", .u64, .ro, .reset, .num 0, .any, false, false⟩,
  ⟨0x8, 0x00, 1, 0x031, 1, 1, "facet_high_clamps", .u64, .ro, .reset, .num 0, .any, false, false⟩,
  ⟨0x8, 0x00, 1, 0x032, 1, 1, "facet_nan_blocks", .u64, .ro, .reset, .num 0, .any, false, false⟩,
  ⟨0x8, 0x00, 1, 0x040, 1, 1, "loupe_hist_top_mode", .enum8, .rw, .reset, .num 0, .oneOf [0, 1], false, false⟩,
  ⟨0x8, 0x00, 1, 0x041, 1, 1, "loupe_hist_top_fixed", .i8, .rw, .reset, .num 0, .special, false, false⟩,
  ⟨0x8, 0x00, 1, 0x100, 1, 32, "parallel_mode", .enum8, .ro, .reset, .num 0xFF, .any, false, false⟩,
  ⟨0x8, 0x00, 1, 0x101, 1, 32, "group_size", .u16, .ro, .reset, .num 0, .any, false, false⟩,
  ⟨0x8, 0x00, 1, 0x102, 1, 32, "group_index", .u16, .ro, .reset, .num 0, .any, false, false⟩,
  ⟨0x8, 0x00, 1, 0x103, 1, 32, "micro_batches", .u16, .ro, .reset, .num 0, .any, false, false⟩,
  ⟨0x8, 0x00, 1, 0x104, 1, 32, "schedule_entries", .u32, .ro, .reset, .num 0, .any, false, false⟩,
  ⟨0x8, 0x00, 1, 0x105, 1, 32, "schedule_position", .u32, .ro, .reset, .num 0, .any, false, false⟩,
  ⟨0x8, 0x00, 1, 0x106, 1, 32, "gather_buffer_states", .bits32, .ro, .reset, .num 0, .any, false, false⟩,
  ⟨0x8, 0x00, 1, 0x107, 1, 32, "last_failed_entry", .u32, .ro, .reset, .num 0xFFFFFFFF, .any, false, false⟩,
  ⟨0x8, 0x00, 1, 0x110, 1, 1, "selector_beta", .f32, .rw, .image, .num 0x3F666666, .special, false, false⟩,
  ⟨0x8, 0x00, 1, 0x111, 1, 1, "selector_sat_threshold", .f32, .rw, .image, .num 0x358637BD, .special, false, false⟩,
  ⟨0x8, 0x00, 1, 0x112, 1, 1, "selector_uf_threshold", .f32, .rw, .image, .num 0x3A83126F, .special, false, false⟩,
  ⟨0x8, 0x00, 1, 0x113, 1, 32, "selector_mode", .enum8, .rw, .reset, .num 0, .oneOf [0, 1, 2], false, false⟩,
  ⟨0x8, 0x00, 1, 0x114, 1, 32, "selector_entry_count", .u16, .ro, .reset, .num 0, .any, false, false⟩,
  ⟨0x8, 0x00, 1, 0x120, 1, 1, "selector_log", .table, .ro, .reset, .bytes [], .any, false, false⟩,
  ⟨0x8, 0x00, 1, 0x121, 1, 1, "selector_log_written", .u64, .ro, .reset, .num 0, .any, false, false⟩]

/-- Rows of area 8: 8.00.122[j] to 8.(60+s).245. -/
def objRows8_1 : List ObjDesc := [
  ⟨0x8, 0x00, 1, 0x122, 1, 32, "selector_choices", .blob, .ro, .reset, .bytes [], .any, false, false⟩,
  ⟨0x8, 0x00, 1, 0x130, 1, 32, "dispatch_spills", .u64, .ro, .reset, .num 0, .any, false, false⟩,
  ⟨0x8, 0x00, 1, 0x131, 1, 32, "dispatch_deferred", .u64, .ro, .reset, .num 0, .any, false, false⟩,
  ⟨0x8, 0x00, 1, 0x132, 1, 32, "dispatch_max_rounds", .u8, .ro, .reset, .num 0, .any, false, false⟩,
  ⟨0x8, 0x00, 1, 0x133, 1, 32, "dispatch_tokens", .u64, .ro, .reset, .num 0, .any, false, false⟩,
  ⟨0x8, 0x00, 1, 0x140, 1, 32, "gathers_completed", .u64, .ro, .reset, .num 0, .any, false, false⟩,
  ⟨0x8, 0x00, 1, 0x141, 1, 32, "gather_bytes", .u64, .ro, .reset, .num 0, .any, false, false⟩,
  ⟨0x8, 0x00, 1, 0x200, 1, 1, "update_rules", .bits32, .ro, .reset, .num 0x0000007F, .any, false, false⟩,
  ⟨0x8, 0x00, 1, 0x201, 1, 1, "block_parameters", .u16, .ro, .reset, .num 8192, .any, false, false⟩,
  ⟨0x8, 0x00, 1, 0x202, 1, 1, "block_bytes", .u32, .ro, .reset, .num 131072, .any, false, false⟩,
  ⟨0x8, 0x00, 1, 0x210, 1, 32, "clip_max_norm", .f32, .rw, .image, .num 0x3F800000, .special, false, false⟩,
  ⟨0x8, 0x00, 1, 0x211, 1, 32, "clip_factor", .f32, .ro, .reset, .num 0x3F800000, .any, false, false⟩,
  ⟨0x8, 0x00, 1, 0x212, 1, 32, "global_norm", .f32, .ro, .reset, .num 0x00000000, .any, false, false⟩,
  ⟨0x8, 0x00, 1, 0x213, 1, 32, "group_count", .u16, .ro, .reset, .num 0, .any, false, false⟩,
  ⟨0x8, 0x00, 1, 0x214, 1, 32, "last_applied_step", .u32, .ro, .reset, .num 0, .any, false, false⟩,
  ⟨0x8, 0x00, 1, 0x215, 1, 32, "blocks_skipped", .u64, .ro, .reset, .num 0, .any, false, false⟩,
  ⟨0x8, 0x00, 1, 0x216, 1, 32, "stamp_refusals", .u32, .ro, .reset, .num 0, .any, false, false⟩,
  ⟨0x8, 0x00, 1, 0x220, 1, 32, "hallmark_interval", .u32, .rw, .reset, .num 0, .iv 0 1000000, false, false⟩,
  ⟨0x8, 0x00, 1, 0x221, 1, 32, "hallmark_replicas", .u8, .ro, .reset, .num 1, .any, false, false⟩,
  ⟨0x8, 0x00, 1, 0x222, 1, 32, "hallmark_replica_index", .u8, .ro, .reset, .num 0, .any, false, false⟩,
  ⟨0x8, 0x00, 1, 0x223, 1, 32, "hallmark_plan", .u16, .ro, .reset, .num 0, .any, false, false⟩,
  ⟨0x8, 0x00, 1, 0x224, 1, 32, "hallmark_last_step", .u32, .ro, .reset, .num 0, .any, false, false⟩,
  ⟨0x8, 0x00, 1, 0x230, 1, 1, "mismatch_log", .table, .ro, .reset, .bytes [], .any, false, false⟩,
  ⟨0x8, 0x00, 1, 0x231, 1, 1, "mismatch_count", .u64, .ro, .reset, .num 0, .any, false, true⟩,
  ⟨0x8, 0x60, 20, 0x240, 1, 1, "update_unit_state", .enum8, .ro, .reset, .num 0, .any, false, false⟩,
  ⟨0x8, 0x60, 20, 0x241, 1, 1, "blocks_committed", .u64, .ro, .reset, .num 0, .any, false, false⟩,
  ⟨0x8, 0x60, 20, 0x242, 1, 1, "conflict_retries", .u64, .ro, .reset, .num 0, .any, false, false⟩,
  ⟨0x8, 0x60, 20, 0x243, 1, 1, "slot_waits", .u64, .ro, .reset, .num 0, .any, false, false⟩,
  ⟨0x8, 0x60, 20, 0x244, 1, 1, "nonfinite_gradients", .u64, .ro, .reset, .num 0, .any, false, false⟩,
  ⟨0x8, 0x60, 20, 0x245, 1, 1, "last_update_status", .u8, .ro, .reset, .num 0x00, .any, false, false⟩]

/-- Rows of area 9: 9.00.000 to 9.00.041. -/
def objRows9_0 : List ObjDesc := [
  ⟨0x9, 0x00, 1, 0x000, 1, 1, "signet_version", .u16, .ro, .reset, .num 0x0100, .any, false, false⟩,
  ⟨0x9, 0x00, 1, 0x001, 1, 1, "identity_public_key", .blob, .ro, .fuse, .bytes [], .any, false, false⟩,
  ⟨0x9, 0x00, 1, 0x002, 1, 1, "identity_key_id", .blob, .ro, .fuse, .bytes [], .any, false, false⟩,
  ⟨0x9, 0x00, 1, 0x003, 1, 1, "vendor_key_hash", .blob, .ro, .fuse, .bytes [], .any, false, false⟩,
  ⟨0x9, 0x00, 1, 0x004, 1, 1, "owner_key_hash", .blob, .ro, .fuse, .bytes [], .any, false, false⟩,
  ⟨0x9, 0x00, 1, 0x005, 1, 1, "owner_key_present", .bool, .ro, .fuse, .num 0, .any, false, false⟩,
  ⟨0x9, 0x00, 1, 0x006, 1, 1, "rollback_counter", .u16, .ro, .fuse, .num 0, .any, false, false⟩,
  ⟨0x9, 0x00, 1, 0x007, 1, 1, "rollback_commit", .u16, .adm, .reset, .num 0, .special, false, false⟩,
  ⟨0x9, 0x00, 1, 0x008, 1, 1, "rollback_burn_failures", .u32, .ro, .reset, .num 0, .any, false, false⟩,
  ⟨0x9, 0x00, 1, 0x010, 1, 1, "image_signing_key", .blob, .ro, .image, .bytes [], .any, false, false⟩,
  ⟨0x9, 0x00, 1, 0x011, 1, 1, "image_signer", .enum8, .ro, .reset, .num 0xFF, .any, false, false⟩,
  ⟨0x9, 0x00, 1, 0x020, 1, 4, "measurement", .blob, .ro, .reset, .bytes (List.replicate 32 0), .any, false, false⟩,
  ⟨0x9, 0x00, 1, 0x021, 1, 4, "measurement_extends", .u64, .ro, .reset, .num 0, .any, false, false⟩,
  ⟨0x9, 0x00, 1, 0x030, 1, 1, "attest_nonce", .blob, .wo, .reset, .bytes [], .any, false, false⟩,
  ⟨0x9, 0x00, 1, 0x031, 1, 1, "attest_report", .blob, .ro, .reset, .bytes [], .any, false, false⟩,
  ⟨0x9, 0x00, 1, 0x032, 1, 1, "attest_count", .u32, .ro, .reset, .num 0, .any, false, false⟩,
  ⟨0x9, 0x00, 1, 0x040, 1, 1, "entropy_state", .enum8, .ro, .reset, .num 0, .any, false, false⟩,
  ⟨0x9, 0x00, 1, 0x041, 1, 1, "entropy_failures", .u32, .ro, .reset, .num 0, .any, false, false⟩]

/-- Rows of area A: A.00.000 to A.(40+c).050[b]. -/
def objRowsA_0 : List ObjDesc := [
  ⟨0xA, 0x00, 1, 0x000, 1, 1, "error_record_bytes", .u8, .ro, .reset, .num 32, .any, false, false⟩,
  ⟨0xA, 0x00, 1, 0x001, 1, 1, "error_log_depth", .u16, .ro, .reset, .num 4096, .any, false, false⟩,
  ⟨0xA, 0x00, 1, 0x010, 1, 1, "error_log", .table, .ro, .reset, .bytes [], .any, false, false⟩,
  ⟨0xA, 0x00, 1, 0x011, 1, 1, "error_records_written", .u64, .ro, .reset, .num 0, .any, true, true⟩,
  ⟨0xA, 0x00, 1, 0x012, 1, 7, "error_class_counts", .u64, .ro, .reset, .num 0, .any, true, false⟩,
  ⟨0xA, 0x00, 1, 0x013, 1, 1, "fatal_record", .blob, .ro, .reset, .bytes (List.replicate 32 0), .any, true, false⟩,
  ⟨0xA, 0x00, 1, 0x014, 1, 1, "hbm_contents_lost", .bool, .ro, .reset, .num 0, .any, true, false⟩,
  ⟨0xA, 0x00, 1, 0x015, 1, 1, "record_interval_ms", .u16, .rw, .image, .num 10, .iv 1 60000, false, false⟩,
  ⟨0xA, 0x00, 1, 0x020, 1, 1, "command_timeout_ms", .u32, .rw, .image, .num 50, .special, false, false⟩,
  ⟨0xA, 0x00, 1, 0x021, 1, 1, "late_completions", .u64, .ro, .reset, .num 0, .any, false, false⟩,
  ⟨0xA, 0x00, 1, 0x022, 1, 1, "timer_pauses", .u64, .ro, .reset, .num 0, .any, false, false⟩,
  ⟨0xA, 0x00, 1, 0x030, 1, 1, "master_thaw", .u16, .adm, .reset, .num 0xFFFF, .special, false, false⟩,
  ⟨0xA, 0x00, 1, 0x031, 1, 1, "frozen_masters", .table, .adm, .reset, .bytes [], .any, false, false⟩,
  ⟨0xA, 0x00, 1, 0x032, 1, 1, "frozen_count", .u16, .ro, .reset, .num 0, .any, false, false⟩,
  ⟨0xA, 0x00, 1, 0x040, 1, 1, "assay_tests_run", .u64, .ro, .reset, .num 0, .any, false, false⟩,
  ⟨0xA, 0x00, 1, 0x041, 1, 4, "assay_results", .u64, .ro, .reset, .num 0, .any, false, false⟩,
  ⟨0xA, 0x00, 1, 0x042, 1, 1, "assay_requests_dropped", .u32, .ro, .reset, .num 0, .any, false, false⟩,
  ⟨0xA, 0x00, 1, 0x043, 1, 1, "assay_transient_limit", .u8, .rw, .image, .num 3, .iv 2 255, false, false⟩,
  ⟨0xA, 0x00, 1, 0x044, 1, 1, "assay_pending", .u16, .ro, .reset, .num 0, .any, false, false⟩,
  ⟨0xA, 0x00, 1, 0x045, 1, 1, "retirement_words_used", .u8, .ro, .fuse, .num 0, .any, false, false⟩,
  ⟨0xA, 0x00, 1, 0x046, 1, 1, "retirements_unburned", .u8, .ro, .reset, .num 0, .any, false, false⟩,
  ⟨0xA, 0x00, 1, 0x047, 1, 1, "lanes_failed", .blob, .ro, .reset, .bytes (List.replicate 12 0), .any, false, false⟩,
  ⟨0xA, 0x00, 1, 0x048, 1, 1, "update_units_out", .bits32, .ro, .reset, .num 0, .any, false, false⟩,
  ⟨0xA, 0x08, 4, 0x049, 1, 1, "cache_ways_retired", .u16, .ro, .reset, .num 0, .any, false, false⟩,
  ⟨0xA, 0x40, 32, 0x050, 1, 32, "clmem_spare_lines_used", .u8, .ro, .reset, .num 0, .any, false, false⟩]

/-- Rows of area B: B.7F.000 to B.00.110[r]. -/
def objRowsB_0 : List ObjDesc := [
  ⟨0xB, 0x7F, 1, 0x000, 1, 1, "pcie_vendor_id", .u16, .ro, .fuse, .num 0, .any, false, false⟩,
  ⟨0xB, 0x7F, 1, 0x001, 1, 1, "pcie_device_id", .u16, .ro, .reset, .num 0x0720, .any, false, false⟩,
  ⟨0xB, 0x7F, 1, 0x002, 1, 1, "link_rate", .enum8, .ro, .reset, .num 0, .any, false, false⟩,
  ⟨0xB, 0x7F, 1, 0x003, 1, 1, "link_width", .u8, .ro, .reset, .num 0, .any, false, false⟩,
  ⟨0xB, 0x7F, 1, 0x004, 1, 1, "link_rate_cap", .enum8, .rwc, .image, .num 6, .oneOf [1, 2, 3, 4, 5, 6], false, false⟩,
  ⟨0xB, 0x7F, 1, 0x005, 1, 1, "bar2_base", .u64, .rw, .reset, .num 0x0, .special, false, false⟩,
  ⟨0xB, 0x7F, 1, 0x006, 1, 1, "aer_corrected", .u32, .ro, .reset, .num 0, .any, false, false⟩,
  ⟨0xB, 0x7F, 1, 0x007, 1, 1, "aer_uncorrected", .u32, .ro, .reset, .num 0, .any, false, false⟩,
  ⟨0xB, 0x7F, 1, 0x008, 1, 1, "completer_aborts", .u32, .ro, .reset, .num 0, .any, false, false⟩,
  ⟨0xB, 0x7F, 1, 0x009, 1, 1, "dropped_writes", .u32, .ro, .reset, .num 0, .any, false, false⟩,
  ⟨0xB, 0x7F, 1, 0x00A, 1, 1, "function_resets", .u32, .ro, .reset, .num 0, .any, false, false⟩,
  ⟨0xB, 0x7F, 1, 0x010, 1, 64, "sq_base", .u64, .rws, .reset, .num 0, .special, false, false⟩,
  ⟨0xB, 0x7F, 1, 0x011, 1, 64, "sq_entries", .u32, .rws, .reset, .num 0, .special, false, false⟩,
  ⟨0xB, 0x7F, 1, 0x012, 1, 64, "cq_base", .u64, .rws, .reset, .num 0, .special, false, false⟩,
  ⟨0xB, 0x7F, 1, 0x013, 1, 64, "cq_entries", .u32, .rws, .reset, .num 0, .special, false, false⟩,
  ⟨0xB, 0x7F, 1, 0x014, 1, 64, "cq_vector", .u8, .rws, .reset, .num 2, .iv 2 63, false, false⟩,
  ⟨0xB, 0x7F, 1, 0x015, 1, 64, "queue_priority", .enum8, .rws, .reset, .num 0, .oneOf [0, 1], false, false⟩,
  ⟨0xB, 0x7F, 1, 0x016, 1, 64, "queue_enable", .bool, .rw, .reset, .num 0, .any, false, false⟩,
  ⟨0xB, 0x7F, 1, 0x017, 1, 64, "queue_state", .enum8, .ro, .reset, .num 0, .any, false, false⟩,
  ⟨0xB, 0x7F, 1, 0x018, 1, 64, "queue_stats", .blob, .ro, .reset, .bytes (List.replicate 48 0), .any, false, false⟩,
  ⟨0xB, 0x7F, 1, 0x019, 1, 64, "queue_thaw", .bool, .adm, .reset, .num 0, .any, false, false⟩,
  ⟨0xB, 0x7F, 1, 0x020, 1, 1, "notify_ring_base", .u64, .rw, .reset, .num 0, .special, false, false⟩,
  ⟨0xB, 0x7F, 1, 0x021, 1, 1, "notify_ring_entries", .u16, .rw, .reset, .num 0, .special, false, false⟩,
  ⟨0xB, 0x7F, 1, 0x022, 1, 1, "notify_drops", .u64, .ro, .reset, .num 0, .any, false, false⟩,
  ⟨0xB, 0x00, 1, 0x100, 1, 256, "mb_sender", .u16, .rws, .reset, .num 0, .any, false, false⟩,
  ⟨0xB, 0x00, 1, 0x101, 1, 256, "mb_receiver", .u8, .rws, .reset, .num 0, .iv 0 33, false, false⟩,
  ⟨0xB, 0x00, 1, 0x102, 1, 256, "mb_bit", .u8, .rws, .reset, .num 0, .iv 0 27, false, false⟩,
  ⟨0xB, 0x00, 1, 0x103, 1, 256, "mb_enable", .bool, .rw, .reset, .num 0, .any, false, false⟩,
  ⟨0xB, 0x00, 1, 0x104, 1, 256, "mb_stats", .blob, .ro, .reset, .bytes (List.replicate 32 0), .any, false, false⟩,
  ⟨0xB, 0x00, 1, 0x110, 1, 34, "shared_collisions", .u64, .ro, .reset, .num 0, .any, false, false⟩]

/-- Rows of area C: C.00.000 to C.(08+q).(118+g)[e]. -/
def objRowsC_0 : List ObjDesc := [
  ⟨0xC, 0x00, 1, 0x000, 1, 1, "pool_buffers_per_die", .u16, .ro, .reset, .num 8192, .any, false, false⟩,
  ⟨0xC, 0x00, 1, 0x001, 1, 1, "pool_buffer_bytes", .u16, .ro, .reset, .num 4096, .any, false, false⟩,
  ⟨0xC, 0x00, 1, 0x002, 1, 1, "pool_channels_per_die", .u16, .ro, .reset, .num 1024, .any, false, false⟩,
  ⟨0xC, 0x00, 1, 0x003, 1, 1, "audit_period_ns", .u32, .ro, .reset, .num 1000, .any, false, false⟩,
  ⟨0xC, 0x00, 1, 0x005, 1, 1, "audit_stall_limit_us", .u32, .rw, .image, .num 10000, .iv 1000 1000000, false, false⟩,
  ⟨0xC, 0x00, 1, 0x010, 1, 1, "ledger_table", .table, .ro, .reset, .bytes [], .any, false, false⟩,
  ⟨0xC, 0x00, 1, 0x011, 1, 1, "ledger_rows", .u16, .ro, .reset, .num 0, .any, false, false⟩,
  ⟨0xC, 0x00, 1, 0x012, 1, 1, "ledger_faults", .u64, .ro, .reset, .num 0, .any, false, false⟩,
  ⟨0xC, 0x00, 1, 0x013, 1, 1, "ledger_fault_log", .table, .ro, .reset, .bytes [], .any, false, false⟩,
  ⟨0xC, 0x00, 1, 0x014, 1, 1, "conservation_void", .bool, .ro, .reset, .num 0, .any, false, false⟩,
  ⟨0xC, 0x00, 1, 0x015, 1, 1, "audit_deferred_ns", .u64, .ro, .reset, .num 0, .any, false, false⟩,
  ⟨0xC, 0x00, 1, 0x016, 1, 1, "audits_passed", .u64, .ro, .reset, .num 0, .any, false, false⟩,
  ⟨0xC, 0x08, 4, 0x020, 1, 1, "urgent_slice", .u16, .rw, .image, .num 256, .iv 0 1024, false, false⟩,
  ⟨0xC, 0x08, 4, 0x021, 1, 1, "pool_shared_free", .u16, .ro, .reset, .num 7936, .any, false, false⟩,
  ⟨0xC, 0x08, 4, 0x022, 1, 1, "pool_urgent_free", .u16, .ro, .reset, .num 256, .any, false, false⟩,
  ⟨0xC, 0x08, 4, 0x023, 1, 1, "pool_reserved_total", .u16, .ro, .reset, .num 0, .any, false, false⟩,
  ⟨0xC, 0x08, 4, 0x024, 1, 1, "pool_held", .u16, .ro, .reset, .num 0, .any, false, false⟩,
  ⟨0xC, 0x08, 4, 0x025, 1, 1, "pool_refusals", .u64, .ro, .reset, .num 0, .any, false, false⟩,
  ⟨0xC, 0x08, 4, 0x026, 1, 1, "pool_handoff_waits", .u64, .ro, .reset, .num 0, .any, false, false⟩,
  ⟨0xC, 0x08, 4, 0x027, 1, 1, "pool_channels_open", .u16, .ro, .reset, .num 0, .any, false, false⟩,
  ⟨0xC, 0x08, 4, 0x030, 1, 1, "credit_wait_ns", .u64, .ro, .reset, .num 0, .any, false, false⟩,
  ⟨0xC, 0x08, 4, 0x031, 1, 1, "d2d_uncorrected_payloads", .u32, .ro, .reset, .num 0, .any, false, false⟩,
  ⟨0xC, 0x08, 4, 0x100, 4, 256, "channel_kind", .enum8, .ro, .reset, .num 0, .any, false, false⟩,
  ⟨0xC, 0x08, 4, 0x104, 4, 256, "channel_reserve", .u16, .rws, .reset, .num 0, .iv 0 1024, false, false⟩,
  ⟨0xC, 0x08, 4, 0x108, 4, 256, "channel_cap", .u16, .rws, .reset, .num 0, .special, false, false⟩,
  ⟨0xC, 0x08, 4, 0x10C, 4, 256, "channel_class", .enum8, .ro, .reset, .num 0, .any, false, false⟩,
  ⟨0xC, 0x08, 4, 0x110, 4, 256, "channel_held", .u16, .ro, .reset, .num 0, .any, false, false⟩,
  ⟨0xC, 0x08, 4, 0x114, 4, 256, "channel_refusals", .u64, .ro, .reset, .num 0, .any, false, false⟩,
  ⟨0xC, 0x08, 4, 0x118, 4, 256, "channel_owner", .u32, .ro, .reset, .num 0, .any, false, false⟩]

/-- Rows of area D: D.00.000 to D.(40+c).044[p]. -/
def objRowsD_0 : List ObjDesc := [
  ⟨0xD, 0x00, 1, 0x000, 1, 1, "max_sequence_tokens", .u32, .ro, .reset, .num 2097152, .any, false, false⟩,
  ⟨0xD, 0x00, 1, 0x001, 1, 1, "page_bytes", .u32, .ro, .reset, .num 65536, .any, false, false⟩,
  ⟨0xD, 0x00, 1, 0x002, 1, 1, "page_tokens", .u8, .ro, .reset, .num 64, .any, false, false⟩,
  ⟨0xD, 0x00, 1, 0x003, 1, 1, "pool_count", .u8, .ro, .reset, .num 8, .any, false, false⟩,
  ⟨0xD, 0x00, 1, 0x010, 1, 1, "split_blocks", .u16, .rw, .image, .num 256, .iv 16 32768, false, false⟩,
  ⟨0xD, 0x00, 1, 0x011, 1, 1, "op_retry_limit", .u8, .rw, .reset, .num 16, .iv 1 255, false, false⟩,
  ⟨0xD, 0x00, 1, 0x020, 1, 8, "pool_state", .enum8, .ro, .reset, .num 0, .any, false, false⟩,
  ⟨0xD, 0x00, 1, 0x021, 1, 8, "pool_job_slot", .u8, .ro, .reset, .num 0xFF, .any, false, false⟩,
  ⟨0xD, 0x00, 1, 0x022, 1, 8, "pool_frames", .u32, .ro, .reset, .num 0, .any, false, false⟩,
  ⟨0xD, 0x00, 1, 0x023, 1, 8, "pool_layers", .u16, .ro, .reset, .num 0, .any, false, false⟩,
  ⟨0xD, 0x00, 1, 0x024, 1, 8, "pool_free_frames", .u32, .ro, .reset, .num 0, .any, false, false⟩,
  ⟨0xD, 0x00, 1, 0x025, 1, 8, "pool_limbo_frames", .u32, .ro, .reset, .num 0, .any, false, false⟩,
  ⟨0xD, 0x00, 1, 0x026, 1, 8, "pool_epoch", .u64, .ro, .reset, .num 1, .any, false, false⟩,
  ⟨0xD, 0x00, 1, 0x027, 1, 8, "pool_min_pin", .u64, .ro, .reset, .num 0, .any, false, false⟩,
  ⟨0xD, 0x00, 1, 0x028, 1, 8, "tree_root_key", .u64, .ro, .reset, .num 0, .any, false, false⟩,
  ⟨0xD, 0x00, 1, 0x030, 1, 8, "tree_hits", .u64, .ro, .reset, .num 0, .any, false, false⟩,
  ⟨0xD, 0x00, 1, 0x031, 1, 8, "tree_misses", .u64, .ro, .reset, .num 0, .any, false, false⟩,
  ⟨0xD, 0x00, 1, 0x032, 1, 8, "tree_collisions", .u64, .ro, .reset, .num 0, .any, false, false⟩,
  ⟨0xD, 0x00, 1, 0x033, 1, 8, "tree_nodes", .u32, .ro, .reset, .num 0, .any, false, false⟩,
  ⟨0xD, 0x00, 1, 0x034, 1, 8, "insert_refusals", .u32, .ro, .reset, .num 0, .any, false, false⟩,
  ⟨0xD, 0x00, 1, 0x035, 1, 8, "cow_copies", .u64, .ro, .reset, .num 0, .any, false, false⟩,
  ⟨0xD, 0x00, 1, 0x036, 1, 8, "op_conflict_retries", .u64, .ro, .reset, .num 0, .any, false, false⟩,
  ⟨0xD, 0x00, 1, 0x037, 1, 8, "alloc_refusals", .u32, .ro, .reset, .num 0, .any, false, false⟩,
  ⟨0xD, 0x40, 32, 0x040, 1, 1, "walk_descriptors", .u64, .ro, .reset, .num 0, .any, false, false⟩,
  ⟨0xD, 0x40, 32, 0x041, 1, 1, "walk_record_refusals", .u32, .ro, .reset, .num 0, .any, false, false⟩,
  ⟨0xD, 0x40, 32, 0x042, 1, 1, "walk_aborts", .u32, .ro, .reset, .num 0, .any, false, false⟩,
  ⟨0xD, 0x40, 32, 0x043, 1, 1, "last_walk_status", .u8, .ro, .reset, .num 0x00, .any, false, false⟩,
  ⟨0xD, 0x40, 32, 0x044, 1, 8, "walk_pin", .u64, .ro, .reset, .num 0, .any, false, false⟩]

/-- Rows of area E: E.00.000 to E.00.104. -/
def objRowsE_0 : List ObjDesc := [
  ⟨0xE, 0x00, 1, 0x000, 1, 1, "debug_challenge", .blob, .ro, .reset, .bytes [], .any, false, false⟩,
  ⟨0xE, 0x00, 1, 0x001, 1, 1, "debug_token", .blob, .adm, .reset, .bytes [], .any, false, false⟩,
  ⟨0xE, 0x00, 1, 0x002, 1, 1, "debug_scope", .bits32, .ro, .reset, .num 0, .any, false, false⟩,
  ⟨0xE, 0x00, 1, 0x003, 1, 1, "debug_lock", .bool, .adm, .reset, .num 0, .any, false, false⟩,
  ⟨0xE, 0x00, 1, 0x004, 1, 1, "debug_expiry", .u64, .ro, .reset, .num 0, .any, false, false⟩,
  ⟨0xE, 0x00, 1, 0x005, 1, 1, "debug_unlocks", .u32, .ro, .reset, .num 0, .any, false, false⟩,
  ⟨0xE, 0x00, 1, 0x006, 1, 1, "debug_token_refusals", .u32, .ro, .reset, .num 0, .any, false, false⟩,
  ⟨0xE, 0x00, 1, 0x007, 1, 1, "debug_token_digest", .blob, .ro, .reset, .bytes (List.replicate 32 0), .any, false, false⟩,
  ⟨0xE, 0x00, 1, 0x100, 1, 1, "jtag_idcode", .u32, .ro, .reset, .num 275906561, .any, false, false⟩,
  ⟨0xE, 0x00, 1, 0x101, 1, 1, "tap_instruction", .u8, .ro, .reset, .num 0x01, .any, false, false⟩,
  ⟨0xE, 0x00, 1, 0x102, 1, 1, "boundary_scan_active", .bool, .ro, .reset, .num 0, .any, false, false⟩,
  ⟨0xE, 0x00, 1, 0x103, 1, 1, "tap_bypassed", .u32, .ro, .reset, .num 0, .any, false, false⟩,
  ⟨0xE, 0x00, 1, 0x104, 1, 1, "bsdl_version", .u16, .ro, .reset, .num 0x0100, .any, false, false⟩]

/-- Rows of area F: F.00.000 to F.00.067. -/
def objRowsF_0 : List ObjDesc := [
  ⟨0xF, 0x00, 1, 0x000, 1, 1, "dictionary_version", .u16, .ro, .reset, .num 0x0100, .any, false, false⟩,
  ⟨0xF, 0x00, 1, 0x002, 1, 1, "foreri_udp_port", .u16, .rwc, .image, .num 50320, .any, false, false⟩,
  ⟨0xF, 0x00, 1, 0x003, 1, 1, "max_body_bytes", .u16, .ro, .reset, .num 8192, .any, false, false⟩,
  ⟨0xF, 0x00, 1, 0x004, 1, 1, "duplicate_window", .u16, .ro, .reset, .num 1024, .any, false, false⟩,
  ⟨0xF, 0x00, 1, 0x010, 1, 1, "session_idle_timeout_s", .u32, .adm, .reset, .num 300, .iv 10 86400, false, false⟩,
  ⟨0xF, 0x00, 1, 0x011, 1, 1, "txn_idle_timeout_ms", .u32, .adm, .reset, .num 10000, .iv 1000 600000, false, false⟩,
  ⟨0xF, 0x00, 1, 0x020, 1, 16, "session_id", .u32, .ro, .reset, .num 0, .any, false, false⟩,
  ⟨0xF, 0x00, 1, 0x021, 1, 16, "session_role", .enum8, .ro, .reset, .num 0xFF, .any, false, false⟩,
  ⟨0xF, 0x00, 1, 0x022, 1, 16, "session_key_slot", .u8, .ro, .reset, .num 0xFF, .any, false, false⟩,
  ⟨0xF, 0x00, 1, 0x023, 1, 16, "session_txn_open", .bool, .ro, .reset, .num 0, .any, false, false⟩,
  ⟨0xF, 0x00, 1, 0x030, 1, 16, "operator_key", .blob, .adm, .image, .bytes [], .any, false, false⟩,
  ⟨0xF, 0x00, 1, 0x031, 1, 16, "operator_key_role", .enum8, .adm, .image, .num 1, .oneOf [1, 2], false, false⟩,
  ⟨0xF, 0x00, 1, 0x032, 1, 16, "operator_key_enable", .bool, .adm, .image, .num 0, .any, false, false⟩,
  ⟨0xF, 0x00, 1, 0x040, 1, 64, "peer_grant_enable", .bool, .adm, .reset, .num 0, .any, false, false⟩,
  ⟨0xF, 0x00, 1, 0x041, 1, 64, "peer_grant_context", .u16, .adm, .reset, .num 0, .iv 0 4095, false, false⟩,
  ⟨0xF, 0x00, 1, 0x042, 1, 64, "peer_grant_rights", .bits32, .adm, .reset, .num 0x00000001, .mask 0x7, false, false⟩,
  ⟨0xF, 0x00, 1, 0x050, 1, 1, "resource_owner_table", .table, .ro, .reset, .bytes [], .any, false, false⟩,
  ⟨0xF, 0x00, 1, 0x051, 1, 1, "resource_owner_count", .u16, .ro, .reset, .num 0, .any, false, false⟩,
  ⟨0xF, 0x00, 1, 0x060, 1, 1, "auth_failures", .u32, .ro, .reset, .num 0, .any, false, false⟩,
  ⟨0xF, 0x00, 1, 0x061, 1, 1, "tag_failures", .u32, .ro, .reset, .num 0, .any, false, false⟩,
  ⟨0xF, 0x00, 1, 0x062, 1, 1, "malformed_count", .u32, .ro, .reset, .num 0, .any, false, false⟩,
  ⟨0xF, 0x00, 1, 0x063, 1, 1, "reassembly_drops", .u32, .ro, .reset, .num 0, .any, false, false⟩,
  ⟨0xF, 0x00, 1, 0x064, 1, 1, "stale_id_refusals", .u32, .ro, .reset, .num 0, .any, false, false⟩,
  ⟨0xF, 0x00, 1, 0x065, 1, 1, "replays_served", .u32, .ro, .reset, .num 0, .any, false, false⟩,
  ⟨0xF, 0x00, 1, 0x066, 1, 1, "busy_refusals", .u32, .ro, .reset, .num 0, .any, false, false⟩,
  ⟨0xF, 0x00, 1, 0x067, 1, 1, "ungranted_peer_drops", .u32, .ro, .reset, .num 0, .any, false, false⟩]

/-- The rows of one area (R38). -/
def objRows : Nat → List ObjDesc
  | 0x0 => objRows0_0 ++ objRows0_1
  | 0x1 => objRows1_0
  | 0x2 => objRows2_0 ++ objRows2_1
  | 0x3 => objRows3_0 ++ objRows3_1
  | 0x4 => objRows4_0 ++ objRows4_1
  | 0x5 => objRows5_0 ++ objRows5_1
  | 0x6 => objRows6_0 ++ objRows6_1
  | 0x7 => objRows7_0 ++ objRows7_1
  | 0x8 => objRows8_0 ++ objRows8_1
  | 0x9 => objRows9_0
  | 0xA => objRowsA_0
  | 0xB => objRowsB_0
  | 0xC => objRowsC_0
  | 0xD => objRowsD_0
  | 0xE => objRowsE_0
  | 0xF => objRowsF_0
  | _ => []

end Sys2Proof.Machine
end

