-- ==== Sys2Proof/Machine/Dict.lean ====
section
/-! DEFINITION. Looking an object up in the object table (R36, checks 1 and 2 of R50), its default value (R8), the domain that owns it
and the byte form of values (R39). -/

namespace Sys2Proof.Machine

/-- What an encoded object id names (R36). -/
inductive Lookup where
  | noObject
  | noElement
  | found (d : ObjDesc)
deriving DecidableEq, Repr

/-- Does a row of the object table cover an area's node and object number? -/
def ObjDesc.covers (d : ObjDesc) (node obj : Nat) : Bool :=
  Nat.ble d.obj0 obj && Nat.blt obj (d.obj0 + d.banks) && Nat.ble d.node0 node && Nat.blt node (d.node0 + d.nodes)

/-- The row an id names. A TABLE is read in pages (R40), so its element is judged when it is read. -/
def lookup (oid : Nat) : Lookup :=
  match (objRows (oidArea oid)).find? (fun d => d.covers (oidNode oid) (oidObj oid)) with
  | none => .noObject
  | some d => if oidElem oid < d.elems || d.ty == .table then .found d else .noElement

/-- The reset value of a clock's enables (Table 18.4): run in bit 0, sleep in bit 1, deep in bit 2. -/
def clockEnableDefault (i : Nat) : Nat :=
  if i = 0 then 7 else if i = 1 then 3
  else if i ≤ 35 then (if i = 2 then 7 else if i - 2 ≤ 9 then 3 else 1)
  else if i ≤ 39 then 1 else if i ≤ 43 then 1 else if i = 44 then 3 else 7

/-- A context configuration at reset (Table 13.5): job_slot 0xFF, quota 32, remote port 50321, send_reserve 16, send_cap 256. -/
def ctxConfigDefault : Bytes :=
  beBytes 4 0 ++ [0xFF, 0, 0, 32] ++ beBytes 6 0 ++ beBytes 2 50321 ++ beBytes 16 0 ++ beBytes 2 0 ++ beBytes 2 16 ++ beBytes 2 256 ++
    beBytes 26 0

/-- A stream configuration at reset (Table 14.1). -/
def streamConfigDefault : Bytes :=
  [0, 0, 0xFF, 4] ++ leBytes 2 0 ++ leBytes 2 64 ++ leBytes 2 256 ++ leBytes 2 4096 ++ leBytes 8 0 ++ leBytes 2 1 ++ leBytes 10 0 ++
    leBytes 4 1024 ++ leBytes 2 224 ++ leBytes 2 224 ++ [16, 1, 0, 0] ++ leBytes 16 0 ++ leBytes 4 0x3F800000 ++ leBytes 4 0x3F800000 ++
    leBytes 4 0x3F800000 ++ leBytes 4 16000 ++ leBytes 2 512 ++ leBytes 2 400 ++ leBytes 2 160 ++ leBytes 2 80 ++ leBytes 4 0 ++
    leBytes 4 0x45FA0000 ++ [1, 20, 0, 0] ++ leBytes 4 100000 ++ leBytes 44 0

/-- An encode configuration at reset (Table 15.3). -/
def encodeConfigDefault : Bytes :=
  [0, 0, 0xFF, 1] ++ leBytes 2 1920 ++ leBytes 2 1080 ++ leBytes 4 60 ++ leBytes 4 1 ++ leBytes 2 120 ++ [1, 30] ++ leBytes 4 8000 ++
    leBytes 4 1000 ++ leBytes 68 0

/-- The configurations that Tables 13.5, 14.1 and 15.3 give reset values for. -/
def blobDefault (area obj : Nat) : Option Bytes :=
  if area = 6 && obj = 0x010 then some streamConfigDefault
  else if area = 6 && obj = 0x100 then some encodeConfigDefault
  else if area = 5 && 0x100 ≤ obj && obj < 0x110 then some ctxConfigDefault
  else none

/-- The default of an object (R8; fuse and image values are stored when they are read). -/
def defaultVal (oid : Nat) : Val :=
  match lookup oid with
  | .found d =>
    if oidArea oid = 2 && oidObj oid = 0x030 then .num (clockEnableDefault (oidElem oid))
    else match blobDefault (oidArea oid) (oidObj oid) with
      | some b => .bytes b
      | none => d.dflt
  | _ => .num 0

/-- The type of an object; U64 where there is none. -/
def tyOf (oid : Nat) : Ty :=
  match lookup oid with
  | .found d => d.ty
  | _ => .u64

/-- The bytes of a value under its type (R39). -/
def valBytes (t : Ty) (v : Val) : Bytes :=
  match v with
  | .num n => beBytes (t.width.getD 8) n
  | .bytes b => b

/-- The power domain that owns an object (R38, Table 1.4), where it is not D1 or D0: compute objects of a cluster, link and lane
objects, memory objects of a die or stack, media objects of a complex. Objects of node 0x00, identity, power, job and error
objects are held by the device manager. -/
def ownerDomain (oid : Nat) : Option Nat :=
  let a := oidArea oid
  let n := oidNode oid
  if (a = 3 || a = 0xD || a = 7) && 0x40 ≤ n && n < 0x60 then some (8 + (n - 0x40) / 2)
  else if a = 5 && 0xA0 ≤ n then some 2
  else if a = 5 && 0x100 ≤ oidObj oid then some 2
  else if (a = 4 || a = 8) && (0x60 ≤ n && n < 0x74 || 0x08 ≤ n && n < 0x0C) then some 3
  else if a = 6 && 0x30 ≤ n && n < 0x34 then some (4 + (n - 0x30))
  else none

/-- Objects whose write starts an action rather than storing a value (R261): every WO object, and these. -/
def startsAction (oid : Nat) : Bool :=
  let a := oidArea oid
  let o := oidObj oid
  (a == 1 && (o == 0x021 || o == 0x022)) || (a == 2 && o == 0x071) || (a == 9 && o == 0x007) || (a == 0xA && o == 0x030) ||
  (a == 0xE && (o == 0x001 || o == 0x003)) || (a == 5 && oidNode oid == 0 && decide (0x140 ≤ o) && decide (o < 0x150)) ||
  (a == 6 && (o == 0x017 || o == 0x104)) || (a == 7 && o == 0x123) || (a == 0xB && o == 0x019)

/-- May an object be staged in a dictionary transaction (R261)? -/
def ObjDesc.stageable (d : ObjDesc) (oid : Nat) : Bool :=
  (match d.acc with
    | .rw | .rws | .rwc | .adm => true
    | .ro | .wo => false) && d.ty != .table && !startsAction oid

def stageable (oid : Nat) : Bool :=
  match lookup oid with
  | .found d => d.stageable oid
  | _ => false

/-! ## The dictionary shadow (R261, R270) -/

/-- The largest value of a stageable object: that of its type, or the smaller maximum of its table (R261). -/
def shadowMax (oid : Nat) (t : Ty) : Nat :=
  let a := oidArea oid
  let o := oidObj oid
  match t.width with
  | some w => w
  | none =>
    if t == .str then 64
    else if a = 0xF && o = 0x030 then 1312
    else if a = 6 && o = 0x010 then 144
    else if a = 6 && o = 0x100 then 96
    else if a = 5 && 0x100 ≤ o && o < 0x110 then 64
    else if a = 5 && 0x110 ≤ o && o < 0x120 then 384
    else if a = 5 && o = 0x005 then 16
    else if a = 2 && o = 0x013 then 6
    else 4096

/-- Lines that one element of a stageable object takes. -/
def shadowLen (oid : Nat) (t : Ty) : Nat := (shadowMax oid t + 8 + 127) / 128

/-- The stageable objects of one area's node in increasing object number: id of element 0, elements, lines of each element. -/
def shadowNode (area node : Nat) : List (Nat × Nat × Nat) :=
  ((objRows area).flatMap fun d => (List.range d.banks).filterMap fun i =>
    let oid := area * 2 ^ 28 + node * 2 ^ 20 + (d.obj0 + i) * 2 ^ 8
    if d.covers node (d.obj0 + i) && d.stageable oid then some (oid, d.elems, shadowLen oid d.ty) else none).mergeSort
      fun x y => decide (x.1 ≤ y.1)

/-- The stageable objects in increasing encoded id. -/
def shadowObjs : List (Nat × Nat × Nat) := (List.range 16).flatMap fun a => (List.range 256).flatMap fun n => shadowNode a n

/-- The first line of the shadow: its address is that of system segment 0 (R270). -/
def shadowLine0 : Nat := 0xB000000000 / 128

/-- The lines of an element of the shadow. An element that would lie beyond the 4 MiB has none (log entry 60). -/
def shadowLines (oid : Nat) : List Nat :=
  let before := (shadowObjs.map fun x => if x.1 / 256 < oid / 256 then x.2.1 * x.2.2 else 0).sum
  match shadowObjs.find? fun x => x.1 / 256 == oid / 256 with
  | some x =>
    let l := before + oidElem oid * x.2.2
    if l + x.2.2 ≤ 32768 && oidElem oid < x.2.1 then (List.range x.2.2).map fun i => shadowLine0 + l + i else []
  | none => []

/-- The element that owns a line of the shadow, and the line's number within the element. -/
def shadowOwner (line : Nat) : Option (Nat × Nat) :=
  (shadowObjs.foldl (fun (a : Nat × Option (Nat × Nat)) x =>
    let n := x.2.1 * x.2.2
    let k := line - shadowLine0
    (a.1 + n, if a.1 ≤ k && k < a.1 + n then some (x.1 + (k - a.1) / x.2.2, (k - a.1) % x.2.2) else a.2)) (0, none)).2

/-- The master that owns an object, for check 7 of R50: a context, a stream, a job, a host queue. The objects that release or thaw a frozen
master, and those whose own rules say what a FROZEN job answers (R384, R387), have none. -/
def ownerMaster (oid : Nat) : Option Nat :=
  let a := oidArea oid
  let n := oidNode oid
  let o := oidObj oid
  let e := oidElem oid
  if a = 5 && n = 0 && 0x100 ≤ o && o < 0x130 then some (4 * 4096 + 256 * (o % 16) + e)
  else if a = 6 && 0x30 ≤ n && (0x010 ≤ o && o < 0x017 || 0x100 ≤ o && o < 0x104) then some (6 * 4096 + 64 * (n - 0x30) + e)
  else if a = 7 && (o = 0x102 || o = 0x103) then some (4096 + e)
  else if a = 8 && n = 0 && (o = 0x113 || o = 0x210 || o = 0x220) then some (4096 + e)
  else if a = 0xB && n = 0x7F && 0x010 ≤ o && o < 0x019 then some e
  else none

/-- The island of a domain's unit for the check of R430, for the islands whose enables can be cleared: the link layer of the
die of a lane. -/
def linkIslandOf (oid : Nat) : Option Nat :=
  if oidArea oid = 5 && 0xA0 ≤ oidNode oid then some (10 + (oidNode oid - 0xA0) / 24) else none

end Sys2Proof.Machine
end

