-- ==== Sys2Proof/Machine/ObjIds.lean ====
section
/-! DEFINITION. The encoded object ids of R36 by name, one per row of the object tables: an object at several nodes takes the number of its
unit (die, domain, complex, cluster, stack or lane), a banked object the bank, an object of several elements the element. -/

namespace Sys2Proof.Machine.O

/-- 0.00.000 -/
abbrev vendorName : Nat := 0x0
/-- 0.00.001 -/
abbrev partNumber : Nat := 0x100
/-- 0.00.002 -/
abbrev stepping : Nat := 0x200
/-- 0.00.003 -/
abbrev deviceSerial : Nat := 0x300
/-- 0.00.010 -/
abbrev dieCount : Nat := 0x1000
/-- 0.00.011 -/
abbrev clusterCount : Nat := 0x1100
/-- 0.00.012 -/
abbrev enabledCoreCount : Nat := 0x1200
/-- 0.00.013 -/
abbrev spareCoreCount : Nat := 0x1300
/-- 0.00.014 -/
abbrev stackCount : Nat := 0x1400
/-- 0.00.015 -/
abbrev hbmInstalledBytes : Nat := 0x1500
/-- 0.00.016 -/
abbrev laneCount : Nat := 0x1600
/-- 0.00.017 -/
abbrev mediaComplexCount : Nat := 0x1700
/-- 0.00.020 -/
abbrev inventoryCount : Nat := 0x2000
/-- 0.00.021 -/
abbrev inventoryTable : Nat := 0x2100
/-- 0.(08+q).040 -/
abbrev dieSerial (u : Nat) : Nat := 0x804000 + 0x100000 * u
/-- 0.(40+c).030[k] -/
abbrev corePhysicalSlot (u e : Nat) : Nat := 0x4003000 + 0x100000 * u + e
/-- 0.(40+c).031 -/
abbrev clusterCoreCount (u : Nat) : Nat := 0x4003100 + 0x100000 * u
/-- 0.(40+c).032 -/
abbrev clusterReduced (u : Nat) : Nat := 0x4003200 + 0x100000 * u
/-- 0.(60+s).050 -/
abbrev stackCapacityBytes (u : Nat) : Nat := 0x6005000 + 0x100000 * u
/-- 0.(60+s).051 -/
abbrev stackDeviceId (u : Nat) : Nat := 0x6005100 + 0x100000 * u
/-- F.00.000 -/
abbrev dictionaryVersion : Nat := 0xF0000000
/-- F.00.002 -/
abbrev foreriUdpPort : Nat := 0xF0000200
/-- F.00.003 -/
abbrev maxBodyBytes : Nat := 0xF0000300
/-- F.00.004 -/
abbrev duplicateWindow : Nat := 0xF0000400
/-- F.00.010 -/
abbrev sessionIdleTimeoutS : Nat := 0xF0001000
/-- F.00.011 -/
abbrev txnIdleTimeoutMs : Nat := 0xF0001100
/-- F.00.020[n] -/
abbrev sessionId (e : Nat) : Nat := 0xF0002000 + e
/-- F.00.021[n] -/
abbrev sessionRole (e : Nat) : Nat := 0xF0002100 + e
/-- F.00.022[n] -/
abbrev sessionKeySlot (e : Nat) : Nat := 0xF0002200 + e
/-- F.00.023[n] -/
abbrev sessionTxnOpen (e : Nat) : Nat := 0xF0002300 + e
/-- F.00.030[k] -/
abbrev operatorKey (e : Nat) : Nat := 0xF0003000 + e
/-- F.00.031[k] -/
abbrev operatorKeyRole (e : Nat) : Nat := 0xF0003100 + e
/-- F.00.032[k] -/
abbrev operatorKeyEnable (e : Nat) : Nat := 0xF0003200 + e
/-- F.00.040[g] -/
abbrev peerGrantEnable (e : Nat) : Nat := 0xF0004000 + e
/-- F.00.041[g] -/
abbrev peerGrantContext (e : Nat) : Nat := 0xF0004100 + e
/-- F.00.042[g] -/
abbrev peerGrantRights (e : Nat) : Nat := 0xF0004200 + e
/-- F.00.050 -/
abbrev resourceOwnerTable : Nat := 0xF0005000
/-- F.00.051 -/
abbrev resourceOwnerCount : Nat := 0xF0005100
/-- F.00.060 -/
abbrev authFailures : Nat := 0xF0006000
/-- F.00.061 -/
abbrev tagFailures : Nat := 0xF0006100
/-- F.00.062 -/
abbrev malformedCount : Nat := 0xF0006200
/-- F.00.063 -/
abbrev reassemblyDrops : Nat := 0xF0006300
/-- F.00.064 -/
abbrev staleIdRefusals : Nat := 0xF0006400
/-- F.00.065 -/
abbrev replaysServed : Nat := 0xF0006500
/-- F.00.066 -/
abbrev busyRefusals : Nat := 0xF0006600
/-- F.00.067 -/
abbrev ungrantedPeerDrops : Nat := 0xF0006700
/-- 8.00.000 -/
abbrev formatSupport : Nat := 0x80000000
/-- 8.00.001 -/
abbrev blockModeSupport : Nat := 0x80000100
/-- 8.00.002 -/
abbrev stochasticRounding : Nat := 0x80000200
/-- 8.00.010 -/
abbrev loupeEnable : Nat := 0x80001000
/-- 8.00.011 -/
abbrev loupeCapacity : Nat := 0x80001100
/-- 8.00.012 -/
abbrev loupeEntriesUsed : Nat := 0x80001200
/-- 8.00.013 -/
abbrev loupeUntrackedElements : Nat := 0x80001300
/-- 8.00.020 -/
abbrev loupeLiveTable : Nat := 0x80002000
/-- 8.00.021 -/
abbrev loupeFrozenTable : Nat := 0x80002100
/-- 8.00.022[j] -/
abbrev loupeFrozenStep (e : Nat) : Nat := 0x80002200 + e
/-- 8.00.030 -/
abbrev facetLowClamps : Nat := 0x80003000
/-- 8.00.031 -/
abbrev facetHighClamps : Nat := 0x80003100
/-- 8.00.032 -/
abbrev facetNanBlocks : Nat := 0x80003200
/-- 8.00.040 -/
abbrev loupeHistTopMode : Nat := 0x80004000
/-- 8.00.041 -/
abbrev loupeHistTopFixed : Nat := 0x80004100
/-- 3.00.000 -/
abbrev arrayFormats : Nat := 0x30000000
/-- 3.00.001 -/
abbrev drainFunctions : Nat := 0x30000100
/-- 3.00.002 -/
abbrev coreMemoryBytes : Nat := 0x30000200
/-- 3.(40+c).000[k] -/
abbrev coreState (u e : Nat) : Nat := 0x34000000 + 0x100000 * u + e
/-- 3.(40+c).010[k] -/
abbrev arrayBusyCycles (u e : Nat) : Nat := 0x34001000 + 0x100000 * u + e
/-- 3.(40+c).011[k] -/
abbrev queueStallCycles (u e : Nat) : Nat := 0x34001100 + 0x100000 * u + e
/-- 3.(40+c).012[k] -/
abbrev operandStallCycles (u e : Nat) : Nat := 0x34001200 + 0x100000 * u + e
/-- 3.(40+c).013[k] -/
abbrev tilesDrained (u e : Nat) : Nat := 0x34001300 + 0x100000 * u + e
/-- 3.(40+c).014[k] -/
abbrev queuePeak (u e : Nat) : Nat := 0x34001400 + 0x100000 * u + e
/-- 3.(40+c).015[k] -/
abbrev lastCommandStatus (u e : Nat) : Nat := 0x34001500 + 0x100000 * u + e
/-- 3.(40+c).020[k] -/
abbrev cmemCorrected (u e : Nat) : Nat := 0x34002000 + 0x100000 * u + e
/-- 3.(40+c).021[k] -/
abbrev cmemUncorrected (u e : Nat) : Nat := 0x34002100 + 0x100000 * u + e
/-- 3.(40+c).022[k] -/
abbrev cmemLastErrorAddress (u e : Nat) : Nat := 0x34002200 + 0x100000 * u + e
/-- 3.(40+c).023 -/
abbrev cmemScrubPeriodMs (u : Nat) : Nat := 0x34002300 + 0x100000 * u
/-- 3.(40+c).030[4k+j] -/
abbrev dmaState (u e : Nat) : Nat := 0x34003000 + 0x100000 * u + e
/-- 3.(40+c).031[4k+j] -/
abbrev dmaCompleted (u e : Nat) : Nat := 0x34003100 + 0x100000 * u + e
/-- 3.(40+c).032[4k+j] -/
abbrev dmaLastStatus (u e : Nat) : Nat := 0x34003200 + 0x100000 * u + e
/-- 3.(40+c).033[4k+j] -/
abbrev dmaBytes (u e : Nat) : Nat := 0x34003300 + 0x100000 * u + e
/-- 3.(40+c).034 -/
abbrev dmaLengthViolations (u : Nat) : Nat := 0x34003400 + 0x100000 * u
/-- 3.00.100 -/
abbrev vectorLanes : Nat := 0x30010000
/-- 3.00.101 -/
abbrev tileRegisters : Nat := 0x30010100
/-- 3.00.102 -/
abbrev vectorRegisters : Nat := 0x30010200
/-- 3.00.103 -/
abbrev windowRows : Nat := 0x30010300
/-- 3.00.104 -/
abbrev windowPositions : Nat := 0x30010400
/-- 3.(40+c).100[k] -/
abbrev vectorState (u e : Nat) : Nat := 0x34010000 + 0x100000 * u + e
/-- 3.(40+c).110[k] -/
abbrev vectorBusyCycles (u e : Nat) : Nat := 0x34011000 + 0x100000 * u + e
/-- 3.(40+c).111[k] -/
abbrev vectorWaitCycles (u e : Nat) : Nat := 0x34011100 + 0x100000 * u + e
/-- 3.(40+c).112[k] -/
abbrev vectorCommands (u e : Nat) : Nat := 0x34011200 + 0x100000 * u + e
/-- 3.(40+c).113[k] -/
abbrev emptyLines (u e : Nat) : Nat := 0x34011300 + 0x100000 * u + e
/-- 3.(40+c).114[k] -/
abbrev lastEmptyRows (u e : Nat) : Nat := 0x34011400 + 0x100000 * u + e
/-- 3.(40+c).115[k] -/
abbrev lastVectorStatus (u e : Nat) : Nat := 0x34011500 + 0x100000 * u + e
/-- 3.(40+c).120[k] -/
abbrev windowSpanReads (u e : Nat) : Nat := 0x34012000 + 0x100000 * u + e
/-- 3.(40+c).121[k] -/
abbrev windowSpanHits (u e : Nat) : Nat := 0x34012100 + 0x100000 * u + e
/-- 3.(40+c).122[k] -/
abbrev depthwiseCommands (u e : Nat) : Nat := 0x34012200 + 0x100000 * u + e
/-- 3.00.200 -/
abbrev clusterMemoryBytes : Nat := 0x30020000
/-- 3.00.201 -/
abbrev cameoLanes : Nat := 0x30020100
/-- 3.00.202 -/
abbrev haloChannels : Nat := 0x30020200
/-- 3.00.203 -/
abbrev unitCommandCycleLimit : Nat := 0x30020300
/-- 3.(40+c).201 -/
abbrev clmemCorrected (u : Nat) : Nat := 0x34020100 + 0x100000 * u
/-- 3.(40+c).202 -/
abbrev clmemUncorrected (u : Nat) : Nat := 0x34020200 + 0x100000 * u
/-- 3.(40+c).203 -/
abbrev clmemLastErrorAddress (u : Nat) : Nat := 0x34020300 + 0x100000 * u
/-- 3.(40+c).204 -/
abbrev clmemScrubPeriodMs (u : Nat) : Nat := 0x34020400 + 0x100000 * u
/-- 3.(40+c).210 -/
abbrev windowState (u : Nat) : Nat := 0x34021000 + 0x100000 * u
/-- 3.(40+c).211 -/
abbrev windowCommands (u : Nat) : Nat := 0x34021100 + 0x100000 * u
/-- 3.(40+c).212 -/
abbrev windowBusyCycles (u : Nat) : Nat := 0x34021200 + 0x100000 * u
/-- 3.(40+c).213 -/
abbrev windowWaitCycles (u : Nat) : Nat := 0x34021300 + 0x100000 * u
/-- 3.(40+c).214 -/
abbrev windowLastStatus (u : Nat) : Nat := 0x34021400 + 0x100000 * u
/-- 3.(40+c).220 -/
abbrev cameoState (u : Nat) : Nat := 0x34022000 + 0x100000 * u
/-- 3.(40+c).221 -/
abbrev cameoCommands (u : Nat) : Nat := 0x34022100 + 0x100000 * u
/-- 3.(40+c).222 -/
abbrev cameoBusyCycles (u : Nat) : Nat := 0x34022200 + 0x100000 * u
/-- 3.(40+c).223 -/
abbrev cameoWaitCycles (u : Nat) : Nat := 0x34022300 + 0x100000 * u
/-- 3.(40+c).224 -/
abbrev cameoLastStatus (u : Nat) : Nat := 0x34022400 + 0x100000 * u
/-- 3.(40+c).230[h] -/
abbrev haloRole (u e : Nat) : Nat := 0x34023000 + 0x100000 * u + e
/-- 3.(40+c).231[h] -/
abbrev haloTokenStates (u e : Nat) : Nat := 0x34023100 + 0x100000 * u + e
/-- 3.(40+c).232[h] -/
abbrev haloWaitCycles (u e : Nat) : Nat := 0x34023200 + 0x100000 * u + e
/-- 3.(40+c).233 -/
abbrev haloRefusals (u : Nat) : Nat := 0x34023300 + 0x100000 * u
/-- 3.(40+c).240 -/
abbrev clmemPartitionTable (u : Nat) : Nat := 0x34024000 + 0x100000 * u
/-- D.00.000 -/
abbrev maxSequenceTokens : Nat := 0xD0000000
/-- D.00.001 -/
abbrev pageBytes : Nat := 0xD0000100
/-- D.00.002 -/
abbrev pageTokens : Nat := 0xD0000200
/-- D.00.003 -/
abbrev poolCount : Nat := 0xD0000300
/-- D.00.010 -/
abbrev splitBlocks : Nat := 0xD0001000
/-- D.00.011 -/
abbrev opRetryLimit : Nat := 0xD0001100
/-- D.00.020[p] -/
abbrev poolState (e : Nat) : Nat := 0xD0002000 + e
/-- D.00.021[p] -/
abbrev poolJobSlot (e : Nat) : Nat := 0xD0002100 + e
/-- D.00.022[p] -/
abbrev poolFrames (e : Nat) : Nat := 0xD0002200 + e
/-- D.00.023[p] -/
abbrev poolLayers (e : Nat) : Nat := 0xD0002300 + e
/-- D.00.024[p] -/
abbrev poolFreeFrames (e : Nat) : Nat := 0xD0002400 + e
/-- D.00.025[p] -/
abbrev poolLimboFrames (e : Nat) : Nat := 0xD0002500 + e
/-- D.00.026[p] -/
abbrev poolEpoch (e : Nat) : Nat := 0xD0002600 + e
/-- D.00.027[p] -/
abbrev poolMinPin (e : Nat) : Nat := 0xD0002700 + e
/-- D.00.028[p] -/
abbrev treeRootKey (e : Nat) : Nat := 0xD0002800 + e
/-- D.00.030[p] -/
abbrev treeHits (e : Nat) : Nat := 0xD0003000 + e
/-- D.00.031[p] -/
abbrev treeMisses (e : Nat) : Nat := 0xD0003100 + e
/-- D.00.032[p] -/
abbrev treeCollisions (e : Nat) : Nat := 0xD0003200 + e
/-- D.00.033[p] -/
abbrev treeNodes (e : Nat) : Nat := 0xD0003300 + e
/-- D.00.034[p] -/
abbrev insertRefusals (e : Nat) : Nat := 0xD0003400 + e
/-- D.00.035[p] -/
abbrev cowCopies (e : Nat) : Nat := 0xD0003500 + e
/-- D.00.036[p] -/
abbrev opConflictRetries (e : Nat) : Nat := 0xD0003600 + e
/-- D.00.037[p] -/
abbrev allocRefusals (e : Nat) : Nat := 0xD0003700 + e
/-- D.(40+c).040 -/
abbrev walkDescriptors (u : Nat) : Nat := 0xD4004000 + 0x100000 * u
/-- D.(40+c).041 -/
abbrev walkRecordRefusals (u : Nat) : Nat := 0xD4004100 + 0x100000 * u
/-- D.(40+c).042 -/
abbrev walkAborts (u : Nat) : Nat := 0xD4004200 + 0x100000 * u
/-- D.(40+c).043 -/
abbrev lastWalkStatus (u : Nat) : Nat := 0xD4004300 + 0x100000 * u
/-- D.(40+c).044[p] -/
abbrev walkPin (u e : Nat) : Nat := 0xD4004400 + 0x100000 * u + e
/-- 8.00.100[j] -/
abbrev parallelMode (e : Nat) : Nat := 0x80010000 + e
/-- 8.00.101[j] -/
abbrev groupSize (e : Nat) : Nat := 0x80010100 + e
/-- 8.00.102[j] -/
abbrev groupIndex (e : Nat) : Nat := 0x80010200 + e
/-- 8.00.103[j] -/
abbrev microBatches (e : Nat) : Nat := 0x80010300 + e
/-- 8.00.104[j] -/
abbrev scheduleEntries (e : Nat) : Nat := 0x80010400 + e
/-- 8.00.105[j] -/
abbrev schedulePosition (e : Nat) : Nat := 0x80010500 + e
/-- 8.00.106[j] -/
abbrev gatherBufferStates (e : Nat) : Nat := 0x80010600 + e
/-- 8.00.107[j] -/
abbrev lastFailedEntry (e : Nat) : Nat := 0x80010700 + e
/-- 8.00.110 -/
abbrev selectorBeta : Nat := 0x80011000
/-- 8.00.111 -/
abbrev selectorSatThreshold : Nat := 0x80011100
/-- 8.00.112 -/
abbrev selectorUfThreshold : Nat := 0x80011200
/-- 8.00.113[j] -/
abbrev selectorMode (e : Nat) : Nat := 0x80011300 + e
/-- 8.00.114[j] -/
abbrev selectorEntryCount (e : Nat) : Nat := 0x80011400 + e
/-- 8.00.120 -/
abbrev selectorLog : Nat := 0x80012000
/-- 8.00.121 -/
abbrev selectorLogWritten : Nat := 0x80012100
/-- 8.00.122[j] -/
abbrev selectorChoices (e : Nat) : Nat := 0x80012200 + e
/-- 8.00.130[j] -/
abbrev dispatchSpills (e : Nat) : Nat := 0x80013000 + e
/-- 8.00.131[j] -/
abbrev dispatchDeferred (e : Nat) : Nat := 0x80013100 + e
/-- 8.00.132[j] -/
abbrev dispatchMaxRounds (e : Nat) : Nat := 0x80013200 + e
/-- 8.00.133[j] -/
abbrev dispatchTokens (e : Nat) : Nat := 0x80013300 + e
/-- 8.00.140[j] -/
abbrev gathersCompleted (e : Nat) : Nat := 0x80014000 + e
/-- 8.00.141[j] -/
abbrev gatherBytes (e : Nat) : Nat := 0x80014100 + e
/-- 8.00.200 -/
abbrev updateRules : Nat := 0x80020000
/-- 8.00.201 -/
abbrev blockParameters : Nat := 0x80020100
/-- 8.00.202 -/
abbrev blockBytes : Nat := 0x80020200
/-- 8.00.210[j] -/
abbrev clipMaxNorm (e : Nat) : Nat := 0x80021000 + e
/-- 8.00.211[j] -/
abbrev clipFactor (e : Nat) : Nat := 0x80021100 + e
/-- 8.00.212[j] -/
abbrev globalNorm (e : Nat) : Nat := 0x80021200 + e
/-- 8.00.213[j] -/
abbrev groupCount (e : Nat) : Nat := 0x80021300 + e
/-- 8.00.214[j] -/
abbrev lastAppliedStep (e : Nat) : Nat := 0x80021400 + e
/-- 8.00.215[j] -/
abbrev blocksSkipped (e : Nat) : Nat := 0x80021500 + e
/-- 8.00.216[j] -/
abbrev stampRefusals (e : Nat) : Nat := 0x80021600 + e
/-- 8.00.220[j] -/
abbrev hallmarkInterval (e : Nat) : Nat := 0x80022000 + e
/-- 8.00.221[j] -/
abbrev hallmarkReplicas (e : Nat) : Nat := 0x80022100 + e
/-- 8.00.222[j] -/
abbrev hallmarkReplicaIndex (e : Nat) : Nat := 0x80022200 + e
/-- 8.00.223[j] -/
abbrev hallmarkPlan (e : Nat) : Nat := 0x80022300 + e
/-- 8.00.224[j] -/
abbrev hallmarkLastStep (e : Nat) : Nat := 0x80022400 + e
/-- 8.00.230 -/
abbrev mismatchLog : Nat := 0x80023000
/-- 8.00.231 -/
abbrev mismatchCount : Nat := 0x80023100
/-- 8.(60+s).240 -/
abbrev updateUnitState (u : Nat) : Nat := 0x86024000 + 0x100000 * u
/-- 8.(60+s).241 -/
abbrev blocksCommitted (u : Nat) : Nat := 0x86024100 + 0x100000 * u
/-- 8.(60+s).242 -/
abbrev conflictRetries (u : Nat) : Nat := 0x86024200 + 0x100000 * u
/-- 8.(60+s).243 -/
abbrev slotWaits (u : Nat) : Nat := 0x86024300 + 0x100000 * u
/-- 8.(60+s).244 -/
abbrev nonfiniteGradients (u : Nat) : Nat := 0x86024400 + 0x100000 * u
/-- 8.(60+s).245 -/
abbrev lastUpdateStatus (u : Nat) : Nat := 0x86024500 + 0x100000 * u
/-- 4.00.200 -/
abbrev txnSlotsPerDie : Nat := 0x40020000
/-- 4.00.201 -/
abbrev txnMaxWrittenLines : Nat := 0x40020100
/-- 4.00.202 -/
abbrev txnMaxTrackedLines : Nat := 0x40020200
/-- 4.00.203 -/
abbrev txnTimeLimitUs : Nat := 0x40020300
/-- 4.00.204 -/
abbrev txnLockWaitLimitUs : Nat := 0x40020400
/-- 4.00.205 -/
abbrev txnRegionTable : Nat := 0x40020500
/-- 4.00.206 -/
abbrev txnRegionCount : Nat := 0x40020600
/-- 4.(08+q).210 -/
abbrev txnOpen (u : Nat) : Nat := 0x40821000 + 0x100000 * u
/-- 4.(08+q).211 -/
abbrev txnOpenPeak (u : Nat) : Nat := 0x40821100 + 0x100000 * u
/-- 4.(08+q).212 -/
abbrev txnMarkedLines (u : Nat) : Nat := 0x40821200 + 0x100000 * u
/-- 4.(08+q).213 -/
abbrev txnCommits (u : Nat) : Nat := 0x40821300 + 0x100000 * u
/-- 4.(08+q).214 -/
abbrev txnCommitsCrossDie (u : Nat) : Nat := 0x40821400 + 0x100000 * u
/-- 4.(08+q).215 -/
abbrev txnOpenRefusals (u : Nat) : Nat := 0x40821500 + 0x100000 * u
/-- 4.(08+q).216 -/
abbrev txnLockWaitNs (u : Nat) : Nat := 0x40821600 + 0x100000 * u
/-- 4.(08+q).220[r] -/
abbrev txnAborts (u e : Nat) : Nat := 0x40822000 + 0x100000 * u + e
/-- 4.(08+q).222 -/
abbrev txnAbortLog (u : Nat) : Nat := 0x40822200 + 0x100000 * u
/-- 4.(08+q).223 -/
abbrev txnUncachedViolations (u : Nat) : Nat := 0x40822300 + 0x100000 * u
/-- 4.(08+q).230[n] -/
abbrev txnSlotState (u e : Nat) : Nat := 0x40823000 + 0x100000 * u + e
/-- 4.(08+q).231[n] -/
abbrev txnSlotMaster (u e : Nat) : Nat := 0x40823100 + 0x100000 * u + e
/-- 4.00.000 -/
abbrev hbmMappedBytes : Nat := 0x40000000
/-- 4.00.001 -/
abbrev hbmSpareBandsFree : Nat := 0x40000100
/-- 4.00.004 -/
abbrev hbmOutOfServiceBytes : Nat := 0x40000400
/-- 4.00.005 -/
abbrev hbmLostBytes : Nat := 0x40000500
/-- 4.00.010 -/
abbrev segmentTable : Nat := 0x40001000
/-- 4.00.011 -/
abbrev segmentCount : Nat := 0x40001100
/-- 4.00.020 -/
abbrev fenceTable : Nat := 0x40002000
/-- 4.00.021 -/
abbrev lostLineTable : Nat := 0x40002100
/-- 4.00.022 -/
abbrev lostLineCount : Nat := 0x40002200
/-- 4.00.023 -/
abbrev deadPcs : Nat := 0x40002300
/-- 4.00.030 -/
abbrev retrainPeriodMs : Nat := 0x40003000
/-- 4.00.031 -/
abbrev retrainTempDeltaC : Nat := 0x40003100
/-- 4.00.032 -/
abbrev retrainStallBoundUs : Nat := 0x40003200
/-- 4.00.033 -/
abbrev hbmScrubPeriodS : Nat := 0x40003300
/-- 4.00.034 -/
abbrev fenceHoldBoundUs : Nat := 0x40003400
/-- 4.00.035 -/
abbrev retrainCorrectedRate : Nat := 0x40003500
/-- 4.(08+q).040 -/
abbrev cacheHits (u : Nat) : Nat := 0x40804000 + 0x100000 * u
/-- 4.(08+q).041 -/
abbrev cacheMisses (u : Nat) : Nat := 0x40804100 + 0x100000 * u
/-- 4.(08+q).042 -/
abbrev cacheWritebacks (u : Nat) : Nat := 0x40804200 + 0x100000 * u
/-- 4.(08+q).043 -/
abbrev atomics (u : Nat) : Nat := 0x40804300 + 0x100000 * u
/-- 4.(08+q).044 -/
abbrev reductionAdds (u : Nat) : Nat := 0x40804400 + 0x100000 * u
/-- 4.(08+q).045 -/
abbrev uncachedAccesses (u : Nat) : Nat := 0x40804500 + 0x100000 * u
/-- 4.(08+q).046 -/
abbrev nonallocatingFills (u : Nat) : Nat := 0x40804600 + 0x100000 * u
/-- 4.(08+q).047 -/
abbrev mapViolations (u : Nat) : Nat := 0x40804700 + 0x100000 * u
/-- 4.(08+q).048 -/
abbrev cacheCorrected (u : Nat) : Nat := 0x40804800 + 0x100000 * u
/-- 4.(60+s).100[j] -/
abbrev pcState (u e : Nat) : Nat := 0x46010000 + 0x100000 * u + e
/-- 4.(60+s).101[j] -/
abbrev pcCorrected (u e : Nat) : Nat := 0x46010100 + 0x100000 * u + e
/-- 4.(60+s).102[j] -/
abbrev pcUncorrected (u e : Nat) : Nat := 0x46010200 + 0x100000 * u + e
/-- 4.(60+s).103[j] -/
abbrev pcLastErrorGranule (u e : Nat) : Nat := 0x46010300 + 0x100000 * u + e
/-- 4.(60+s).104[j] -/
abbrev pcRetrainCount (u e : Nat) : Nat := 0x46010400 + 0x100000 * u + e
/-- 4.(60+s).105[j] -/
abbrev pcStallTotalNs (u e : Nat) : Nat := 0x46010500 + 0x100000 * u + e
/-- 4.(60+s).106[j] -/
abbrev pcStallMaxNs (u e : Nat) : Nat := 0x46010600 + 0x100000 * u + e
/-- 4.(60+s).107[j] -/
abbrev pcRateMbps (u e : Nat) : Nat := 0x46010700 + 0x100000 * u + e
/-- 4.(60+s).110 -/
abbrev stackTemperatureC (u : Nat) : Nat := 0x46011000 + 0x100000 * u
/-- 4.(60+s).111 -/
abbrev refreshMode (u : Nat) : Nat := 0x46011100 + 0x100000 * u
/-- C.00.000 -/
abbrev poolBuffersPerDie : Nat := 0xC0000000
/-- C.00.001 -/
abbrev poolBufferBytes : Nat := 0xC0000100
/-- C.00.002 -/
abbrev poolChannelsPerDie : Nat := 0xC0000200
/-- C.00.003 -/
abbrev auditPeriodNs : Nat := 0xC0000300
/-- C.00.005 -/
abbrev auditStallLimitUs : Nat := 0xC0000500
/-- C.00.010 -/
abbrev ledgerTable : Nat := 0xC0001000
/-- C.00.011 -/
abbrev ledgerRows : Nat := 0xC0001100
/-- C.00.012 -/
abbrev ledgerFaults : Nat := 0xC0001200
/-- C.00.013 -/
abbrev ledgerFaultLog : Nat := 0xC0001300
/-- C.00.014 -/
abbrev conservationVoid : Nat := 0xC0001400
/-- C.00.015 -/
abbrev auditDeferredNs : Nat := 0xC0001500
/-- C.00.016 -/
abbrev auditsPassed : Nat := 0xC0001600
/-- C.(08+q).020 -/
abbrev urgentSlice (u : Nat) : Nat := 0xC0802000 + 0x100000 * u
/-- C.(08+q).021 -/
abbrev poolSharedFree (u : Nat) : Nat := 0xC0802100 + 0x100000 * u
/-- C.(08+q).022 -/
abbrev poolUrgentFree (u : Nat) : Nat := 0xC0802200 + 0x100000 * u
/-- C.(08+q).023 -/
abbrev poolReservedTotal (u : Nat) : Nat := 0xC0802300 + 0x100000 * u
/-- C.(08+q).024 -/
abbrev poolHeld (u : Nat) : Nat := 0xC0802400 + 0x100000 * u
/-- C.(08+q).025 -/
abbrev poolRefusals (u : Nat) : Nat := 0xC0802500 + 0x100000 * u
/-- C.(08+q).026 -/
abbrev poolHandoffWaits (u : Nat) : Nat := 0xC0802600 + 0x100000 * u
/-- C.(08+q).027 -/
abbrev poolChannelsOpen (u : Nat) : Nat := 0xC0802700 + 0x100000 * u
/-- C.(08+q).030 -/
abbrev creditWaitNs (u : Nat) : Nat := 0xC0803000 + 0x100000 * u
/-- C.(08+q).031 -/
abbrev d2dUncorrectedPayloads (u : Nat) : Nat := 0xC0803100 + 0x100000 * u
/-- C.(08+q).(100+g)[e] -/
abbrev channelKind (u e : Nat) : Nat := 0xC0810000 + 0x100000 * u + 0x100 * (e / 256) + e % 256
/-- C.(08+q).(104+g)[e] -/
abbrev channelReserve (u e : Nat) : Nat := 0xC0810400 + 0x100000 * u + 0x100 * (e / 256) + e % 256
/-- C.(08+q).(108+g)[e] -/
abbrev channelCap (u e : Nat) : Nat := 0xC0810800 + 0x100000 * u + 0x100 * (e / 256) + e % 256
/-- C.(08+q).(10C+g)[e] -/
abbrev channelClass (u e : Nat) : Nat := 0xC0810C00 + 0x100000 * u + 0x100 * (e / 256) + e % 256
/-- C.(08+q).(110+g)[e] -/
abbrev channelHeld (u e : Nat) : Nat := 0xC0811000 + 0x100000 * u + 0x100 * (e / 256) + e % 256
/-- C.(08+q).(114+g)[e] -/
abbrev channelRefusals (u e : Nat) : Nat := 0xC0811400 + 0x100000 * u + 0x100 * (e / 256) + e % 256
/-- C.(08+q).(118+g)[e] -/
abbrev channelOwner (u e : Nat) : Nat := 0xC0811800 + 0x100000 * u + 0x100 * (e / 256) + e % 256
/-- 5.00.000 -/
abbrev brodluUdpPort : Nat := 0x50000000
/-- 5.00.001 -/
abbrev contextCount : Nat := 0x50000100
/-- 5.00.010 -/
abbrev rcDecrease : Nat := 0x50001000
/-- 5.00.011 -/
abbrev rcPeriodUs : Nat := 0x50001100
/-- 5.00.012 -/
abbrev rcIncreaseMbps : Nat := 0x50001200
/-- 5.00.013 -/
abbrev rcMinMbps : Nat := 0x50001300
/-- 5.00.014 -/
abbrev syncTimeoutMs : Nat := 0x50001400
/-- 5.00.020 -/
abbrev violationLog : Nat := 0x50002000
/-- 5.00.021 -/
abbrev violationCount : Nat := 0x50002100
/-- 5.00.030[j] -/
abbrev plansCompleted (e : Nat) : Nat := 0x50003000 + e
/-- 5.00.031[j] -/
abbrev lastPlanStatus (e : Nat) : Nat := 0x50003100 + e
/-- 5.00.032[j] -/
abbrev lastPlanNumber (e : Nat) : Nat := 0x50003200 + e
/-- 5.00.(100+g)[e] -/
abbrev ctxConfig (e : Nat) : Nat := 0x50010000 + 0x100 * (e / 256) + e % 256
/-- 5.00.(110+g)[e] -/
abbrev ctxWindows (e : Nat) : Nat := 0x50011000 + 0x100 * (e / 256) + e % 256
/-- 5.00.(120+g)[e] -/
abbrev ctxControl (e : Nat) : Nat := 0x50012000 + 0x100 * (e / 256) + e % 256
/-- 5.00.(130+g)[e] -/
abbrev ctxState (e : Nat) : Nat := 0x50013000 + 0x100 * (e / 256) + e % 256
/-- 5.00.(140+g)[e] -/
abbrev ctxThaw (e : Nat) : Nat := 0x50014000 + 0x100 * (e / 256) + e % 256
/-- 5.00.(150+g)[e] -/
abbrev ctxStats (e : Nat) : Nat := 0x50015000 + 0x100 * (e / 256) + e % 256
/-- 5.(A0+l).000 -/
abbrev portMode (u : Nat) : Nat := 0x5A000000 + 0x100000 * u
/-- 5.(A0+l).001 -/
abbrev portLanes (u : Nat) : Nat := 0x5A000100 + 0x100000 * u
/-- 5.(A0+l).002 -/
abbrev portMedia (u : Nat) : Nat := 0x5A000200 + 0x100000 * u
/-- 5.(A0+l).003 -/
abbrev macAddress (u : Nat) : Nat := 0x5A000300 + 0x100000 * u
/-- 5.(A0+l).004 -/
abbrev ipv4Address (u : Nat) : Nat := 0x5A000400 + 0x100000 * u
/-- 5.(A0+l).005 -/
abbrev ipv6Address (u : Nat) : Nat := 0x5A000500 + 0x100000 * u
/-- 5.(A0+l).006 -/
abbrev vlan (u : Nat) : Nat := 0x5A000600 + 0x100000 * u
/-- 5.(A0+l).007 -/
abbrev dscp (u : Nat) : Nat := 0x5A000700 + 0x100000 * u
/-- 5.(A0+l).008 -/
abbrev ipMtu (u : Nat) : Nat := 0x5A000800 + 0x100000 * u
/-- 5.(A0+l).009 -/
abbrev ecnEnable (u : Nat) : Nat := 0x5A000900 + 0x100000 * u
/-- 5.(A0+l).00A -/
abbrev pfcMask (u : Nat) : Nat := 0x5A000A00 + 0x100000 * u
/-- 5.(A0+l).00B -/
abbrev pfcXoff (u : Nat) : Nat := 0x5A000B00 + 0x100000 * u
/-- 5.(A0+l).00C -/
abbrev pfcXon (u : Nat) : Nat := 0x5A000C00 + 0x100000 * u
/-- 5.(A0+l).00D -/
abbrev peerMac (u : Nat) : Nat := 0x5A000D00 + 0x100000 * u
/-- 5.(A0+l).00E -/
abbrev rxReserve (u : Nat) : Nat := 0x5A000E00 + 0x100000 * u
/-- 5.(A0+l).00F -/
abbrev rxCap (u : Nat) : Nat := 0x5A000F00 + 0x100000 * u
/-- 5.(A0+l).010 -/
abbrev portState (u : Nat) : Nat := 0x5A001000 + 0x100000 * u
/-- 5.(A0+l).011 -/
abbrev rxDrops (u : Nat) : Nat := 0x5A001100 + 0x100000 * u
/-- 5.(A0+l).012 -/
abbrev rxClass (u : Nat) : Nat := 0x5A001200 + 0x100000 * u
/-- 5.(A0+l).013 -/
abbrev pauseIgnored (u : Nat) : Nat := 0x5A001300 + 0x100000 * u
/-- 5.(A0+l).014 -/
abbrev pfcSent (u : Nat) : Nat := 0x5A001400 + 0x100000 * u
/-- 5.(A0+l).015 -/
abbrev linkReplays (u : Nat) : Nat := 0x5A001500 + 0x100000 * u
/-- 5.(A0+l).016 -/
abbrev linkReplaySkips (u : Nat) : Nat := 0x5A001600 + 0x100000 * u
/-- 5.(A0+l).020 -/
abbrev laneState (u : Nat) : Nat := 0x5A002000 + 0x100000 * u
/-- 5.(A0+l).021 -/
abbrev fecCorrected (u : Nat) : Nat := 0x5A002100 + 0x100000 * u
/-- 5.(A0+l).022 -/
abbrev fecUncorrected (u : Nat) : Nat := 0x5A002200 + 0x100000 * u
/-- 6.00.000 -/
abbrev inputStreams : Nat := 0x60000000
/-- 6.00.001 -/
abbrev strandMaxTokens : Nat := 0x60000100
/-- 6.00.002 -/
abbrev strandMaxSamples : Nat := 0x60000200
/-- 6.00.003 -/
abbrev meshMaxNodes : Nat := 0x60000300
/-- 6.00.004 -/
abbrev stftMaxPoints : Nat := 0x60000400
/-- 6.00.005 -/
abbrev melMaxBands : Nat := 0x60000500
/-- 6.00.010 -/
abbrev splitPeriodUs : Nat := 0x60001000
/-- 6.00.011 -/
abbrev splitStep : Nat := 0x60001100
/-- 6.00.012 -/
abbrev splitHigh : Nat := 0x60001200
/-- 6.00.013 -/
abbrev splitLow : Nat := 0x60001300
/-- 6.(30+m).000[k] -/
abbrev splitRatio (u e : Nat) : Nat := 0x63000000 + 0x100000 * u + e
/-- 6.(30+m).001[k] -/
abbrev decodeOccupancy (u e : Nat) : Nat := 0x63000100 + 0x100000 * u + e
/-- 6.(30+m).010[s] -/
abbrev streamConfig (u e : Nat) : Nat := 0x63001000 + 0x100000 * u + e
/-- 6.(30+m).011[s] -/
abbrev streamControl (u e : Nat) : Nat := 0x63001100 + 0x100000 * u + e
/-- 6.(30+m).012[s] -/
abbrev streamState (u e : Nat) : Nat := 0x63001200 + 0x100000 * u + e
/-- 6.(30+m).013[s] -/
abbrev nextSampleSeq (u e : Nat) : Nat := 0x63001300 + 0x100000 * u + e
/-- 6.(30+m).014[s] -/
abbrev meanDecodeNs (u e : Nat) : Nat := 0x63001400 + 0x100000 * u + e
/-- 6.(30+m).015[s] -/
abbrev streamStats (u e : Nat) : Nat := 0x63001500 + 0x100000 * u + e
/-- 6.(30+m).016[s] -/
abbrev strandHead (u e : Nat) : Nat := 0x63001600 + 0x100000 * u + e
/-- 6.(30+m).017[s] -/
abbrev streamThaw (u e : Nat) : Nat := 0x63001700 + 0x100000 * u + e
/-- 6.(30+m).020 -/
abbrev rejectLog (u : Nat) : Nat := 0x63002000 + 0x100000 * u
/-- 6.00.100 -/
abbrev videoDecodeEngines : Nat := 0x60010000
/-- 6.00.101 -/
abbrev jpegEngines : Nat := 0x60010100
/-- 6.00.102 -/
abbrev pngEngines : Nat := 0x60010200
/-- 6.00.103 -/
abbrev encoders : Nat := 0x60010300
/-- 6.00.104 -/
abbrev decodeCodecs : Nat := 0x60010400
/-- 6.00.105 -/
abbrev encodeCodecs : Nat := 0x60010500
/-- 6.00.110 -/
abbrev concealLimitPermille : Nat := 0x60011000
/-- 6.00.111 -/
abbrev av1FilmGrain : Nat := 0x60011100
/-- 6.(30+m).100[s] -/
abbrev encodeConfig (u e : Nat) : Nat := 0x63010000 + 0x100000 * u + e
/-- 6.(30+m).101[s] -/
abbrev encodeControl (u e : Nat) : Nat := 0x63010100 + 0x100000 * u + e
/-- 6.(30+m).102[s] -/
abbrev encodeState (u e : Nat) : Nat := 0x63010200 + 0x100000 * u + e
/-- 6.(30+m).103[s] -/
abbrev encodeStats (u e : Nat) : Nat := 0x63010300 + 0x100000 * u + e
/-- 6.(30+m).104[s] -/
abbrev encodeThaw (u e : Nat) : Nat := 0x63010400 + 0x100000 * u + e
/-- 6.(30+m).110[e] -/
abbrev engineState (u e : Nat) : Nat := 0x63011000 + 0x100000 * u + e
/-- 6.(30+m).111[e] -/
abbrev engineBusyNs (u e : Nat) : Nat := 0x63011100 + 0x100000 * u + e
/-- 6.(30+m).112[e] -/
abbrev engineOutput (u e : Nat) : Nat := 0x63011200 + 0x100000 * u + e
/-- 6.(30+m).120 -/
abbrev damageLog (u : Nat) : Nat := 0x63012000 + 0x100000 * u
/-- 6.(30+m).121 -/
abbrev damageCount (u : Nat) : Nat := 0x63012100 + 0x100000 * u
/-- 6.(30+m).122 -/
abbrev unsupportedSamples (u : Nat) : Nat := 0x63012200 + 0x100000 * u
/-- 6.(30+m).123 -/
abbrev lcSwitchWaitNs (u : Nat) : Nat := 0x63012300 + 0x100000 * u
/-- 7.00.000 -/
abbrev jobSlots : Nat := 0x70000000
/-- 7.00.001 -/
abbrev residentLimit : Nat := 0x70000100
/-- 7.00.002 -/
abbrev coreRecordBytes : Nat := 0x70000200
/-- 7.00.003 -/
abbrev cheapPointCycles : Nat := 0x70000300
/-- 7.00.004 -/
abbrev nonpreemptibleUs : Nat := 0x70000400
/-- 7.00.005 -/
abbrev residentCount : Nat := 0x70000500
/-- 7.00.010 -/
abbrev savePoolBase : Nat := 0x70001000
/-- 7.00.011 -/
abbrev savePoolBytes : Nat := 0x70001100
/-- 7.00.012 -/
abbrev cheapPointWaitUs : Nat := 0x70001200
/-- 7.00.013 -/
abbrev watchdogDefaultMs : Nat := 0x70001300
/-- 7.00.014 -/
abbrev savePoolFreeBytes : Nat := 0x70001400
/-- 7.00.100[j] -/
abbrev jobState (e : Nat) : Nat := 0x70010000 + e
/-- 7.00.101[j] -/
abbrev jobClass (e : Nat) : Nat := 0x70010100 + e
/-- 7.00.102[j] -/
abbrev sliceUs (e : Nat) : Nat := 0x70010200 + e
/-- 7.00.103[j] -/
abbrev watchdogMs (e : Nat) : Nat := 0x70010300 + e
/-- 7.00.104[j] -/
abbrev stepRecord (e : Nat) : Nat := 0x70010400 + e
/-- 7.00.105[j] -/
abbrev stepsPending (e : Nat) : Nat := 0x70010500 + e
/-- 7.00.106[j] -/
abbrev stepsCompleted (e : Nat) : Nat := 0x70010600 + e
/-- 7.00.107[j] -/
abbrev saveAreaBase (e : Nat) : Nat := 0x70010700 + e
/-- 7.00.108[j] -/
abbrev saveAreaBytes (e : Nat) : Nat := 0x70010800 + e
/-- 7.00.109[j] -/
abbrev sliceDebtUs (e : Nat) : Nat := 0x70010900 + e
/-- 7.00.110[j] -/
abbrev preemptions (e : Nat) : Nat := 0x70011000 + e
/-- 7.00.111[j] -/
abbrev lastReleaseNs (e : Nat) : Nat := 0x70011100 + e
/-- 7.00.112[j] -/
abbrev maxReleaseNs (e : Nat) : Nat := 0x70011200 + e
/-- 7.00.113[j] -/
abbrev longCommands (e : Nat) : Nat := 0x70011300 + e
/-- 7.00.114[j] -/
abbrev longestCommandNs (e : Nat) : Nat := 0x70011400 + e
/-- 7.00.115[j] -/
abbrev watchdogExpiries (e : Nat) : Nat := 0x70011500 + e
/-- 7.00.116[j] -/
abbrev forcedSaves (e : Nat) : Nat := 0x70011600 + e
/-- 7.00.117[j] -/
abbrev liveSaveBytes (e : Nat) : Nat := 0x70011700 + e
/-- 7.00.120[j] -/
abbrev jobControl (e : Nat) : Nat := 0x70012000 + e
/-- 7.00.121[j] -/
abbrev registrationAddress (e : Nat) : Nat := 0x70012100 + e
/-- 7.00.122[j] -/
abbrev stepSubmit (e : Nat) : Nat := 0x70012200 + e
/-- 7.00.123[j] -/
abbrev jobThaw (e : Nat) : Nat := 0x70012300 + e
/-- 7.(40+c).130[k] -/
abbrev coreOccupant (u e : Nat) : Nat := 0x74013000 + 0x100000 * u + e
/-- B.7F.000 -/
abbrev pcieVendorId : Nat := 0xB7F00000
/-- B.7F.001 -/
abbrev pcieDeviceId : Nat := 0xB7F00100
/-- B.7F.002 -/
abbrev linkRate : Nat := 0xB7F00200
/-- B.7F.003 -/
abbrev linkWidth : Nat := 0xB7F00300
/-- B.7F.004 -/
abbrev linkRateCap : Nat := 0xB7F00400
/-- B.7F.005 -/
abbrev bar2Base : Nat := 0xB7F00500
/-- B.7F.006 -/
abbrev aerCorrected : Nat := 0xB7F00600
/-- B.7F.007 -/
abbrev aerUncorrected : Nat := 0xB7F00700
/-- B.7F.008 -/
abbrev completerAborts : Nat := 0xB7F00800
/-- B.7F.009 -/
abbrev droppedWrites : Nat := 0xB7F00900
/-- B.7F.00A -/
abbrev functionResets : Nat := 0xB7F00A00
/-- B.7F.010[q] -/
abbrev sqBase (e : Nat) : Nat := 0xB7F01000 + e
/-- B.7F.011[q] -/
abbrev sqEntries (e : Nat) : Nat := 0xB7F01100 + e
/-- B.7F.012[q] -/
abbrev cqBase (e : Nat) : Nat := 0xB7F01200 + e
/-- B.7F.013[q] -/
abbrev cqEntries (e : Nat) : Nat := 0xB7F01300 + e
/-- B.7F.014[q] -/
abbrev cqVector (e : Nat) : Nat := 0xB7F01400 + e
/-- B.7F.015[q] -/
abbrev queuePriority (e : Nat) : Nat := 0xB7F01500 + e
/-- B.7F.016[q] -/
abbrev queueEnable (e : Nat) : Nat := 0xB7F01600 + e
/-- B.7F.017[q] -/
abbrev queueState (e : Nat) : Nat := 0xB7F01700 + e
/-- B.7F.018[q] -/
abbrev queueStats (e : Nat) : Nat := 0xB7F01800 + e
/-- B.7F.019[q] -/
abbrev queueThaw (e : Nat) : Nat := 0xB7F01900 + e
/-- B.7F.020 -/
abbrev notifyRingBase : Nat := 0xB7F02000
/-- B.7F.021 -/
abbrev notifyRingEntries : Nat := 0xB7F02100
/-- B.7F.022 -/
abbrev notifyDrops : Nat := 0xB7F02200
/-- B.00.100[n] -/
abbrev mbSender (e : Nat) : Nat := 0xB0010000 + e
/-- B.00.101[n] -/
abbrev mbReceiver (e : Nat) : Nat := 0xB0010100 + e
/-- B.00.102[n] -/
abbrev mbBit (e : Nat) : Nat := 0xB0010200 + e
/-- B.00.103[n] -/
abbrev mbEnable (e : Nat) : Nat := 0xB0010300 + e
/-- B.00.104[n] -/
abbrev mbStats (e : Nat) : Nat := 0xB0010400 + e
/-- B.00.110[r] -/
abbrev sharedCollisions (e : Nat) : Nat := 0xB0011000 + e
/-- 2.00.000 -/
abbrev powerState : Nat := 0x20000000
/-- 2.00.001 -/
abbrev powerStateRequest : Nat := 0x20000100
/-- 2.00.002 -/
abbrev powerTransition : Nat := 0x20000200
/-- 2.00.003 -/
abbrev idleGateUs : Nat := 0x20000300
/-- 2.00.004 -/
abbrev idleAutoMs : Nat := 0x20000400
/-- 2.00.010 -/
abbrev lastWake : Nat := 0x20001000
/-- 2.00.011 -/
abbrev wakeEnable : Nat := 0x20001100
/-- 2.00.012 -/
abbrev wakeTimer : Nat := 0x20001200
/-- 2.00.013 -/
abbrev wakeFramePassword : Nat := 0x20001300
/-- 2.00.014 -/
abbrev wakeNAssert : Nat := 0x20001400
/-- 2.00.020 -/
abbrev wakeAinThreshold : Nat := 0x20002000
/-- 2.00.021 -/
abbrev wakeAinHysteresis : Nat := 0x20002100
/-- 2.00.022 -/
abbrev wakeAinPolarity : Nat := 0x20002200
/-- 2.00.023 -/
abbrev wakeAinFilter : Nat := 0x20002300
/-- 2.00.024 -/
abbrev wakeAinState : Nat := 0x20002400
/-- 2.00.025 -/
abbrev wakeAinTrips : Nat := 0x20002500
/-- 2.00.030[i] -/
abbrev clockEnables (e : Nat) : Nat := 0x20003000 + e
/-- 2.00.031[i] -/
abbrev islandFrequencyKhz (e : Nat) : Nat := 0x20003100 + e
/-- 2.00.032[i] -/
abbrev islandSource (e : Nat) : Nat := 0x20003200 + e
/-- 2.00.033[i] -/
abbrev islandSwitches (e : Nat) : Nat := 0x20003300 + e
/-- 2.00.034 -/
abbrev rcTrimCode : Nat := 0x20003400
/-- 2.00.035 -/
abbrev rcTrimReference : Nat := 0x20003500
/-- 2.00.036 -/
abbrev rcRetrimMs : Nat := 0x20003600
/-- 2.00.037 -/
abbrev crystalStatus : Nat := 0x20003700
/-- 2.00.040 -/
abbrev opTable : Nat := 0x20004000
/-- 2.00.041 -/
abbrev powerLimitW : Nat := 0x20004100
/-- 2.00.042 -/
abbrev powerMw : Nat := 0x20004200
/-- 2.00.043 -/
abbrev powerCapPoint : Nat := 0x20004300
/-- 2.00.050 -/
abbrev throttleC : Nat := 0x20005000
/-- 2.00.051 -/
abbrev tripC : Nat := 0x20005100
/-- 2.00.052[q] -/
abbrev dieTemperatureQc (e : Nat) : Nat := 0x20005200 + e
/-- 2.00.053[q] -/
abbrev thermalCapPoint (e : Nat) : Nat := 0x20005300 + e
/-- 2.00.054[q] -/
abbrev throttleEvents (e : Nat) : Nat := 0x20005400 + e
/-- 2.00.056 -/
abbrev thermalTripRecord : Nat := 0x20005600
/-- 2.00.070 -/
abbrev locketValid : Nat := 0x20007000
/-- 2.00.071 -/
abbrev locketClear : Nat := 0x20007100
/-- 2.00.072 -/
abbrev locketErrors : Nat := 0x20007200
/-- 2.(10+d).060 -/
abbrev domainState (u : Nat) : Nat := 0x21006000 + 0x100000 * u
/-- 2.(10+d).061 -/
abbrev domainControl (u : Nat) : Nat := 0x21006100 + 0x100000 * u
/-- 2.(10+d).062 -/
abbrev opRequest (u : Nat) : Nat := 0x21806200 + 0x100000 * u
/-- 2.(10+d).063 -/
abbrev opEffective (u : Nat) : Nat := 0x21806300 + 0x100000 * u
/-- 2.(10+d).064 -/
abbrev opChanges (u : Nat) : Nat := 0x21806400 + 0x100000 * u
/-- 2.(10+d).065 -/
abbrev domainVoltageMv (u : Nat) : Nat := 0x21006500 + 0x100000 * u
/-- 0.00.100 -/
abbrev startupState : Nat := 0x10000
/-- 0.00.101 -/
abbrev startupFailure : Nat := 0x10100
/-- 0.00.102 -/
abbrev startupTimes : Nat := 0x10200
/-- 0.00.103 -/
abbrev lastResetKind : Nat := 0x10300
/-- 0.00.104 -/
abbrev resetRequest : Nat := 0x10400
/-- 0.00.105 -/
abbrev lastResetNonce : Nat := 0x10500
/-- 0.00.106 -/
abbrev startupWarnings : Nat := 0x10600
/-- 0.00.107 -/
abbrev configureHold : Nat := 0x10700
/-- 0.00.108 -/
abbrev configureRelease : Nat := 0x10800
/-- 0.00.109 -/
abbrev readyDomains : Nat := 0x10900
/-- 0.00.110 -/
abbrev fuseMapVersion : Nat := 0x11000
/-- 0.00.111 -/
abbrev fuseCorrectedWords : Nat := 0x11100
/-- 0.00.112 -/
abbrev fuseReadback : Nat := 0x11200
/-- 1.00.000 -/
abbrev imageSlotUsed : Nat := 0x10000000
/-- 1.00.001[k] -/
abbrev slotStatus (e : Nat) : Nat := 0x10000100 + e
/-- 1.00.002[k] -/
abbrev slotImageVersion (e : Nat) : Nat := 0x10000200 + e
/-- 1.00.003[k] -/
abbrev slotAntiRollback (e : Nat) : Nat := 0x10000300 + e
/-- 1.00.004 -/
abbrev recordsApplied : Nat := 0x10000400
/-- 1.00.005 -/
abbrev recordsSkipped : Nat := 0x10000500
/-- 1.00.006 -/
abbrev imageDigest : Nat := 0x10000600
/-- 1.00.010 -/
abbrev nextBootSlot : Nat := 0x10001000
/-- 1.00.020 -/
abbrev flashOffset : Nat := 0x10002000
/-- 1.00.021 -/
abbrev flashData : Nat := 0x10002100
/-- 1.00.022 -/
abbrev flashErase : Nat := 0x10002200
/-- 1.00.023 -/
abbrev flashState : Nat := 0x10002300
/-- 1.00.024 -/
abbrev flashBytes : Nat := 0x10002400
/-- A.00.000 -/
abbrev errorRecordBytes : Nat := 0xA0000000
/-- A.00.001 -/
abbrev errorLogDepth : Nat := 0xA0000100
/-- A.00.010 -/
abbrev errorLog : Nat := 0xA0001000
/-- A.00.011 -/
abbrev errorRecordsWritten : Nat := 0xA0001100
/-- A.00.012[n] -/
abbrev errorClassCounts (e : Nat) : Nat := 0xA0001200 + e
/-- A.00.013 -/
abbrev fatalRecord : Nat := 0xA0001300
/-- A.00.014 -/
abbrev hbmContentsLost : Nat := 0xA0001400
/-- A.00.015 -/
abbrev recordIntervalMs : Nat := 0xA0001500
/-- A.00.020 -/
abbrev commandTimeoutMs : Nat := 0xA0002000
/-- A.00.021 -/
abbrev lateCompletions : Nat := 0xA0002100
/-- A.00.022 -/
abbrev timerPauses : Nat := 0xA0002200
/-- A.00.030 -/
abbrev masterThaw : Nat := 0xA0003000
/-- A.00.031 -/
abbrev frozenMasters : Nat := 0xA0003100
/-- A.00.032 -/
abbrev frozenCount : Nat := 0xA0003200
/-- A.00.040 -/
abbrev assayTestsRun : Nat := 0xA0004000
/-- A.00.041[r] -/
abbrev assayResults (e : Nat) : Nat := 0xA0004100 + e
/-- A.00.042 -/
abbrev assayRequestsDropped : Nat := 0xA0004200
/-- A.00.043 -/
abbrev assayTransientLimit : Nat := 0xA0004300
/-- A.00.044 -/
abbrev assayPending : Nat := 0xA0004400
/-- A.00.045 -/
abbrev retirementWordsUsed : Nat := 0xA0004500
/-- A.00.046 -/
abbrev retirementsUnburned : Nat := 0xA0004600
/-- A.00.047 -/
abbrev lanesFailed : Nat := 0xA0004700
/-- A.00.048 -/
abbrev updateUnitsOut : Nat := 0xA0004800
/-- A.(08+q).049 -/
abbrev cacheWaysRetired (u : Nat) : Nat := 0xA0804900 + 0x100000 * u
/-- A.(40+c).050[b] -/
abbrev clmemSpareLinesUsed (u e : Nat) : Nat := 0xA4005000 + 0x100000 * u + e
/-- 9.00.000 -/
abbrev signetVersion : Nat := 0x90000000
/-- 9.00.001 -/
abbrev identityPublicKey : Nat := 0x90000100
/-- 9.00.002 -/
abbrev identityKeyId : Nat := 0x90000200
/-- 9.00.003 -/
abbrev vendorKeyHash : Nat := 0x90000300
/-- 9.00.004 -/
abbrev ownerKeyHash : Nat := 0x90000400
/-- 9.00.005 -/
abbrev ownerKeyPresent : Nat := 0x90000500
/-- 9.00.006 -/
abbrev rollbackCounter : Nat := 0x90000600
/-- 9.00.007 -/
abbrev rollbackCommit : Nat := 0x90000700
/-- 9.00.008 -/
abbrev rollbackBurnFailures : Nat := 0x90000800
/-- 9.00.010 -/
abbrev imageSigningKey : Nat := 0x90001000
/-- 9.00.011 -/
abbrev imageSigner : Nat := 0x90001100
/-- 9.00.020[i] -/
abbrev measurement (e : Nat) : Nat := 0x90002000 + e
/-- 9.00.021[i] -/
abbrev measurementExtends (e : Nat) : Nat := 0x90002100 + e
/-- 9.00.030 -/
abbrev attestNonce : Nat := 0x90003000
/-- 9.00.031 -/
abbrev attestReport : Nat := 0x90003100
/-- 9.00.032 -/
abbrev attestCount : Nat := 0x90003200
/-- 9.00.040 -/
abbrev entropyState : Nat := 0x90004000
/-- 9.00.041 -/
abbrev entropyFailures : Nat := 0x90004100
/-- E.00.000 -/
abbrev debugChallenge : Nat := 0xE0000000
/-- E.00.001 -/
abbrev debugToken : Nat := 0xE0000100
/-- E.00.002 -/
abbrev debugScope : Nat := 0xE0000200
/-- E.00.003 -/
abbrev debugLock : Nat := 0xE0000300
/-- E.00.004 -/
abbrev debugExpiry : Nat := 0xE0000400
/-- E.00.005 -/
abbrev debugUnlocks : Nat := 0xE0000500
/-- E.00.006 -/
abbrev debugTokenRefusals : Nat := 0xE0000600
/-- E.00.007 -/
abbrev debugTokenDigest : Nat := 0xE0000700
/-- 0.00.200 -/
abbrev packageCode : Nat := 0x20000
/-- 0.00.210 -/
abbrev landMap : Nat := 0x21000
/-- 0.00.220 -/
abbrev railStatus : Nat := 0x22000
/-- 0.00.221[r] -/
abbrev railMv (e : Nat) : Nat := 0x22100 + e
/-- 0.00.222 -/
abbrev railFaults : Nat := 0x22200
/-- 0.00.230 -/
abbrev refclkPresent : Nat := 0x23000
/-- 0.00.240 -/
abbrev i3cStaticAddress : Nat := 0x24000
/-- 0.00.241 -/
abbrev i3cDynamicAddress : Nat := 0x24100
/-- 0.00.242 -/
abbrev i3cIbiEnable : Nat := 0x24200
/-- 0.00.243 -/
abbrev i3cIgnoredWrites : Nat := 0x24300
/-- 0.00.250[n] -/
abbrev gpioFunction (e : Nat) : Nat := 0x25000 + e
/-- 0.00.251[n] -/
abbrev gpioArg (e : Nat) : Nat := 0x25100 + e
/-- 0.00.252 -/
abbrev gpioOutput : Nat := 0x25200
/-- 0.00.253 -/
abbrev gpioInput : Nat := 0x25300
/-- 0.00.254[n] -/
abbrev gpioPulseCount (e : Nat) : Nat := 0x25400 + e
/-- 0.00.260 -/
abbrev bezelState : Nat := 0x26000
/-- E.00.100 -/
abbrev jtagIdcode : Nat := 0xE0010000
/-- E.00.101 -/
abbrev tapInstruction : Nat := 0xE0010100
/-- E.00.102 -/
abbrev boundaryScanActive : Nat := 0xE0010200
/-- E.00.103 -/
abbrev tapBypassed : Nat := 0xE0010300
/-- E.00.104 -/
abbrev bsdlVersion : Nat := 0xE0010400

end Sys2Proof.Machine.O
end

