-- ==== Sys2Proof/Machine/Types/Jobs.lean ====
section
/-! DEFINITION. The state of jobs, steps, hand-overs (16), schedules, selectors and dispatch (08), update units (09), key-value pools and
walks (07). Every type is plain data. -/

namespace Sys2Proof.Machine

/-- A buffer-table entry (Table 4.7). -/
structure Buf where
  space : Nat := 0
  read : Bool := false
  write : Bool := false
  cluster : Nat := 0
  core : Nat := 0
  valid : Bool := false
  base : Nat := 0
  size : Nat := 0
deriving DecidableEq, Repr

/-- A selector entry (Table 8.6) with its weighted histogram and present choice (R211). -/
structure SelEntry where
  tensor : Nat
  cands : List Nat
  patchCount : Nat
  patchFirst : Nat
  tSat : F32
  tUf : F32
  h : List F32 := []
  seen : Bool := false
  choice : Nat
deriving DecidableEq, Repr

/-- A row of the selector log (Table 8.9). -/
structure SelLog where
  step : Nat
  noData : Bool
  held : Bool
  job : Nat
  previous : Nat
  chosen : Nat
  entry : Nat
  sat : F32
  uf : F32
deriving DecidableEq, Repr

/-- What a running schedule entry waits for (Table 8.4): cores whose lists have not ended, units whose runs have not ended, a plan; its
status, and the core that gave it. -/
structure EntryRun where
  idx : Nat
  kind : Nat
  cores : List Nat := []
  units : List Nat := []
  plan : Option Nat := none
  status : Option Nat := none
  failCore : Option Nat := none
deriving DecidableEq, Repr

/-- A running step (R387, R389): the descriptor, its start, the entries started and completed, the stop, and the boundary: 0 before it,
2 after step 2 of Table 8.5 with the entries whose patches are due; whether an APPLY entry has failed. -/
structure StepRun where
  desc : Bytes
  t : Nat
  startAt : Nat
  next : Nat
  running : List EntryRun := []
  stop : Option (Nat × Nat) := none
  boundary : Nat := 0
  patches : List Nat := []
  lenStatus : List Nat := []
  split : Nat := 64
  fromQueue : Option Nat := none
  applyFailed : Bool := false
deriving DecidableEq, Repr

/-- A step descriptor accepted and not started, with the host queue that submitted it. -/
structure StepWait where
  desc : Bytes
  queue : Option Nat
deriving DecidableEq, Repr

/-- The record of a core in the save area (R383, R392): the typed image of everything but core memory, what was live, whether the save
was full, and validity. -/
structure CoreRec where
  core : CoreSt
  full : Bool
  ranges : List (Nat × Nat)
  valid : Bool := true
  gates : List Gate := []
deriving DecidableEq, Repr

/-- A key-value pool (R186), as declared. Its header, lists, pins, frame records and tree stand in HBM. -/
structure Pool where
  job : Nat
  frames : Nat
  layers : Nat
  treeLog2 : Nat
  framesBuf : Nat
  ptBuf : Nat
  metaBase : Nat
  treeBase : Nat
deriving DecidableEq, Repr

/-- A job (R379 to R398). State, class, slice, watchdog and counts are objects. `fresh` lists the cores whose initial patches are due
(R210). `pools` keeps the pools of a suspended job, with their counts of frames FREE and in LIMBO and of nodes (R384). -/
structure Job where
  reg : Bytes
  recAddr : Nat
  bufs : List Buf := []
  sel : List SelEntry := []
  pending : List StepWait := []
  cur : Option StepRun := none
  lastT : Nat
  failedT : Option Nat := none
  recs : Tbl CoreRec := []
  sliceUsed : Nat := 0
  sliceLen : Nat := 0
  runSince : Option Nat := none
  dogUsed : Nat := 0
  dogLen : Nat := 0
  dogPaused : Nat := 0
  dogHold : Option Nat := none
  hallmark : Nat := 0
  debtFrom : Option Nat := none
  slots : List Nat := []
  fresh : List Nat := []
  pools : List (Pool × Nat × Nat × Nat) := []
deriving DecidableEq, Repr

/-- The stages of the hand-over of one core (Table 16.7). -/
inductive HandStage where
  | toCheap | full | saving | clearing | restoring
deriving DecidableEq, Repr

/-- The hand-over of one core from a job to another (R391). -/
structure Hand where
  out : Option Nat
  into : Option Nat
  stage : HandStage
  since : Nat
  forced : Bool := false
  arrayDone : Bool := false
deriving DecidableEq, Repr

/-- A COW whose frame is being copied (R191): the slot of its open transaction, its issuer, the frame and the one taken, the retries so far, the frames
moved from limbo, the host command it belongs to, and whether a write descriptor waits for it (R190). -/
structure CowRun where
  key : Nat
  master : Nat
  pool : Nat
  pt : Nat
  b : Nat
  frame : Nat
  target : Nat
  moved : Nat
  retries : Nat
  host : Option (Nat × Nat)
  forWrite : Bool := false
deriving DecidableEq, Repr

/-- The stages of a walk (R184). -/
inductive WalkStage where
  | pinning | blocks | draining
deriving DecidableEq, Repr

/-- A walk of a cluster's control core (R183, R184): the record, the lengths entry's values, the next block to emit and to start, and
the end of the part. -/
structure Walk where
  words : Bytes
  job : Nat
  core : Nat
  qLen : Nat
  ctxLen : Nat
  pt : Nat
  stage : WalkStage
  emitted : Nat
  started : Nat
  last : Nat
deriving DecidableEq, Repr

/-- The stages of an APPLY block (R232): not begun, waiting for a transaction slot, transaction open, lines read. -/
inductive UpdPhase where
  | idle | slotWait | opened | read
deriving DecidableEq, Repr

/-- An update unit's run for an UPDATE entry (R227, R232): job, schedule entry, step, the remaining list (group, pass), the group
descriptors as they were read, the clipping factor, the next block of the present item, its stage and transaction, retries, and the block
hashes of a digest step. -/
structure UpdRun where
  job : Nat
  entry : Nat
  t : Nat
  list : List (Nat × Nat)
  groups : Tbl Bytes
  clip : F32
  digest : Bool := false
  k : Nat := 0
  phase : UpdPhase := .idle
  txn : Option Nat := none
  since : Nat := 0
  tries : Nat := 0
  hashes : Bytes := []
deriving DecidableEq, Repr

/-- A Hallmark mismatch record (Table 9.6). -/
structure Mismatch where
  step : Nat
  job : Nat
  stack : Nat
  group : Nat
  first : Nat
  last : Nat
  agree : Nat
  stale : Nat
  digest : Bytes
  assay : Nat
  replicas : Nat
deriving DecidableEq, Repr

/-- Jobs, hand-overs, pools, walks, update units and the logs of the training step. -/
structure Work where
  jobs : Tbl Job := []
  hands : Tbl Hand := []
  saveAreas : List (Nat × Nat × Nat) := []
  rrLast : Nat := 31
  pools : Tbl Pool := []
  cows : List CowRun := []
  walks : Tbl (List Walk) := []
  upd : Tbl (List UpdRun) := []
  selLog : List SelLog := []
  mismatches : List Mismatch := []
  parts : Tbl (List Part) := []
  done : List (PartId × Nat) := []
deriving DecidableEq, Repr

end Sys2Proof.Machine
end

