-- ==== Sys2Proof/Machine/State.lean ====
section
/-! DEFINITION. The state of the PT-720, as plain data. -/

namespace Sys2Proof.Machine

/-- What the spec gives the device: its counter, objects, units and interfaces. -/
structure Device where
  uptime : Nat
  freeCtr : Nat
  objs : Tbl Val
  out : List Out
  xing : Tbl Crossing
  fore : Foreri
  errs : Errors
  host : HostPort
  power : Power
  startup : Startup
  signet : Signet
  board : Board
  cores : Tbl CoreSt
  clusters : Tbl ClusterSt
  loupe : Loupe
  mem : MemSys
  work : Work
  net : Net
deriving DecidableEq, Repr

/-- The device before VDD_AON rises: OFF. Every object reads its default, no unit is on, every queue is empty. -/
def Device.reset : Device where
  uptime := 0
  freeCtr := 0
  objs := []
  out := []
  xing := []
  fore := {}
  errs := {}
  host := {}
  power := {}
  startup := {}
  signet := {}
  board := {}
  cores := []
  clusters := []
  loupe := {}
  mem := {}
  work := {}
  net := {}

/-- The state of the model: the device, the configuration flash beside it on the board (R510), and the commands that wait,
first in first out. -/
structure State where
  dev : Device
  flash : Flash
  pending : List Instr
deriving DecidableEq, Repr

/-- OFF, with an empty flash and no command waiting. -/
def State.reset : State where
  dev := Device.reset
  flash := {}
  pending := []

/-- The reasons the block stops: none. The spec gives every fault of the device an effect on its state (R470), so no meaning of
this model ends in a fault; the type has one constructor because the interface asks for a type that can be written out. -/
inductive Fault where
  /-- Raised by no meaning. It would be safe: the machine would stop where the device goes on. -/
  | stopped
deriving DecidableEq, Repr

/-- Why a command has no meaning. -/
inductive Refusal where
  /-- Raised only by an arm of exec that has no meaning yet, by its mnemonic. Safe: nothing is claimed of the command. -/
  | notModelled (mnemonic : String)
deriving DecidableEq, Repr

end Sys2Proof.Machine
end

