-- ==== Sys2Proof/Machine/Tables.lean ====
section
/-! DEFINITION. Operations on the sparse tables of the state (Tbl, Word.lean): pairs of a key and an entry with strictly rising keys.
A table kept with a default lists no entry equal to the default, so that equal contents are equal data. -/

namespace Sys2Proof.Machine

/-- The entry of a key, if it is listed. -/
def tget? {α : Type} (m : Tbl α) (k : Nat) : Option α :=
  match m with
  | [] => none
  | (a, v) :: r => if a = k then some v else tget? r k

/-- The entry of a key, or the default. -/
def tgetD {α : Type} (m : Tbl α) (k : Nat) (d : α) : α := (tget? m k).getD d

/-- Puts an entry at its place. -/
def tput {α : Type} (m : Tbl α) (k : Nat) (v : α) : Tbl α :=
  match m with
  | [] => [(k, v)]
  | (a, w) :: r => if k < a then (k, v) :: (a, w) :: r else if k = a then (k, v) :: r else (a, w) :: tput r k v

/-- Takes an entry out. -/
def tdel {α : Type} (m : Tbl α) (k : Nat) : Tbl α := m.filter fun p => p.1 != k

/-- Sets an entry in a table with a default: the default is not listed. -/
def tset {α : Type} [DecidableEq α] (m : Tbl α) (k : Nat) (v d : α) : Tbl α :=
  if v = d then tdel m k else tput m k v

/-- Changes an entry of a table with a default. -/
def tmod {α : Type} [DecidableEq α] (m : Tbl α) (k : Nat) (d : α) (f : α → α) : Tbl α :=
  tset m k (f (tgetD m k d)) d

/-- The keys rise strictly. -/
def tsorted {α : Type} : Tbl α → Bool
  | [] => true
  | (a, _) :: r => (match r with
      | [] => true
      | (b, _) :: _ => decide (a < b)) && tsorted r

/-- No entry equals the default. -/
def tclean {α : Type} [DecidableEq α] (m : Tbl α) (d : α) : Bool := m.all fun p => decide (p.2 ≠ d)

/-- The last n entries of a log kept oldest first. -/
def keepLast {α : Type} (n : Nat) (l : List α) : List α := l.drop (l.length - n)

end Sys2Proof.Machine
end

