-- ==== Sys2Proof/Machine/Ops.lean ====
section
/-! DEFINITION. The shared operations on the state: reading and writing objects, counters, output, interrupts of the host, error
records, the uncorrected-fatal error, requests to Assay, and whether a unit runs. -/

namespace Sys2Proof.Machine

/-! ## Time -/

/-- One count of the 64-bit uptime counter, which runs while VDD_AON is present (R13, R425); it stops at its largest value (R534). -/
def Device.tick (s : Device) : Device := if s.startup.powered then { s with uptime := min (s.uptime + 1) (2 ^ 64 - 1) } else s

/-! ## Objects -/

/-- The value an object holds: what was written, else its default (R8). -/
def Device.val (s : Device) (oid : Nat) : Val := (tget? s.objs oid).getD (defaultVal oid)

/-- The raw number of a scalar object. -/
def Device.num (s : Device) (oid : Nat) : Nat :=
  match s.val oid with
  | .num n => n
  | .bytes _ => 0

/-- The bytes of a STR or BLOB object. -/
def Device.bytes (s : Device) (oid : Nat) : Bytes :=
  match s.val oid with
  | .bytes b => b
  | .num _ => []

/-- Sets an object. A value equal to the default is not listed. -/
def Device.setVal (s : Device) (oid : Nat) (v : Val) : Device := { s with objs := tset s.objs oid v (defaultVal oid) }

def Device.setNum (s : Device) (oid n : Nat) : Device := s.setVal oid (.num n)

def Device.setBytes (s : Device) (oid : Nat) (b : Bytes) : Device := s.setVal oid (.bytes b)

def Device.setBool (s : Device) (oid : Nat) (b : Bool) : Device := s.setNum oid b.toNat

def Device.flag (s : Device) (oid : Nat) : Bool := s.num oid == 1

/-- Counters of areas F and 9 wrap at 2^32 (R67, R499). -/
def wrapsCounter (oid : Nat) : Bool := oidArea oid == 0xF || oidArea oid == 9

/-- A counter after n more events: it stops at the largest value of its type (R534), or wraps in areas F and 9. -/
def counted (oid old n : Nat) : Nat :=
  if wrapsCounter oid then (old + n) % 0x100000000 else min (old + n) (tyOf oid).maxVal

/-- Counts n events in a counter object. -/
def Device.bump (s : Device) (oid : Nat) (n : Nat := 1) : Device := s.setNum oid (counted oid (s.num oid) n)

/-- Takes n off an object that counts things held. -/
def Device.drop (s : Device) (oid : Nat) (n : Nat := 1) : Device := s.setNum oid (s.num oid - n)

/-- Counts n events in the i-th U64 of a BLOB of counters; U64 counters stop at their largest value. -/
def Device.bumpStat (s : Device) (oid i : Nat) (n : Nat := 1) : Device :=
  let b := s.bytes oid
  s.setBytes oid (b.take (8 * i) ++ beBytes 8 (min (beAt b (8 * i) 8 + n) (2 ^ 64 - 1)) ++ b.drop (8 * i + 8))

/-- Sets the i-th U64 of a BLOB of counters. -/
def Device.setStat (s : Device) (oid i n : Nat) : Device :=
  let b := s.bytes oid
  s.setBytes oid (b.take (8 * i) ++ beBytes 8 n ++ b.drop (8 * i + 8))

/-- Puts an output event out. -/
def Device.emit (s : Device) (o : Out) : Device := { s with out := o :: s.out }

/-- A free 64-bit value (log entry 3), and the state with the model's counter advanced. -/
def Device.freeVal (s : Device) : BitVec 64 × Device := (Config.fresh s.freeCtr, { s with freeCtr := s.freeCtr + 1 })

/-- One of several candidates that the spec does not tell apart (log entry 33). -/
def Device.choose (s : Device) (l : List Nat) : Option Nat × Device :=
  (l[Config.pick s.freeCtr % l.length]?, { s with freeCtr := s.freeCtr + 1 })

/-- SHA3-256 as 32 bytes. -/
def sha3 (b : Bytes) : Bytes := padTo 32 (Config.sha3 b)

/-- A KMAC256 tag as 32 bytes. -/
def kmac (key msg custom : Bytes) : Bytes := padTo 32 (Config.kmac key msg custom)

/-! ## Measurement registers (R492) -/

/-- Extends register i by data. -/
def Device.extendM (s : Device) (i : Nat) (data : Bytes) : Device :=
  (s.setBytes (O.measurement i) (sha3 (s.bytes (O.measurement i) ++ data))).bump (O.measurementExtends i)

/-- Sets register i and its count to zero. -/
def Device.zeroM (s : Device) (i : Nat) : Device :=
  (s.setBytes (O.measurement i) (List.replicate 32 0)).setNum (O.measurementExtends i) 0

/-- The item of a write as it travels (R49): object id, type code, reserved, length, value. -/
def itemBytes (i : Item) : Bytes :=
  beBytes 4 i.oid.toNat ++ [i.ty, 0] ++ beBytes 2 i.value.length ++ i.value

/-! ## Power: is a unit there, does its island run -/

/-- Domain d is on (2.(10+d).060 reads 2). D0 is on while VDD_AON is good. -/
def Device.domainOn (s : Device) (d : Nat) : Bool :=
  if d = 0 then s.startup.powered else s.num (O.domainState d) == 2

/-- The compute domain of cluster c, the media domain of complex m (Table 1.4). -/
def clusterDomain (c : Nat) : Nat := 8 + c / 2
def mediaDomain (m : Nat) : Nat := 4 + m

/-- A unit of domain d issues and answers: the domain is on, no uncorrected-fatal error and no thermal trip has stopped the
islands (R437, R474). -/
def Device.runs (s : Device) (d : Nat) : Bool := s.domainOn d && !s.errs.fatalStop && !s.power.trip

/-- The lanes failed under Table 20.3 (A.00.047) and the update units out (A.00.048). -/
def Device.laneFailed (s : Device) (l : Nat) : Bool := bit ((s.bytes O.lanesFailed).getD (l / 8) 0).toNat (l % 8)

/-- The device manager executes: D1 is on and island 1 runs (R474). -/
def Device.managerRuns (s : Device) : Bool := s.domainOn 1 && !s.errs.island1Stop && !s.power.trip

/-- The start-up states of Table 19.1. -/
def suAonUp : Nat := 0
def suXtal : Nat := 1
def suRcTrim : Nat := 2
def suFuseLoad : Nat := 3
def suImageLoad : Nat := 4
def suConfigure : Nat := 5
def suTrain : Nat := 6
def suReady : Nat := 7
def suFuseFail : Nat := 8
def suImageFail : Nat := 9
def suSafe : Nat := 0xA

def Device.startupCode (s : Device) : Nat := s.num O.startupState

/-- SAFE, or IMAGE_FAIL, to which every access rule that names SAFE applies (R467). -/
def Device.inSafe (s : Device) : Bool := s.startupCode == suSafe || s.startupCode == suImageFail

/-- The unit of domain d works on jobs: READY and the domain runs. -/
def Device.works (s : Device) (d : Nat) : Bool := s.runs d && s.startupCode == suReady

/-- Is an island stopped: not clocked, or gated (R29)? -/
def Device.islandStopped (s : Device) (i : Nat) : Bool := s.num (O.islandSource (i + 2)) == 4 || s.power.gated.contains i

/-! ## Interrupts of the host (R405) and of the other receivers (R419) -/

/-- Sends an MSI-X vector: a masked entry sets its PBA bit instead (R405). -/
def Device.sendMsix (s : Device) (v : Nat) : Device :=
  let e := tgetD s.host.msix v {}
  if e.masked then
    { s with host := { s.host with pba := if s.host.pba.contains v then s.host.pba else v :: s.host.pba } }
  else s.emit (.msix v e.addr e.data)

/-- Sets a cause bit (Table 17.3). The pair raises vector 0 when the bit becomes set while its mask bit is 1 (R405). -/
def Device.setCause (s : Device) (b : Nat) : Device :=
  let was := bit s.host.cause b
  let s : Device := { s with host := { s.host with cause := setBit s.host.cause b } }
  if !was && bit s.host.causeMask b then s.sendMsix 0 else s

/-- Raises the interrupt of a receiver: MSI-X vector 1 for the host, a local interrupt for the others (R405, R419). -/
def Device.raiseBell (s : Device) (r : Nat) : Device := if r = 0 then s.sendMsix 1 else s.emit (.localIrq r)

/-- Sets a bit of a receiver's doorbell status (R405, R419). -/
def Device.ring (s : Device) (r b : Nat) : Device :=
  let d := tgetD s.host.bells r {}
  let was := bit d.status b
  let s : Device := { s with host := { s.host with bells := tset s.host.bells r { d with status := setBit d.status b } {} } }
  if !was && bit d.mask b then s.raiseBell r else s

/-! ## Error records (R471 to R474) -/

/-- The 32 bytes of a record (Table 20.2). -/
def ErrRec.encode (r : ErrRec) : Bytes :=
  beBytes 8 r.time ++ beBytes 4 r.seq ++ beBytes 1 r.cls ++ beBytes 1 r.unit ++ beBytes 1 r.node ++ beBytes 1 r.elem ++
    beBytes 2 r.master ++ beBytes 1 r.status ++ beBytes 1 r.result ++ beBytes 8 r.addr ++ beBytes 4 r.cause

/-- The next sequence number: after 2^32 - 1 it wraps to 1 (Table 20.2). -/
def nextSeq (n : Nat) : Nat := if n = 0xFFFFFFFF then 1 else n + 1

/-- Writes a record: sequence, log of the last 4,096, A.00.011, cause bit 2 (R472, R473). -/
def Device.record (s : Device) (e : Ev) : Device :=
  let q := nextSeq s.errs.seq
  let r : ErrRec := { time := s.uptime, seq := q, cls := e.cls, unit := e.unit, node := e.node, elem := e.elem,
                      master := e.master, status := e.status, result := e.result, addr := e.addr, cause := e.cause }
  let s : Device := { s with errs := { s.errs with log := keepLast 4096 (s.errs.log ++ [r]), seq := q } }
  let s : Device := s.bump O.errorRecordsWritten
  s.setCause 2

/-- The die a unit of Table 20.3 stands on, by its node. -/
def dieOfNode (n : Nat) : Nat :=
  if 0x08 ≤ n && n < 0x0C then n - 0x08
  else if 0x40 ≤ n && n < 0x60 then (n - 0x40) / 8
  else if 0x60 ≤ n && n < 0x74 then (n - 0x60) / 5
  else if 0xA0 ≤ n then (n - 0xA0) / 24
  else 0

/-- Unit kinds with a test (Table 20.3, R477). -/
def hasTest (unit : Nat) : Bool := 1 ≤ unit && unit ≤ 9

/-- Requests a test (R477): merged into a pending or running one, or, for class 1, into a pass less than 1,000 ms old; at most
256 pending; a request beyond is counted in A.00.042 and recorded as not run. `cause` is the sequence of the requesting
record. -/
def Device.requestTest (s : Device) (cls unit node elem addr cause : Nat) : Device :=
  if !hasTest unit then s
  else
    let same (r : AssayReq) : Bool := r.unit == unit && r.node == node && r.elem == elem
    let recent := s.errs.passes.any fun p => p.unit == unit && p.node == node && p.elem == elem && s.uptime < p.time + ms 1000
    if s.errs.pending.any same || s.errs.running.any (fun p => same p.2) || (cls == 1 && recent) then s
    else if 256 ≤ s.errs.pending.length then
      let s : Device := (s.bump O.assayRequestsDropped).bump (O.assayResults 3)
      s.record { cls := 7, unit := unit, node := node, elem := elem, addr := addr, result := 3, cause := cause }
    else
      let r : AssayReq := { die := dieOfNode node, unit := unit, node := node, elem := elem, addr := addr, cause := cause }
      let s : Device := { s with errs := { s.errs with pending := s.errs.pending ++ [r] } }
      s.setNum O.assayPending s.errs.pending.length

/-- What an uncorrected-fatal error does (R474): every island but 0 and 1 stops, A.00.014 and the record's copy in D0 are set,
FAULT_N is asserted. -/
def Device.goFatal (s : Device) : Device :=
  let s : Device := { s with errs := { s.errs with fatalStop := true, faultN := true } }
  let s : Device := s.setBool O.hbmContentsLost true
  match s.errs.log.getLast? with
  | some r => s.setBytes O.fatalRecord r.encode
  | none => s

/-- Is a record of classes 1 and 4 held back (R472)? The source is class, unit, node and element. -/
def Device.limited (s : Device) (e : Ev) : Option ErrSrc :=
  s.errs.srcs.find? fun x => x.cls == e.cls && x.unit == e.unit && x.node == e.node && x.elem == e.elem

/-- Forgets a source and puts a new entry for it. -/
def Device.putSrc (s : Device) (x : ErrSrc) : Device :=
  { s with errs := { s.errs with srcs := x :: s.errs.srcs.filter fun y =>
      !(y.cls == x.cls && y.unit == x.unit && y.node == x.node && y.elem == x.elem) } }

/-- An event of classes 1 to 6 (R470 to R474, R477): counted in A.00.012, recorded (at most once per A.00.015 ms and source for
classes 1 and 4), a test requested where Table 20.3 names one, and for class 3 the consequences of R474. -/
def Device.event (s : Device) (e : Ev) : Device :=
  let s : Device := s.bump (O.errorClassCounts e.cls)
  let limits := e.cls == 1 || e.cls == 4
  let old := if limits then s.limited e else none
  let held := match old with
    | some x => decide (s.uptime < x.last + ms (s.num O.recordIntervalMs))
    | none => false
  let missed := match old with
    | some x => x.missed
    | none => 0
  let s : Device := if held then
      s.putSrc { cls := e.cls, unit := e.unit, node := e.node, elem := e.elem,
                 last := (match old with | some x => x.last | none => 0), missed := min (missed + 1) 0xFFFFFFFF }
    else
      let s : Device := s.record (if e.cls == 1 then { e with cause := missed } else e)
      if limits then s.putSrc { cls := e.cls, unit := e.unit, node := e.node, elem := e.elem, last := s.uptime, missed := 0 }
      else s
  let s : Device := if e.cls == 1 || e.cls == 2 || e.cls == 6 then
      s.requestTest e.cls e.unit e.node e.elem e.addr (if held then 0 else s.errs.seq)
    else s
  if e.cls == 3 then s.goFatal else s

/-- Appends to a log of the last n rows kept oldest first. -/
def logPush {α : Type} (n : Nat) (l : List α) (x : α) : List α := keepLast n (l ++ [x])

/-! ## Frozen masters (R475): the row and the record; what freezing does to each class of master stands in Freeze.lean -/

/-- Is a master frozen? -/
def Device.isFrozen (s : Device) (m : Nat) : Bool := s.errs.frozen.any fun r => r.master == m

/-- Master ids (R9, Table 0.3). -/
def masterId (cls idx : Nat) : Nat := cls * 4096 + idx

/-- The class and the index of a master id. -/
def masterClass (m : Nat) : Nat := m / 4096 % 16
def masterIndex (m : Nat) : Nat := m % 4096

/-- The control core of cluster c executes: its domain works, no debugger has halted it (R498), and it is not frozen (R475). -/
def Device.ctrlWorks (s : Device) (c : Nat) : Bool :=
  s.works (clusterDomain c) && !s.signet.halted.contains c && !s.isFrozen (masterId 2 c)

/-- Writes the class 9 record and the row of A.00.031, once. -/
def Device.addFrozen (s : Device) (m : Nat) (cause : Nat) : Device :=
  if s.isFrozen m then s
  else
    let s : Device := s.record { cls := 9, master := m, cause := cause }
    let s : Device := { s with errs := { s.errs with
      frozen := s.errs.frozen ++ [({ master := m, seq := s.errs.seq, time := s.uptime } : FrozenRow)] } }
    s.setNum O.frozenCount s.errs.frozen.length

/-- Writes the class 10 record and removes the row. -/
def Device.delFrozen (s : Device) (m : Nat) : Device :=
  if s.isFrozen m then
    let q := match s.errs.frozen.find? fun r => r.master == m with
      | some r => r.seq
      | none => 0
    let s : Device := s.record { cls := 10, master := m, cause := q }
    let s : Device := { s with errs := { s.errs with frozen := s.errs.frozen.filter fun r => r.master != m } }
    s.setNum O.frozenCount s.errs.frozen.length
  else s

/-- Is it a master of Table 0.3? -/
def masterExists (m : Nat) : Bool :=
  let i := masterIndex m
  match masterClass m with
  | 0 => i < 64 | 1 => i < 32 | 2 => i < 32 | 3 => i < 2048 | 4 => i < 4096 | 5 => i < 16 | 6 => i < 256 | 7 => i < 20
  | 8 => i < 64 | 15 => i == 0xFFF || i == 0xFFE | _ => false

/-- The device manager's master id. -/
def managerId : Nat := 0xFFFF

/-- A class 3 event: an access violation by the device manager (R474). -/
def Device.managerViolation (s : Device) : Device :=
  s.event { cls := 3, unit := 0x0A, node := 0x11, elem := 0, master := 0xFFFF }

end Sys2Proof.Machine
end

