-- ==== Sys2Proof/Machine/Mem.lean ====
section
/-! DEFINITION. The memories and their addresses: bytes of core memory, cluster memory and HBM, the address map and its checks (R266 to
R269), fences and lost lines (R287 to R290), regions (R241), and the lines of the memory-side caches (R278 to R280). -/

namespace Sys2Proof.Machine

/-! ## A memory -/

/-- One byte. A byte that nothing has written reads as 0 (log entry 4). -/
def memGet (m : Memory) (a : Nat) : Byte := tgetD m a 0

/-- Writes one byte; the canonical form is kept. -/
def memSet (m : Memory) (a : Nat) (b : Byte) : Memory := tset m a b 0

/-- n bytes from an address. -/
def memGetN (m : Memory) (a n : Nat) : Bytes := (List.range n).map fun i => memGet m (a + i)

/-- Writes bytes from an address on. -/
def memSetN (m : Memory) (a : Nat) : Bytes → Memory
  | [] => m
  | b :: r => memSetN (memSet m a b) (a + 1) r

/-- Clears n bytes to 0. -/
def memClear (m : Memory) (a n : Nat) : Memory := m.filter fun p => !(decide (a ≤ p.1) && decide (p.1 < a + n))

/-- The canonical form: addresses rise strictly and no listed byte is what an unlisted one reads as. -/
def Memory.wf (m : Memory) : Bool := tsorted m && tclean m 0

/-! ## Core memory (R118) and cluster memory (R151) -/

def cmBytes : Nat := 0x400000
def clmBytes : Nat := 0x1800000

/-- A core by its number 16c + k. -/
def coreNo (c k : Nat) : Nat := 16 * c + k

def cmKey (n a : Nat) : Nat := n * cmBytes + a
def clmKey (c a : Nat) : Nat := c * clmBytes + a

/-- Bytes of a core's memory; beyond its last byte there is nothing, read as 0 (every access is checked before it is made). -/
def Device.cmGet (s : Device) (n a len : Nat) : Bytes :=
  (List.range len).map fun i => if a + i < cmBytes then memGet s.mem.cm (cmKey n (a + i)) else 0
def Device.cmPut (s : Device) (n a : Nat) (b : Bytes) : Device :=
  { s with mem := { s.mem with cm := memSetN s.mem.cm (cmKey n a) b } }
def Device.cmClear (s : Device) (n : Nat) : Device :=
  { s with mem := { s.mem with cm := memClear s.mem.cm (cmKey n 0) cmBytes } }
/-- Bytes of a cluster's memory. -/
def Device.clmGet (s : Device) (c a len : Nat) : Bytes :=
  (List.range len).map fun i => if a + i < clmBytes then memGet s.mem.clm (clmKey c (a + i)) else 0
def Device.clmPut (s : Device) (c a : Nat) (b : Bytes) : Device :=
  { s with mem := { s.mem with clm := memSetN s.mem.clm (clmKey c a) b } }
def Device.clmClear (s : Device) (c a n : Nat) : Device :=
  { s with mem := { s.mem with clm := memClear s.mem.clm (clmKey c a) n } }

/-- A little-endian word of core memory. -/
def Device.cmWord (s : Device) (n a : Nat) : Nat := leNat (s.cmGet n a 8)

/-! ## The segment table (R266, R267, R270) -/

/-- The default table (Table 11.4). -/
def defaultSegs : List Seg :=
  (List.range 4).map (fun q => { base := 0xB000000000 + 20 * q * 0x4000000, mode := 2, system := true, pcFirst := 160 * q, pcCount := 8,
                                 u0 := 4345379, height := 32768 }) ++
  [{ base := 0, mode := 0, system := false, pcFirst := 0, pcCount := 640, u0 := 0, height := 2097152 }] ++
  (List.range 4).map (fun q => { base := 0x5000000000 + q * 0x1800000000, mode := 1, system := false, pcFirst := 160 * q, pcCount := 160,
                                 u0 := 2097152, height := 2248227 }) ++
  (List.range 4).flatMap (fun q => (List.range 19).map fun m =>
    { base := 0xB000000000 + (20 * q + m + 1) * 0x4000000, mode := 2, system := false, pcFirst := 160 * q + 8 * (m + 1), pcCount := 8,
      u0 := 4345379, height := 32768 })

/-- A row of 4.00.010 (Table 11.2). -/
def Seg.encode (g : Seg) : Bytes :=
  beBytes 8 g.base ++ beBytes 1 g.mode ++ beBytes 1 g.system.toNat ++ beBytes 2 g.pcFirst ++ beBytes 2 g.pcCount ++ beBytes 2 0 ++
    beBytes 4 g.u0 ++ beBytes 4 g.height ++ beBytes 8 0

def Seg.decode (b : Bytes) : Seg where
  base := beAt b 0 8
  mode := beAt b 8 1
  system := bit (beAt b 9 1) 0
  pcFirst := beAt b 10 2
  pcCount := beAt b 12 2
  u0 := beAt b 16 4
  height := beAt b 20 4

def Seg.bytes (g : Seg) : Nat := g.pcCount * g.height * 256

/-- Do two segments share an address or a (p, u) pair? -/
def Seg.overlap (a b : Seg) : Bool :=
  (decide (a.base < b.base + b.bytes) && decide (b.base < a.base + a.bytes)) ||
  (decide (a.pcFirst < b.pcFirst + b.pcCount) && decide (b.pcFirst < a.pcFirst + a.pcCount) &&
   decide (a.u0 < b.u0 + b.height) && decide (b.u0 < a.u0 + a.height))

/-- Is a row well formed by itself (R266, R267)? -/
def Seg.ok (g : Seg) : Bool :=
  aligned g.base 65536 && decide (g.base < 2 ^ 40) && decide (1 ≤ g.height) && decide (g.u0 + g.height ≤ 4378147) &&
  (match g.mode with
   | 0 => g.pcFirst == 0 && g.pcCount == 640
   | 1 => g.pcCount == 160 && aligned g.pcFirst 160 && decide (g.pcFirst ≤ 480)
   | 2 => decide (1 ≤ g.pcCount) && decide (g.pcCount ≤ 8) && decide (g.pcFirst + g.pcCount ≤ 640) &&
          g.pcFirst / 32 == (g.pcFirst + g.pcCount - 1) / 32
   | _ => false)

/-- Is a table accepted (R267)? -/
def segsOk (l : List Seg) : Bool :=
  decide (l.length ≤ 128) && l.take 4 == defaultSegs.take 4 && l.all Seg.ok && (l.drop 4).all (fun g => !g.system) &&
  (List.range l.length).all fun i => (List.range i).all fun j =>
    match l[i]?, l[j]? with
    | some a, some b => !a.overlap b
    | _, _ => true

/-- The rows of a TABLE value: row count and row size of 16 bits each, then the rows (R39). -/
def tableRows (v : Bytes) : List Bytes := chunks (beAt v 2 2) (beAt v 0 2) (v.drop 4)

/-- Does a TABLE value hold whole rows of n bytes? -/
def tableForm (v : Bytes) (n : Nat) : Bool := decide (4 ≤ v.length) && beAt v 2 2 == n && v.length == 4 + n * beAt v 0 2

/-- Is the value of a written segment table accepted (R267)? -/
def segTableOk (v : Bytes) : Bool := tableForm v 32 && segsOk ((tableRows v).map Seg.decode)

/-- The table held in D1: 4.00.010, whose default is Table 11.4. -/
def Device.segTable (s : Device) : List Seg :=
  let b := s.bytes O.segmentTable
  if b.isEmpty then defaultSegs else (tableRows b).map Seg.decode

/-! ## Translation (R268) -/

/-- The segment an address lies in. -/
def Device.segOf (s : Device) (a : Nat) : Option Seg := s.mem.segs.find? fun g => decide (g.base ≤ a) && decide (a < g.base + g.bytes)

/-- Pseudo-channel, granule and byte of an address, before fences. -/
def Seg.place (g : Seg) (a : Nat) : Nat × Nat × Nat :=
  let o := a - g.base
  let n := o / 256
  match g.mode with
  | 0 => let i := n % 640
         (160 * (i % 4) + 32 * (i / 4 % 5) + i / 20, g.u0 + n / 640, o % 256)
  | 1 => let i := n % 160
         (g.pcFirst + 32 * (i % 5) + i / 5, g.u0 + n / 160, o % 256)
  | _ => (g.pcFirst + n % g.pcCount, g.u0 + n / g.pcCount, o % 256)

/-- The list h[k] of R287: the pseudo-channels not fenced by fences 0 to k, in increasing order. -/
def healthy (fences : List Fence) (k : Nat) : List Nat :=
  (List.range 640).filter fun p => !(fences.any fun f => decide (f.band ≤ k) && f.p == p)

/-- The first row of a spare band. -/
def bandBase (k : Nat) : Nat := if k = 0 then 4378147 else 4386339

/-- Applies one switched fence (R287). -/
def relocate (all : List Fence) (pu : Nat × Nat) (f : Fence) : Nat × Nat :=
  if f.switched.isSome && pu.1 == f.p then
    let i := pu.2
    let h := healthy all f.band
    (h.getD (i % h.length) 0, bandBase f.band + i / h.length)
  else pu

/-- The final place of a granule. -/
def Device.finalPlace (s : Device) (p u : Nat) : Nat × Nat := s.mem.fences.foldl (relocate s.mem.fences) (p, u)

/-- Where a granule of a DEAD or FENCING pseudo-channel's content would go under a fence. -/
def fenceTarget (all : List Fence) (f : Fence) (i : Nat) : Nat × Nat :=
  let h := healthy all f.band
  (h.getD (i % h.length) 0, bandBase f.band + i / h.length)

/-- The key of a byte of HBM: its place before fences, which a switch does not change. -/
def hbmKey (p u b : Nat) : Nat := (p * 4394531 + u) * 256 + b

/-- The key of a device HBM address. -/
def Device.hbmKeyOf (s : Device) (a : Nat) : Nat :=
  match s.segOf a with
  | some g => let t := g.place a
              hbmKey t.1 t.2.1 t.2.2
  | none => 640 * 4394531 * 256 + a

/-- The final pseudo-channel and granule of an address. -/
def Device.finalOf (s : Device) (a : Nat) : Nat × Nat :=
  match s.segOf a with
  | some g => let t := g.place a
              s.finalPlace t.1 t.2.1
  | none => (0, 0)

/-- The home die of an address (R268). -/
def Device.homeDie (s : Device) (a : Nat) : Nat := (s.finalOf a).1 / 160

/-- Bytes of HBM by device address. -/
def Device.hbmGet (s : Device) (a n : Nat) : Bytes := (List.range n).map fun i => memGet s.mem.hbm (s.hbmKeyOf (a + i))

/-- Writes bytes of HBM by device address. -/
def Device.hbmPut (s : Device) (a : Nat) : Bytes → Device
  | [] => s
  | b :: r => ({ s with mem := { s.mem with hbm := memSet s.mem.hbm (s.hbmKeyOf a) b } } : Device).hbmPut (a + 1) r

/-- Does an access of n bytes lie in one segment (R269)? -/
def Device.hbmIn (s : Device) (a n : Nat) : Bool :=
  match s.segOf a with
  | some g => decide (a + n ≤ g.base + g.bytes)
  | none => false

/-- Lines of 128 bytes that an access touches. -/
def linesOf (a n : Nat) : List Nat := if n = 0 then [] else (List.range ((a + n - 1) / 128 + 1 - a / 128)).map fun i => a / 128 + i

/-- The lost-line entry of a line (R289). -/
def Device.lostKey (s : Device) (line : Nat) : Nat × Nat × Nat :=
  let f := s.finalOf (128 * line)
  (f.1, f.2, line % 2)

/-- Does a line's translation end on a DEAD pseudo-channel (R290)? -/
def Device.deadLine (s : Device) (line : Nat) : Bool := s.mem.dead.any fun d => d.p == (s.finalOf (128 * line)).1

/-- Does an access meet a DEAD pseudo-channel or a lost line that it does not wholly cover (R289, R290)? -/
def Device.hbmBlocked (s : Device) (a n : Nat) (write : Bool) : Bool :=
  (linesOf a n).any fun l => s.deadLine l ||
    (s.mem.lostLines.contains (s.lostKey l) && !(write && decide (a ≤ 128 * l) && decide (128 * l + 128 ≤ a + n)))

/-- Clears the lost-line entries that a write wholly covers (R289). -/
def Device.clearLost (s : Device) (a n : Nat) : Device :=
  let full := (linesOf a n).filter fun l => decide (a ≤ 128 * l) && decide (128 * l + 128 ≤ a + n)
  let left := s.mem.lostLines.filter fun x => !(full.any fun l => s.lostKey l == x)
  if left.length == s.mem.lostLines.length then s
  else ({ s with mem := { s.mem with lostLines := left } } : Device).setNum O.lostLineCount left.length

/-! ## Regions (R241, R242) -/

def Region.last (r : Region) : Nat := r.base + 65536 * r.size

/-- Does a range overlap a transactional region? -/
def Device.inRegion (s : Device) (a n : Nat) : Bool :=
  s.mem.regions.any fun r => decide (a < r.last) && decide (r.base < a + n)

/-- Does a line lie in a region? -/
def Device.lineInRegion (s : Device) (line : Nat) : Bool := s.inRegion (128 * line) 128

/-- Puts a region in, in base order. -/
def Device.addRegion (s : Device) (r : Region) : Device :=
  let l := s.mem.regions.filter (fun x => decide (x.base < r.base)) ++ [r] ++ s.mem.regions.filter fun x => !decide (x.base < r.base)
  ({ s with mem := { s.mem with regions := l } } : Device).setNum O.txnRegionCount l.length

/-- Takes a job's regions out. -/
def Device.dropRegions (s : Device) (j : Nat) : Device :=
  let l := s.mem.regions.filter fun r => !(r.job == j && decide (r.kind ≤ 1))
  ({ s with mem := { s.mem with regions := l } } : Device).setNum O.txnRegionCount l.length

/-! ## What the device keeps in its system segments (R261, R262, R270) -/

/-- A byte of the dictionary shadow: each element's write sequence, the length of its value and the value (log entry 60). -/
def Device.shadowByte (s : Device) (a : Nat) : Byte :=
  match shadowOwner (a / 128) with
  | some (oid, k) =>
    let v := valBytes (tyOf oid) (s.val oid)
    (leBytes 4 (tgetD s.fore.writeSeq oid 0) ++ leBytes 4 v.length ++ v).getD (128 * k + a % 128) 0
  | none => 0

/-- A byte of the memory-map lines: a function of the switched fences and the DEAD pseudo-channels (log entry 60). -/
def Device.mapByte (s : Device) (a : Nat) : Byte :=
  Config.mapByte (s.mem.fences.filterMap fun f => if f.switched.isSome then some (f.p, f.band) else none) (s.mem.dead.map fun d => d.p) a

/-- The kind of the region that an address lies in. -/
def Device.regionKind (s : Device) (a : Nat) : Option Nat :=
  (s.mem.regions.find? fun r => decide (r.base ≤ a) && decide (a < r.last)).map fun r => r.kind

/-- Bytes as a cached access finds them: those of HBM, and in the regions of kinds 2 and 3 what the device keeps there. -/
def Device.cachedGet (s : Device) (a n : Nat) : Bytes :=
  if s.mem.regions.any fun r => decide (2 ≤ r.kind) && decide (a < r.last) && decide (r.base < a + n) then
    (List.range n).map fun i => match s.regionKind (a + i) with
      | some 2 => s.shadowByte (a + i)
      | some 3 => s.mapByte (a + i)
      | _ => memGet s.mem.hbm (s.hbmKeyOf (a + i))
  else s.hbmGet a n

/-- The memory-map lines of the four dies (R270). -/
def mapLines : List Nat := (List.range 4).flatMap fun q => (List.range 512).map fun i => (0xB000400000 + 20 * q * 0x4000000) / 128 + i

/-! ## The die that checks an access (R269) -/

/-- The die of a master. A job core group, which may span dies, is checked on Q0. -/
def Device.dieOfMaster (s : Device) (m : Nat) : Nat :=
  let i := masterIndex m
  match masterClass m with
  | 2 => i / 8
  | 3 => i / 64 / 8
  | 4 => beAt (s.bytes (O.ctxConfig i)) 0 2 / 24
  | 6 => i / 64
  | 7 => i / 5
  | _ => 0

/-! ## Memory-side caches (R278 to R280) -/

/-- The slice of a line (R278). -/
def cacheSlice (line : Nat) : Nat := (bits line 3 0) ^^^ (bits line 7 4) ^^^ (bits line 11 8) ^^^ (bits line 15 12)

/-- The slice of a line on its home die, as a key, and the line's set in it; the two as the key of a set. -/
def Device.sliceKey (s : Device) (line : Nat) : Nat := s.homeDie (128 * line) * 16 + cacheSlice line
def cacheSet (line : Nat) : Nat := Config.cacheSet line % 2048
def Device.cacheKey (s : Device) (line : Nat) : Nat := s.sliceKey line * 2048 + cacheSet line

/-- Ways of a set still in service (R481). -/
def Device.waysOf (s : Device) (key : Nat) : Nat := 16 - (s.errs.waysRetired.filter fun x => x.1 == key).length

/-- Is a line marked by a transaction (R240)? -/
def Device.marked (s : Device) (line : Nat) : Bool := s.mem.txns.any fun (t : Nat × Txn) => t.2.tracked.contains line

/-- The sectors of a line that an access touches. -/
def sectorsOf (line a n : Nat) : Nat :=
  ofBits ((List.range 4).map fun i => decide (a < 128 * line + 32 * i + 32) && decide (128 * line + 32 * i < a + n))

/-- The line that a set gives up: the least recently used one that no transaction marks; none where every way is marked. -/
def Device.victim (s : Device) (l : List CLine) : Option CLine := l.reverse.find? fun c => !s.marked c.line

/-- The lines of a slice that lie in a set. -/
def inSet (set : Nat) (l : List CLine) : List CLine := l.filter fun c => cacheSet c.line == set

/-- Has a set room for one more line? Surely so where the whole slice holds fewer lines than a set has ways in service. -/
def Device.hasRoom (s : Device) (key : Nat) (slice : List CLine) : Bool :=
  decide (slice.length < 16 - s.errs.waysRetired.length) || decide ((inSet (key % 2048) slice).length < s.waysOf key)

/-- Sets the lines of a slice, the most recently used first. -/
def Device.setCache (s : Device) (key : Nat) (l : List CLine) : Device := { s with mem := { s.mem with cache := tset s.mem.cache key l [] } }

/-- Does a write need no read at a line: its part of the line covers whole codewords (R272)? -/
def wholeWords (line a n : Nat) : Bool := aligned (max a (128 * line)) 16 && aligned (min (a + n) (128 * line + 128)) 16

/-- What an access does to a slice of the cache: the lines after it, and what it counts. -/
structure CacheStep where
  lines : List CLine
  hits : Nat := 0
  misses : Nat := 0
  backs : Nat := 0
  bare : Nat := 0
deriving DecidableEq, Repr

/-- One line of a cached access in its set (R272, R278, R280): it becomes the most recently used one; a miss fills the line, or on a narrow segment only
the sectors it needs, evicting the least recently used line; a set with nothing to evict is served without allocating. A write of whole codewords
that is no read-modify-write fills nothing: it is served from the cache. -/
def Device.cacheStep (s : Device) (line a n : Nat) (write rmw : Bool) : CacheStep :=
  let all := tgetD s.mem.cache (s.sliceKey line) []
  let need := sectorsOf line a n
  let narrow := match s.segOf (128 * line) with
    | some g => g.mode == 2
    | none => false
  let plain := write && !rmw && wholeWords line a n
  let fill := if narrow || plain then need else 0xF
  let old := all.find? fun c => c.line == line
  let have_ := match old with
    | some c => c.valid
    | none => 0
  let hit := old.isSome && need &&& have_ == need
  let new : CLine := { line := line, valid := have_ ||| (if hit then 0 else fill),
                       dirty := (match old with | some c => c.dirty | none => 0) ||| (if write then need else 0) }
  let rest := all.filter fun c => c.line != line
  let r : CacheStep := { lines := new :: rest, hits := (hit || plain).toNat, misses := (!(hit || plain)).toNat }
  if old.isSome || s.hasRoom (s.cacheKey line) rest then r
  else match s.victim (inSet (cacheSet line) rest) with
    | some c => if s.waysOf (s.cacheKey line) = 0 then { r with lines := all, bare := 1 }
      else { r with lines := new :: rest.filter (fun x => x.line != c.line), backs := (c.dirty != 0).toNat }
    | none => { r with lines := all, bare := 1 }

/-- One line of a cached access. -/
def Device.cacheLine (s : Device) (line a n : Nat) (write : Bool) (rmw : Bool := false) : Device :=
  let q := s.homeDie (128 * line)
  let r := s.cacheStep line a n write rmw
  let t : Device := (s.bump (O.cacheHits q) r.hits).bump (O.cacheMisses q) r.misses
  ((t.bump (O.cacheWritebacks q) r.backs).bump (O.nonallocatingFills q) r.bare).setCache (s.sliceKey line) r.lines

/-- A set gives up its least recently used lines beyond the ways it has left (R481), written back first; a line that a transaction marks stays until
that has ended (R240). -/
def Device.trimSet (s : Device) (key : Nat) : Device :=
  let all := tgetD s.mem.cache (key / 2048) []
  let l := inSet (key % 2048) all
  let free := l.filter fun c => !s.marked c.line
  let gone := free.drop (s.waysOf key - (l.length - free.length))
  let dirty := (gone.filter fun c => c.dirty != 0).length
  let s : Device := if dirty = 0 then s else s.bump (O.cacheWritebacks (key / 2048 / 16)) dirty
  s.setCache (key / 2048) (all.filter fun c => !gone.contains c)

/-- A cached access to a range. -/
def Device.cacheTouch (s : Device) (a n : Nat) (write : Bool) (rmw : Bool := false) : Device :=
  (linesOf a n).foldl (fun (s : Device) l => s.cacheLine l a n write rmw) s

/-- Writes back every dirty line of every die (R284). -/
def Device.cacheFlush (s : Device) (drop : Bool) (which : Nat → Bool) : Device :=
  s.mem.cache.foldl (fun (s : Device) (e : Nat × List CLine) =>
    let q := e.1 / 16
    let dirty := (e.2.filter fun c => which c.line && c.dirty != 0).length
    let s : Device := if dirty = 0 then s else s.bump (O.cacheWritebacks q) dirty
    s.setCache e.1 (if drop then e.2.filter fun c => !which c.line
                    else e.2.map fun c => if which c.line then { c with dirty := 0 } else c)) s

/-- Marks the sectors that an uncached write updates in place in the cache as dirty (R279). -/
def Device.dirtyHit (s : Device) (a n : Nat) : Device :=
  (linesOf a n).foldl (fun (s : Device) l =>
    let key := s.sliceKey l
    s.setCache key ((tgetD s.mem.cache key []).map fun c =>
      if c.line == l then { c with dirty := c.dirty ||| (c.valid &&& sectorsOf l a n) } else c)) s

/-! ## The slots of Clasp and their marks (R240) -/

/-- The code of a slot's state (4.(08+q).230). -/
def TxnState.code : TxnState → Nat
  | .opened => 1
  | .doomed => 2
  | .preparing => 3
  | .installing => 4

/-- Brings a die's transaction objects up to date with its slots. -/
def Device.txnView (s : Device) (key : Nat) : Device :=
  let q := key / 64
  let n := key % 64
  let s : Device := match tget? s.mem.txns key with
    | some t => (s.setNum (O.txnSlotState q n) t.state.code).setNum (O.txnSlotMaster q n) t.master
    | none => (s.setNum (O.txnSlotState q n) 0).setNum (O.txnSlotMaster q n) 0xFFFF
  let open_ := (s.mem.txns.filter fun t => t.1 / 64 == q).length
  let s : Device := s.setNum (O.txnOpen q) open_
  if s.num (O.txnOpenPeak q) < open_ then s.setNum (O.txnOpenPeak q) open_ else s

/-- The lines marked at a die (R240). -/
def Device.marksAt (s : Device) (q : Nat) : Nat :=
  ((s.mem.txns.flatMap fun t => t.2.tracked).filter fun l => s.homeDie (128 * l) == q).dedup.length

/-- Reports the marks of every die. -/
def Device.marksView (s : Device) : Device :=
  (List.range 4).foldl (fun (s : Device) q => s.setNum (O.txnMarkedLines q) (s.marksAt q)) s

def Device.setTxn (s : Device) (key : Nat) (t : Txn) : Device :=
  (({ s with mem := { s.mem with txns := tput s.mem.txns key t } } : Device).txnView key).marksView

def Device.delTxn (s : Device) (key : Nat) : Device :=
  (({ s with mem := { s.mem with txns := tdel s.mem.txns key } } : Device).txnView key).marksView

/-- The dies that home a transaction's lines (R251). -/
def Device.partsOf (s : Device) (t : Txn) : List Nat :=
  (List.range 4).filter fun q => (t.tracked ++ t.written).any fun l => s.homeDie (128 * l) == q

/-- Starts the wait of a unit's access at a die (R253); one that waits already keeps its start. -/
def Device.stall (s : Device) (m a : Nat) : Device :=
  if (tget? s.mem.stalls m).isSome then s else { s with mem := { s.mem with stalls := tput s.mem.stalls m (s.uptime, s.homeDie a) } }

/-- The access goes on: its wait is counted in 4.(08+q).216. -/
def Device.unstall (s : Device) (m : Nat) : Device :=
  match tget? s.mem.stalls m with
  | some (t, q) =>
    ({ s with mem := { s.mem with stalls := tdel s.mem.stalls m } } : Device).bump (O.txnLockWaitNs q) (40 * (s.uptime - t))
  | none => s

/-! ## Locks (R252, R253) -/

/-- Has a participant voted yes and not yet installed? -/
def PartState.locks : PartState → Bool
  | .yes => true
  | .counted => true
  | _ => false

/-- Does a transaction hold its locks at a die? -/
def Txn.locksAt (t : Txn) (q : Nat) : Bool := t.parts.any fun p => p.1 == q && p.2.locks

/-- Is a line write-locked by a transaction other than the excepted one? -/
def Device.wLocked (s : Device) (line : Nat) (except : Option Nat) : Bool :=
  let q := s.homeDie (128 * line)
  s.mem.txns.any fun t => some t.1 != except && t.2.written.contains line && t.2.locksAt q

/-- Is a line read-locked by a transaction other than the excepted one? -/
def Device.rLocked (s : Device) (line : Nat) (except : Option Nat) : Bool :=
  let q := s.homeDie (128 * line)
  s.mem.txns.any fun t => some t.1 != except && t.2.tracked.contains line && !t.2.written.contains line && t.2.locksAt q

/-! ## Committed writes (R248) -/

/-- What a committed write of a line does to one transaction: an open one that tracks the line is doomed; one that prepares and has not
reached the line's die will find it there. -/
def Txn.hit (t : Txn) (line q reason : Nat) : Txn :=
  if !t.tracked.contains line then t
  else match t.state with
    | .opened => { t with state := .doomed, reason := reason }
    | .preparing => if t.locksAt q then t else { t with stale := if t.stale.contains line then t.stale else line :: t.stale }
    | _ => t

/-- A committed write to a line (R248). -/
def Device.dooms (s : Device) (line : Nat) (except : Option Nat) (reason : Nat := 1) : Device :=
  if s.mem.txns.isEmpty then s
  else
  let q := s.homeDie (128 * line)
  let hits := s.mem.txns.filter fun t => some t.1 != except && t.2.tracked.contains line
  hits.foldl (fun (s : Device) t => s.setTxn t.1 (t.2.hit line q reason)) s

/-- Committed writes to every line of a range. -/
def Device.doomRange (s : Device) (a n : Nat) (except : Option Nat) : Device := (linesOf a n).foldl (fun (s : Device) l => s.dooms l except) s

end Sys2Proof.Machine
end

