-- ==== Sys2Proof/Machine/Answer.lean ====
section
/-! DEFINITION. The result of a request to a unit: the state after it, its status and the status detail (Table 2.12). -/

namespace Sys2Proof.Machine

/-- The outcome of a request: state, status code, status detail. -/
structure Ans where
  s : Device
  st : Status := .ok
  detail : Nat := 0
deriving DecidableEq, Repr

/-- A refusal: nothing changes (R50). -/
def Device.deny (s : Device) (st : Status) (detail : Nat := 0) : Ans := { s := s, st := st, detail := detail }

/-- Done. -/
def Device.okay (s : Device) : Ans := { s := s }

/-- The state after the answer has been put out. -/
def Ans.reply (a : Ans) : Device := a.s.emit (.reply a.st a.detail)

/-- A committed write of an object with access RWC or ADM extends M2 by its item (Table 21.1). -/
def Ans.measured (a : Ans) (oid : Nat) (v : Bytes) : Ans :=
  if a.st = .ok then
    { a with s := a.s.extendM 2 (itemBytes { oid := BitVec.ofNat 32 oid, ty := BitVec.ofNat 8 (tyOf oid).code, value := v }) }
  else a

/-- Every committed write of a stageable object, through any channel, raises its 32-bit write sequence by 1 (R261); at its largest value it stays
(R534, log entry 122). The write of its lines in the shadow dooms the transactions that track them (R248). -/
def Device.raiseSeq (s : Device) (oid : Nat) : Device :=
  if stageable oid then
    let s : Device := { s with fore := { s.fore with writeSeq := tmod s.fore.writeSeq oid 0 fun n => min (n + 1) 0xFFFFFFFF } }
    if s.mem.txns.isEmpty then s else (shadowLines oid).foldl (fun (s : Device) l => s.dooms l none) s
  else s

def Ans.wrote (a : Ans) (oid : Nat) : Ans := if a.st = .ok then { a with s := a.s.raiseSeq oid } else a

/-- Checks 6 and 7 of R50 on a write, after R474: with the islands stopped only 0.00.104 is written. None where they pass. -/
def Device.ownerChecks (s : Device) (oid : Nat) : Option (Status × Nat) :=
  if s.errs.fatalStop && oid != O.resetRequest then some (.state, oid)
  else match (match ownerDomain oid with | some d => if s.domainOn d then none else some d | none => none) with
    | some d => some (.domainOff, d)
    | none => match ownerMaster oid with
      | some m => if s.isFrozen m then some (.frozen, m) else none
      | none => none

/-- The outcome of a command. -/
abbrev Outc := Host.Outcome State Fault Refusal

/-- A command whose effect is f, on the device alone: the waiting commands and the flash stay as they are. -/
def State.run (s : State) (f : Device → Device) : Outc := .next { s with dev := f s.dev }

/-- A command that is a request: its answer is put out. -/
def Ans.out (a : Ans) : Device := a.reply

/-- A write of an object that has a row of its own: rights, type and length have passed; nothing happens while the device manager does not
execute. -/
def Device.ownWrite (s : Device) (oid : Nat) (f : Device → Ans) : Device :=
  if !s.managerRuns then s
  else match s.ownerChecks oid with
    | some (st, d) => (s.deny st d).out
    | none => ((f s).wrote oid).out

/-! ## Resources (R66) -/

/-- Claims all of a feature's resources at once, or names the first that is held: resource, holder's enable object, session. -/
def Device.claim (s : Device) (res : List Nat) (enable sid : Nat) : Device × Option (Nat × Nat × Nat) :=
  match s.fore.owners.find? (fun r => res.contains r.1) with
  | some r => (s, some r)
  | none =>
    let s : Device := { s with fore := { s.fore with owners := s.fore.owners ++ res.map fun r => (r, enable, sid) } }
    (s.setNum O.resourceOwnerCount s.fore.owners.length, none)

/-- Releases every resource of a feature. -/
def Device.release (s : Device) (enable : Nat) : Device :=
  let s : Device := { s with fore := { s.fore with owners := s.fore.owners.filter fun r => r.2.1 != enable } }
  s.setNum O.resourceOwnerCount s.fore.owners.length

end Sys2Proof.Machine
end

