-- ==== Sys2Proof/Machine/Clasp.lean ====
section
/-! DEFINITION. Clasp (10_transactions.md) and the accesses that share its conflict rules: slots, tracking, buffered writes, locks,
committed writes and the transactions they doom, the commit sequence, aborts, and the operations performed in the home cache
(R278, R281, R282). Committing a whole transaction in one step serves the units whose operation is one command. -/

namespace Sys2Proof.Machine

/-! ## Host queue completions (R410, R412, R414) -/

def Device.hq (s : Device) (q : Nat) : HostQueue := tgetD s.host.queues q {}

def Device.setHq (s : Device) (q : Nat) (h : HostQueue) : Device := { s with host := { s.host with queues := tset s.host.queues q h {} } }

/-- Replaces the stored completion of an id. -/
def storeCompl (l : List (Nat × Option Compl)) (id : Nat) (c : Compl) : List (Nat × Option Compl) :=
  l.map fun p => if p.1 == id then (id, some c) else p

/-- A command of a queue finishes: its completion waits to be posted, with the replays of duplicates that arrived meanwhile. A command
that has timed out only replaces its stored completion and is counted as late; one that a reset of the port left behind is only counted
(R403, R414, R485). -/
def Device.hostDone (s : Device) (q id : Nat) (st : Status) (detail : Nat := 0) (result : Nat := 0) : Device :=
  let h := s.hq q
  match h.cmds.find? fun c => c.id == id with
  | none => s
  | some c =>
    let r : Compl := { id := id, status := st, detail := detail, result := result }
    let h := { h with cmds := h.cmds.erase c }
    if c.gone then ((s.setHq q h).bumpStat (O.queueStats q) 4).bump O.lateCompletions
    else
      let h := { h with done := storeCompl h.done id r }
      if c.timedOut then ((s.setHq q h).bumpStat (O.queueStats q) 4).bump O.lateCompletions
      else
        let reps := (h.dups.filter fun d => d == id).map fun _ => { r with replay := true }
        (s.setHq q { h with posting := h.posting ++ [r] ++ reps, dups := h.dups.filter fun d => d != id }).bumpStat (O.queueStats q) 2 reps.length

/-- The TXN command a queue is executing, by id. -/
def Device.hostTxnCmd (s : Device) (q : Nat) : Option HostCmd :=
  (s.hq q).cmds.find? fun c => c.started.isSome && decide (0x10 ≤ c.opcode) && decide (c.opcode ≤ 0x14)

/-! ## Slots -/

/-- The status of an abort reason (Table 10.5). -/
def reasonStatus : Nat → Status
  | 5 => .limit
  | 6 => .limit
  | 7 => .busy
  | 8 => .uncorrected
  | 9 => .timeout
  | 10 => .aborted
  | 11 => .frozen
  | 12 => .access
  | 13 => .aborted
  | _ => .conflict

/-- The coordinator of a master (R243). -/
def coordinator (m : Nat) : Nat :=
  match masterClass m with
  | 7 => masterIndex m / 5
  | 2 => masterIndex m / 8
  | _ => 0

/-- May a master open transactions (R243)? -/
def mayOpen (m : Nat) : Bool :=
  m == managerId || (masterExists m && (masterClass m == 0 || masterClass m == 2 || masterClass m == 7))

/-- The slots a master holds. -/
def Device.txnsOf (s : Device) (m : Nat) : List (Nat × Txn) := s.mem.txns.filter fun t => t.2.master == m

/-- The slot an operation of a master means: its one transaction, or for the device manager the slot named. -/
def Device.txnFor (s : Device) (m slot : Nat) : Option (Nat × Txn) :=
  if m = managerId then (s.txnsOf m).find? fun t => t.1 == slot else (s.txnsOf m).head?

/-- The abort status a master has still to receive. -/
def Device.dueFor (s : Device) (m slot : Nat) : Option AbortDue :=
  s.mem.due.find? fun d => d.master == m && (m != managerId || d.slot == slot)

/-! ## Operations in the home cache (R278, R281 to R283) -/

/-- Bytes of an element of Table 11.7. -/
def tyBytes : Nat → Nat
  | 1 => 8
  | 3 => 8
  | 5 => 2
  | _ => 4

/-- BF16 of a value, rounded once with RNE; overflow gives an infinity. -/
def toBf16 (x : Fp) : Nat :=
  match x with
  | .nan => 0x7FC0
  | .inf n => if n then 0xFF80 else 0x7F80
  | .fin n m e => let c := fmtBf16.magCode false m e
                  fmtBf16.signed n (if 0x7F7F < c then 0x7F80 else c)

/-- A value of a floating-point element. -/
def tyFp (ty v : Nat) : Fp := if ty = 5 then fmtBf16.decode v else fmt32.decode v

/-- Elementwise sum of FADD. -/
def elemAdd (ty a b : Nat) : Nat :=
  let x := (tyFp ty a).add (tyFp ty b)
  if ty = 5 then toBf16 x else (toF32 x).toNat

/-- The larger or smaller of two elements (Table 11.7, Table 5.6). -/
def elemPick (ty : Nat) (big : Bool) (a b : Nat) : Nat :=
  let w := 8 * tyBytes ty
  if ty = 4 then ((if big then fmax else fmin) (BitVec.ofNat 32 a) (BitVec.ofNat 32 b)).toNat
  else if ty = 5 then
    let r := (if big then fmax else fmin) (BitVec.ofNat 32 (a * 65536)) (BitVec.ofNat 32 (b * 65536))
    r.toNat / 65536
  else if ty = 2 || ty = 3 then
    if big == decide (toSigned w a < toSigned w b) then b else a
  else if big == decide (a < b) then b else a

/-- The bytes an operation touches. -/
def MemOp.len : MemOp → Nat
  | .read n => n
  | .write d => d.length
  | .fetchAdd w _ => if w then 8 else 4
  | .cas w _ _ => if w then 8 else 4
  | .fadd ty v => tyBytes ty * v.length
  | .max ty v => tyBytes ty * v.length
  | .min ty v => tyBytes ty * v.length
  | .copy64 _ => 8

def MemOp.writes : MemOp → Bool
  | .read _ => false
  | _ => true

def MemOp.atomic : MemOp → Bool
  | .read _ => false
  | .write _ => false
  | _ => true

/-- Natural alignment of an atomic's operand (R281). -/
def MemOp.align : MemOp → Nat
  | .fetchAdd w _ => if w then 8 else 4
  | .cas w _ _ => if w then 8 else 4
  | .fadd ty _ => tyBytes ty
  | .max ty _ => tyBytes ty
  | .min ty _ => tyBytes ty
  | .copy64 _ => 8
  | _ => 1

/-- Is an atomic refused with E_RANGE (R281, R282)? -/
def Device.atomicBad (s : Device) (a : Nat) (op : MemOp) : Bool :=
  op.atomic && (!aligned a op.align || op.len == 0 || a / 128 != (a + op.len - 1) / 128 ||
    (match op with
     | .fadd ty _ => !(ty == 4 || ty == 5)
     | .max ty _ => !decide (ty ≤ 5)
     | .min ty _ => !decide (ty ≤ 5)
     | .copy64 src => !aligned src 8 || s.homeDie src != s.homeDie a
     | _ => false))

/-- The elements at an address. -/
def Device.elems (s : Device) (a w n : Nat) : List Nat := (List.range n).map fun i => leNat (s.cachedGet (a + w * i) w)

/-- Is an operation a plain write? Only such a write may cover a line whole (R289) or need no read (R272). -/
def MemOp.plain : MemOp → Bool
  | .write _ => true
  | _ => false

/-- Performs an operation at the home die: the status, the bytes returned, the state (R245 for transactional reads is separate). -/
def Device.perform (s : Device) (a : Nat) (op : MemOp) (except : Option Nat := none) : Status × Bytes × Device :=
  let n := op.len
  if s.hbmBlocked a n op.plain || (match op with | .copy64 src => s.hbmBlocked src 8 false | _ => false) then (.uncorrected, [], s)
  else
    let q := s.homeDie a
    let s : Device := s.cacheTouch a n op.writes op.atomic
    let put (s : Device) (b : Bytes) : Device := ((s.doomRange a n except).hbmPut a b).clearLost a n
    let count (s : Device) : Device := s.bump (O.atomics q)
    match op with
    | .read n => (.ok, s.cachedGet a n, s)
    | .write d => (.ok, [], put s d)
    | .fetchAdd w v =>
      let k := if w then 8 else 4
      let old := leNat (s.cachedGet a k)
      (.ok, leBytes k old, put (count s) (leBytes k (old + v)))
    | .cas w cmp new =>
      let k := if w then 8 else 4
      let old := leNat (s.cachedGet a k)
      (.ok, leBytes k old, if old == cmp then put (count s) (leBytes k new) else s.bump (O.atomics q))
    | .fadd ty v =>
      let k := tyBytes ty
      let old := s.elems a k v.length
      (.ok, [], put (count s) ((old.zip v).flatMap fun p => leBytes k (elemAdd ty p.1 p.2)))
    | .max ty v =>
      let k := tyBytes ty
      (.ok, [], put (count s) (((s.elems a k v.length).zip v).flatMap fun p => leBytes k (elemPick ty true p.1 p.2)))
    | .min ty v =>
      let k := tyBytes ty
      (.ok, [], put (count s) (((s.elems a k v.length).zip v).flatMap fun p => leBytes k (elemPick ty false p.1 p.2)))
    | .copy64 src =>
      let v := s.cachedGet src 8
      (.ok, v, put (count (s.cacheTouch src 8 false)) v)

/-- Must an access wait for an unlock (Table 10.3)? -/
def Device.mustWait (s : Device) (a : Nat) (op : MemOp) (except : Option Nat) : Bool :=
  (linesOf a op.len).any (fun l => s.wLocked l except || (op.writes && s.rLocked l except)) ||
    (match op with | .copy64 src => s.wLocked (src / 128) except | _ => false)

/-- Does an earlier access of the same master to one of the lines still wait? Accesses of one master to one line keep their order (R21). -/
def Device.ownWaits (s : Device) (m a n : Nat) : Bool :=
  s.mem.waiting.any fun w => w.master == m && (linesOf w.addr w.op.len).any fun l => (linesOf a n).contains l

/-- Puts an access among those that wait. -/
def Device.wait (s : Device) (m a : Nat) (op : MemOp) (txn : Option Nat := none) : Device :=
  { s with mem := { s.mem with waiting := s.mem.waiting ++
      [({ master := m, addr := a, op := op, since := s.uptime, transactional := txn } : Access)] } }

/-- A tracked read of a transaction (R245, R247): the committed bytes overlaid with the transaction's own, and the marks. -/
def Device.trackedRead (s : Device) (key : Nat) (t : Txn) (a n : Nat) : Bytes × Device :=
  let s : Device := s.cacheTouch a n false
  let base := s.cachedGet a n
  let out := (List.range n).map fun i => if t.masks.contains (a + i) then memGet t.buf (a + i) else base.getD i 0
  let new := (linesOf a n).filter fun l => !t.tracked.contains l
  (out, s.setTxn key { t with tracked := t.tracked ++ new })

/-- What an issuer is told when a commit ends: a host queue's command completes, other masters get an answer. -/
def Device.txnTell (s : Device) (m : Nat) (st : Status) (detail : Nat) : Device :=
  if masterClass m == 0 && m != managerId then
    match s.hostTxnCmd (masterIndex m) with
    | some c => s.hostDone (masterIndex m) c.id st detail
    | none => s.emit (.reply st detail)
  else s.emit (.reply st detail)

/-- The host as it reads and writes through BAR2: it issues without a master id. -/
def barMaster : Nat := 0x10000

/-- An access through BAR2 has taken effect: a read that fails returns Completer Abort, a write that fails is dropped, and both are logged and
counted (R415). -/
def Device.barDone (s : Device) (writes : Bool) (st : Status) (b : Bytes) : Device :=
  let s : Device := if st = .ok then s
    else (s.bump O.completerAborts).event { cls := if st = .domainOff then 4 else 2, node := 0x7F, status := st.code }
  if writes then s else s.emit (.hostRead (if st = .ok then some b else none))

/-- The data of a TXN_READ of a host queue: written to the host address of the command before its completion is posted (R401, R411). -/
def Device.hostReadDone (s : Device) (q : Nat) (b : Bytes) : Device :=
  match s.hostTxnCmd q with
  | some c => (s.emit (.hostWrite (leAt c.args 24 8) b)).hostDone q c.id .ok
  | none => s

/-- An access that waited has taken effect: its master is answered. -/
def Device.accessDone (s : Device) (m : Nat) (writes : Bool) (st : Status) (b : Bytes) : Device :=
  if m = barMaster then s.barDone writes st b else s.emit (.data m st b)

/-! ## The arbiter of a cache slice (R30, Table 1.7) -/

/-- The job whose accesses a master makes: a job core group's, that of the core of a DMA channel, of a context, of a stream, of an update unit's
block. -/
def Device.masterJob (s : Device) (m : Nat) : Option Nat :=
  let i := masterIndex m
  match masterClass m with
  | 1 => some i
  | 3 => some (s.num (O.coreOccupant (i / 64) (i % 64 / 4)))
  | 4 => some (beAt (s.bytes (O.ctxConfig i)) 4 1)
  | 6 => some (leAt (s.bytes (O.streamConfig (i / 64) (i % 64))) 2 1)
  | 7 => ((tgetD s.work.upd i []).head?).map fun r => r.job
  | _ => none

/-- Is a master's access of the latency-critical class? One of no job is best-effort (log entry 130). -/
def Device.masterLc (s : Device) (m : Nat) : Bool :=
  match s.masterJob m with
  | some j => decide (j < 32) && s.num (O.jobClass j) == 1
  | none => false

/-- The slice that serves an access: die and slice. -/
def Device.sliceOf (s : Device) (a : Nat) : Nat := 16 * s.homeDie a + cacheSlice (a / 128)

/-- Which of two requests that reach a slice in the same cycle it serves first: latency-critical ones, then round-robin by master id after the master
served last. -/
def Device.slicePrefers (s : Device) (x y : Access) : Bool :=
  let last := tgetD s.mem.sliceLast (s.sliceOf x.addr) 0
  let turn (m : Nat) : Nat := (m + 0x10001 - last - 1) % 0x10001
  if s.masterLc x.master != s.masterLc y.master then s.masterLc x.master else decide (turn x.master < turn y.master)

/-- The waiting access served next: the first that its lines and its master's earlier accesses let go, or one that reached the same slice in the same
cycle and that the arbiter prefers. -/
def Device.nextAccess (s : Device) : Option Access :=
  let free (before : List Access) (w : Access) : Bool := !s.mustWait w.addr w.op w.transactional &&
    !(before.any fun x => x.master == w.master && (linesOf x.addr x.op.len).any fun l => (linesOf w.addr w.op.len).contains l)
  let ready := (s.mem.waiting.zip (List.range s.mem.waiting.length)).filterMap fun p =>
    if free (s.mem.waiting.take p.2) p.1 then some p.1 else none
  match ready with
  | [] => none
  | w :: r => some ((r.filter fun x => x.since == w.since && s.sliceOf x.addr == s.sliceOf w.addr).foldl
      (fun b x => if s.slicePrefers x b then x else b) w)

/-! ## The end of a transaction -/

/-- Writes an abort record (R256, Table 10.7). -/
def Device.logAbort (s : Device) (key : Nat) (t : Txn) (reason : Nat) : Device :=
  let q := key / 64
  let r : AbortRec := { time := s.uptime, master := t.master, reason := reason, status := (reasonStatus reason).code,
                        parts := ofBits ((List.range 4).map fun d => (s.partsOf t).contains d) }
  let s : Device := { s with mem := { s.mem with aborts := tset s.mem.aborts q (logPush 256 (tgetD s.mem.aborts q []) r) [] } }
  s.bump (O.txnAborts q reason)

/-- Is a READ of a transaction waiting for a lock? -/
def Device.readWaits (s : Device) (key : Nat) : Bool := s.mem.waiting.any fun w => w.transactional == some key

/-- A transaction ends in an abort (R256): recorded, its slot and marks freed; a READ of it that waits, and a COW whose frame is being copied, receive
the status now. -/
def Device.endTxn (s : Device) (key : Nat) (t : Txn) (reason : Nat) : Device :=
  let told := s.readWaits key
  let s : Device := (s.logAbort key t reason).delTxn key
  let s : Device := { s with mem := { s.mem with waiting := s.mem.waiting.filter fun w => w.transactional != some key } }
  if told then s.txnTell t.master (reasonStatus reason) reason else s

/-- A waiting access takes effect. A READ of a transaction doomed meanwhile returns the abort status (R249). -/
def Device.serveWaiting (s : Device) (w : Access) : Device :=
  let s : Device := { s with mem := { s.mem with waiting := s.mem.waiting.erase w, sliceLast := tput s.mem.sliceLast (s.sliceOf w.addr) w.master } }
  let s : Device := s.bump (O.txnLockWaitNs (s.homeDie w.addr)) (40 * (s.uptime - w.since))
  match w.transactional with
  | some key => match tget? s.mem.txns key with
    | some t =>
      if t.state == TxnState.doomed then (s.endTxn key t t.reason).txnTell w.master (reasonStatus t.reason) t.reason
      else
        let r := s.trackedRead key t w.addr w.op.len
        if masterClass w.master == 0 then r.2.hostReadDone (masterIndex w.master) r.1 else r.2.emit (.data w.master .ok r.1)
    | none => s
  | none =>
    let r := s.perform w.addr w.op
    r.2.2.accessDone w.master w.op.writes r.1 r.2.1

/-- Serves at most n waiting accesses. -/
def Device.serveAll (n : Nat) (s : Device) : Device :=
  match n with
  | 0 => s
  | n + 1 => match s.nextAccess with
    | some w => Device.serveAll n (s.serveWaiting w)
    | none => s

/-- Lets every waiting access whose lines are free take effect: in the order of arrival, same-cycle arrivals by the slice's arbiter (R30, R253, R278,
Table 10.3, R288). -/
def Device.wakeWaiting (s : Device) : Device := Device.serveAll s.mem.waiting.length s

/-- Aborts a transaction: nothing is written, marks and locks go, the slot is freed, accesses that waited go on (R256). -/
def Device.abortTxn (s : Device) (key : Nat) (t : Txn) (reason : Nat) : Device := (s.endTxn key t reason).wakeWaiting

/-- Ends the COW whose transaction ends while its frame is copied: its issuer is told now. -/
def Device.cowTold (s : Device) (r : CowRun) (st : Status) (detail : Nat) : Device :=
  let s : Device := { s with work := { s.work with cows := s.work.cows.erase r } }
  match r.host with
  | some (q, id) => s.hostDone q id st
  | none => s.emit (.reply st detail)

/-- Aborts a transaction whose issuer has not asked for it (R256): an operation of it that has still to be answered (a READ that waits, a COMMIT, a COW)
is answered now; else the issuer's next operation receives the status. -/
def Device.abortLater (s : Device) (key : Nat) (t : Txn) (reason : Nat) : Device :=
  if s.readWaits key then s.abortTxn key t reason
  else match s.work.cows.find? fun r => r.key == key with
    | some r => (s.cowTold r (reasonStatus reason) reason).abortTxn key t reason
    | none =>
      if t.state == TxnState.preparing then (s.abortTxn key t reason).txnTell t.master (reasonStatus reason) reason
      else ({ s with mem := { s.mem with due := ({ master := t.master, slot := key, reason := reason } : AbortDue) :: s.mem.due } } : Device).abortTxn
        key t reason

/-- Aborts every transaction of a master, for a reason it has still to be told. -/
def Device.abortMaster (s : Device) (m reason : Nat) : Device :=
  (s.txnsOf m).foldl (fun (s : Device) t => if t.2.state == TxnState.installing then s else s.abortLater t.1 t.2 reason) s

/-- Aborts every transaction that is not installing (R258). -/
def Device.endAllTxns (s : Device) : Device :=
  s.mem.txns.foldl (fun (s : Device) (t : Nat × Txn) => if t.2.state == TxnState.installing then s else s.abortLater t.1 t.2 13) s

/-- The buffered bytes of a line are all buffered bytes: masks hold also bytes that equal zero. -/
def Txn.bytesOf (t : Txn) : List (Nat × Byte) := t.masks.map fun a => (a, memGet t.buf a)

/-- Installs a transaction's writes at a die: committed writes to every written line there (R248, R254). -/
def Device.installAt (s : Device) (key : Nat) (t : Txn) (q : Nat) : Device :=
  let lines := t.written.filter fun l => s.homeDie (128 * l) == q
  let s : Device := lines.foldl (fun (s : Device) l => (s.dooms l (some key)).cacheLine l (128 * l) 128 true) s
  let s : Device := (t.bytesOf.filter fun p => s.homeDie p.1 == q).foldl (fun (s : Device) p => s.hbmPut p.1 [p.2]) s
  lines.foldl (fun (s : Device) l => if ((t.masks.filter fun a => a / 128 == l).length == 128) then s.clearLost (128 * l) 128 else s) s

/-- What a prepare at a die decides (R252): a no with its reason, a wait, or a yes. -/
inductive Vote where
  | no (reason : Nat) | wait | yes
deriving DecidableEq, Repr

/-- A participant's part. -/
def Txn.part (t : Txn) (q : Nat) : Option PartState := (t.parts.find? fun x => x.1 == q).map fun x => x.2

/-- Checks 1 to 5 of R252. -/
def Device.prepare (s : Device) (key : Nat) (t : Txn) (q : Nat) : Vote :=
  let tr := t.tracked.filter fun l => s.homeDie (128 * l) == q
  let wr := t.written.filter fun l => s.homeDie (128 * l) == q
  if tr.any fun l => t.stale.contains l then .no 1
  else if tr.any fun l => s.wLocked l (some key) then .no 2
  else if wr.any fun l => s.rLocked l (some key) then .no 2
  else if wr.any fun l => s.wLocked l (some key) then .wait
  else .yes

/-- Counts a commit (Table 10.9). -/
def Device.countCommit (s : Device) (key : Nat) (t : Txn) : Device :=
  let q := key / 64
  let s : Device := s.bump (O.txnCommits q)
  if (s.partsOf t).all fun d => d == q then s else s.bump (O.txnCommitsCrossDie q)

/-- Is the prepare engine of a die taken by another transaction's prepare, or are prepares queued for it (R252)? -/
def Device.engineTaken (s : Device) (q key : Nat) : Bool :=
  s.mem.txns.any fun t => t.1 != key && (match t.2.part q with | some (.waiting _) => true | some (.queued _) => true | _ => false)

/-- Commits a whole transaction at once: every participant votes, then every one installs. Used by units whose operation is one
command (log entry 21). None where a prepare would have to wait, for its engine or for a lock. -/
def Device.commitNow (s : Device) (key : Nat) : Option (Nat × Device) :=
  match tget? s.mem.txns key with
  | none => some (0x0D, s)
  | some t =>
    if t.state == TxnState.doomed then some (t.reason, s.abortTxn key t t.reason)
    else
      let parts := s.partsOf t
      match parts.findSome? fun q => if s.engineTaken q key then some none else match s.prepare key t q with
        | .no r => some (some r)
        | .wait => some none
        | .yes => none with
      | some none => none
      | some (some r) => some (r, s.abortTxn key t r)
      | none =>
        let s : Device := s.countCommit key t
        let s : Device := parts.foldl (fun (s : Device) q => s.installAt key t q) s
        some (0, (s.delTxn key).wakeWaiting)

/-- Commits the switch transaction of R262 on a slot of Q0: it tracks and writes the memory-map lines of all four dies. None where the device manager
finds no slot, or a prepare would have to wait. -/
def Device.mapCommit (s : Device) : Option Device :=
  match s.choose ((List.range 64).filter fun n => (tget? s.mem.txns n).isNone && !(s.mem.due.any fun d => d.slot == n && d.master == managerId)) with
  | (none, _) => none
  | (some n, s) =>
    if 8 ≤ (s.txnsOf managerId).length then none
    else
      let t : Txn := { master := managerId, openedAt := s.uptime, limit := us (s.num O.txnTimeLimitUs), tracked := mapLines, written := mapLines }
      match (s.setTxn n t).commitNow n with
      | some (0, s) => some s
      | _ => none

/-! ## Operations of Table 10.2 -/

/-- Is OPEN possible at all (R258, R23): the memory domain works and no power change or reset has begun? -/
def Device.claspUp (s : Device) : Bool :=
  s.works 3 && s.power.trans == Transition.none && (match s.startup.resetReq with
    | some r => decide (s.uptime < r.at_ + ms 1)
    | none => true)

/-- The free slots of a coordinator (R244): no transaction holds them, and no abort status of the device manager is due for them. -/
def Device.freeSlots (s : Device) (q : Nat) : List Nat :=
  (List.range 64).filter fun n => (tget? s.mem.txns (64 * q + n)).isNone &&
    !(s.mem.due.any fun d => d.slot == 64 * q + n && d.master == managerId)

/-- OPEN (R244, R247, R256): the slot taken. -/
def Device.txnOpenOp (s : Device) (m : Nat) : Ans × Option Nat :=
  let q := coordinator m
  match (if m = managerId then none else s.mem.due.find? fun d => d.master == m) with
  | some d => ({ s := { s with mem := { s.mem with due := s.mem.due.filter fun x => x.master != m } },
                 st := reasonStatus d.reason, detail := d.reason }, none)
  | none =>
    match (if m = managerId then none else (s.txnsOf m).find? fun t => t.2.state == TxnState.doomed) with
    | some (key, t) => ({ s := s.abortTxn key t t.reason, st := reasonStatus t.reason, detail := t.reason }, none)
    | none =>
    if !mayOpen m || s.isFrozen m || !s.claspUp || (if m = managerId then 8 else 1) ≤ (s.txnsOf m).length then (s.deny .state, none)
    else
      match s.choose (s.freeSlots q) with
      | (none, s) => ((s.bump (O.txnOpenRefusals q)).deny .busy, none)
      | (some n, s) =>
        let t : Txn := { master := m, openedAt := s.uptime, limit := us (s.num O.txnTimeLimitUs) }
        ((s.setTxn (64 * q + n) t).okay, some (64 * q + n))

/-- Returns the abort status of a doomed transaction, which ends (R249, R256). -/
def Device.doomedAns (s : Device) (key : Nat) (t : Txn) : Ans :=
  { s := s.abortTxn key t t.reason, st := reasonStatus t.reason, detail := t.reason }

/-- Ends a transaction at an access of its own, with a reason (R247, R242, R259). -/
def Device.failTxn (s : Device) (key : Nat) (t : Txn) (reason : Nat) : Ans :=
  { s := s.abortTxn key t reason, st := reasonStatus reason, detail := reason }

/-- The transaction an operation acts on, or the answer it receives instead (R244, R249, R256). -/
def Device.txnGate (s : Device) (m slot : Nat) : Ans ⊕ (Nat × Txn) :=
  match s.dueFor m slot with
  | some d => .inl { s := { s with mem := { s.mem with due := s.mem.due.filter fun x => x ≠ d } }, st := reasonStatus d.reason,
                     detail := d.reason }
  | none => match s.txnFor m slot with
    | none => .inl (s.deny .state)
    | some (key, t) => match t.state with
      | .doomed => .inl (s.doomedAns key t)
      | .opened => .inr (key, t)
      | _ => .inl (s.deny .state)

/-- The tracked and written limits, and the marks left at the home dies, for a read of lines (R247, R481). -/
def Device.trackLimit (s : Device) (t : Txn) (lines : List Nat) : Nat :=
  let new := lines.filter fun l => !t.tracked.contains l
  if 4096 < t.tracked.length + new.length then 6
  else if new.any fun l => decide (262144 ≤ s.marksAt (s.homeDie (128 * l))) || s.waysOf (s.cacheKey l) == 0 then 7
  else 0

/-- READ (R245, R247, R259): the answer, the bytes, and whether it waits for a lock. -/
def Device.txnRead (s : Device) (m slot a n : Nat) (uncorrected : Bool) : Ans × Bytes × Bool :=
  match s.txnGate m slot with
  | .inl r => (r, [], false)
  | .inr (key, t) =>
    if !(n == 32 || n == 128) || !aligned a n then (s.deny .range, [], false)
    else if !s.lineInRegion (a / 128) then (s.failTxn key t 12, [], false)
    else
      let lim := s.trackLimit t (linesOf a n)
      if lim ≠ 0 then (s.failTxn key t lim, [], false)
      else if uncorrected || s.hbmBlocked a n false then (s.failTxn key t 8, [], false)
      else if s.mustWait a (.read n) (some key) || s.ownWaits m a n then (s.wait m a (.read n) (some key) |>.okay, [], true)
      else
        let r := s.trackedRead key t a n
        (r.2.okay, r.1, false)

/-- WRITE (R244, R247): bytes of one line, those whose mask bit is set. -/
def Device.txnWrite (s : Device) (m slot line : Nat) (bytes : List (Nat × Byte)) : Ans :=
  match s.txnGate m slot with
  | .inl r => r
  | .inr (key, t) =>
    if !s.lineInRegion line then s.failTxn key t 12
    else
      let new := if t.written.contains line then [] else [line]
      if 2048 < t.written.length + new.length then s.failTxn key t 5
      else
        (s.setTxn key { t with written := t.written ++ new,
                               buf := bytes.foldl (fun b p => memSet b p.1 p.2) t.buf,
                               masks := t.masks ++ (bytes.map fun p => p.1).filter fun a => !t.masks.contains a }).okay

/-- ABORT (R256): OK, also of a doomed transaction or of one whose status was still due. -/
def Device.txnAbortOp (s : Device) (m slot : Nat) : Ans :=
  match s.dueFor m slot with
  | some d => ({ s with mem := { s.mem with due := s.mem.due.filter fun x => x ≠ d } } : Device).okay
  | none => match s.txnFor m slot with
    | none => s.deny .state
    | some (key, t) => match t.state with
      | .doomed => (s.abortTxn key t t.reason).okay
      | .opened => (s.abortTxn key t 10).okay
      | _ => s.deny .state

/-- COMMIT reaches the coordinator (step 1 of Table 10.4): the participants are fixed. A transaction with none commits at once. -/
def Device.txnCommitOp (s : Device) (m slot : Nat) : Ans × Bool :=
  match s.txnGate m slot with
  | .inl r => (r, true)
  | .inr (key, t) =>
    let parts := s.partsOf t
    if parts.isEmpty then (((s.countCommit key t).delTxn key).okay, true)
    else (s.setTxn key { t with state := .preparing, parts := parts.map fun q => (q, PartState.todo) } |>.okay, false)

/-- Changes a participant's part. -/
def Txn.setPart (t : Txn) (q : Nat) (p : PartState) : Txn := { t with parts := t.parts.map fun x => if x.1 == q then (q, p) else x }

/-- A prepare at a die (R252): the vote is set; a lock wait that began earlier keeps its start. -/
def Device.doPrepare (s : Device) (key : Nat) (t : Txn) (q : Nat) (since : Nat) : Device :=
  match s.prepare key t q with
  | .no r => (s.bump (O.txnLockWaitNs q) (40 * (s.uptime - since))).setTxn key (t.setPart q (.no r))
  | .wait => s.setTxn key (t.setPart q (.waiting since))
  | .yes =>
    let s : Device := s.bump (O.txnLockWaitNs q) (40 * (s.uptime - since))
    s.setTxn key (t.setPart q .yes)

/-! ## Commands (rows 87 to 98) -/

/-- An operation of Table 10.2 meets the Clasp units only while their domain is on (R25). -/
def Device.claspReq (s : Device) (f : Device → Device) : Device := if s.domainOn 3 then f s else (s.deny .domainOff).out

/-- CLASP_OPEN: the slot number is the detail of the answer. -/
def execClaspOpen (m : BitVec 16) (s : State) : Outc := s.run fun (s : Device) =>
  s.claspReq fun s => match s.txnOpenOp m.toNat with
    | (r, some key) => ({ r with detail := key } : Ans).out
    | (r, none) => r.out

/-- PREPARE reaches a participant: the lower dies have voted yes. With the prepare engine taken it waits for it (R252). -/
def execPrepare (q : Fin 4) (n : Fin 64) (d : Fin 4) (s : State) : Outc := s.run fun (s : Device) =>
  let key := 64 * q.val + n.val
  (match tget? s.mem.txns key with
   | some t =>
     let ready := t.state == TxnState.preparing && t.part d.val == some PartState.todo &&
       (t.parts.all fun p => decide (d.val ≤ p.1) || p.2 == PartState.counted)
     if !(s.runs 3 && ready) then s
     else if s.engineTaken d.val key then s.setTxn key (t.setPart d.val (.queued s.uptime))
     else s.doPrepare key t d.val s.uptime
   | none => s)

/-- Since when a transaction's prepare waits for the engine of a die. -/
def Txn.queuedAt (t : Txn) (q : Nat) : Option Nat := match t.part q with | some (.queued c) => some c | _ => none

/-- May a prepare queued since a time start: no other is running, and none has been queued longer? -/
def Device.prepareFree (s : Device) (q key since : Nat) : Bool :=
  s.mem.txns.all fun t => t.1 == key || ((match t.2.part q with | some (.waiting _) => false | _ => true) &&
    (match t.2.queuedAt q with | some c => decide (since ≤ c) | none => true))

/-- PREPARE_RESUME: the lock a prepare waited for is released, and it starts again at check 1; or the engine it waited for is free, and it
starts. -/
def execPrepareResume (q : Fin 4) (n : Fin 64) (d : Fin 4) (s : State) : Outc := s.run fun (s : Device) =>
  let key := 64 * q.val + n.val
  (match tget? s.mem.txns key with
   | some t => match t.part d.val with
     | some (.waiting since) => if s.runs 3 then s.doPrepare key t d.val since else s
     | some (.queued since) =>
       if s.runs 3 && s.prepareFree d.val key since then
         (s.bump (O.txnLockWaitNs d.val) (40 * (s.uptime - since))).doPrepare key t d.val s.uptime
       else s
     | _ => s
   | none => s)

/-- LOCK_WAIT_LIMIT: a prepare has waited longer than 4.00.204 and votes no (R252). -/
def execLockWaitLimit (q : Fin 4) (n : Fin 64) (d : Fin 4) (s : State) : Outc := s.run fun (s : Device) =>
  let key := 64 * q.val + n.val
  (match tget? s.mem.txns key with
   | some t => match t.part d.val with
     | some (.waiting since) =>
       if s.runs 3 && decide (since + us (s.num O.txnLockWaitLimitUs) < s.uptime) then
         (s.bump (O.txnLockWaitNs d.val) (40 * (s.uptime - since))).setTxn key (t.setPart d.val (.no 3))
       else s
     | _ => s
   | none => s)

/-- VOTE: a vote reaches the coordinator (steps 4 and 5 of Table 10.4): a no aborts the transaction; the last yes is the commit
point. -/
def execVote (q : Fin 4) (n : Fin 64) (d : Fin 4) (s : State) : Outc := s.run fun (s : Device) =>
  let key := 64 * q.val + n.val
  (match tget? s.mem.txns key with
   | some t =>
     if !(s.runs 3 && t.state == TxnState.preparing) then s
     else match t.part d.val with
     | some (.no r) => (s.abortTxn key t r).txnTell t.master (reasonStatus r) r
     | some .yes =>
       let t := t.setPart d.val PartState.counted
       s.setTxn key (if t.parts.all fun p => p.2 == PartState.counted then { t with state := .installing } else t)
     | _ => s
   | none => s)

/-- INSTALL: COMMIT reaches a participant after the commit point; its lines are written and its locks released (R254). -/
def execInstall (q : Fin 4) (n : Fin 64) (d : Fin 4) (s : State) : Outc := s.run fun (s : Device) =>
  let key := 64 * q.val + n.val
  (match tget? s.mem.txns key with
   | some t =>
     if s.runs 3 && t.state == TxnState.installing && t.part d.val == some PartState.counted then
       ((s.installAt key t d.val).setTxn key (t.setPart d.val PartState.installed)).wakeWaiting
     else s
   | none => s)

/-- INSTALL_REPORT: an install is reported to the coordinator; after the last, OK goes to the issuer (step 7 of Table 10.4). -/
def execInstallReport (q : Fin 4) (n : Fin 64) (d : Fin 4) (s : State) : Outc := s.run fun (s : Device) =>
  let key := 64 * q.val + n.val
  (match tget? s.mem.txns key with
   | some t =>
     if s.runs 3 && t.part d.val == some PartState.installed then
       let t := t.setPart d.val PartState.reported
       if t.parts.all fun p => p.2 == PartState.reported then ((s.countCommit key t).delTxn key).txnTell t.master .ok 0
       else s.setTxn key t
     else s
   | none => s)

/-- TXN_TIME_LIMIT: a transaction has been open longer than its limit without reaching step 2 of Table 10.4. -/
def execTxnTimeLimit (q : Fin 4) (n : Fin 64) (s : State) : Outc := s.run fun (s : Device) =>
  let key := 64 * q.val + n.val
  (match tget? s.mem.txns key with
   | some t =>
     if s.runs 3 && t.state == TxnState.opened && decide (t.openedAt + t.limit < s.uptime) then s.abortLater key t 9
     else s
   | none => s)

/-- CLASP_ABORT. -/
def execClaspAbort (m : BitVec 16) (slot : BitVec 8) (s : State) : Outc := s.run fun (s : Device) =>
  s.claspReq fun s => (s.txnAbortOp m.toNat slot.toNat).out

end Sys2Proof.Machine
end

