-- ==== Sys2Proof/Machine/Wake.lean ====
section
/-! DEFINITION. Wake events and the record of a wake (R442, R445, R448 to R452). -/

namespace Sys2Proof.Machine

/-! ## Wakes (R448 to R452) -/

/-- From which states a source wakes the device (Table 18.9): 1 IDLE, 2 SLEEP, 3 DEEP. -/
def Device.wakes (s : Device) (src st : Nat) : Bool :=
  match src, st with
  | 1, 1 | 1, 2 | 1, 3 | 2, 2 | 2, 3 | 3, 3 | 4, 2 | 5, 1 | 5, 2 | 5, 3 | 6, 2 | 6, 3 | 7, 1 | 7, 2 | 8, 1 => true
  | 4, 3 => bit (s.num (O.clockEnables 45)) 2
  | _, _ => false

/-- The record of a wake (R452). -/
def wakeRecord (src left mask time : Nat) : Bytes :=
  beBytes 1 src ++ beBytes 1 left ++ beBytes 2 mask ++ beBytes 4 0 ++ beBytes 8 time

/-- The pending mask of a list of sources, without the one recorded. -/
def wakeMask (src : Nat) (l : List Nat) : Nat := (l.filter (· ≠ src)).foldl setBit 0

/-- The lowest source of a list. -/
def lowest (l : List Nat) : Nat := l.foldl min 0xFF

/-- Leaves IDLE for RUN with a wake record (R442, R452). -/
def Device.leaveIdle (s : Device) (src : Nat) : Device :=
  let s : Device := s.setBytes O.lastWake (wakeRecord src 1 0 s.uptime)
  let s : Device := s.setNum O.powerState 0
  { s with power := { s.power with gated := [], idleSince := [], autoSince := s.uptime, pendingWakes := [] } }

/-- A wake event. In IDLE the device goes to RUN at once; in SLEEP and DEEP the wake is recorded (the lowest code of those of one
uptime count) and exit begins with SLEEP_EXIT or DEEP_EXIT; during an entry it is held; during an exit it only joins the mask
(R445, R448, R452). -/
def Device.wakeEvent (s : Device) (src : Nat) : Device :=
  if !bit (s.num O.wakeEnable) src then s
  else match s.power.trans with
    | .exiting _ =>
      let l := src :: s.power.pendingWakes
      let b := s.bytes O.lastWake
      let s : Device := { s with power := { s.power with pendingWakes := l } }
      s.setBytes O.lastWake (wakeRecord (beAt b 0 1) (beAt b 1 1) (wakeMask (beAt b 0 1) l) (beAt b 8 8))
    | .entering t =>
      if s.wakes src t then
        { s with power := { s.power with pendingWakes := src :: s.power.pendingWakes, wakeHeld := true } }
      else s
    | .none =>
      let st := s.num O.powerState
      if !s.wakes src st then s
      else if st = 1 then s.leaveIdle src
      else
        let l := src :: s.power.pendingWakes
        let b := s.bytes O.lastWake
        let first := !s.power.wakeHeld
        let w := if first then src else if beAt b 8 8 = s.uptime then min src (beAt b 0 1) else beAt b 0 1
        let t := if first then s.uptime else beAt b 8 8
        let s : Device := { s with power := { s.power with pendingWakes := l, wakeHeld := true } }
        let s : Device := { s with board := { s.board with railEnable := true } }
        s.setBytes O.lastWake (wakeRecord w st (wakeMask w l) t)

/-- Work arrives: source 8 (R442). -/
def Device.workArrives (s : Device) : Device := s.wakeEvent 8

end Sys2Proof.Machine
end

