-- ==== Sys2Proof/Machine/Pool.lean ====
section
/-! DEFINITION. Ledger faults (R306, R309, R310) and the staging buffer pools (R299 to R304). A channel is known by its die and its number on
the die. -/

namespace Sys2Proof.Machine

/-! ## Ledgers and their faults -/

/-- The id of a ledger (C.00.010). -/
def ledgerId (kind inst : Nat) : Nat := 4096 * kind + inst

/-- The die of a crossing of Table 1.6: compute 0 to 15, memory 16 to 19, link 20 to 23, media 24 to 27, control 32. -/
def crossingDie (x : Nat) : Nat := if x < 16 then x / 4 else if x < 28 then x % 4 else 0

/-- The ends of a ring edge in the order Q0, Q1, Q3, Q2: direction 0 is forward. -/
def edgeEnds (e : Nat) : Nat × Nat := [(0, 1), (1, 3), (3, 2), (2, 0)].getD e (0, 0)
def edgeFrom (e dir : Nat) : Nat := if dir = 0 then (edgeEnds e).1 else (edgeEnds e).2

/-- The unit that Assay tests for a ledger: unit, node, element (R310). -/
def Device.ledgerUnit (s : Device) (kind inst : Nat) : Nat × Nat × Nat :=
  match kind with
  | 1 => (9, 0x08 + inst, 0)
  | 2 => (9, 0x08 + crossingDie (inst / 8), 0)
  | 3 => (9, 0x08 + edgeFrom (inst / 16) (inst / 8 % 2), 0)
  | 4 => (9, 0x60 + inst / 32, 0)
  | 5 => (9, 0x40 + inst, 0)
  | 6 => (9, 0x08 + inst, 0)
  | _ =>
    let a := match tget? s.work.pools inst with
      | some p => p.metaBase
      | none => 0
    (6, 0x08 + s.homeDie a, cacheSlice (a / 128))

/-- A ledger's entry. -/
def Device.ledger (s : Device) (id : Nat) : Ledger := tgetD s.mem.ledgers id {}

/-- Is any ledger VOID (C.00.014)? -/
def Device.voidView (s : Device) : Device := s.setBool O.conservationVoid (s.mem.ledgers.any fun p => p.2.state == LedgerState.void)

/-- A ledger fault (R310): counted, recorded, logged at most once a millisecond, the ledger FAULTED (VOID stays; an outside write makes
it VOID), Assay on the unit that holds the counts. -/
def Device.ledgerFault (s : Device) (id kind total observed : Nat) : Device :=
  let l := s.ledger id
  let st := if kind = 5 || l.state == LedgerState.void then LedgerState.void else LedgerState.faulted
  let log := match l.lastRow with
    | some t => decide (t + ms 1 ≤ s.uptime)
    | none => true
  let row : LedgerFault := { time := s.uptime, id := id, kind := kind, void := st == LedgerState.void, total := total, observed := observed }
  let l := { l with state := st, lastRow := if log then some s.uptime else l.lastRow }
  let s : Device := { s with mem := { s.mem with ledgers := tput s.mem.ledgers id l,
                                                 ledgerLog := if log then logPush 256 s.mem.ledgerLog row else s.mem.ledgerLog } }
  let s : Device := (s.bump O.ledgerFaults).voidView
  let u := s.ledgerUnit (id / 4096) (id % 4096)
  s.event { cls := 6, unit := u.1, node := u.2.1, elem := u.2.2, addr := id, cause := id }

/-- The ledger becomes VOID: an uncorrected error was reported in what holds its objects or counts (R309). -/
def Device.voidLedger (s : Device) (id : Nat) : Device :=
  match tget? s.mem.ledgers id with
  | some l => ({ s with mem := { s.mem with ledgers := tput s.mem.ledgers id { l with state := .void } } } : Device).voidView
  | none => s

/-- The frame ledgers whose counts or frame records lie in a line that met an uncorrected error become VOID (R309). -/
def Device.voidLine (s : Device) (line : Nat) : Device :=
  s.work.pools.foldl (fun (s : Device) (p : Nat × Pool) =>
    if decide (p.2.metaBase ≤ 128 * line + 127) && decide (128 * line < p.2.metaBase + 4096 + 32 * p.2.frames) then s.voidLedger (ledgerId 7 p.1) else s) s

/-- The address of a frame's record in a pool's metadata. -/
def Pool.frameAt (x : Pool) (f : Nat) : Nat := x.metaBase + 4096 + 32 * f

/-! ## Channels -/

def chKey (q n : Nat) : Nat := 1024 * q + n

def Device.poolCh (s : Device) (q n : Nat) : PoolCh := tgetD s.mem.pool (chKey q n) {}
def Device.setPoolCh (s : Device) (q n : Nat) (c : PoolCh) : Device := { s with mem := { s.mem with pool := tput s.mem.pool (chKey q n) c } }

/-- Is a channel open? -/
def Device.chOpen (s : Device) (q n : Nat) : Bool := (tget? s.mem.pool (chKey q n)).isSome

/-- The open channels of a die. -/
def Device.channels (s : Device) (q : Nat) : List Nat := (s.mem.pool.filter fun c => c.1 / 1024 == q).map fun c => c.1 % 1024

def Device.chReserve (s : Device) (q n : Nat) : Nat := s.num (O.channelReserve q n)
def Device.chCap (s : Device) (q n : Nat) : Nat := s.num (O.channelCap q n)
def Device.chHeld (s : Device) (q n : Nat) : Nat := s.num (O.channelHeld q n)

/-- Buffers a channel holds that are charged to the shared remainder. -/
def Device.chShared (s : Device) (q n : Nat) : Nat := s.chHeld q n - s.chReserve q n - (s.poolCh q n).urgent

/-- Σ r over the open channels of a die. -/
def Device.reservedTotal (s : Device) (q : Nat) : Nat := ((s.channels q).map fun n => s.chReserve q n).sum

/-- Unheld shared buffers, and unheld urgent buffers. -/
def Device.sharedFree (s : Device) (q : Nat) : Nat :=
  8192 - s.num (O.urgentSlice q) - s.reservedTotal q - ((s.channels q).map fun n => s.chShared q n).sum
def Device.urgentFree (s : Device) (q : Nat) : Nat := s.num (O.urgentSlice q) - ((s.channels q).map fun n => (s.poolCh q n).urgent).sum

/-- Brings a die's pool objects up to date with its channels. -/
def Device.poolView (s : Device) (q : Nat) : Device :=
  let s : Device := (s.setNum (O.poolSharedFree q) (s.sharedFree q)).setNum (O.poolUrgentFree q) (s.urgentFree q)
  let s : Device := s.setNum (O.poolReservedTotal q) (s.reservedTotal q)
  let s : Device := s.setNum (O.poolHeld q) ((s.channels q).map fun n => s.chHeld q n).sum
  s.setNum (O.poolChannelsOpen q) (s.channels q).length

/-- From which part of the pool a buffer would come: 2 reservation, 3 shared, 4 urgent; none is a refusal (R301). -/
def Device.poolSource (s : Device) (q n : Nat) : Option Nat :=
  let h := s.chHeld q n
  if s.chCap q n ≤ h then none
  else if h < s.chReserve q n then some 2
  else if 0 < s.sharedFree q then some 3
  else if s.num (O.channelClass q n) = 1 && 0 < s.urgentFree q then some 4
  else none

/-! ## The allocator (R303) -/

/-- The allocator has settled a request: its pointer stands one channel number past it. -/
def Device.allocServed (s : Device) (q n : Nat) : Device :=
  { s with mem := { s.mem with allocAt := tset s.mem.allocAt q ((n + 1) % 1024) 0 } }

/-- The rank of a channel's request among those of one cycle: LC before BE, within a class from the pointer on. -/
def Device.allocRank (s : Device) (q n : Nat) : Nat :=
  (if s.num (O.channelClass q n) = 1 then 0 else 1024) + (n + 1024 - tgetD s.mem.allocAt q 0 % 1024) % 1024

/-- The first of several channels in the allocator's order. -/
def Device.allocFirst (s : Device) (q : Nat) : List Nat → Option Nat
  | [] => none
  | n :: r => match s.allocFirst q r with
    | none => some n
    | some m => some (if s.allocRank q n ≤ s.allocRank q m then n else m)

/-- One request for one buffer (R301): a refusal holds nothing and is counted. -/
def Device.poolRequest (s : Device) (q n : Nat) : Bool × Device :=
  let s : Device := s.allocServed q n
  match s.poolSource q n with
  | none => (false, (s.bump (O.channelRefusals q n)).bump (O.poolRefusals q))
  | some k =>
    let c := s.poolCh q n
    let s : Device := if k = 4 then s.setPoolCh q n { c with urgent := c.urgent + 1 } else s
    (true, (s.setNum (O.channelHeld q n) (s.chHeld q n + 1)).poolView q)

/-- One buffer returned (R302): the urgent slice first, then the shared remainder, the reservation last. A release of a buffer that is
not held is a ledger fault (R306). -/
def Device.poolRelease1 (s : Device) (q n : Nat) : Device :=
  if s.chHeld q n = 0 then s.ledgerFault (ledgerId 1 q) 4 8192 8192
  else
    let c := s.poolCh q n
    let s : Device := if 0 < c.urgent then s.setPoolCh q n { c with urgent := c.urgent - 1 } else s
    (s.setNum (O.channelHeld q n) (s.chHeld q n - 1)).poolView q

/-- k buffers returned. -/
def Device.poolRelease (s : Device) (q n k : Nat) : Device := (List.range k).foldl (fun (s : Device) _ => s.poolRelease1 q n) s

/-- k buffers requested one after another; where one is refused, those already taken are returned. -/
def Device.poolTake (s : Device) (q n k : Nat) : Bool × Device :=
  let r := (List.range k).foldl (fun (a : Option Nat × Device) _ => match a.1 with
    | some got => let r := a.2.poolRequest q n
                  if r.1 then (some (got + 1), r.2) else (none, r.2.poolRelease q n got)
    | none => a) ((some 0, s) : Option Nat × Device)
  (r.1.isSome, r.2)

/-- Opens a channel (R300): the limit that refuses it, or its number. -/
def Device.poolOpen (s : Device) (q kind r c cls owner sid : Nat) : Nat ⊕ (Nat × Device) :=
  if 8192 < s.reservedTotal q + s.num (O.urgentSlice q) + r then .inl 8192
  else
    match s.choose ((List.range 1024).filter fun n => !s.chOpen q n) with
    | (none, _) => .inl 1024
    | (some n, s) =>
      let s : Device := s.setPoolCh q n {}
      let s : Device := (s.setNum (O.channelKind q n) kind).setNum (O.channelReserve q n) r
      let s : Device := ((s.setNum (O.channelCap q n) (max c (max r 1))).setNum (O.channelClass q n) cls).setNum (O.channelOwner q n) owner
      let s : Device := if r = 0 then s else (s.claim [O.channelReserve q n] owner sid).1
      .inr (n, s.poolView q)

/-- Closes a channel that holds nothing; its settings return to those of a closed channel (R304). -/
def Device.poolClose (s : Device) (q n : Nat) : Device :=
  if !s.chOpen q n || s.chHeld q n ≠ 0 then s
  else
    let s : Device := { s with mem := { s.mem with pool := tdel s.mem.pool (chKey q n) },
                               fore := { s.fore with owners := s.fore.owners.filter fun o => o.1 != O.channelReserve q n } }
    let s : Device := s.setNum O.resourceOwnerCount s.fore.owners.length
    let s : Device := ((s.setNum (O.channelKind q n) 0).setNum (O.channelReserve q n) 0).setNum (O.channelCap q n) 0
    ((s.setNum (O.channelClass q n) 0).setNum (O.channelOwner q n) 0).poolView q

/-- May a channel's settings be written (R304): it holds nothing, and no handoff from it or to it waits? -/
def Device.chStopped (s : Device) (q n : Nat) : Bool :=
  s.chOpen q n && s.chHeld q n == 0 && (s.channels q).all fun a => !(s.poolCh q a).handoffs.contains n && (a != n || (s.poolCh q a).handoffs.isEmpty)

/-- The row of F.00.050 of a channel whose reservation changes: there is one as long as it is not 0 (R300). -/
def Device.reserveRow (s : Device) (q n r : Nat) : Device :=
  let res := O.channelReserve q n
  let owners := s.fore.owners.filter fun o => o.1 != res
  let had := s.fore.owners.find? fun o => o.1 == res
  let owners := if r = 0 then owners else match had with
    | some _ => s.fore.owners
    | none =>
      let owner := s.num (O.channelOwner q n)
      let sid := match s.fore.owners.find? fun o => o.2.1 == owner with
        | some o => o.2.2
        | none => 0
      owners ++ [(res, owner, sid)]
  ({ s with fore := { s.fore with owners := owners } } : Device).setNum O.resourceOwnerCount owners.length

/-- A write of a reservation (R304). -/
def Device.reserveWrite (s : Device) (q n r : Nat) : Ans :=
  if !s.chStopped q n then s.deny .state (O.channelReserve q n)
  else if 8192 < s.reservedTotal q - s.chReserve q n + r + s.num (O.urgentSlice q) then s.deny .limit 8192
  else (((s.reserveRow q n r).setNum (O.channelReserve q n) r).poolView q).okay

/-- A write of a cap (R304). -/
def Device.capWrite (s : Device) (q n c : Nat) : Ans :=
  if !s.chStopped q n then s.deny .state (O.channelCap q n) else (s.setNum (O.channelCap q n) c).okay

/-- A write of the urgent slice (R304). -/
def Device.urgentWrite (s : Device) (q u : Nat) : Ans :=
  if s.urgentFree q ≠ s.num (O.urgentSlice q) then s.deny .state (O.urgentSlice q)
  else if 8192 < s.reservedTotal q + u then s.deny .limit 8192
  else ((s.setNum (O.urgentSlice q) u).poolView q).okay

/-- Moves one held buffer from a channel to another, if the other obtains it (R302). -/
def Device.tryHandoff (s : Device) (q a b : Nat) : Option Device :=
  if s.chHeld q a = 0 then none
  else
    let t : Device := s.poolRelease1 q a
    match t.poolSource q b with
    | some _ => some (t.poolRequest q b).2
    | none => none

/-- The handoffs that stand at the heads of their queues, as (from, to). -/
def Device.handoffHeads (s : Device) (q : Nat) : List (Nat × Nat) :=
  (s.channels q).filterMap fun a => (s.poolCh q a).handoffs.head?.map fun b => (a, b)

/-- The head that the allocator grants next: its release comes first, and of several requests the first in its order (R303). -/
def Device.handoffNext (s : Device) (q : Nat) (l : List (Nat × Nat)) : Option (Nat × Nat) :=
  let can := l.filter fun p => (s.tryHandoff q p.1 p.2).isSome
  (s.allocFirst q (can.map fun p => p.2)).bind fun b => can.find? fun p => p.2 == b

/-- The heads that the allocator grants in its next cycle: at most two (R303). -/
def Device.handoffTurn (s : Device) (q : Nat) : List (Nat × Nat) :=
  let l := s.handoffHeads q
  match s.handoffNext q l with
  | none => []
  | some p => p :: (match s.tryHandoff q p.1 p.2 with
    | some t => (t.handoffNext q (l.filter fun x => x != p)).toList
    | none => [])

/-- A handoff (R302): done at once, or it waits in the queue of a, behind earlier ones. A handoff of a buffer that a does not hold is a
ledger fault (R306). -/
def Device.handoff (s : Device) (q a b : Nat) : Device :=
  let c := s.poolCh q a
  if s.chHeld q a ≤ c.handoffs.length then s.ledgerFault (ledgerId 1 q) 4 8192 8192
  else if c.handoffs.isEmpty then
    match s.tryHandoff q a b with
    | some s => s
    | none =>
      let s : Device := (s.bump (O.channelRefusals q b)).bump (O.poolRefusals q)
      (s.setPoolCh q a { c with handoffs := [b] }).bump (O.poolHandoffWaits q)
  else (s.setPoolCh q a { c with handoffs := c.handoffs ++ [b] }).bump (O.poolHandoffWaits q)

end Sys2Proof.Machine
end

