-- ==== Sys2Proof/Machine/JobOps.lean ====
section
/-! DEFINITION. Shared operations on jobs: the registration record (Table 16.2), the core set, buffer-table entries and the bytes they name
(R123), the end of an entry and of a step (R201, R389, R413), the run time of commands (R395), and what a refused or failed command
tells its job (R102). -/

namespace Sys2Proof.Machine

/-! ## The registration record -/

def Device.job? (s : Device) (j : Nat) : Option Job := tget? s.work.jobs j

def Device.setJob (s : Device) (j : Nat) (x : Job) : Device := { s with work := { s.work with jobs := tput s.work.jobs j x } }

/-- Changes a job, if the slot holds one. -/
def Device.modJob (s : Device) (j : Nat) (f : Job → Job) : Device :=
  match s.job? j with
  | some x => s.setJob j (f x)
  | none => s

/-- A little-endian field of a record. -/
def Job.at_ (x : Job) (off n : Nat) : Nat := leAt x.reg off n

/-- Job states (Table 16.1). -/
def jsFree : Nat := 0
def jsRegistered : Nat := 1
def jsReady : Nat := 2
def jsRunning : Nat := 3
def jsWaiting : Nat := 4
def jsPreempting : Nat := 5
def jsPreempted : Nat := 6
def jsRestoring : Nat := 7
def jsStopped : Nat := 8
def jsFrozen : Nat := 9
def jsSuspended : Nat := 10

def Device.jobCode (s : Device) (j : Nat) : Nat := s.num (O.jobState j)

/-- Resident: admitted and not left. -/
def Device.resident (s : Device) (j : Nat) : Bool := 2 ≤ s.jobCode j && s.jobCode j ≤ 9

def Job.isLc (x : Job) : Bool := x.at_ 1 1 == 1

/-- The core set, as core numbers in (cluster, core) order. -/
def Job.cores (x : Job) : List Nat :=
  (List.range 32).flatMap fun c => (List.range 16).filterMap fun k => if bit (x.at_ (160 + 2 * c) 2) k then some (coreNo c k) else none

/-- The partition in a cluster: base and size in bytes. -/
def Job.part (x : Job) (c : Nat) : Nat × Nat := (x.at_ (226 + 4 * c) 2 * 65536, x.at_ (224 + 4 * c) 2 * 65536)

/-- The state area in a stack, and the HBM-space ranges: base and size. -/
def Job.stateArea (x : Job) (i : Nat) : Nat × Nat := (x.at_ (352 + 16 * i) 8, x.at_ (360 + 16 * i) 8)
def Job.space (x : Job) (i : Nat) : Nat × Nat := (x.at_ (672 + 16 * i) 8, x.at_ (680 + 16 * i) 8)

/-- The ranges in use. -/
def Job.spaces (x : Job) : List (Nat × Nat) := ((List.range 16).map x.space).filter fun r => r.2 != 0

/-- The address of an offset in the job's HBM space. The space is the union of its ranges, taken one after another in the order of the
record (log entry 30). -/
def spaceAddr : List (Nat × Nat) → Nat → Option Nat
  | [], _ => none
  | (b, n) :: r, o => if o < n then some (b + o) else spaceAddr r (o - n)

/-- Does an extent lie in the job's HBM space, computed exactly? An empty extent lies in it. -/
def Job.inSpace (x : Job) (o n : Nat) : Bool := o + n ≤ (x.spaces.map fun r => r.2).sum

/-- Does a device address range lie in one of the ranges? -/
def Job.holdsAddr (x : Job) (a n : Nat) : Bool := x.spaces.any fun r => decide (r.1 ≤ a) && decide (a + n ≤ r.1 + r.2)

/-- Bytes of the job's HBM space by offset. -/
def Device.spaceGet (s : Device) (x : Job) (o n : Nat) : Bytes :=
  (List.range n).map fun i => match spaceAddr x.spaces (o + i) with
    | some a => (s.cachedGet a 1).headD 0
    | none => 0

/-- A little-endian field of the job's HBM space. -/
def Device.spaceLe (s : Device) (x : Job) (o n : Nat) : Nat := leNat (s.spaceGet x o n)

/-- Writes bytes of the job's HBM space, as committed writes through the cache. -/
def Device.spacePut (s : Device) (x : Job) (o : Nat) (b : Bytes) : Device :=
  (b.zip (List.range b.length)).foldl (fun (s : Device) p => match spaceAddr x.spaces (o + p.2) with
    | some a => (s.dooms (a / 128) none).hbmPut a [p.1]
    | none => s) s

/-- Is an extent of a job's HBM space out of reach: lost or dead lines? -/
def Device.spaceBlocked (s : Device) (x : Job) (o n : Nat) (write : Bool) : Bool :=
  n != 0 && (match spaceAddr x.spaces o with
    | some a => s.hbmBlocked a n write
    | none => false)

/-- Must an access to the job's HBM space wait for a lock (Table 10.3)? -/
def Device.spaceWaits (s : Device) (x : Job) (o n : Nat) (write : Bool) : Bool :=
  n != 0 && (match spaceAddr x.spaces o with
    | some a => s.mustWait a (if write then .write (List.replicate n 0) else .read n) none
    | none => false)

/-- The control cluster of a job: the lowest of its core set (R388). -/
def Job.lowCluster (x : Job) : Nat := (x.cores.head?.getD 0) / 16

/-! ## Buffers (R123) -/

/-- Decodes an entry of Table 4.7. -/
def Buf.decode (b : Bytes) : Buf :=
  let w := leAt b 0 8
  { space := bits w 63 60, write := bit w 59, read := bit w 58, cluster := bits w 57 53, core := bits w 52 49, valid := bit w 48,
    base := bits w 47 0, size := bits (leAt b 8 8) 39 0 }

def Job.buf (x : Job) (i : Nat) : Buf := x.bufs.getD i {}

/-- Is the domain of a buffer on (R25)? -/
def Device.bufOn (s : Device) (b : Buf) : Bool := if b.space ≤ 1 then s.domainOn (clusterDomain b.cluster) else s.domainOn 3

/-- Bytes of a buffer. -/
def Device.bufGet (s : Device) (b : Buf) (o n : Nat) : Bytes :=
  match b.space with
  | 0 => s.cmGet (coreNo b.cluster b.core) (b.base + o) n
  | 1 => s.clmGet b.cluster (b.base + o) n
  | 2 => s.cachedGet (b.base + o) n
  | _ => s.hbmGet (b.base + o) n

/-- The caches and counters of an access to a buffer. -/
def Device.bufTouch (s : Device) (b : Buf) (o n : Nat) (write : Bool) : Device :=
  match b.space with
  | 2 => if n = 0 then s else s.cacheTouch (b.base + o) n write
  | 3 => if n = 0 then s
    else
      let s : Device := s.bump (O.uncachedAccesses (s.homeDie (b.base + o)))
      if write then s.dirtyHit (b.base + o) n else s
  | _ => s

/-- Writes bytes of a buffer. -/
def Device.bufPut (s : Device) (b : Buf) (o : Nat) (d : Bytes) : Device :=
  match b.space with
  | 0 => s.cmPut (coreNo b.cluster b.core) (b.base + o) d
  | 1 => s.clmPut b.cluster (b.base + o) d
  | 2 => if d.isEmpty then s else ((s.doomRange (b.base + o) d.length none).hbmPut (b.base + o) d).clearLost (b.base + o) d.length
  | _ => (s.hbmPut (b.base + o) d).clearLost (b.base + o) d.length

/-- Does a buffer access meet a dead pseudo-channel or a lost line? -/
def Device.bufBlocked (s : Device) (b : Buf) (o n : Nat) (write : Bool) : Bool :=
  2 ≤ b.space && n != 0 && s.hbmBlocked (b.base + o) n write

/-- Must a buffer access wait for a lock (Table 10.3)? -/
def Device.bufWaits (s : Device) (b : Buf) (o n : Nat) (write : Bool) : Bool :=
  2 ≤ b.space && n != 0 && s.mustWait (b.base + o) (if write then .write (List.replicate n 0) else .read n) none

/-! ## Cores -/

def Device.core (s : Device) (n : Nat) : CoreSt := tgetD s.cores n {}
def Device.setCore (s : Device) (n : Nat) (c : CoreSt) : Device := { s with cores := tset s.cores n c {} }

/-- The job that occupies a core. -/
def Device.occupant (s : Device) (n : Nat) : Option Nat :=
  let o := s.num (O.coreOccupant (n / 16) (n % 16))
  if o < 32 then some o else none

def Device.setOccupant (s : Device) (n : Nat) (o : Option Nat) : Device :=
  s.setNum (O.coreOccupant (n / 16) (n % 16)) (o.getD 0xFF)

/-- Does a core's cluster run? -/
def Device.coreRuns (s : Device) (n : Nat) : Bool := s.works (clusterDomain (n / 16))

/-! ## Entries and steps (R199, R201, R389) -/

/-- The running entry of a step. -/
def StepRun.entry? (r : StepRun) (i : Nat) : Option EntryRun := r.running.find? fun e => e.idx == i

/-- Changes a running entry. -/
def Device.modEntry (s : Device) (j i : Nat) (f : EntryRun → EntryRun) : Device :=
  s.modJob j fun x => match x.cur with
    | some r => { x with cur := some { r with running := r.running.map fun e => if e.idx == i then f e else e } }
    | none => x

/-- An entry's part ended with a status: the first failure is kept. -/
def Device.entryFail (s : Device) (j i : Nat) (st : Status) : Device :=
  s.modEntry j i fun e => { e with status := match e.status with
    | some x => some x
    | none => some st.code }

/-- A core of an entry has finished its list, or stopped. -/
def Device.entryCoreDone (s : Device) (j i n : Nat) : Device := s.modEntry j i fun e => { e with cores := e.cores.filter fun c => c != n }

/-- A job is told of a refused command of its control core: the lowest running entry that has no status gets it (log entry 31). -/
def Device.tellJob (s : Device) (j : Nat) (st : Status) : Device :=
  match s.job? j with
  | some x => match x.cur with
    | some r => match r.running.find? fun e => e.status.isNone with
      | some e => s.entryFail j e.idx st
      | none => s
    | none => s
  | none => s

/-- A core's list stopped with a status: of several cores the lowest (cluster, core) decides (R389). -/
def Device.entryCoreFail (s : Device) (j i n : Nat) (st : Status) : Device :=
  s.modEntry j i fun e => match e.status, e.failCore with
    | none, _ => { e with status := some st.code, failCore := some n }
    | some _, some m => if n < m then { e with status := some st.code, failCore := some n } else e
    | some _, none => e

/-- A job is told of a refused or failed command on a core (R102): the entry the core runs ends with that status. A list that no entry
started counts as the control core's. -/
def Device.tellCore (s : Device) (n : Nat) (st : Status) : Device :=
  match s.occupant n, (s.core n).entry with
  | some j, some i => (s.entryCoreFail j i n st).entryCoreDone j i n
  | some j, none => s.tellJob j st
  | _, _ => s

/-- The update units stop working for a job (R396, R398): open transactions end, and nothing more of its entries is done. -/
def Device.updDrop (s : Device) (j : Nat) : Device :=
  s.work.upd.foldl (fun (s : Device) (p : Nat × List UpdRun) =>
    let mine := p.2.filter fun u => u.job == j
    if mine.isEmpty then s
    else
      let s : Device := mine.foldl (fun (s : Device) u => match u.txn with
        | some key => match tget? s.mem.txns key with
          | some t => s.abortTxn key t 10
          | none => s
        | none => s) s
      let left := p.2.filter fun u => u.job != j
      let s : Device := { s with work := { s.work with upd := tset s.work.upd p.1 left [] } }
      if left.isEmpty then s.setNum (O.updateUnitState p.1) 0 else s) s

/-- The step record (7.00.104). -/
def stepRecord (t st entry tag ns : Nat) : Bytes :=
  beBytes 4 t ++ beBytes 1 st ++ beBytes 3 0 ++ beBytes 4 entry ++ beBytes 4 0 ++ beBytes 8 tag ++ beBytes 8 ns

/-- A job's clocks stop: its slice and its watchdog count only time in RUNNING (R385, R398). -/
def Job.pause (x : Job) (now : Nat) : Job :=
  match x.runSince with
  | some t => { x with sliceUsed := x.sliceUsed + (now - t), dogUsed := x.dogUsed + (now - t), runSince := none }
  | none => x

/-- A step ends (R389, R413): the record, the completion to the queue that submitted it or cause bit 5, the counters; with a status
other than OK the job is STOPPED. -/
def Device.stepEnd (s : Device) (j : Nat) (st : Status) (entry : Nat) : Device :=
  match s.job? j with
  | none => s
  | some x => match x.cur with
    | none => s
    | some r =>
      let ns := 40 * (s.uptime - r.startAt)
      let s : Device := s.setBytes (O.stepRecord j) (stepRecord r.t st.code entry (leAt r.desc 40 8) ns)
      let s : Device := match r.fromQueue with
        | some q =>
          let h := s.hq (q / 0x100000000)
          s.setHq (q / 0x100000000) { h with posting := h.posting ++
            [({ id := q % 0x100000000, status := st, detail := entry, result := r.t, event := true } : Compl)] }
        | none => s.setCause 5
      let s : Device := if st = .ok then s.bump (O.stepsCompleted j) else (s.setNum (O.lastFailedEntry j) entry).updDrop j
      let s : Device := s.modJob j fun x => { x.pause s.uptime with cur := none, failedT := if st = .ok then x.failedT else some r.t }
      let s : Device := { s with net := { s.net with plans := s.net.plans.map fun p => if p.job == j then { p with entry := none } else p } }
      let s : Device := { s with power := { s.power with autoSince := s.uptime } }
      s.setNum (O.jobState j) (if st = .frozen then jsFrozen else if st = .ok then jsReady else jsStopped)

/-! ## Run times (R395) -/

/-- Counts the run time of a command of a job that ends. -/
def Device.noteJob (s : Device) (j start : Nat) : Device :=
  let ns := 40 * (s.uptime - start)
  let s : Device := if 50000 < ns then s.bump (O.longCommands j) else s
  if s.num (O.longestCommandNs j) < ns then s.setNum (O.longestCommandNs j) (min ns 0xFFFFFFFF) else s

/-- Counts the run time of a command of a core that ends. -/
def Device.noteRun (s : Device) (n start : Nat) : Device :=
  match s.occupant n with
  | some j => s.noteJob j start
  | none => s

/-- The state objects of a core's DMA channels follow from the channels, but for those of frozen ones (R126, R127). -/
def Device.dmaView (s : Device) (n : Nat) : Device :=
  (List.range 4).foldl (fun (s : Device) j =>
    let o := O.dmaState (n / 16) (4 * (n % 16) + j)
    let d := tgetD (s.core n).dma j {}
    if s.num o = 3 then s else s.setNum o (if d.active.isSome then 1 else if d.halted then 2 else 0)) s

/-! ## Halting a core (R102, R146) -/

/-- The sequencer of a core stops on a refusal or an error. -/
def Device.stopCore (s : Device) (n : Nat) (st : Status) : Device :=
  let s : Device := s.setCore n { s.core n with seq := .stopped }
  (s.setNum (O.coreState (n / 16) (n % 16)) 3).tellCore n st

end Sys2Proof.Machine
end

