-- ==== Sys2Proof/Machine/Symbols.lean ====
section
/-! DEFINITION. The symbol code of a line (R273 to R276): decoding, and what an error met in HBM or in a cache array does. -/

namespace Sys2Proof.Machine

/-! ## The symbol code (R273, R274) -/

/-- Twice an element of GF(16). -/
def gdbl (a : Nat) : Nat := if 8 ≤ a then (2 * a) ^^^ 0x13 else 2 * a

/-- The product in GF(16) with the polynomial x^4 + x + 1. -/
def gmul (a b : Nat) : Nat := (List.range 4).foldl (fun r i => if bit b (3 - i) then gdbl r ^^^ a else gdbl r) 0

/-- The inverse, a^14. -/
def ginv (a : Nat) : Nat :=
  let a2 := gmul a a
  let a4 := gmul a2 a2
  gmul (gmul a2 a4) (gmul a4 a4)

/-- The quadric x^2 + x y + 8 y^2. -/
def gquad (x y : Nat) : Nat := gmul x x ^^^ gmul x y ^^^ gmul 8 (gmul y y)

/-- A column of the parity-check matrix: symbols 0 to 31 are data, 32 to 35 are checks 0 to 3. -/
def column (k : Nat) : Nat × Nat × Nat × Nat :=
  if k < 32 then (1, gquad (k % 16) (2 + k / 16), k % 16, 2 + k / 16)
  else if k = 32 then (1, 0, 0, 0)
  else if k = 33 then (0, 1, 0, 0)
  else if k = 34 then (1, 1, 1, 0)
  else (1, 8, 0, 1)

/-- A multiple of a column. -/
def colMul (v : Nat) (c : Nat × Nat × Nat × Nat) : Nat × Nat × Nat × Nat := (gmul v c.1, gmul v c.2.1, gmul v c.2.2.1, gmul v c.2.2.2)

/-- The sum of two columns. -/
def colAdd (a b : Nat × Nat × Nat × Nat) : Nat × Nat × Nat × Nat :=
  (a.1 ^^^ b.1, a.2.1 ^^^ b.2.1, a.2.2.1 ^^^ b.2.2.1, a.2.2.2 ^^^ b.2.2.2)

/-- The syndrome of an error pattern: symbol and value of each wrong symbol. The code is linear, so the data plays no part. -/
def syndrome (e : List (Nat × Nat)) : Nat × Nat × Nat × Nat := e.foldl (fun a p => colAdd a (colMul p.2 (column p.1))) (0, 0, 0, 0)

/-- The check bits of a 128-bit value (R274). -/
def checkBits (d : Nat) : Nat :=
  let v := syndrome ((List.range 32).map fun k => (k, bits d (4 * k + 3) (4 * k)))
  (v.1 ^^^ v.2.2.1 ^^^ v.2.2.2) + 16 * (v.2.1 ^^^ v.2.2.1 ^^^ gmul 8 v.2.2.2) + 256 * v.2.2.1 + 4096 * v.2.2.2

/-- What decoding finds: nothing, a symbol to correct by a value, or an uncorrected codeword. -/
inductive Decoding where
  | accept | correct (sym val : Nat) | uncorrected
deriving DecidableEq, Repr

/-- The symbol whose column is (1, f, x, y). -/
def symbolAt (x y : Nat) : Option Nat :=
  if y = 2 || y = 3 then some (16 * (y - 2) + x)
  else if x = 0 && y = 0 then some 32
  else if x = 1 && y = 0 then some 34
  else if x = 0 && y = 1 then some 35
  else none

/-- Decoding by the syndrome (R274). -/
def decodeSyndrome (s : Nat × Nat × Nat × Nat) : Decoding :=
  if s == (0, 0, 0, 0) then .accept
  else if s.1 ≠ 0 then
    let x := gmul s.2.2.1 (ginv s.1)
    let y := gmul s.2.2.2 (ginv s.1)
    if gmul s.2.1 (ginv s.1) == gquad x y then
      match symbolAt x y with
      | some k => .correct k s.1
      | none => .uncorrected
    else .uncorrected
  else if s.2.2.1 = 0 && s.2.2.2 = 0 then .correct 33 s.2.1
  else .uncorrected

/-- The error pattern as numbers. -/
def SymErr.pattern (e : SymErr) : List (Nat × Nat) := e.errs.map fun p => (p.1.val, p.2.toNat)

/-- The data bits in which the decoded codeword differs from the stored one. -/
def SymErr.residue (e : SymErr) : Nat :=
  let fix := match decodeSyndrome (syndrome e.pattern) with
    | .correct k v => [(k, v)]
    | _ => []
  ((e.pattern ++ fix).filter fun p => decide (p.1 < 32)).foldl (fun a p => a ^^^ p.2 * 2 ^ (4 * p.1)) 0

/-! ## Errors met in HBM, in a cache array (R276, R277) -/

/-- An error met at a granule of a pseudo-channel: counted there, reported, tested. -/
def Device.pcError (s : Device) (p u : Nat) (uncorrected : Bool) (m : Nat) : Device :=
  let k := p / 32
  let j := p % 32
  let s : Device := if uncorrected then s.bump (O.pcUncorrected k j) else s.bump (O.pcCorrected k j)
  let s : Device := s.setNum (O.pcLastErrorGranule k j) u
  s.event { cls := if uncorrected then 2 else 1, unit := 4, node := 0x60 + k, elem := j, master := m,
            status := if uncorrected then Status.code .uncorrected else 0, addr := u }

/-- Is a line present in its home cache? -/
def Device.cached (s : Device) (line : Nat) : Bool := (tgetD s.mem.cache (s.sliceKey line) []).any fun c => c.line == line

/-- What decoding one codeword does: the counters and events where it occurs, and, unless it is uncorrected, the line as decoded written
back (R276). A line found in the cache is decoded at its array. -/
def Device.symError (s : Device) (m : Nat) (e : SymErr) : Device :=
  let line := e.line.toNat
  let a := 128 * line + 16 * e.word.val
  let out := decodeSyndrome (syndrome e.pattern)
  let bad := out == Decoding.uncorrected
  let fix (s : Device) : Device :=
    if bad || e.residue = 0 then s else s.hbmPut a (leBytes 16 (leNat (s.hbmGet a 16) ^^^ e.residue))
  let s : Device := if bad then s.voidLine line else s
  if out == Decoding.accept then fix s
  else if s.cached line then
    let q := s.homeDie (128 * line)
    let s : Device := if bad then s else s.bump (O.cacheCorrected q)
    fix (s.event { cls := if bad then 2 else 1, unit := 6, node := 0x08 + q, elem := cacheSlice line, master := m,
                   status := if bad then Status.code .uncorrected else 0, addr := 128 * line })
  else
    let f := s.finalOf (128 * line)
    fix (s.pcError f.1 f.2 bad m)

/-- Does an error leave a codeword uncorrected? -/
def SymErr.bad (e : SymErr) : Bool := decodeSyndrome (syndrome e.pattern) == Decoding.uncorrected

/-- The errors of an access that lie in its lines. -/
def errsIn (a n : Nat) (l : List SymErr) : List SymErr := l.filter fun e => (linesOf a n).contains e.line.toNat

/-- The first byte of an error's codeword. -/
def SymErr.at_ (e : SymErr) : Nat := 128 * e.line.toNat + 16 * e.word.val

/-- The errors that a write meets (R272): those of the codewords that it covers in part, which it must read. -/
def errsPart (a n : Nat) (l : List SymErr) : List SymErr := (errsIn a n l).filter fun e =>
  decide (a < e.at_ + 16) && decide (e.at_ < a + n) && !(decide (a ≤ e.at_) && decide (e.at_ + 16 ≤ a + n))

/-- The errors that an operation meets. -/
def MemOp.meets (op : MemOp) (a : Nat) (l : List SymErr) : List SymErr := if op.plain then errsPart a op.len l else errsIn a op.len l

end Sys2Proof.Machine
end

