-- ==== Sys2Proof/Machine/Pages.lean ====
section
/-! DEFINITION. A unit's transaction that runs as part of one command (R189, R246, R260): its tracked reads and buffered writes, its attempts and retries;
and the metadata of a key-value pool in HBM (R186 to R188): header, lists, frame records and pins. -/

namespace Sys2Proof.Machine

/-! ## Computations inside an open transaction -/

/-- How an attempt stops: an access or its prepare must wait, or the transaction ends with a reason of Table 10.5. -/
inductive TxStop where
  | wait | abort (reason : Nat)
deriving DecidableEq, Repr

/-- The attempt: its slot, its issuer, and the symbol errors that its reads meet. -/
structure TxCtx where
  key : Nat
  m : Nat
  errs : List SymErr := []
deriving DecidableEq, Repr

/-- A computation inside an open transaction. -/
abbrev Tx (α : Type) := TxCtx → Device → Device × Except TxStop α

def Tx.ret {α : Type} (a : α) : Tx α := fun _ s => (s, .ok a)

def Tx.bind {α β : Type} (x : Tx α) (f : α → Tx β) : Tx β := fun c s =>
  match x c s with
  | (s, .ok a) => f a c s
  | (s, .error e) => (s, .error e)

/-- A step whose result is not used. -/
def Tx.andThen {α β : Type} (x : Tx α) (y : Tx β) : Tx β := x.bind fun _ => y

/-- Runs a computation for each element of a list, with a running result. -/
def Tx.forEach {α β : Type} (l : List α) (b : β) (f : β → α → Tx β) : Tx β := l.foldl (fun r a => r.bind fun b => f b a) (Tx.ret b)

/-- A tracked read (R245, R247, R259). -/
def txGet (a n : Nat) : Tx Bytes := fun c s =>
  match tget? s.mem.txns c.key with
  | none => (s, .error (.abort 10))
  | some t =>
    let lim := s.trackLimit t (linesOf a n)
    if (linesOf a n).any fun l => !s.lineInRegion l then (s, .error (.abort 12))
    else if lim ≠ 0 then (s, .error (.abort lim))
    else if s.mustWait a (.read n) (some c.key) || s.ownWaits c.m a n then (s, .error .wait)
    else
      let met := (errsIn a n c.errs).filter fun e => !t.tracked.contains e.line.toNat
      let s : Device := met.foldl (fun (s : Device) e => s.symError c.m e) s
      if met.any SymErr.bad || s.hbmBlocked a n false then (s, .error (.abort 8))
      else
        let r := s.trackedRead c.key t a n
        (r.2, .ok r.1)

/-- A buffered write (R244, R247). -/
def txPut (a : Nat) (b : Bytes) : Tx Unit := fun c s =>
  match tget? s.mem.txns c.key with
  | none => (s, .error (.abort 10))
  | some t =>
    let lines := linesOf a b.length
    let new := lines.filter fun l => !t.written.contains l
    if lines.any fun l => !s.lineInRegion l then (s, .error (.abort 12))
    else if 2048 < t.written.length + new.length then (s, .error (.abort 5))
    else
      let at_ := (List.range b.length).map fun i => a + i
      (s.setTxn c.key { t with written := t.written ++ new, buf := memSetN t.buf a b,
                               masks := t.masks ++ at_.filter fun i => !t.masks.contains i }, .ok ())

/-- A little-endian number read, and written. -/
def txLe (a n : Nat) : Tx Nat := (txGet a n).bind fun b => Tx.ret (leNat b)
def txPutLe (a n v : Nat) : Tx Unit := txPut a (leBytes n v)

/-- Is a COW of a master still copying? -/
def Device.copying (s : Device) (m : Nat) : Bool := s.work.cows.any fun r => r.master == m

/-! ## Attempts -/

/-- How an operation ends: refused as its OPEN was; nothing of it has happened yet; ended by the last attempt's reason; done. -/
inductive TxEnd (α : Type) where
  | refused (st : Status) (detail : Nat) | wait | ended (reason : Nat) | done (a : α)

/-- Aborts the transaction of a slot. -/
def Device.endKey (s : Device) (key reason : Nat) : Device :=
  match tget? s.mem.txns key with
  | some t => s.abortTxn key t reason
  | none => s

/-- One attempt: OPEN, the computation, COMMIT. With `lost`, a commit of another master aborts it before its own. -/
def Device.tryTx {α : Type} (s : Device) (m : Nat) (errs : List SymErr) (lost : Bool) (f : Tx α) : Device × TxEnd α :=
  match s.txnOpenOp m with
  | (a, none) => (a.s, .refused a.st a.detail)
  | (a, some key) => match f { key := key, m := m, errs := errs } a.s with
    | (_, .error .wait) => (s, .wait)
    | (d, .error (.abort r)) => (d.endKey key r, .ended r)
    | (d, .ok x) =>
      if lost then (d.endKey key 1, .ended 1)
      else match d.commitNow key with
        | none => (s, .wait)
        | some (0, d) => (d, .done x)
        | some (r, d) => (d, .ended r)

/-- Is an attempt's end retried at once (R189, R247): a conflict; for a control core also a refused OPEN and HOME_FULL? The answer says whether it counts as a
conflict. -/
def retries (m : Nat) : TxEnd α → Option Bool
  | .ended r => if 1 ≤ r ∧ r ≤ 4 then some true else if r = 7 ∧ masterClass m = 2 then some false else none
  | .refused .busy _ => if masterClass m = 2 then some false else none
  | _ => none

/-- An operation of a pool as one transaction, retried at once at most n times (R189); `lost` is the number of its attempts that commits of other masters
abort. -/
def Device.runTx {α : Type} (n : Nat) (s : Device) (p m lost : Nat) (errs : List SymErr) (f : Tx α) : Device × TxEnd α :=
  let r := s.tryTx m errs (decide (0 < lost)) f
  match n, retries m r.2 with
  | n + 1, some true => Device.runTx n (r.1.bump (O.opConflictRetries p)) p m (lost - 1) [] f
  | n + 1, some false => Device.runTx n r.1 p m lost [] f
  | _, _ => r

/-! ## The metadata of a pool in HBM: the layout of the header is the model's (log entry 25) -/

/-- The free list: its head, its last frame; the limbo list the same; the epoch; the pin slots; the frame records. -/
def Pool.freeHeadAt (x : Pool) : Nat := x.metaBase
def Pool.limboHeadAt (x : Pool) : Nat := x.metaBase + 8
def Pool.epochAt (x : Pool) : Nat := x.metaBase + 16
def Pool.freeTailAt (x : Pool) : Nat := x.metaBase + 24
def Pool.limboTailAt (x : Pool) : Nat := x.metaBase + 28
def Pool.pinAt (x : Pool) (c : Nat) : Nat := x.metaBase + 128 + 8 * c

/-- Bytes of metadata: header and frame records. -/
def Pool.metaBytes (x : Pool) : Nat := 4096 + 32 * x.frames

/-- Bytes of the prefix-tree table (R193). -/
def Pool.treeBytes (x : Pool) : Nat := 2 ^ x.treeLog2 * 8 * 288

/-- The end of a list (Table 7.6). -/
def listEnd : Nat := 0xFFFFFF

/-- A frame record (Table 7.6); state 0 FREE, 1 LIVE, 2 LIMBO. -/
structure FrameRec where
  count : Nat := 0
  st : Nat := 0
  next : Nat := 0xFFFFFF
  tag : Nat := 0
  node : Nat := 0xFFFFFFFF
deriving DecidableEq, Repr

def FrameRec.decode (b : Bytes) : FrameRec :=
  { count := bits (leAt b 0 8) 63 32, st := bits (leAt b 0 8) 31 30, next := bits (leAt b 0 8) 23 0, tag := leAt b 8 8, node := bits (leAt b 16 8) 63 32 }

def FrameRec.encode (r : FrameRec) : Bytes :=
  leBytes 8 (r.count % 2 ^ 32 * 2 ^ 32 + r.st % 4 * 2 ^ 30 + r.next % 2 ^ 24) ++ leBytes 8 r.tag ++ leBytes 8 (r.node % 2 ^ 32 * 2 ^ 32) ++ leBytes 8 0

/-- Does a prefix-tree node name the frame? -/
def FrameRec.inTree (r : FrameRec) : Bool := r.node != 0xFFFFFFFF

def txFrame (x : Pool) (f : Nat) : Tx FrameRec := (txGet (x.frameAt f) 32).bind fun b => Tx.ret (FrameRec.decode b)
def txSetFrame (x : Pool) (f : Nat) (r : FrameRec) : Tx Unit := txPut (x.frameAt f) r.encode

/-- A frame's record as it stands in memory. -/
def Device.frameRec (s : Device) (x : Pool) (f : Nat) : FrameRec := FrameRec.decode (s.hbmGet (x.frameAt f) 32)

/-- Appends a frame, whose record is given, to the list whose head and tail words are given. -/
def txAppend (x : Pool) (headAt tailAt f : Nat) (r : FrameRec) : Tx Unit :=
  (txSetFrame x f { r with next := listEnd }).andThen <| (txLe tailAt 4).bind fun t =>
    ((if t % 2 ^ 24 = listEnd then txPutLe headAt 4 f
      else (txFrame x t).bind fun old => txSetFrame x t { old with next := f }) : Tx Unit).andThen (txPutLe tailAt 4 f)

/-- Takes the head, whose record is given, off a list. -/
def txUnlink (headAt tailAt : Nat) (r : FrameRec) : Tx Unit :=
  (txPutLe headAt 4 r.next).andThen (if r.next = listEnd then txPutLe tailAt 4 listEnd else Tx.ret ())

/-- One reference of a frame less (R187, R188): a count that reaches 0 moves it to LIMBO under the present epoch, which goes on by 1. The result is the
number of frames moved. -/
def txUnref (x : Pool) (f : Nat) : Tx Nat :=
  (txFrame x f).bind fun r =>
    if 1 < r.count then (txSetFrame x f { r with count := r.count - 1 }).andThen (Tx.ret 0)
    else (txLe x.epochAt 8).bind fun e =>
      (txAppend x x.limboHeadAt x.limboTailAt f { r with count := 0, st := 2, tag := e }).andThen
        ((txPutLe x.epochAt 8 (e + 1)).andThen (Tx.ret 1))

/-- The pins that are not 0. -/
def txPins (x : Pool) : Tx (List Nat) := (txGet (x.pinAt 0) 256).bind fun b =>
  Tx.ret (((List.range 32).map fun c => leAt b (8 * c) 8).filter fun v => v != 0)

/-- Moves limbo frames at the head that every pin exceeds to the free list, in order (R188), at most n of them. The result is their number. -/
def txReap (n : Nat) (x : Pool) (pins : List Nat) : Tx Nat :=
  match n with
  | 0 => Tx.ret 0
  | n + 1 => (txLe x.limboHeadAt 4).bind fun h =>
    if h % 2 ^ 24 = listEnd then Tx.ret 0
    else (txFrame x h).bind fun r =>
      if pins.all fun v => decide (r.tag < v) then
        (txUnlink x.limboHeadAt x.limboTailAt r).andThen <|
          (txAppend x x.freeHeadAt x.freeTailAt h { r with st := 0 }).andThen <| (txReap n x pins).bind fun k => Tx.ret (k + 1)
      else Tx.ret 0

/-- The frames that one transaction moves from the limbo list: its write set bounds them (R247, log entry 25). -/
def reapMost : Nat := 1024

/-- Moves what may move, then takes the head of the free list: count 1, LIVE. The result is the frame, if there is one, and the number moved. -/
def txTake (x : Pool) : Tx (Option Nat × Nat) :=
  (txPins x).bind fun pins => (txReap reapMost x pins).bind fun k => (txLe x.freeHeadAt 4).bind fun g =>
    if g % 2 ^ 24 = listEnd then Tx.ret (none, k)
    else (txFrame x g).bind fun r => (txUnlink x.freeHeadAt x.freeTailAt r).andThen <|
      (txSetFrame x g { r with count := 1, st := 1, next := listEnd, node := 0xFFFFFFFF }).andThen (Tx.ret (some g, k))

/-- The frames of a pool that its counters show: FREE fewer or more, LIMBO fewer or more. -/
def Device.poolCounts (s : Device) (p taken freed limbo : Nat) : Device :=
  let s : Device := s.setNum (O.poolFreeFrames p) (s.num (O.poolFreeFrames p) + freed - taken)
  s.setNum (O.poolLimboFrames p) (s.num (O.poolLimboFrames p) + limbo - freed)

/-! ## Pins and the epoch (R188) -/

def Device.pool? (s : Device) (p : Nat) : Option Pool := tget? s.work.pools p

/-- The pin of a control core in a pool, and the epoch. -/
def Device.pin (s : Device) (c p : Nat) : Nat :=
  match s.pool? p with
  | some x => leNat (s.hbmGet (x.pinAt c) 8)
  | none => 0
def Device.epoch (s : Device) (p : Nat) : Nat :=
  match s.pool? p with
  | some x => leNat (s.hbmGet x.epochAt 8)
  | none => 1

/-- The smallest pin of a pool that is not 0; 0 where none is (D.00.027). -/
def Device.minPin (s : Device) (p : Nat) : Nat := (((List.range 32).map fun c => s.pin c p).filter fun v => v != 0).min?.getD 0

/-- The frames that the pins let go move to the free list, in a transaction of control core c; where it cannot run, they move later. -/
def Device.reap (s : Device) (c p : Nat) : Device :=
  match s.pool? p with
  | none => s
  | some x =>
    let h := leNat (s.hbmGet x.limboHeadAt 4) % 2 ^ 24
    let m := s.minPin p
    if h = listEnd || (m != 0 && decide (m ≤ (s.frameRec x h).tag)) then s
    else match s.tryTx (masterId 2 c) [] false ((txPins x).bind fun pins => txReap reapMost x pins) with
      | (d, .done k) => d.poolCounts p 0 k 0
      | _ => s

/-- A control core's pin in a pool is written 0, and limbo frames may move (R188). -/
def Device.unpin (s : Device) (c p : Nat) : Device :=
  match s.pool? p with
  | none => s
  | some x =>
    let w : MemOp := .write (leBytes 8 0)
    if s.pin c p = 0 then s
    else if s.mustWait (x.pinAt c) w none then s.wait (masterId 2 c) (x.pinAt c) w
    else ((s.perform (x.pinAt c) w).2.2).reap c p

/-- Must a pin be waited for: its line or the epoch's is locked by a commit (Table 10.3)? -/
def Device.pinWaits (s : Device) (x : Pool) (c : Nat) : Bool := s.mustWait (x.pinAt c) (.copy64 x.epochAt) none

/-- A control core pins a pool by an atomic copy of the epoch (R188). A pin that an earlier walk of it still holds there is older and stays (DEDUCED: a reader
that pinned before keeps its frames). -/
def Device.takePin (s : Device) (x : Pool) (c p : Nat) : Status × Device :=
  if s.pin c p ≠ 0 then (.ok, s)
  else
    let r := s.perform (x.pinAt c) (.copy64 x.epochAt)
    (r.1, r.2.2)

/-! ## Setting a pool up -/

/-- The order of the first free list (log entry 25): n frames, one after another from those not yet listed. -/
def grantList (frames : Nat) : Nat → List Nat → List Nat
  | 0, _ => []
  | n + 1, l => match l[Config.grantOrder frames n % l.length]? with
    | some f => f :: grantList frames n (l.filter fun x => x != f)
    | none => []

/-- The metadata of a pool granted anew: every frame FREE, both lists, epoch 1, no pin, an empty tree. -/
def Device.poolInit (s : Device) (x : Pool) : Device :=
  let l := grantList x.frames x.frames (List.range x.frames)
  let s : Device := s.hbmPut x.metaBase (List.replicate 4096 0)
  let s : Device := (l.zip (l.drop 1 ++ [listEnd])).foldl (fun (s : Device) p =>
    s.hbmPut (x.frameAt p.1) ({ next := p.2 } : FrameRec).encode) s
  let s : Device := (s.hbmPut x.freeHeadAt (leBytes 4 (l.headD listEnd))).hbmPut x.freeTailAt (leBytes 4 (l.getLastD listEnd))
  let s : Device := (s.hbmPut x.limboHeadAt (leBytes 4 listEnd)).hbmPut x.limboTailAt (leBytes 4 listEnd)
  (s.hbmPut x.epochAt (leBytes 8 1)).hbmPut x.treeBase (List.replicate x.treeBytes 0)

end Sys2Proof.Machine
end

