-- ==== Sys2Proof/Machine/Freeze.lean ====
section
/-! DEFINITION. Freezing and thawing a master (R475, R476, Table 20.4, R396), and the access violation of R11. -/

namespace Sys2Proof.Machine

/-- A plan's step ends with a status other than OK: the first is kept (R335). -/
def Device.planFail (s : Device) (id : Nat) (st : Status) : Device :=
  { s with net := { s.net with plans := s.net.plans.map fun p => if p.id == id && p.status == 0 then { p with status := st.code } else p } }

/-- A peer context, and its configuration (Table 13.5, big-endian). -/
def Device.ctx (s : Device) (n : Nat) : Ctx := tgetD s.net.ctxs n {}
def Device.setCtx (s : Device) (n : Nat) (c : Ctx) : Device := { s with net := { s.net with ctxs := tset s.net.ctxs n c {} } }
def Device.ctxCfg (s : Device) (n off len : Nat) : Nat := beAt (s.bytes (O.ctxConfig n)) off len

/-- The port a context is bound to, by its first lane. -/
def Device.ctxPort (s : Device) (n : Nat) : Nat := s.ctxCfg n 0 2

/-- A port, by its first lane. -/
def Device.port (s : Device) (l : Nat) : Port := tgetD s.net.ports l {}
def Device.setPort (s : Device) (l : Nat) (p : Port) : Device := { s with net := { s.net with ports := tset s.net.ports l p {} } }

/-- The operations outstanding on a context end with a status (R322, R327, R332, R338): its plan fails and its waiting packets go. Packets
sent stay until they are acknowledged late (R485) or the context closes. -/
def Device.ctxDrop (s : Device) (n : Nat) (st : Status) : Device :=
  let c := s.ctx n
  let s : Device := match c.plan with
    | some id => s.planFail id st
    | none => s
  s.setCtx n { c with queue := [], plan := none, ackDue := none }

/-- A context enters CLOSED (R323): its send channel and the buffers it holds are given back. -/
def Device.ctxClosed (s : Device) (n : Nat) : Device :=
  let c := s.ctx n
  let q := s.ctxPort n / 24
  let s : Device := match c.pool with
    | some ch => (s.poolRelease q ch (s.chHeld q ch)).poolClose q ch
    | none => s
  let s : Device := s.poolRelease q (s.port (s.ctxPort n)).pool ((c.rx.map fun r => r.bufs).sum)
  (s.setCtx n { gen := c.gen, consumed := c.consumed, msgNo := c.msgNo, closedAt := some s.uptime }).setNum (O.ctxState n) 0

/-! ## Streams that end (R358, R374) -/

/-- An engine of a media complex, and a change of it with its counts and state (R365, Table 15.7). -/
def Device.engine (s : Device) (m e : Nat) : Engine := tgetD s.net.engines (32 * m + e) {}
def Device.setEngine (s : Device) (m e : Nat) (x : Engine) : Device :=
  let s : Device := match (s.engine m e).now with
    | some j => if x.now = some j then s
      else { s.bump (O.engineBusyNs m e) (40 * (s.uptime - j.start)) with power := { s.power with autoSince := s.uptime } }
    | none => s
  ({ s with net := { s.net with engines := tset s.net.engines (32 * m + e) x {} } } : Device).setNum (O.engineState m e)
    (match x.now with | some j => (if j.live then 2 else 1) | none => 0)

/-- A stream's work leaves the engines. -/
def Device.dropEngines (s : Device) (k : Nat) : Device :=
  (List.range 18).foldl (fun (s : Device) e =>
    let x := s.engine (k / 64) e
    let keep (j : Option EngineJob) : Option EngineJob := j.filter fun j => j.stream != k
    s.setEngine (k / 64) e { now := keep x.now, aside := keep x.aside }) s

/-- Handoffs to a channel that still wait are given up: their buffers return to the pool (R302). -/
def Device.cancelHandoffs (s : Device) (q b : Nat) : Device :=
  (s.channels q).foldl (fun (s : Device) a =>
    let c := s.poolCh q a
    let n := (c.handoffs.filter fun x => x == b).length
    if n = 0 then s else (s.setPoolCh q a { c with handoffs := c.handoffs.filter fun x => x != b }).poolRelease q a n) s

/-- A sample stream is CLOSED: engines, buffers, channel, context binding and number are free. -/
def Device.streamGone (s : Device) (k : Nat) : Device :=
  match tget? s.net.streams k with
  | none => s
  | some t =>
    let q := k / 64
    let s : Device := (s.dropEngines k).cancelHandoffs q t.pool
    let s : Device := (s.poolRelease q t.pool (s.chHeld q t.pool)).poolClose q t.pool
    let s : Device := { s with net := { s.net with streams := tdel s.net.streams k } }
    (s.release (O.streamControl q (k % 64))).setNum (O.streamState q (k % 64)) 0

/-- An encode stream is CLOSED. -/
def Device.encGone (s : Device) (k : Nat) : Device :=
  match tget? s.net.encs k with
  | none => s
  | some _ =>
    let s : Device := s.dropEngines k
    let s : Device := { s with net := { s.net with encs := tdel s.net.encs k } }
    (s.release (O.encodeControl (k / 64) (k % 64))).setNum (O.encodeState (k / 64) (k % 64)) 0

/-! ## Cluster units and gates -/

/-- Window, Cameo and waiting port commands of a job are gone; an idle unit shows it. -/
def Device.dropUnitCmds (s : Device) (j : Nat) : Device :=
  s.clusters.foldl (fun (s : Device) (p : Nat × ClusterSt) =>
    let u := p.2
    let v : ClusterSt := { u with winQ := u.winQ.filter fun w => w.job != j, camQ := u.camQ.filter fun w => w.job != j,
                                  port := u.port.filter fun w => w.job != j }
    let v : ClusterSt := { v with winAt := if v.winQ.head? == u.winQ.head? then u.winAt else s.uptime,
                                  camAt := if v.camQ.head? == u.camQ.head? then u.camAt else s.uptime }
    let s : Device := { s with clusters := tset s.clusters p.1 v {} }
    let s : Device := if !u.winQ.isEmpty && v.winQ.isEmpty then s.setNum (O.windowState p.1) 0 else s
    if !u.camQ.isEmpty && v.camQ.isEmpty then s.setNum (O.cameoState p.1) 0 else s) s

/-- Entries of a core's gate queue end without a start. The cycles for which the head waited only for its conditions are counted (R171); the spec
gives the model no number for them: they are free values (log entry 140). -/
def Device.endGates (s : Device) (n : Nat) (gone : Gate → Bool) : Device :=
  let x := s.core n
  let s : Device := match x.gates.head? with
    | some g =>
      if gone g && x.seq == SeqState.idle then
        (g.conds.zip (List.range g.conds.length)).foldl (fun (s : Device) (q : (Nat × Nat × Bool) × Nat) =>
          ({ s with freeCtr := s.freeCtr + 1 } : Device).bump (O.haloWaitCycles (n / 16) q.1.1) (Config.fresh s.freeCtr).toNat) s
      else s
    | none => s
  s.setCore n { s.core n with gates := x.gates.filter fun g => !gone g }

/-- The cores of a frozen job stop and are saved in full and released (R396 steps 1 and 3); cores on their way to it stay free. -/
def Device.freezeCores (s : Device) (j : Nat) (x : Job) : Device :=
  let hands := s.work.hands.filterMap fun (h : Nat × Hand) =>
    if h.2.into != some j then some h else if h.2.out.isNone then none else some (h.1, { h.2 with into := none })
  let s : Device := { s with work := { s.work with hands := hands } }
  (x.cores.filter fun n => s.occupant n == some j).foldl (fun (s : Device) n =>
    let c := s.core n
    let held (i : Nat) : Bool := s.num (O.dmaState (n / 16) (4 * (n % 16) + i)) == 3
    let dma := c.dma.map fun (d : Nat × DmaCh) => (d.1, if held d.1 then { d.2 with active := none } else { d.2 with queue := [], active := none })
    let s : Device := s.setCore n { c with seq := .idle, arrayQ := [], vq := [], vrun := none, vstop := false, entry := none, item := none, dma := dma }
    let s : Device := (s.dmaView n).setNum (O.coreState (n / 16) (n % 16)) 4
    let s : Device := s.setNum (O.vectorState (n / 16) (n % 16)) 4
    let h : Hand := { out := some j, into := (tget? s.work.hands n).bind fun (h : Hand) => h.into, stage := .saving, since := s.uptime, forced := true }
    { s with work := { s.work with hands := tput s.work.hands n h } }) s

/-- The entry that a step ended before its time names: the one that stopped it, one that ended with a status, or else the lowest still running
(R201, R206). -/
def StepRun.failed (r : StepRun) : Nat :=
  match r.stop, r.running.find? fun e => e.status.isSome with
  | some (_, i), _ => i
  | none, some e => e.idx
  | none, none => (r.running.map fun e => e.idx).min?.getD 0xFFFFFFFF

/-- The job core group of a slot is frozen (R396): its step ends with E_FROZEN, its cores are saved and released, the job is FROZEN. -/
def Device.freezeJob (s : Device) (j : Nat) : Device :=
  match s.job? j with
  | none => s
  | some x =>
    if !s.resident j then s
    else
      let s : Device := match x.cur with
        | some r => s.stepEnd j .frozen r.failed
        | none => s
      let s : Device := (s.freezeCores j x).dropUnitCmds j
      s.setNum (O.jobState j) jsFrozen

/-- What freezing does to the master itself, by class (Table 20.4). -/
def Device.freezeClass (s : Device) (m : Nat) : Device :=
  let i := masterIndex m
  match masterClass m with
  | 0 => (s.setNum (O.queueState i) 4).setCause 3
  | 1 => s.freezeJob i
  | 3 => s.setNum (O.dmaState (i / 64) (i % 64)) 3
  | 4 => (s.setNum (O.ctxState i) 4).ctxDrop i .frozen
  | 6 => if (tget? s.net.encs i).isSome then (s.setNum (O.encodeState (i / 64) (i % 64)) 3).dropEngines i
         else if (tget? s.net.streams i).isSome then (s.setNum (O.streamState (i / 64) (i % 64)) 3).dropEngines i else s
  | 7 =>
    let runs := tgetD s.work.upd i []
    let s : Device := runs.foldl (fun (s : Device) u =>
      (s.entryFail u.job u.entry .frozen).modEntry u.job u.entry fun e => { e with units := e.units.filter fun x => x != i }) s
    if runs.isEmpty then s else ({ s with work := { s.work with upd := tdel s.work.upd i } } : Device).setNum (O.updateUnitState i) 3
  | _ => s

/-- Freezes one master (R475): record and row, its open transaction, its class's effect. -/
def Device.freezeOne (s : Device) (m cause : Nat) : Device :=
  if s.isFrozen m || masterClass m == 5 || masterClass m == 8 || masterClass m == 15 then s
  else
    let s : Device := s.addFrozen m cause
    let s : Device := s.abortMaster m 11
    s.freezeClass m

/-- Freezes a master; with a control core, every resident job that has a core in its cluster (Table 20.4). -/
def Device.freezeMaster (s : Device) (m cause : Nat) : Device :=
  if s.isFrozen m then s
  else
    let s : Device := s.freezeOne m cause
    if masterClass m == 2 then
      (List.range 32).foldl (fun (s : Device) j => match s.job? j with
        | some x => if s.resident j && x.cores.any (fun n => n / 16 == masterIndex m) then s.freezeOne (masterId 1 j) cause else s
        | none => s) s
    else s

/-- An access violation (R11, R470): the class 5 record names the failing check of the rule, and the master is frozen; the device
manager's own violation is uncorrected-fatal (R474). -/
def Device.violation (s : Device) (m check : Nat) (addr : Nat := 0) (unit : Nat := 0) (node : Nat := 0) (elem : Nat := 0) : Device :=
  if m = managerId then s.managerViolation
  else
    let s : Device := s.event { cls := 5, unit := unit, node := node, elem := elem, master := m, status := Status.code .access, addr := addr,
                                cause := check }
    s.freezeMaster m s.errs.seq

/-- A violation by the job core group of a core's occupant, in a unit of the core: the entry that the core runs has failed (R102, R146, R201). -/
def Device.coreViolation (s : Device) (n check unit : Nat) : Device :=
  match s.occupant n with
  | some j => (s.tellCore n .access).violation (masterId 1 j) check 0 unit (0x40 + n / 16) (n % 16)
  | none => s

/-- A violation by the job core group at an entry of the schedule: the entry has failed (R201). -/
def Device.entryViolation (s : Device) (j i check : Nat) : Device := (s.entryFail j i .access).violation (masterId 1 j) check

/-! ## Thaw (R476, Table 20.4) -/

/-- The state each class returns to. -/
def Device.thawClass (s : Device) (m : Nat) : Device :=
  let i := masterIndex m
  match masterClass m with
  | 0 => s.setNum (O.queueState i) 0 |>.setBool (O.queueEnable i) false
  | 1 => if s.jobCode i = jsFrozen then s.setNum (O.jobState i) jsStopped else s
  | 2 =>
    let s : Device := (List.range 8).foldl (fun (s : Device) p => s.unpin i p) s
    let s : Device := { s with work := { s.work with walks := tdel s.work.walks i } }
    let s : Device := match tget? s.clusters i with
      | some u => { s with clusters := tset s.clusters i { u with port := [] } {} }
      | none => s
    (List.range 16).foldl (fun (s : Device) k => s.endGates (coreNo i k) fun _ => true) s
  | 3 =>
    let n := coreNo (i / 64) (i % 64 / 4)
    let c := s.core n
    (s.setCore n { c with dma := tdel c.dma (i % 4) }).setNum (O.dmaState (i / 64) (i % 64)) 0
  | 4 => s.ctxClosed i
  | 6 => (s.streamGone i).encGone i
  | 7 => s.setNum (O.updateUnitState i) 0
  | _ => s

/-- A thaw: the class 10 record and the row, and the class's state after it. -/
def Device.thaw (s : Device) (m : Nat) : Ans :=
  if !masterExists m || masterClass m == 5 || masterClass m == 8 || masterClass m == 15 then s.deny .range O.masterThaw
  else if !s.isFrozen m then s.deny .state O.masterThaw
  else (((s.delFrozen m).thawClass m).setNum O.masterThaw m).okay

/-- MASTER_THAW (row 287): a write of a master id to A.00.030. -/
def execMasterThaw (m : BitVec 16) (s : State) : Outc := s.run fun (s : Device) =>
  s.ownWrite (O.masterThaw) fun s => (s.thaw m.toNat).measured O.masterThaw (beBytes 2 m.toNat)

end Sys2Proof.Machine
end

