-- ==== Sys2Proof/Machine/HbmAccess.lean ====
section
/-! DEFINITION. Accesses to HBM (rows 88, 89, 99 to 107): the checks every access meets (R25, R242, R250, R269, R281), cached and uncached accesses (R278 to R280),
atomics (R281, R282), and the tracked accesses of Clasp (R244, R245). -/

namespace Sys2Proof.Machine

/-! ## The write buffer of a slot -/

/-- Errors met in the write buffer of a slot as a COMMIT reads it (R240, R259, R276): a correction is counted at the coordinator's die; an uncorrected one
aborts the transaction. The answer says whether one was uncorrected. -/
def Device.bufferErrors (s : Device) (m slot : Nat) (errs : List SymErr) : Bool × Device :=
  match s.txnGate m slot with
  | .inl _ => (false, s)
  | .inr (key, t) =>
    let met := errs.filter fun e => t.written.contains e.line.toNat
    let q := key / 64
    (met.any SymErr.bad, met.foldl (fun (s : Device) e =>
      if decodeSyndrome (syndrome e.pattern) == Decoding.accept then s
      else
        let s : Device := if e.bad then s else s.bump (O.cacheCorrected q)
        s.event { cls := if e.bad then 2 else 1, node := 0x08 + q, master := m, status := if e.bad then Status.code .uncorrected else 0,
                  addr := 128 * e.line.toNat }) s)

/-- COMMIT with the errors its write buffer shows (R251, R259): the answer, and whether it is given now. -/
def Device.txnCommitMet (s : Device) (m slot : Nat) (errs : List SymErr) : Ans × Bool :=
  match s.bufferErrors m slot errs with
  | (false, s) => s.txnCommitOp m slot
  | (true, s) => match s.txnGate m slot with
    | .inl r => (r, true)
    | .inr (key, t) => (s.failTxn key t 8, true)

/-! ## The checks of an access -/

/-- The failing check of R269: 1, no segment; 2, the extent leaves its segment. -/
def Device.mapCheck (s : Device) (a n : Nat) : Nat :=
  match s.segOf a with
  | none => 1
  | some g => if a + n ≤ g.base + g.bytes then 0 else 2

/-- A violation of the map: counted at the die that checks, and the master is frozen (R11, R269). -/
def Device.mapViolation (s : Device) (m check a : Nat) : Device := (s.bump (O.mapViolations (s.dieOfMaster m))).violation m check a

/-- Does the issuer's own open transaction hold a line in its write set (R250)? -/
def Device.ownWritten (s : Device) (m a n : Nat) : Bool :=
  (s.txnsOf m).any fun t => (linesOf a n).any fun l => t.2.written.contains l

/-- Does a write touch what conservation protects (R309): a frame record, or the list heads or the epoch of a pool header? The pool, if so. -/
def Device.protectedBy (s : Device) (a n : Nat) : Option Nat :=
  (s.work.pools.find? fun (p : Nat × Pool) =>
    (decide (a < p.2.metaBase + 32) && decide (p.2.metaBase < a + n)) ||
    (decide (a < p.2.frameAt p.2.frames) && decide (p.2.frameAt 0 < a + n))).map fun p => p.1

/-- Is a master a program's or the driver's, as opposed to a unit of the device (R309)? -/
def programMaster (m : Nat) : Bool := masterClass m ≤ 3

/-- A plain cached write or an atomic to a protected line detaches the pool's frame ledger (R309, R310). -/
def Device.outsideWrite (s : Device) (m a n : Nat) : Device :=
  if !programMaster m then s
  else match s.protectedBy a n with
    | some p =>
      let f := match tget? s.work.pools p with
        | some x => x.frames
        | none => 0
      s.ledgerFault (ledgerId 7 p) 5 f f
    | none => s

/-- The answer of an access. -/
def Device.answer (s : Device) (m : Nat) (st : Status) (b : Bytes) : Device := s.emit (.data m st b)

/-- Does an operation return a value (Table 11.7)? -/
def MemOp.returns : MemOp → Bool
  | .read _ => true
  | .fetchAdd _ _ => true
  | .cas _ _ _ => true
  | .copy64 _ => true
  | _ => false

/-- A write into a domain that is off is dropped and logged with its master (R25, log entry 12). -/
def Device.dropped (s : Device) (m : Nat) : Device := s.event { cls := 4, master := m, status := Status.code .domainOff }

/-- An access to the domain while it is off (R25, log entry 12): a write is dropped and logged with its master, a read returns E_DOMAIN_OFF. DEDUCED: an
atomic that returns a value is both; it is dropped and logged, and answered E_DOMAIN_OFF. -/
def Device.offAccess (s : Device) (m : Nat) (op : MemOp) : Device :=
  let s : Device := if op.writes then s.dropped m else s
  if op.returns then s.answer m .domainOff [] else s

/-- A cached access or an atomic of a master (R242, R250, R253, R269, R278, R281). -/
def Device.access (s : Device) (m a : Nat) (op : MemOp) (errs : List SymErr) : Device :=
  let n := op.len
  if !masterExists m || s.isFrozen m then s
  else if !s.domainOn 3 then s.offAccess m op
  else if !s.runs 3 then s
  else if s.atomicBad a op then s.answer m .range []
  else if s.mapCheck a n ≠ 0 then s.mapViolation m (s.mapCheck a n) a
  else if (match op with | .copy64 src => s.mapCheck src 8 != 0 | _ => false) then s.mapViolation m 1 a
  else if op.atomic && s.ownWritten m a n then s.answer m .state []
  else if s.mustWait a op none || s.ownWaits m a n then s.wait m a op
  else
    let met := op.meets a errs
    let s : Device := met.foldl (fun (s : Device) e => s.symError m e) s
    if met.any SymErr.bad then s.answer m .uncorrected []
    else
      let r := s.perform a op
      let s : Device := if op.writes && r.1 = .ok then r.2.2.outsideWrite m a n else r.2.2
      s.answer m r.1 r.2.1

/-! ## Commands -/

/-- CACHED_READ (row 99): the symbol errors that decoding meets are operands. -/
def execCachedRead (m : BitVec 16) (a : BitVec 40) (n : BitVec 16) (errs : List SymErr) (s : State) : Outc := s.run fun (s : Device) =>
  (s.access m.toNat a.toNat (.read n.toNat) errs)

/-- CACHED_WRITE (row 100): a write of part of a codeword is a read-modify-write and meets the errors of that codeword (R272, R277). -/
def execCachedWrite (m : BitVec 16) (a : BitVec 40) (data : Bytes) (errs : List SymErr) (s : State) : Outc := s.run fun (s : Device) =>
  (s.access m.toNat a.toNat (.write data) errs)

/-- UNCACHED_ACCESS (row 101): a read of n bytes, or a write of the bytes given. The whole extent is checked against the region table
before any byte moves (R242, R279). -/
def execUncachedAccess (m : BitVec 16) (a : BitVec 40) (n : BitVec 16) (write : Option Bytes) (errs : List SymErr) (s : State) : Outc :=
  s.run fun (s : Device) =>
  let m := m.toNat
  let a := a.toNat
  let len := match write with
    | some d => d.length
    | none => n.toNat
  (if !masterExists m || s.isFrozen m then s
   else if !s.domainOn 3 then s.offAccess m (match write with | some d => .write d | none => .read len)
   else if !s.runs 3 then s
   else if s.mapCheck a len ≠ 0 then s.mapViolation m (s.mapCheck a len) a
   else if s.inRegion a len then (s.bump (O.txnUncachedViolations (s.homeDie a))).violation m 0 a
   else
     let met := if write.isSome then errsPart a len errs else errsIn a len errs
     let s : Device := met.foldl (fun (s : Device) e => s.symError m e) s
     let s : Device := s.bump (O.uncachedAccesses (s.homeDie a))
     if s.hbmBlocked a len write.isSome || met.any SymErr.bad then s.answer m .uncorrected []
     else match write with
       | some d => (((s.hbmPut a d).clearLost a len).dirtyHit a len).answer m .ok []
       | none => s.answer m .ok (s.hbmGet a len))

/-- ATOMIC_FETCH_ADD (row 102). -/
def execAtomicFetchAdd (m : BitVec 16) (a : BitVec 40) (wide : Bool) (v : BitVec 64) (errs : List SymErr) (s : State) : Outc := s.run fun (s : Device) =>
  (s.access m.toNat a.toNat (.fetchAdd wide v.toNat) errs)

/-- ATOMIC_CAS (row 103). -/
def execAtomicCas (m : BitVec 16) (a : BitVec 40) (wide : Bool) (cmp new : BitVec 64) (errs : List SymErr) (s : State) : Outc := s.run fun (s : Device) =>
  (s.access m.toNat a.toNat (.cas wide (if wide then cmp.toNat else cmp.toNat % 2 ^ 32) new.toNat) errs)

/-- ATOMIC_FADD (row 104): the type code of MemOp and the elements. -/
def execAtomicFadd (m : BitVec 16) (a : BitVec 40) (ty : Fin 6) (vals : List (BitVec 64)) (errs : List SymErr) (s : State) : Outc := s.run fun (s : Device) =>
  (s.access m.toNat a.toNat (.fadd ty.val (vals.map fun v => v.toNat % 256 ^ tyBytes ty.val)) errs)

/-- ATOMIC_MAX (row 105). -/
def execAtomicMax (m : BitVec 16) (a : BitVec 40) (ty : Fin 6) (vals : List (BitVec 64)) (errs : List SymErr) (s : State) : Outc := s.run fun (s : Device) =>
  (s.access m.toNat a.toNat (.max ty.val (vals.map fun v => v.toNat % 256 ^ tyBytes ty.val)) errs)

/-- ATOMIC_MIN (row 106). -/
def execAtomicMin (m : BitVec 16) (a : BitVec 40) (ty : Fin 6) (vals : List (BitVec 64)) (errs : List SymErr) (s : State) : Outc := s.run fun (s : Device) =>
  (s.access m.toNat a.toNat (.min ty.val (vals.map fun v => v.toNat % 256 ^ tyBytes ty.val)) errs)

/-- ATOMIC_COPY64 (row 107). -/
def execAtomicCopy64 (m : BitVec 16) (dst src : BitVec 40) (errs : List SymErr) (s : State) : Outc := s.run fun (s : Device) =>
  (s.access m.toNat dst.toNat (.copy64 src.toNat) errs)

/-- The access violation of a transactional access outside every region (R242): the transaction has ended with reason REGION. -/
def Ans.regionChecked (r : Ans) (m a : Nat) : Ans :=
  if r.st = .access && r.detail = 12 then { r with s := r.s.violation m 0 a } else r

/-- CLASP_READ (row 88): 32 or 128 bytes of a line (R245, R259). -/
def execClaspRead (m : BitVec 16) (slot : BitVec 8) (a : BitVec 40) (whole : Bool) (errs : List SymErr) (s : State) : Outc := s.run fun (s : Device) =>
  s.claspReq fun s =>
    let n := if whole then 128 else 32
    let a := a.toNat / n * n
    let live := (s.txnGate m.toNat slot.toNat).isRight
    let met := if live && s.lineInRegion (a / 128) then errsIn a n errs else []
    let s : Device := met.foldl (fun (s : Device) e => s.symError m.toNat e) s
    match s.txnRead m.toNat slot.toNat a n (met.any SymErr.bad) with
    | (r, b, waits) =>
      if waits then r.s
      else if r.st = .ok then (r.s.answer m.toNat .ok b)
      else (r.regionChecked m.toNat a).out

/-- CLASP_WRITE (row 89): the bytes of a line whose mask bit is set. -/
def execClaspWrite (m : BitVec 16) (slot : BitVec 8) (line : BitVec 33) (data : Bytes) (mask : BitVec 128) (s : State) : Outc := s.run fun (s : Device) =>
  s.claspReq fun s =>
    let l := line.toNat
    let b := ((List.range 128).filter fun i => mask.getLsbD i).map fun i => (128 * l + i, data.getD i 0)
    ((s.txnWrite m.toNat slot.toNat l b).regionChecked m.toNat (128 * l)).out

/-- CLASP_COMMIT: a refusal, a commit of nothing, or the beginning of the commit sequence, which answers later. The symbol errors that the slot's write
buffer shows are operands. -/
def execClaspCommit (m : BitVec 16) (slot : Met (BitVec 8)) (s : State) : Outc := s.run fun (s : Device) =>
  s.claspReq fun s => match s.txnCommitMet m.toNat slot.val.toNat slot.errs with
    | (r, true) => r.out
    | (r, false) => r.s

end Sys2Proof.Machine
end

