-- ==== Sys2Proof/Machine/HbmUnits.lean ====
section
/-! DEFINITION. Refresh, retraining, fences and DEAD pseudo-channels, patrol scrub, the written segment table and the thermal limit of a stack
(R267, R277, R284 to R291, R438; rows 108 to 119), and what TRAIN and the loss of HBM do to them. -/

namespace Sys2Proof.Machine

/-- Does the memory domain run, outside self-refresh? -/
def Device.hbmRuns (s : Device) : Bool := s.runs 3 && !s.power.selfRefresh

/-! ## Retraining (R285, R286) -/

def Device.pcSt (s : Device) (p : Nat) : Nat := s.num (O.pcState (p / 32) (p % 32))
def Device.setPcSt (s : Device) (p st : Nat) : Device := s.setNum (O.pcState (p / 32) (p % 32)) st

/-- The uptime at the end of a pseudo-channel's last training, and its stack's temperature then. -/
def Device.trainedAt (s : Device) (p : Nat) : Nat := tgetD s.mem.trainedAt p s.mem.trainBase
def Device.trainedTemp (s : Device) (p : Nat) : Int := tgetD s.mem.trainedTemp p (tgetD s.mem.tempBase (p / 32) 0)

/-- The temperature of a stack. -/
def Device.stackTemp (s : Device) (k : Nat) : Int := toSigned 16 (s.num (O.stackTemperatureC k))

/-- The retrainings that wait on a die, in the order of arrival: pseudo-channel and time. -/
def Device.retrainWaiting (s : Device) (q : Nat) : List (Nat × Nat) := tgetD s.mem.retrainQ q []
def Device.setRetrainWaiting (s : Device) (q : Nat) (l : List (Nat × Nat)) : Device := { s with mem := { s.mem with retrainQ := tset s.mem.retrainQ q l [] } }

/-- A trigger: merged into one that waits or runs; none in FENCING, FENCED or DEAD. Triggers of one cycle wait in increasing p. -/
def Device.trigger (s : Device) (p : Nat) : Device :=
  let q := p / 160
  let l := s.retrainWaiting q
  let before (x : Nat × Nat) : Bool := decide (x.2 < s.uptime) || decide (x.1 < p)
  if s.pcSt p ≠ 0 || l.any (fun x => x.1 == p) then s
  else s.setRetrainWaiting q (l.filter before ++ [(p, s.uptime)] ++ l.filter fun x => !before x)

/-- A pseudo-channel is retrained no more: it leaves the queue and a retraining of it ends (R285). -/
def Device.noRetrain (s : Device) (p : Nat) : Device :=
  let q := p / 160
  let s : Device := s.setRetrainWaiting q ((s.retrainWaiting q).filter fun x => x.1 != p)
  match tget? s.mem.retrainNow q with
  | some (r, _) => if r = p then { s with mem := { s.mem with retrainNow := tdel s.mem.retrainNow q } } else s
  | none => s

/-- RETRAIN_PERIOD_EXPIRY (row 109). -/
def execRetrainPeriodExpiry (p : Fin 640) (s : State) : Outc := s.run fun (s : Device) =>
  (if s.hbmRuns && decide (s.trainedAt p.val + ms (s.num O.retrainPeriodMs) ≤ s.uptime) then s.trigger p.val else s)

/-- RETRAIN_TEMPERATURE_TRIGGER (row 110): a stack reads a temperature in degrees; every pseudo-channel whose last training was at one
that differs by 4.00.031 or more is queued, in increasing number. -/
def execRetrainTemperatureTrigger (k : Fin 20) (temp : BitVec 16) (s : State) : Outc := s.run fun (s : Device) =>
  (if s.hbmRuns then
    let s : Device := s.setNum (O.stackTemperatureC k.val) temp.toNat
    (List.range 32).foldl (fun (s : Device) j =>
      let p := 32 * k.val + j
      if s.num O.retrainTempDeltaC ≤ (temp.toInt - s.trainedTemp p).natAbs then s.trigger p else s) s
  else s)

/-- RETRAIN_ERROR_RATE_TRIGGER (row 111): the corrected errors of the last second. -/
def execRetrainErrorRateTrigger (p : Fin 640) (rate : BitVec 32) (s : State) : Outc := s.run fun (s : Device) =>
  (if s.hbmRuns && decide (s.num O.retrainCorrectedRate < rate.toNat) then s.trigger p.val else s)

/-- RETRAIN_START (row 112): the first waiting retraining of a die that has none running. -/
def execRetrainStart (q : Fin 4) (s : State) : Outc := s.run fun (s : Device) =>
  (if !s.hbmRuns || (tget? s.mem.retrainNow q.val).isSome then s
   else
     match (s.retrainWaiting q.val).dropWhile fun x => s.pcSt x.1 != 0 with
     | [] => s.setRetrainWaiting q.val []
     | (p, _) :: r =>
       let s : Device := (s.setRetrainWaiting q.val r).setPcSt p 1
       let s : Device := { s with mem := { s.mem with retrainNow := tput s.mem.retrainNow q.val (p, s.uptime) } }
       s.bump (O.pcRetrainCount (p / 32) (p % 32)))

/-- The end of a retraining: the stall is added up and the next period begins. -/
def Device.retrainEnd (s : Device) (q p start : Nat) : Device :=
  let k := p / 32
  let j := p % 32
  let ns := 40 * (s.uptime - start)
  let s : Device := { s with mem := { s.mem with retrainNow := tdel s.mem.retrainNow q,
                                                 trainedAt := tput s.mem.trainedAt p s.uptime,
                                                 trainedTemp := tput s.mem.trainedTemp p (s.stackTemp k) } }
  let s : Device := (s.setPcSt p 0).bump (O.pcStallTotalNs k j) ns
  if s.num (O.pcStallMaxNs k j) < ns then s.setNum (O.pcStallMaxNs k j) (min ns 0xFFFFFFFF) else s

/-- RETRAIN_SUCCESS (row 113): within the 38 µs of Table 11.8; after them the retraining has timed out. -/
def execRetrainSuccess (q : Fin 4) (s : State) : Outc := s.run fun (s : Device) =>
  (match tget? s.mem.retrainNow q.val with
   | some (p, start) => if s.hbmRuns && decide (s.uptime ≤ start + us 38) then s.retrainEnd q.val p start else s
   | none => s)

/-! ## Fences (R287 to R290) -/

/-- Rows of a spare band on pseudo-channel x that hold items of a switched fence of n items. -/
def bandRows (all : List Fence) (f : Fence) (n x : Nat) : Nat :=
  let h := healthy all f.band
  match h.idxOf? x with
  | some i => if f.switched.isSome && i < n then (n - i + h.length - 1) / h.length else 0
  | none => 0

/-- The items of a fence's content: its mapped granules, and for the second fence its rows of band 0 (R287). -/
def fenceItems (all : List Fence) (f : Fence) : Nat :=
  4378147 + (if f.band = 0 then 0 else match all.find? (fun g => g.band == 0) with
    | some g => bandRows all g 4378147 f.p
    | none => 0)

/-- The granules whose translation ends on a pseudo-channel (R290): none on one that is FENCED. -/
def contentOf (all : List Fence) (p : Nat) : Nat :=
  if all.any fun f => f.p == p && f.switched.isSome then 0 else 4378147 + (all.map fun f => bandRows all f (fenceItems all f) p).sum

def Device.setFences (s : Device) (l : List Fence) : Device := { s with mem := { s.mem with fences := l } }

/-- Changes the fence of a band. -/
def Device.modFence (s : Device) (band : Nat) (f : Fence → Fence) : Device :=
  s.setFences (s.mem.fences.map fun x => if x.band == band then f x else x)

/-- Is a fence still in FENCING? -/
def Fence.live (f : Fence) : Bool := f.switched.isNone && !f.died

/-- A class 8 record of a pseudo-channel. -/
def Device.pcRecord (s : Device) (p addr result cause : Nat) : Device :=
  s.record { cls := 8, unit := 4, node := 0x60 + p / 32, elem := p % 32, addr := addr, result := result, cause := cause }

/-- The switch transaction that adds DEAD pseudo-channels to 4.00.023 (R290); where it cannot run yet, they stay due. -/
def Device.deadSwitch (s : Device) : Device :=
  if s.mem.deadDue.isEmpty then s
  else match s.mapCommit with
    | none => s
    | some s =>
      let s : Device := s.mem.deadDue.foldl (fun (s : Device) p =>
        let b := s.bytes O.deadPcs
        s.setBytes O.deadPcs (b.set (p / 8) (BitVec.ofNat 8 (setBit (b.getD (p / 8) 0).toNat (p % 8))))) s
      { s with mem := { s.mem with deadDue := [] } }

/-- A pseudo-channel becomes DEAD (R290): its content is lost; a fence of it ends without its switch. -/
def Device.makeDead (s : Device) (p addr cause : Nat) : Device :=
  if s.pcSt p = 4 then s
  else
    let fencing := s.mem.fences.find? fun f => f.p == p && f.live
    let counted := (s.mem.lostLines.filter fun x => x.1 == p).length
    let row : DeadPc := { p := p, start := (match fencing with | some f => f.start | none => s.uptime) }
    let s : Device := if s.mem.fences.any fun f => f.p == p then s else s.bump O.hbmOutOfServiceBytes 1125000000
    let s : Device := s.bump O.hbmLostBytes (256 * contentOf s.mem.fences p - 128 * counted)
    let s : Device := s.setFences (s.mem.fences.map fun f => if f.p == p && f.live then { f with died := true } else f)
    let s : Device := { s with mem := { s.mem with dead := s.mem.dead ++ [row], deadDue := s.mem.deadDue ++ [p] } }
    ((s.noRetrain p).setPcSt p 4 |>.pcRecord p addr 9 cause).deadSwitch

/-- A pseudo-channel must be fenced (R287, R290): it enters FENCING on the next spare band; with none left, or when it already is in
FENCING, it becomes DEAD. -/
def Device.failPc (s : Device) (p addr cause : Nat) : Device :=
  let st := s.pcSt p
  if st = 3 || st = 4 then s
  else if st = 2 || 2 ≤ s.mem.fences.length then s.makeDead p addr cause
  else
    let f : Fence := { p := p, band := s.mem.fences.length, start := s.uptime }
    let s : Device := s.setFences (s.mem.fences ++ [f])
    let s : Device := (s.drop O.hbmSpareBandsFree).bump O.hbmOutOfServiceBytes 1125000000
    let s : Device := s.noRetrain p
    let s : Device := (s.setPcSt p 2).setNum (O.pcRateMbps (p / 32) (p % 32)) 4800
    s.pcRecord p addr 4 cause

/-- RETRAIN_TIMEOUT (row 114): 38 µs after its first step a retraining has not completed: 4.8 Gbit/s, FENCING, and a test whose cause is
the record of the fence (Table 11.8, R477). -/
def execRetrainTimeout (q : Fin 4) (s : State) : Outc := s.run fun (s : Device) =>
  (match tget? s.mem.retrainNow q.val with
   | some (p, start) =>
     if s.hbmRuns && decide (start + us 38 ≤ s.uptime) then
       let s : Device := ((s.retrainEnd q.val p start).setNum (O.pcRateMbps (p / 32) (p % 32)) 4800).failPc p 0 0
       s.requestTest 8 4 (0x60 + p / 32) (p % 32) 0 s.errs.seq
     else s
   | none => s)

/-- FENCE_COPY_START (row 115): the copy of a fence begins when every earlier fence has ended. -/
def execFenceCopyStart (k : Fin 2) (s : State) : Outc := s.run fun (s : Device) =>
  (match s.mem.fences.find? (fun (f : Fence) => f.band == k.val) with
   | some f => if s.hbmRuns && f.live && !f.copying && s.mem.fences.all (fun g => decide (f.band ≤ g.band) || !g.live) then
       s.modFence k.val fun f => { f with copying := true }
     else s
   | none => s)

/-- Does a line's content lie on a pseudo-channel now? -/
def Device.lineOn (s : Device) (p line : Nat) : Bool := (s.finalOf (128 * line)).1 == p

/-- The switch dooms every open transaction that tracks or writes a line whose home it moves, with reason MAP_SWITCH (R248, R262). -/
def Device.switchDoom (s : Device) (p : Nat) : Device :=
  s.mem.txns.foldl (fun (s : Device) (t : Nat × Txn) =>
    let moved := (t.2.tracked ++ t.2.written).any fun l => s.lineOn p l
    if !moved then s
    else match t.2.state with
      | .opened => s.setTxn t.1 { t.2 with state := .doomed, reason := 4 }
      | _ => s) s

/-- Has a commit begun that tracks or writes a line which a switch moves? Its participants are fixed, so the switch waits for it (R251). -/
def Device.lockedOn (s : Device) (p : Nat) : Bool :=
  s.mem.txns.any fun t => (t.2.state == TxnState.preparing || t.2.state == TxnState.installing) &&
    (t.2.tracked ++ t.2.written).any fun l => s.lineOn p l

/-- The granule items that a copy could not read, those of the fence's content, once each. -/
def Fence.lostItems (f : Fence) (all : List Fence) (lost : List (BitVec 23 × Bool)) : List (BitVec 23 × Bool) :=
  (lost.filter fun (x : BitVec 23 × Bool) => decide (x.1.toNat < fenceItems all f)).dedup

/-- What a committed switch does (Table 11.9, R289): the map is reloaded, the lost lines are entered, the row is written, the event is logged as a class 8
record with result 0, since Table 20.2 has no code for it (DESIGN CHOICE, log entry 131), held requests go on. -/
def Device.fenceReload (s : Device) (f : Fence) (items : List (BitVec 23 × Bool)) : Device :=
  let s : Device := s.modFence f.band fun f => { f with switched := some s.uptime, lost := items.length }
  let rows := items.map fun (x : BitVec 23 × Bool) =>
    let t := fenceTarget s.mem.fences f x.1.toNat
    (t.1, t.2, x.2.toNat)
  let s : Device := { s with mem := { s.mem with lostLines := s.mem.lostLines ++ rows } }
  let s : Device := (s.setNum O.lostLineCount s.mem.lostLines.length).bump O.hbmLostBytes (128 * items.length)
  ((s.setPcSt f.p 3).pcRecord f.p 0 0 0).wakeWaiting

/-- The switch of a fence (Table 11.9, R262): the home cache drops the content lines, the transactions that use them are doomed, the switch transaction
commits. With no slot free for it the copy's end has no effect yet. -/
def Device.fenceSwitch (s : Device) (f : Fence) (items : List (BitVec 23 × Bool)) : Device :=
  match ((s.cacheFlush true fun l => s.lineOn f.p l).switchDoom f.p).mapCommit with
  | some d => d.fenceReload f items
  | none => s

/-- FENCE_COPY_END (row 116): the copy has ended, with the items (granule item and line of it) that could not be read. A commit that
holds locks on the content finishes first; with more lost lines than the table holds the pseudo-channel is DEAD. -/
def execFenceCopyEnd (k : Fin 2) (lost : List (BitVec 23 × Bool)) (s : State) : Outc := s.run fun (s : Device) =>
  (match s.mem.fences.find? (fun (f : Fence) => f.band == k.val) with
   | some f =>
     if !(s.hbmRuns && f.live && f.copying) || s.lockedOn f.p then s
     else if 4096 < s.mem.lostLines.length + (f.lostItems s.mem.fences lost).length then s.makeDead f.p 0 0
     else s.fenceSwitch f (f.lostItems s.mem.fences lost)
   | none => s)

/-! ## Refresh, scrub, thermal limit -/

/-- REFRESH (row 108): each bank of a stack is refreshed; the interval follows the stack's temperature (R284). -/
def execRefresh (k : Fin 20) (s : State) : Outc := s.run fun (s : Device) =>
  (if s.hbmRuns then (s.setNum (O.refreshMode k.val) (if 85 < s.stackTemp k.val then 1 else 0)).deadSwitch else s)

/-- Patrol scrub decodes a codeword of a granule (R277): counted where the granule lies, written back as decoded unless it is uncorrected. -/
def Device.scrubWord (s : Device) (p u : Nat) (e : SymErr) : Device :=
  let out := decodeSyndrome (syndrome e.pattern)
  let f := s.finalPlace p u
  if out == Decoding.accept then s
  else
    let s : Device := s.pcError f.1 f.2 e.bad 0xFFFF
    if e.bad || e.residue = 0 then s
    else
      let k := hbmKey p u (128 * (e.line.toNat % 2) + 16 * e.word.val)
      { s with mem := { s.mem with hbm := memSetN s.mem.hbm k (leBytes 16 (leNat (memGetN s.mem.hbm k 16) ^^^ e.residue)) } }

/-- Has patrol scrub read a granule in the present period of 4.00.033? Periods are counted from uptime 0 (DESIGN CHOICE, log entry 132). -/
def Device.scrubDone (s : Device) (p u : Nat) : Bool :=
  let n := ms (1000 * s.num O.hbmScrubPeriodS)
  match tget? s.mem.scrubbed (p * 2 ^ 23 + u) with
  | some t => t / n == s.uptime / n
  | none => false

/-- HBM_SCRUB (row 117): patrol scrub reads a mapped granule, by its place before fences, once per period; the symbol errors it meets are operands, of
whose line only the lowest bit counts: which line of the granule (R277). A granule that ends on a DEAD pseudo-channel cannot be read. -/
def execHbmScrub (p : Fin 640) (u : BitVec 23) (errs : List SymErr) (s : State) : Outc := s.run fun (s : Device) =>
  (if s.hbmRuns && decide (u.toNat < 4378147) && s.pcSt (s.finalPlace p.val u.toNat).1 != 4 && !s.scrubDone p.val u.toNat then
    let s : Device := { s with mem := { s.mem with scrubbed := tput s.mem.scrubbed (p.val * 2 ^ 23 + u.toNat) s.uptime } }
    errs.foldl (fun (s : Device) e => s.scrubWord p.val u.toNat e) s
  else s)

/-- A write of 4.00.010 (R267): in CONFIGURE or SAFE; refused whole or stored; taken at once while D3 is on in the hold of R462. -/
def Device.segTableWrite (s : Device) (v : Bytes) : Ans :=
  if s.startupCode != suConfigure && !s.inSafe then s.deny .state O.segmentTable
  else if !segTableOk v then s.deny .range O.segmentTable
  else
    let s : Device := (s.setBytes O.segmentTable v).setNum O.segmentCount (beAt v 0 2)
    (if s.domainOn 3 && s.startup.holding then { s with mem := { s.mem with segs := s.segTable } } else s).okay

/-- SEGMENT_TABLE_WRITE (row 118): the value of a TABLE item, row count and row size first. -/
def execSegmentTableWrite (v : Bytes) (s : State) : Outc := s.run fun (s : Device) =>
  s.ownWrite (O.segmentTable) fun s => (s.segTableWrite v).measured O.segmentTable v

/-- STACK_THERMAL_LIMIT (row 119): a stack reads a temperature; from 95 °C it runs at half rate until it falls below 92 °C (R438). -/
def execStackThermalLimit (k : Fin 20) (temp : BitVec 16) (s : State) : Outc := s.run fun (s : Device) =>
  (if s.domainOn 3 then
    let s : Device := s.setNum (O.stackTemperatureC k.val) temp.toNat
    let t := temp.toInt
    let hot := if 95 ≤ t then (if s.mem.hot.contains k.val then s.mem.hot else k.val :: s.mem.hot)
      else if t < 92 then s.mem.hot.filter fun x => x != k.val else s.mem.hot
    { s with mem := { s.mem with hot := hot } }
  else s)

/-! ## TRAIN and the loss of HBM (R291) -/

/-- The fence table (4.00.020): FENCED rows, then DEAD rows, in the order of their events. -/
def Device.fenceRows (s : Device) : List Bytes :=
  (s.mem.fences.filterMap fun f => match f.switched with
    | some t => some (beBytes 1 f.band ++ beBytes 1 1 ++ beBytes 2 f.p ++ beBytes 4 f.lost ++ beBytes 8 f.start ++ beBytes 8 t)
    | none => none) ++
  s.mem.dead.map fun d => beBytes 1 0xFF ++ beBytes 1 2 ++ beBytes 2 d.p ++ beBytes 4 d.lost ++ beBytes 8 d.start ++ beBytes 8 0

/-- HBM loses its contents: fences, lost lines and DEAD pseudo-channels are discarded with them. -/
def Device.hbmLose (s : Device) : Device :=
  let s : Device := (s.mem.fences.map fun f => f.p).foldl (fun (s : Device) p => (s.setPcSt p 0).setNum (O.pcRateMbps (p / 32) (p % 32)) 9600) s
  let s : Device := (s.mem.dead.map fun d => d.p).foldl (fun (s : Device) p => (s.setPcSt p 0).setNum (O.pcRateMbps (p / 32) (p % 32)) 9600) s
  let s : Device := { s with mem := { s.mem with hbm := [], fences := [], dead := [], deadDue := [], lostLines := [], cache := [], waiting := [],
                                                 scrubbed := [] } }
  let s : Device := ((s.setNum O.hbmSpareBandsFree 2).setNum O.hbmOutOfServiceBytes 0).setNum O.hbmLostBytes 0
  (s.setNum O.lostLineCount 0).setBytes O.deadPcs (List.replicate 80 0)

/-- The end of TRAIN for the pseudo-channels that failed (R291): with contents kept they are made DEAD; otherwise they are fenced with
nothing to copy while a band is free, in increasing p. Fences still FENCING begin their copy again; a pseudo-channel whose retraining the reset cut is
NORMAL. The dictionary shadow and the memory-map lines are
entered as regions (R241, R270). -/
def Device.trainMemory (s : Device) (failed : List Nat) : Device :=
  let kept := s.startup.warmHbm
  let s : Device := s.setFences (s.mem.fences.map fun f => if f.live then { f with copying := false } else f)
  let s : Device := ((List.range 640).filter fun p => s.pcSt p = 1).foldl (fun (s : Device) p => s.setPcSt p 0) s
  let s : Device := ((List.range 640).filter failed.contains).foldl (fun (s : Device) p =>
    if kept then s.makeDead p 0 0
    else
      let band := s.mem.fences.length
      let s : Device := s.failPc p 0 0
      if s.pcSt p = 2 then (s.modFence band fun f => { f with switched := some s.uptime }).setPcSt p 3 else s) s
  let s : Device := { s with mem := { s.mem with regions := s.mem.regions.filter fun r => decide (r.kind ≤ 1) } }
  let s : Device := s.addRegion { base := 0xB000000000, size := 64, kind := 2, job := 0xFF }
  let s : Device := (List.range 4).foldl (fun (s : Device) q =>
    s.addRegion { base := 0xB000000000 + 20 * q * 0x4000000 + 0x400000, size := 1, kind := 3, job := 0xFF }) s
  let temps := (List.range 20).foldl (fun m k => tset m k (s.stackTemp k) 0) ([] : Tbl Int)
  { s with mem := { s.mem with retrainQ := [], retrainNow := [], trainedAt := [], trainedTemp := [], trainBase := s.uptime,
                               tempBase := temps } }

/-- The first DEAD pseudo-channel on which a system segment has lines (R465). -/
def Device.trainBlocked (s : Device) : Option Nat :=
  (s.mem.dead.map fun d => d.p).find? fun p =>
    (s.mem.segs.filter fun g => g.system).any fun g => decide (g.pcFirst ≤ p) && decide (p < g.pcFirst + g.pcCount)

/-- The cut of installs in progress by an uncorrected-fatal error or the loss of rails (R255): what they had installed stays. -/
def Device.installsCut (s : Device) : Device := { s with mem := { s.mem with txns := s.mem.txns.filter fun t => t.2.state != TxnState.installing } }

/-- Bytes of HBM as a debug access reads them. -/
def Device.hbmPeek (s : Device) (a n : Nat) : Bytes := s.hbmGet a n

end Sys2Proof.Machine
end

