-- ==== Sys2Proof/Machine/Kv.lean ====
section
/-! DEFINITION. Page operations (R186 to R193, rows 63 to 70), each one Clasp transaction: page-table entries, the prefix tree, copy on write, and the check
that a step writes no shared frame (R190). -/

namespace Sys2Proof.Machine

/-! ## Page-table entries (Table 7.5) -/

structure Pte where
  frame : Nat
  fill : Nat
  valid : Bool
deriving DecidableEq, Repr

def Pte.decode (v : Nat) : Pte := { frame := bits v 63 40, fill := bits v 39 33, valid := bit v 32 }
def Pte.encode (e : Pte) : Nat := e.frame * 2 ^ 40 + e.fill * 2 ^ 33 + e.valid.toNat * 2 ^ 32

/-- The buffer of a pool's page tables, and of its frames. -/
def Pool.pts (x : Pool) (j : Job) : Buf := j.buf x.ptBuf
def Pool.pages (x : Pool) (j : Job) : Buf := j.buf x.framesBuf

/-- The address of entry b of a sequence's page table. -/
def Pool.pteAt (x : Pool) (j : Job) (pt b : Nat) : Nat := (x.pts j).base + pt + 8 * b

/-- Entry b of a sequence's page table as it stands in memory. -/
def Device.pte (s : Device) (x : Pool) (j : Job) (pt b : Nat) : Pte := Pte.decode (leNat (s.bufGet (x.pts j) (pt + 8 * b) 8))

/-- Entry b, read and written by a transaction. -/
def txPte (x : Pool) (j : Job) (pt b : Nat) : Tx Pte := (txLe (x.pteAt j pt b) 8).bind fun v => Tx.ret (Pte.decode v)
def txSetPte (x : Pool) (j : Job) (pt b : Nat) (e : Pte) : Tx Unit := txPutLe (x.pteAt j pt b) 8 e.encode

/-! ## What a page operation comes to -/

/-- The status and the detail of an operation, and what its commit does to the counters of Table 7.9. A refusal too is what the values it read say, so it
stands once the transaction that read them has committed (R246). -/
structure PageRes where
  st : Status := .ok
  detail : Nat := 0
  done : Device → Device := id

/-- A refusal. -/
def txRefuse (st : Status) (done : Device → Device := id) : Tx PageRes := Tx.ret { st := st, done := done }

/-- The answer of an operation, with the state after it; none where it must wait. An access outside every region has frozen its issuer (R242). -/
def pageEnd (m : Nat) (x : Pool) (r : Device × TxEnd PageRes) : Option Ans :=
  match r.2 with
  | .wait => none
  | .refused st d => some (r.1.deny st d)
  | .ended 12 => some ((r.1.violation m 0 x.metaBase).deny .access)
  | .ended k => some (r.1.deny (reasonStatus k) k)
  | .done a => some { s := a.done (r.1.unstall m), st := a.st, detail := a.detail }

/-! ## The prefix tree (R193) -/

/-- A node (Table 7.8) by its index. -/
structure Node where
  key : Nat
  frame : Nat
  parent : Nat
  children : Nat
  valid : Bool
  tokens : Bytes
deriving DecidableEq, Repr

def Pool.nodeAt (x : Pool) (i : Nat) : Nat := x.treeBase + i * 288

def Node.decode (b : Bytes) : Node :=
  { key := leAt b 0 8, frame := leAt b 8 3, parent := leAt b 12 4, children := leAt b 16 2, valid := bit (leAt b 18 1) 0,
    tokens := slice b 32 256 }

def Node.encode (n : Node) : Bytes :=
  leBytes 8 n.key ++ leBytes 4 n.frame ++ leBytes 4 n.parent ++ leBytes 2 n.children ++ leBytes 1 n.valid.toNat ++ List.replicate 13 0 ++
    padTo 256 n.tokens

def txNode (x : Pool) (i : Nat) : Tx Node := (txGet (x.nodeAt i) 288).bind fun b => Tx.ret (Node.decode b)
def txSetNode (x : Pool) (i : Nat) (n : Node) : Tx Unit := txPut (x.nodeAt i) n.encode

/-- The key of a block: SHAKE128 over the parent key and the token ids. -/
def blockKey (parent : Nat) (tokens : Bytes) : Nat := Config.shake128 (leBytes 8 parent ++ tokens) % 2 ^ 64

/-- Node indices of a key's bucket. -/
def Pool.bucket (x : Pool) (key : Nat) : List Nat := (List.range 8).map fun w => key % 2 ^ x.treeLog2 * 8 + w

/-- The parent's frame and key for block b; none where entry b - 1 does not name a tree frame. -/
def txParent (root : Nat) (x : Pool) (j : Job) (pt b : Nat) : Tx (Option (Nat × Nat)) :=
  if b = 0 then Tx.ret (some (listEnd, root))
  else (txPte x j pt (b - 1)).bind fun e =>
    if !e.valid then Tx.ret none
    else (txFrame x e.frame).bind fun r =>
      if !r.inTree then Tx.ret none else (txNode x r.node).bind fun n => Tx.ret (some (e.frame, n.key))

/-- The ways of a bucket, each with its node index. -/
def txBucket (x : Pool) (key : Nat) : Tx (List (Nat × Node)) :=
  Tx.forEach (x.bucket key) [] fun l i => (txNode x i).bind fun n => Tx.ret (l ++ [(i, n)])

/-- Changes the children count of a parent frame's node; block 0 has no parent. -/
def txChildren (x : Pool) (f : Nat) (up : Bool) : Tx Unit :=
  if f = listEnd then Tx.ret ()
  else (txFrame x f).bind fun r =>
    if !r.inTree then Tx.ret ()
    else (txNode x r.node).bind fun n => txSetNode x r.node { n with children := if up then n.children + 1 else n.children - 1 }

/-! ## Page operations (Table 7.7): the detail of the answer is the result -/

/-- ALLOC. -/
def txAlloc (p : Nat) (x : Pool) (j : Job) (pt b : Nat) : Tx PageRes :=
  if 32768 ≤ b then txRefuse .limit fun s => s.bump (O.allocRefusals p)
  else (txPte x j pt b).bind fun e =>
    if e.valid then txRefuse .state
    else (txTake x).bind fun t => match t with
      | (none, k) => txRefuse .limit fun s => (s.poolCounts p 0 k 0).bump (O.allocRefusals p)
      | (some g, k) => (txSetPte x j pt b { frame := g, fill := 0, valid := true }).andThen
        (Tx.ret { done := fun s => s.poolCounts p 1 k 0 })

/-- The ways of a bucket that hold a key: every one is compared, and one that matches in its key alone is a collision. -/
def sameKey (key : Nat) (ways : List (Nat × Node)) : List (Nat × Node) := ways.filter fun w => w.2.valid && w.2.key == key
def confirmed (pf : Nat) (tokens : Bytes) (n : Node) : Bool := n.parent == pf && n.tokens == tokens
def Device.collisions (s : Device) (p pf : Nat) (tokens : Bytes) (same : List (Nat × Node)) : Device :=
  let missed := (same.filter fun w => !confirmed pf tokens w.2).length
  if missed = 0 then s else s.bump (O.treeCollisions p) missed

/-- What LOOKUP makes of its bucket, for a key under a parent frame. Bit 0 of the detail says that a hit was confirmed. -/
def txFound (p : Nat) (x : Pool) (j : Job) (pt b pf key : Nat) (tokens : Bytes) (ways : List (Nat × Node)) : Tx PageRes :=
  match (sameKey key ways).find? fun w => confirmed pf tokens w.2 with
  | none => Tx.ret { done := fun s => (s.collisions p pf tokens (sameKey key ways)).bump (O.treeMisses p) }
  | some w => (txFrame x w.2.frame).bind fun r =>
    (txSetFrame x w.2.frame { r with count := r.count + 1 }).andThen <|
      (txSetPte x j pt b { frame := w.2.frame, fill := 64, valid := true }).andThen
        (Tx.ret { detail := 1, done := fun s => (s.collisions p pf tokens (sameKey key ways)).bump (O.treeHits p) })

/-- LOOKUP. -/
def txLookup (p root : Nat) (x : Pool) (j : Job) (pt b : Nat) (tokens : Bytes) : Tx PageRes :=
  (txPte x j pt b).bind fun e =>
    if e.valid then txRefuse .state
    else (txParent root x j pt b).bind fun par => match par with
      | none => txRefuse .state
      | some (pf, pk) => (txBucket x (blockKey pk tokens)).bind (txFound p x j pt b pf (blockKey pk tokens) tokens)

/-- INSERT: the block's 64 token ids, of which R189 names no argument, come with the operation (log entry 24). -/
def txInsert (p root : Nat) (x : Pool) (j : Job) (pt b : Nat) (tokens : Bytes) : Tx PageRes :=
  (txPte x j pt b).bind fun e =>
    if !e.valid || e.fill ≠ 64 then txRefuse .state
    else (txFrame x e.frame).bind fun r =>
      if r.inTree then txRefuse .state
      else (txParent root x j pt b).bind fun par => match par with
        | none => txRefuse .state
        | some (pf, pk) => (txBucket x (blockKey pk tokens)).bind fun ways => match ways.find? fun w => !w.2.valid with
          | none => txRefuse .limit fun s => s.bump (O.insertRefusals p)
          | some (i, _) =>
            (txSetNode x i { key := blockKey pk tokens, frame := e.frame, parent := pf, children := 0, valid := true, tokens := tokens }).andThen <|
              (txChildren x pf true).andThen <| (txSetFrame x e.frame { r with count := r.count + 1, node := i }).andThen
                (Tx.ret { done := fun s => s.bump (O.treeNodes p) })

/-- FILL. -/
def txFill (x : Pool) (j : Job) (pt b n : Nat) : Tx PageRes :=
  (txPte x j pt b).bind fun e =>
    if !e.valid || n < e.fill then txRefuse .state
    else (txFrame x e.frame).bind fun r =>
      if 1 < r.count then txRefuse .state
      else if 64 < n then txRefuse .range
      else (txSetPte x j pt b { e with fill := n }).andThen (Tx.ret {})

/-- PRUNE. -/
def txPrune (p : Nat) (x : Pool) (f : Nat) : Tx PageRes :=
  (if x.frames ≤ f then Tx.ret {} else txFrame x f).bind fun r =>
    if !r.inTree then txRefuse .state
    else (txNode x r.node).bind fun n =>
      if n.children ≠ 0 then txRefuse .state
      else (txSetNode x r.node { n with valid := false }).andThen <| (txChildren x n.parent false).andThen <|
        (txSetFrame x f { r with node := 0xFFFFFFFF }).andThen <| (txUnref x f).bind fun k =>
          Tx.ret { done := fun s => (s.poolCounts p 0 0 k).drop (O.treeNodes p) }

/-- Entries of a sequence's page table, to the end of the buffer and of the largest sequence. -/
def Pool.ptes (x : Pool) (j : Job) (pt : Nat) : Nat := min 32768 (((x.pts j).size - pt) / 8)

/-- One transaction of RELEASE (R192) below entry hi: the highest valid entries from b upward, 256 at most, are cleared and their frames have one reference
less. The detail is their number; with it comes the entry below which the next transaction goes on. -/
def txRelease (p : Nat) (x : Pool) (j : Job) (pt b hi : Nat) : Tx (PageRes × Nat) :=
  (Tx.forEach ((List.range (hi - b)).map fun i => hi - 1 - i) (([], hi) : List (Nat × Nat) × Nat) fun a i =>
    if 256 ≤ a.1.length then Tx.ret a
    else (txPte x j pt i).bind fun e => Tx.ret (if e.valid then (a.1 ++ [(i, e.frame)], i) else (a.1, i))).bind fun a =>
      (Tx.forEach a.1 0 fun k w => (txSetPte x j pt w.1 { frame := 0, fill := 0, valid := false }).andThen <|
        (txUnref x w.2).bind fun u => Tx.ret (k + u)).bind fun k =>
          Tx.ret ({ detail := a.1.length, done := fun s => s.poolCounts p 0 0 k }, a.2)

/-- RELEASE: its transactions one after another, each with its own conflicts; the first that ends otherwise than OK stops it. The detail is the number of
entries cleared. None where one of them must wait: the whole has then no effect yet. -/
def Device.release256 (n : Nat) (s : Device) (p m : Nat) (x : Pool) (j : Job) (pt b hi : Nat) (lost : List Nat) (errs : List SymErr) (got : Nat) :
    Option Ans :=
  match n with
  | 0 => some { s := s, detail := got }
  | n + 1 =>
    if hi ≤ b then some { s := s, detail := got }
    else
      let r := Device.runTx (s.num O.opRetryLimit) s p m (lost.headD 0) errs (txRelease p x j pt b hi)
      match r.2 with
      | .wait => none
      | .refused st d => some { s := (r.1.deny st d).s, st := st, detail := got }
      | .ended 12 => some { s := r.1.violation m 0 x.metaBase, st := .access, detail := got }
      | .ended k => some { s := r.1, st := reasonStatus k, detail := got }
      | .done a => Device.release256 n (a.1.done (r.1.unstall m)) p m x j pt b a.2 (lost.drop 1) [] (got + a.1.detail)

def Device.opRelease (s : Device) (p m : Nat) (x : Pool) (j : Job) (pt b : Nat) (lost : List Nat) (errs : List SymErr) : Option Ans :=
  Device.release256 129 s p m x j pt b (x.ptes j pt) lost errs 0

/-! ## COW (R191) -/

/-- What a COW finds: a refusal or nothing to copy; or the frame to copy, the one taken, and the frames moved from limbo. -/
inductive CowRes where
  | over (st : Status) (moved : Nat)
  | copy (f g moved : Nat)
deriving DecidableEq, Repr

/-- The reads and the buffered writes of a COW. -/
def txCow (x : Pool) (j : Job) (pt b : Nat) : Tx CowRes :=
  (txPte x j pt b).bind fun e =>
    if !e.valid then Tx.ret (.over .state 0)
    else (txFrame x e.frame).bind fun r =>
      if r.count ≤ 1 then Tx.ret (.over .ok 0)
      else (txTake x).bind fun t => match t with
        | (none, k) => Tx.ret (.over .limit k)
        | (some g, k) => (txSetPte x j pt b { e with frame := g }).andThen <| (txUnref x e.frame).andThen (Tx.ret (.copy e.frame g k))

/-- What becomes of a COW: it waits; its answer; a copy has begun. -/
inductive CowOut where
  | wait | answer (a : Ans) | copies (s : Device)

/-- One attempt of a COW: with a frame to copy, its transaction stays open. -/
def Device.cowTry (s : Device) (r : CowRun) (m : Nat) (x : Pool) (j : Job) (errs : List SymErr) : Device × TxEnd (Option (Status × Nat)) :=
  match s.txnOpenOp m with
  | (a, none) => (a.s, .refused a.st a.detail)
  | (a, some key) => match txCow x j r.pt r.b { key := key, m := m, errs := errs } a.s with
    | (_, .error .wait) => (s, .wait)
    | (d, .error (.abort k)) => (d.endKey key k, .ended k)
    | (d, .ok (.copy f g k)) =>
      ({ d with work := { d.work with cows := d.work.cows ++ [{ r with key := key, master := m, frame := f, target := g, moved := k }] } }, .done none)
    | (d, .ok (.over st k)) => match d.commitNow key with
      | none => (s, .wait)
      | some (0, d) => (d, .done (some (st, k)))
      | some (e, d) => (d, .ended e)

/-- The attempts of a COW, n of them after the first (R189). -/
def Device.cowStart (n : Nat) (s : Device) (r : CowRun) (m : Nat) (x : Pool) (j : Job) (errs : List SymErr) : CowOut :=
  let t := s.cowTry r m x j errs
  match n, retries m t.2 with
  | n + 1, some c => Device.cowStart n (if c then t.1.bump (O.opConflictRetries r.pool) else t.1)
      { r with retries := r.retries + (if c then 1 else 0) } m x j []
  | _, _ => match t.2 with
    | .wait => .wait
    | .refused st d => .answer (t.1.deny st d)
    | .ended 12 => .answer ((t.1.violation m 0 x.metaBase).deny .access)
    | .ended k => .answer (t.1.deny (reasonStatus k) k)
    | .done none => .copies t.1
    | .done (some (st, k)) =>
      let s : Device := (t.1.unstall m).poolCounts r.pool 0 k 0
      .answer ((if st = .limit then s.bump (O.allocRefusals r.pool) else s).deny st)

/-- The bytes of a frame's pages. -/
def Pool.frameBytes (x : Pool) : Nat := x.layers * 65536

/-- Do a copy's reads or writes wait for a lock (Table 10.3), or meet lost or dead lines? -/
def Device.copyWaits (s : Device) (x : Pool) (j : Job) (f g : Nat) : Bool :=
  s.bufWaits (x.pages j) (f * x.frameBytes) x.frameBytes false || s.bufWaits (x.pages j) (g * x.frameBytes) x.frameBytes true
def Device.copyBlocked (s : Device) (x : Pool) (j : Job) (f g : Nat) : Bool :=
  decide ((x.pages j).size < (max f g + 1) * x.frameBytes) || s.bufBlocked (x.pages j) (f * x.frameBytes) x.frameBytes false ||
    s.bufBlocked (x.pages j) (g * x.frameBytes) x.frameBytes true

/-- Copies a frame's pages through the home caches. -/
def Device.copyFrame (s : Device) (x : Pool) (j : Job) (f g : Nat) : Device :=
  let n := x.frameBytes
  let b := x.pages j
  ((s.bufTouch b (f * n) n false).bufPut b (g * n) (s.bufGet b (f * n) n)).bufTouch b (g * n) n true

/-- A write descriptor in the queue of channel 3 whose rows went to frame f goes to frame g (R190). -/
def retarget (x : Pool) (f g : Nat) (raw : Bytes) : Bytes :=
  let o := bits (leAt raw 16 8) 47 0
  if bits (leAt raw 0 8) 47 40 = x.framesBuf && o / x.frameBytes = f then
    raw.take 16 ++ leBytes 8 (leAt raw 16 8 - o + (g * x.frameBytes + o % x.frameBytes)) ++ raw.drop 24
  else raw

/-- The control core forms its write descriptors from the entry that the COW has set. -/
def Device.retargetAll (s : Device) (j : Job) (x : Pool) (f g : Nat) : Device :=
  j.cores.foldl (fun (s : Device) n =>
    let c := s.core n
    let d := tgetD c.dma 3 {}
    s.setCore n { c with dma := tset c.dma 3 { d with queue := d.queue.map (retarget x f g) } {} }) s

/-- The COW is no longer in progress. -/
def Device.cowGone (s : Device) (r : CowRun) : Device := { s with work := { s.work with cows := s.work.cows.erase r } }

/-- A copy has ended: the transaction commits; a commit of another operation on what it read has doomed it, and the retry decides afresh (R189, R191). None: it
must wait; an answer of none: another copy has begun. -/
def Device.cowEnd (s : Device) (r : CowRun) (x : Pool) (j : Job) : Option (Device × Option Ans) :=
  let gone := s.cowGone r
  if s.copyWaits x j r.frame r.target then none
  else if s.copyBlocked x j r.frame r.target then some (gone.endKey r.key 10, some (gone.deny .uncorrected))
  else match (gone.copyFrame x j r.frame r.target).commitNow r.key with
    | none => none
    | some (0, d) =>
      let d : Device := (d.poolCounts r.pool 1 r.moved 0).bump (O.cowCopies r.pool)
      let d : Device := if r.forWrite then d.retargetAll j x r.frame r.target else d
      some (d, some d.okay)
    | some (k, d) =>
      if !(decide (1 ≤ k) && decide (k ≤ 4)) then some (d, some (d.deny (reasonStatus k) k))
      else if s.num O.opRetryLimit ≤ r.retries then some (d, some (d.deny .conflict k))
      else match Device.cowStart (s.num O.opRetryLimit - r.retries - 1)
            (d.bump (O.opConflictRetries r.pool)) { r with retries := r.retries + 1 } r.master x j [] with
        | .wait => none
        | .copies d => some (d, none)
        | .answer a => some (a.s, some a)

/-! ## What a step writes (R190) -/

/-- A lengths-table entry (Table 7.3). -/
structure LenEntry where
  slot : Nat
  qLen : Nat
  ctxLen : Nat
  pt : Nat
deriving DecidableEq, Repr

/-- Words of a step descriptor (Table 16.5). -/
def StepRun.lenCount (r : StepRun) : Nat := bits (leAt r.desc 8 8) 15 0
def StepRun.lenOffset (r : StepRun) : Nat := leAt r.desc 16 8
def StepRun.statusOffset (r : StepRun) : Nat := leAt r.desc 24 8

def Device.lenEntry (s : Device) (j : Job) (r : StepRun) (i : Nat) : LenEntry :=
  let b := s.spaceGet j (r.lenOffset + 24 * i) 24
  { slot := bits (leAt b 0 8) 63 48, qLen := bits (leAt b 0 8) 31 0, ctxLen := bits (leAt b 8 8) 63 32, pt := leAt b 16 8 }

/-- The blocks that a step writes: those of the last q_len positions of every entry, with their page table. -/
def Device.blocksWritten (s : Device) (j : Job) (r : StepRun) : List (Nat × Nat) :=
  (List.range r.lenCount).flatMap fun i =>
    let e := s.lenEntry j r i
    let first := (e.ctxLen - e.qLen) / 64
    if e.qLen = 0 then [] else (List.range ((e.ctxLen + 63) / 64 - first)).map fun k => (e.pt, first + k)

/-- The pool and block whose shared frame keeps the control core from emitting a write descriptor into a buffer: the first that the step writes and whose
frame's count is above 1. -/
def Device.sharedBlock (s : Device) (j : Job) (dstBuf : Nat) : Option (Nat × Pool × Nat × Nat) :=
  match j.cur, s.work.pools.find? fun (p : Nat × Pool) => (s.job? p.2.job == some j) && p.2.framesBuf == dstBuf with
  | some r, some (p, x) =>
    ((s.blocksWritten j r).find? fun b => decide (b.1 + 8 * (b.2 + 1) ≤ (x.pts j).size) &&
      (s.pte x j b.1 b.2).valid && decide (1 < (s.frameRec x (s.pte x j b.1 b.2).frame).count)).map fun b => (p, x, b.1, b.2)
  | _, _ => none

/-- Before a write descriptor of channel 3 goes out, the control core runs COW for a block that the step writes and whose frame is shared. The state in which
the descriptor waits; none where it may go. -/
def Device.writeGuard (s : Device) (c : Nat) (j : Job) (dstBuf : Nat) : Option Device :=
  match s.sharedBlock j dstBuf with
  | none => none
  | some (p, x, pt, b) =>
    let m := masterId 2 c
    if s.copying m || !s.ctrlWorks c || !s.claspUp || s.isFrozen m then some s
    else match Device.cowStart (s.num O.opRetryLimit) s
        { key := 0, master := m, pool := p, pt := pt, b := b, frame := 0, target := 0, moved := 0, retries := 0, host := none, forWrite := true } m x j [] with
      | .wait => some (s.stall m x.metaBase)
      | .copies d => some d
      | .answer a => some a.s

/-! ## Rows 63 to 70: page operations of a control core -/

/-- A page operation of control core c: the pool is granted, the entry lies in the page-table buffer (R11), no COW of this control core is still copying. -/
def Device.pageRow (s : Device) (c p pt : Nat) (b : Option Nat) (f : Pool → Job → Option Ans) : Device :=
  let m := masterId 2 c
  if !s.ctrlWorks c || !s.claspUp || s.isFrozen m || s.copying m then s
  else match s.pool? p with
    | none => (s.deny .state).out
    | some x => match s.job? x.job with
      | none => (s.deny .state).out
      | some j => match b with
        | some b => if (x.pts j).size < pt + 8 * (b + 1) then (s.violation m 3 ((x.pts j).base + pt) 4 (0x40 + c)) else
          match f x j with
          | some a => a.out
          | none => s.stall m x.metaBase
        | none => match f x j with
          | some a => a.out
          | none => s.stall m x.metaBase

/-- One page operation as one transaction (R189). -/
def Device.pageOp1 (s : Device) (p m lost : Nat) (errs : List SymErr) (x : Pool) (f : Tx PageRes) : Option Ans :=
  pageEnd m x (Device.runTx (s.num O.opRetryLimit) s p m lost errs f)

/-- ALLOC (row 63). The last operand is the number of attempts that other masters' commits abort, with the symbol errors that its reads meet. -/
def execAlloc (c : Fin 32) (p : Fin 8) (pt : BitVec 64) (b : BitVec 32) (conflicts : Met (BitVec 16)) (s : State) : Outc := s.run fun (s : Device) =>
  s.pageRow c p pt.toNat (if b.toNat < 32768 then some b.toNat else none) fun x j =>
    s.pageOp1 p (masterId 2 c) conflicts.val.toNat conflicts.errs x (txAlloc p x j pt.toNat b.toNat)

/-- LOOKUP (row 64): 64 token ids, 256 bytes little-endian. -/
def execLookup (c : Fin 32) (p : Fin 8) (pt : BitVec 64) (b : BitVec 32) (tokens : Bytes) (conflicts : Met (BitVec 16)) (s : State) : Outc :=
  s.run fun (s : Device) =>
  s.pageRow c p pt.toNat (some b.toNat) fun x j =>
    s.pageOp1 p (masterId 2 c) conflicts.val.toNat conflicts.errs x (txLookup p (s.num (O.treeRootKey p)) x j pt.toNat b.toNat (padTo 256 tokens))

/-- INSERT (row 65): with the block's 64 token ids. -/
def execInsert (c : Fin 32) (p : Fin 8) (pt : BitVec 64) (b : KvBlock) (conflicts : Met (BitVec 16)) (s : State) : Outc := s.run fun (s : Device) =>
  s.pageRow c p pt.toNat (some b.index.toNat) fun x j =>
    s.pageOp1 p (masterId 2 c) conflicts.val.toNat conflicts.errs x
      (txInsert p (s.num (O.treeRootKey p)) x j pt.toNat b.index.toNat (padTo 256 b.tokens))

/-- A COW that begins, for an issuer: what becomes of it. -/
def Device.opCow (s : Device) (p m : Nat) (x : Pool) (j : Job) (pt b : Nat) (host : Option (Nat × Nat)) (errs : List SymErr) : CowOut :=
  Device.cowStart (s.num O.opRetryLimit) s
    { key := 0, master := m, pool := p, pt := pt, b := b, frame := 0, target := 0, moved := 0, retries := 0, host := host } m x j errs

/-- COW (row 66): answered here, or at the end of its copy. -/
def execCow (c : Fin 32) (p : Fin 8) (pt : BitVec 64) (b : Met (BitVec 32)) (s : State) : Outc := s.run fun (s : Device) =>
  let m := masterId 2 c
  if !s.ctrlWorks c || !s.claspUp || s.isFrozen m || s.copying m then s
  else match s.pool? p with
    | none => (s.deny .state).out
    | some x => match s.job? x.job with
      | none => (s.deny .state).out
      | some j =>
        if (x.pts j).size < pt.toNat + 8 * (b.val.toNat + 1) then (s.violation m 3 ((x.pts j).base + pt.toNat) 4 (0x40 + c))
        else match s.opCow p m x j pt.toNat b.val.toNat none b.errs with
          | .wait => s.stall m x.metaBase
          | .copies d => d
          | .answer a => a.out

/-- COW_COPY_END (row 67): the copy of the i-th COW in progress has ended. A host command's COW posts its completion; one begun for a write descriptor answers
nobody. -/
def execCowCopyEnd (i : BitVec 8) (s : State) : Outc := s.run fun (s : Device) =>
  (match s.work.cows[i.toNat]? with
   | none => s
   | some r =>
     if !s.claspUp then s
     else match s.pool? r.pool with
     | none => (s.cowGone r).endKey r.key 10
     | some x => match s.job? x.job with
       | none => (s.cowGone r).endKey r.key 10
       | some j => match s.cowEnd r x j with
         | none => s
         | some (d, none) => d
         | some (d, some a) => match r.host with
           | some (q, id) => d.hostDone q id a.st a.detail
           | none => if r.forWrite then d else ({ a with s := d } : Ans).reply)

/-- FILL (row 68). -/
def execFill (c : Fin 32) (p : Fin 8) (pt : BitVec 64) (b : BitVec 32) (n : BitVec 8) (conflicts : Met (BitVec 16)) (s : State) : Outc :=
  s.run fun (s : Device) =>
  s.pageRow c p pt.toNat (some b.toNat) fun x j =>
    s.pageOp1 p (masterId 2 c) conflicts.val.toNat conflicts.errs x (txFill x j pt.toNat b.toNat n.toNat)

/-- PAGE_RELEASE (row 69). -/
def execPageRelease (c : Fin 32) (p : Fin 8) (pt : BitVec 64) (b : BitVec 32) (conflicts : Met (List (BitVec 16))) (s : State) : Outc :=
  s.run fun (s : Device) =>
  s.pageRow c p pt.toNat (some 0) fun x j =>
    s.opRelease p (masterId 2 c) x j pt.toNat b.toNat (conflicts.val.map fun x => x.toNat) conflicts.errs

/-- PRUNE (row 70). -/
def execPrune (c : Fin 32) (p : Fin 8) (frame : BitVec 24) (conflicts : Met (BitVec 16)) (s : State) : Outc := s.run fun (s : Device) =>
  s.pageRow c p 0 none fun x _ => s.pageOp1 p (masterId 2 c) conflicts.val.toNat conflicts.errs x (txPrune p x frame.toNat)

end Sys2Proof.Machine
end

