-- ==== Sys2Proof/Machine/Elem.lean ====
section
/-! DEFINITION. The functions that the spec fixes to 2 ulp of the correctly rounded value (R111, R135, R177): the correctly rounded value,
computed to 512 fractional bits, and the result, a free choice within the bound that depends on the operand bits alone (log entry 10). -/

namespace Sys2Proof.Machine

/-! ## Fixed-point numbers: an integer n stands for n / 2^512 -/

def fxBits : Nat := 512
def fxOne : Int := 2 ^ fxBits
def fxMul (a b : Int) : Int := a * b / 2 ^ fxBits
def fxDiv (a b : Int) : Int := a * 2 ^ fxBits / b

/-- A finite value m × 2^e with e at least −512. -/
def fxOf (neg : Bool) (m : Nat) (e : Int) : Int := signedM neg (m * 2 ^ (e + fxBits).toNat)

/-- n terms of a series: of the i-th term t, `add i t` is added, and `next i t` is the term after it. -/
def fxSeries (next : Nat → Int → Int) (add : Nat → Int → Int) : Nat → Nat → Int → Int → Int
  | 0, _, _, acc => acc
  | n + 1, i, t, acc => fxSeries next add n (i + 1) (next i t) (acc + add i t)

/-- Squares n times. -/
def fxSquare : Nat → Int → Int
  | 0, x => x
  | n + 1, x => fxSquare n (fxMul x x)

/-- e^(−y) for y ≥ 0: the exponential series at y / 512, squared nine times; nothing of it is left above 512. -/
def fxExpNeg (y : Int) : Int :=
  if 512 * fxOne < y then 0
  else
    let z := y / 512
    fxSquare 9 (fxSeries (fun i t => -(fxMul t z / (i + 1 : Nat))) (fun _ t => t) 160 0 fxOne 0)

/-- 2 · artanh t for |t| ≤ 1/3, which is ln ((1 + t) / (1 − t)). -/
def fxLog (t : Int) : Int := let x := fxMul t t
  2 * fxSeries (fun _ t => fxMul t x) (fun i t => t / (2 * i + 1 : Nat)) 180 0 t 0

/-- arctan (1 / n). -/
def fxArctanInv (n : Nat) : Int :=
  fxSeries (fun _ t => -(t / (n * n : Nat))) (fun i t => t / (2 * i + 1 : Nat)) 140 0 (fxOne / (n : Nat)) 0

/-- π (Machin). -/
def fxPi : Int := 16 * fxArctanInv 5 - 4 * fxArctanInv 239

/-- The square root of a number that is not negative. -/
def fxSqrt (a : Int) : Int := let v := a.toNat * 2 ^ fxBits
  (isqrt v (Nat.log2 v / 2 + 1) 0 : Nat)

/-- σ(t) = 1 / (1 + e^(−t)), from the exponential that does not overflow. -/
def fxSigma (t : Int) : Int :=
  let e := fxExpNeg t.natAbs
  if 0 ≤ t then fxDiv fxOne (fxOne + e) else fxDiv e (fxOne + e)

/-- φ(x), the density of the normal distribution. -/
def fxDensity (x : Int) : Int := fxDiv (fxExpNeg (fxMul x x / 2)) (fxSqrt (2 * fxPi))

/-- Φ(x), its distribution function, for |x| ≤ 16: 1/2 + φ(x) Σ x^(2i+1) / (2i+1)!!. -/
def fxNormal (x : Int) : Int := let z := fxMul x x
  fxOne / 2 + fxMul (fxDensity x) (fxSeries (fun i t => fxMul t z / (2 * i + 3 : Nat)) (fun _ t => t) 900 0 x 0)

/-- 2u and its derivative in the tanh form of GELU: u = √(2/π) (x + 0.044715 x³); 0.5 (1 + tanh u) = σ(2u). -/
def fxGeluArg (x : Int) : Int :=
  fxMul (2 * fxSqrt (fxDiv (2 * fxOne) fxPi)) (x + fxMul x (fxMul x x) * 44715 / 1000000)
def fxGeluArg' (x : Int) : Int :=
  fxMul (2 * fxSqrt (fxDiv (2 * fxOne) fxPi)) (fxOne + 3 * fxMul x x * 44715 / 1000000)

/-! ## The correctly rounded values -/

/-- A fixed-point number rounded to binary32; a result that is 0 keeps the sign of the exact value. -/
def ofFx (neg : Bool) (v : Int) : F32 := toF32 (.fin (if v = 0 then neg else decide (v < 0)) v.natAbs (-fxBits))

/-- e^v for a finite v. -/
def expExact (neg : Bool) (m : Nat) (e : Int) : F32 :=
  if Fp.lt (.fin false 128 0) (.fin false m e) then (if neg then 0 else f32PosInf)
  else
    let y := fxExpNeg (fxOf false m e)
    ofFx false (if neg then y else fxDiv fxOne y)

/-- ln of m × 2^e. -/
def logExact (m : Nat) (e : Int) : F32 :=
  let k := Nat.log2 m
  let x := fxOf false m (-(k : Int))
  ofFx false (((k : Int) + e) * fxLog (fxOne / 3) + fxLog (fxDiv (x - fxOne) (x + fxOne)))

/-- 1 / √(m × 2^e). -/
def rsqrtExact (m : Nat) (e : Int) : F32 :=
  let v := 2 ^ (2 * (fxBits : Int) - e).toNat / m
  ofFx false (isqrt v (Nat.log2 v / 2 + 1) 0 : Nat)

/-- What a function of the list below is beyond |x| = 128, to the last bit of binary32: its limit, or x itself. -/
inductive FarVal where
  | zero | one | self
deriving DecidableEq, Repr

/-- Activations 0x11, 0x12 and 0x14 to 0x17 of Table 5.6 for |x| ≤ 128, and their values far to the left and far to the right. -/
def actExact (op : Nat) (x : Int) : Int × FarVal × FarVal :=
  let wide := decide (16 * fxOne < x.natAbs)
  match op with
  | 0x11 =>
    let e := fxExpNeg (2 * x.natAbs)
    let t := fxDiv (fxOne - e) (fxOne + e)
    (if x < 0 then -t else t, .one, .one)
  | 0x12 => (fxSigma x, .zero, .one)
  | 0x14 => (fxMul x (fxSigma (fxGeluArg x)), .zero, .self)
  | 0x15 => (if wide then (if x < 0 then 0 else x) else fxMul x (fxNormal x), .zero, .self)
  | 0x16 => (fxMul x (fxSigma x), .zero, .self)
  | _ =>
    let e := fxExpNeg x.natAbs
    ((if 0 ≤ x then x else 0) + fxLog (fxDiv e (2 * fxOne + e)), .zero, .self)

/-- The derivatives 2 to 7 of Table 4.6 for |x| ≤ 128, and their values far to the left and far to the right. -/
def derivExact (code : Nat) (x : Int) : Int × FarVal × FarVal :=
  let wide := decide (16 * fxOne < x.natAbs)
  match code with
  | 2 =>
    let g := fxSigma (fxGeluArg x)
    (g + fxMul (fxMul x (fxMul g (fxSigma (-fxGeluArg x)))) (fxGeluArg' x), .zero, .one)
  | 3 => (if wide then (if x < 0 then 0 else fxOne) else fxNormal x + fxMul x (fxDensity x), .zero, .one)
  | 4 => (fxMul (fxSigma x) (fxOne + fxMul x (fxSigma (-x))), .zero, .one)
  | 5 => (fxMul (fxSigma x) (fxSigma (-x)), .zero, .zero)
  | 6 =>
    let e := fxExpNeg (2 * x.natAbs)
    (fxDiv (4 * e) (fxMul (fxOne + e) (fxOne + e)), .zero, .zero)
  | _ => (fxSigma x, .zero, .one)

/-- The correctly rounded value of such a function at a finite x. A value that is 0 keeps the sign `odd` gives it: that of x where the function is x
times a positive one. -/
def roundedOf (f : Int → Int × FarVal × FarVal) (odd : Bool) (x : F32) : F32 :=
  match x.fp with
  | .fin n m e =>
    if Fp.lt (.fin false 128 0) (.fin false m e) then
      let r := f 0
      match (if n then r.2.1 else r.2.2) with
      | .zero => if odd && n then 0x80000000 else 0
      | .one => if odd && n then 0xBF800000 else f32One
      | .self => x
    else ofFx (odd && n) (f (fxOf n m e)).1
  | _ => f32Nan

/-! ## Results within 2 ulp -/

/-- The place of a binary32 that is no NaN in the order of all; both zeros have place 0. -/
def ordOf (x : F32) : Int := signedM (bit x.toNat 31) (x.toNat % 2 ^ 31)
def ofOrd (i : Int) : F32 := if i < 0 then BitVec.ofNat 32 (2 ^ 31 + i.natAbs) else BitVec.ofNat 32 i.toNat

/-- Is a value finite and within 2 ulp of a finite one? -/
def near2 (c y : F32) : Bool :=
  match c.fp with
  | .fin _ _ e => match y.fp with
    | .fin _ _ _ => match c.fp.add y.fp.neg with
      | .fin _ m f => !Fp.lt (.fin false 2 e) (.fin false m f)
      | _ => false
    | _ => false
  | _ => false

/-- The values within 2 ulp of a finite one that a rule of the spec admits. -/
def within2 (c : F32) (ok : F32 → Bool) : List F32 :=
  (((List.range 9).map fun i => ofOrd (ordOf c + (i : Int) - 4)) ++ [0x80000000]).filter fun y => near2 c y && ok y

/-- The result of the fixed algorithm of a function: a free choice among them, which depends on the function and on the operands alone. -/
def approx (f : Nat) (args : List F32) (ok : F32 → Bool) (c : F32) : F32 :=
  if !c.fp.finite then c
  else
    let l := within2 c ok
    l.getD (Config.ulps f args % l.length) c

/-- What R177 says of an exponential: not below +0, and below 1 for an argument below 0. -/
def expOk (neg : Bool) (y : F32) : Bool := !bit y.toNat 31 && (!neg || decide (y.toNat < 0x3F800000))

/-- e^v for an exact v: 1 at ±0, +0 at −∞ (R177). -/
def expOf (f : Nat) (args : List F32) (v : Fp) : F32 :=
  match v with
  | .nan => f32Nan
  | .inf n => if n then 0 else f32PosInf
  | .fin n m e => if m = 0 then f32One else approx f args (expOk n) (expExact n m e)

/-- EXP. -/
def fexp (a : F32) : F32 := expOf 0x0F [a] a.fp

/-- e^(a − b), with the exact difference (Table 5.6, R138). -/
def fexpDiff (a b : F32) : F32 := expOf 0x1B [a, b] (a.fp.add b.fp.neg)

/-- ln a: −∞ at zero, NaN below it (R135). -/
def flog (a : F32) : F32 :=
  match a.fp with
  | .nan => f32Nan
  | .inf n => if n then f32Nan else f32PosInf
  | .fin n m e => if m = 0 then f32NegInf else if n then f32Nan else approx 0x10 [a] (fun _ => true) (logExact m e)

/-- 1 / √a: +∞ at +0 (R135). -/
def frsqrt (a : F32) : F32 :=
  match a.fp with
  | .nan => f32Nan
  | .inf n => if n then f32Nan else 0
  | .fin n m e => if m = 0 then (if n then f32NegInf else f32PosInf) else if n then f32Nan
                  else approx 0x0D [a] (fun _ => true) (rsqrtExact m e)

/-- Is an activation x times a positive function, or tanh: it keeps the sign of a zero? -/
def actOdd (op : Nat) : Bool := op == 0x11 || op == 0x14 || op == 0x15 || op == 0x16

/-- TANH, SIGMOID, GELU_TANH, GELU_ERF, SILU, SOFTPLUS. At −∞ the formulas of the three that are a times a function of a give −∞ · 0: a free value. -/
def fact (op : Nat) (a : F32) : F32 :=
  match a.fp with
  | .nan => f32Nan
  | .inf n =>
    if n then (if op = 0x11 then 0xBF800000 else if op = 0x12 || op = 0x17 then 0 else canon (Config.actAtInf op))
    else if op = 0x11 || op = 0x12 then f32One else f32PosInf
  | .fin _ _ _ => approx op [a] (fun _ => true) (roundedOf (actExact op) (actOdd op) a)

/-- f′(x) of Table 4.6 for codes 1 to 7 (R111, R112); −0 is treated as +0. -/
def fderiv (code : Nat) (x : F32) : F32 :=
  match x.fp with
  | .nan => f32Nan
  | .inf n => if code = 5 || code = 6 then 0 else if n then 0 else f32One
  | .fin n m _ =>
    if code = 1 then (if !n && m ≠ 0 then f32One else 0)
    else
      let y : F32 := if m = 0 then 0 else x
      approx (0x100 + code) [y] (fun _ => true) (roundedOf (derivExact code) false y)

end Sys2Proof.Machine
end

