-- ==== Sys2Proof/Machine/Tensor.lean ====
section
/-! DEFINITION. Tensors in memory: the numeric word (R75), stream addresses (R101, R104 to R106), elements under block scales (R72, R84),
writing a matrix through Facet (R74, R78 to R81), and Loupe (R89 to R93). -/

namespace Sys2Proof.Machine

/-! ## The numeric word (Table 3.4) -/

def numTensor (w : Nat) : Nat := bits w 31 16
def numFmt (w : Nat) : Nat := bits w 12 8
def numBlock (w : Nat) : Nat := bits w 7 5
def numRtz (w : Nat) : Bool := bit w 4
def numCount (w : Nat) : Bool := bit w 3

/-- Is a numeric word accepted (R75)? -/
def numOk (w : Nat) : Bool := pairOk (numFmt w) (numBlock w)

/-! ## A matrix through Facet -/

/-- An encoded matrix: rows of element codes, padded to whole blocks; rows of scale codes; what each element was and became, as input,
zero on output, saturated; and Facet's counts. -/
structure Encoded where
  codes : List (List Nat)
  scales : List (List Nat)
  elts : List (F32 × Bool × Bool)
  low : Nat
  high : Nat
  nan : Nat
deriving DecidableEq, Repr

/-- Rounds up to a multiple. -/
def roundUp (n d : Nat) : Nat := (n + d - 1) / d * d

/-- Does an element code decode to ±0? -/
def codeZero (f : Fmt) (scale : Nat) (c : Nat) : Bool :=
  scale != 0xFF && (if f.isInt then c == 0 else c % 2 ^ (f.w - 1) == 0)

/-- The real elements of block (i, j), row-major. -/
def blockElems (h w rows cols i j : Nat) (val : Nat → Nat → F32) : List F32 :=
  (List.range (min h (rows - i * h))).flatMap fun r => (List.range (min w (cols - j * w))).map fun c => val (i * h + r) (j * w + c)

/-- Encodes a matrix of rows × cols values under a numeric word (R74, R76, R78, R81). -/
def encodeMatrix (num rows cols : Nat) (val : Nat → Nat → F32) : Encoded :=
  let f := fmt! (numFmt num)
  let rtz := numRtz num
  let b := numBlock num
  if b = 0 then
    let l := (List.range rows).map fun r => (List.range cols).map fun c => (val r c, f.narrow rtz (val r c).fp)
    { codes := l.map fun r => r.map fun p => p.2.1, scales := [],
      elts := l.flatMap fun r => r.map fun p => (p.1, codeZero f 127 p.2.1, p.2.2), low := 0, high := 0, nan := 0 }
  else
    let h := (blockShape b).1
    let w := (blockShape b).2
    let bi := (rows + h - 1) / h
    let bj := (cols + w - 1) / w
    let blks := (List.range bi).map fun i => (List.range bj).map fun j =>
      let xs := blockElems h w rows cols i j val
      (xs, encodeBlock f rtz xs)
    let at_ (r c : Nat) : Nat :=
      if r < rows && c < cols then
        let wr := min w (cols - c / w * w)
        (((blks.getD (r / h) []).getD (c / w) ([], { scale := 0, codes := [] })).2.codes.getD (r % h * wr + c % w) (0, false)).1
      else 0
    let all := blks.flatten
    { codes := (List.range (bi * h)).map fun r => (List.range (bj * w)).map fun c => at_ r c,
      scales := blks.map fun r => r.map fun p => p.2.scale,
      elts := all.flatMap fun p => (p.1.zip p.2.codes).map fun q => (q.1, codeZero f p.2.scale q.2.1, q.2.2),
      low := (all.filter fun p => p.2.low).length, high := (all.filter fun p => p.2.high).length,
      nan := (all.filter fun p => p.2.nanBlk).length }

/-- Facet's own counters (R80). -/
def Device.facetCount (s : Device) (e : Encoded) : Device :=
  let s : Device := if e.low = 0 then s else s.bump O.facetLowClamps e.low
  let s : Device := if e.high = 0 then s else s.bump O.facetHighClamps e.high
  if e.nan = 0 then s else s.bump O.facetNanBlocks e.nan

/-! ## Loupe (R89 to R93) -/

def satAdd (a b : Nat) : Nat := min (a + b) (2 ^ 64 - 1)

/-- Counts one element in a row (R89). -/
def LoupeRow.count (r : LoupeRow) (x : F32 × Bool × Bool) : LoupeRow :=
  let r := { r with elements := satAdd r.elements 1, zeros := satAdd r.zeros x.2.1.toNat, sats := satAdd r.sats x.2.2.toNat }
  match x.1.fp with
  | .fin _ m e =>
    let r := { r with maxMag := if flt r.maxMag (fabs x.1) then fabs x.1 else r.maxMag }
    if m = 0 then r
    else
      let b := (max 0 (min 31 (floorLog2 m e - (r.histTop - 31)))).toNat
      { r with bins := r.bins.set b (satAdd (r.bins.getD b 0) 1) }
  | _ => { r with nonfin := satAdd r.nonfin 1 }

/-- Counts the elements of a stream (R89, R92): in the live entry of its tensor, or among the untracked ones. -/
def Device.loupeCount (s : Device) (job : Option Nat) (num : Nat) (elts : List (F32 × Bool × Bool)) : Device :=
  let j := job.getD 0xFF
  if !numCount num || s.loupe.muted.contains j || elts.isEmpty then s
  else if numTensor num != 0xFFFF && s.loupe.live.any (fun r => r.job == j && r.tensor == numTensor num) then
    { s with loupe := { s.loupe with live := s.loupe.live.map fun r =>
        if r.job == j && r.tensor == numTensor num then elts.foldl LoupeRow.count r else r } }
  else s.bump O.loupeUntrackedElements elts.length

/-! ## Stream descriptors (Table 4.5) -/

/-- The fields of a descriptor as numbers. -/
def Stream.fields (st : Stream) : List Nat :=
  [st.base, st.scaleBase, st.fmt, st.block, st.transpose.toNat, st.r0Pitch, st.r1Pitch, st.r0Count, st.sr0, st.sr1, st.numeric]

/-- Decodes a descriptor of 24 bytes. -/
def Stream.decode (b : Bytes) : Stream :=
  let w0 := leAt b 0 8
  let w1 := leAt b 8 8
  let w2 := leAt b 16 8
  { base := bits w0 63 42, scaleBase := bits w0 41 20, fmt := bits w0 19 15, block := bits w0 14 12, transpose := bit w0 11,
    r0Pitch := bits w1 63 40, r1Pitch := bits w1 39 16, r0Count := bits w1 15 8,
    sr0 := bits w2 63 48, sr1 := bits w2 47 32, numeric := bits w2 31 0 }

/-- addr(r) of R104. -/
def Stream.row (st : Stream) (r : Nat) : Nat := st.base + r / st.r0Count * st.r1Pitch + r % st.r0Count * st.r0Pitch

/-- The address of the scale of block row i, or of row r, and block j (R106). -/
def Stream.scaleAt (st : Stream) (block r j : Nat) : Nat :=
  if is2D block then st.scaleBase + r / (blockShape block).1 * st.sr0 + j
  else st.scaleBase + r / st.r0Count * st.sr1 + r % st.r0Count * st.sr0 + j

/-- Element (r, k) of a stream in a core's memory, decoded under its scale (R104 to R106). -/
def Device.streamElem (s : Device) (n : Nat) (st : Stream) (r k : Nat) : Fp :=
  let f := fmt! st.fmt
  let line := if st.transpose then st.base + k * st.r0Pitch else st.row r
  let pos := if st.transpose then r else k
  let raw := packAt f.w (s.cmGet n (line + pos * f.w / 8) ((pos * f.w % 8 + f.w + 7) / 8)) 0
  let off := pos * f.w % 8
  let v := leNat (s.cmGet n (line + pos * f.w / 8) ((off + f.w + 7) / 8)) / 2 ^ off % 2 ^ f.w
  if st.block = 0 then f.decode (if off = 0 then raw else v)
  else
    let w := (blockShape st.block).2
    let sc := if st.transpose then st.scaleAt st.block k (r / w) else st.scaleAt st.block r (k / w)
    decodeElem f (some (leNat (s.cmGet n sc 1))) (if off = 0 then raw else v)

/-- Extent along the reduction axis of an operand's blocks; an unscaled operand counts as 16 (R82). -/
def Stream.group (st : Stream) : Nat :=
  if st.block = 0 then 16 else if st.transpose then (blockShape st.block).1 else (blockShape st.block).2

/-- The byte ranges a read of rows × cols elements touches, scales included (R103). -/
def Stream.reads (st : Stream) (rows cols : Nat) : List (Nat × Nat) :=
  let w := fmtBits st.fmt
  if rows = 0 || cols = 0 then []
  else
    let data := if st.transpose then (List.range cols).map fun k => (st.base + k * st.r0Pitch, rowBytes w rows)
                else (List.range rows).map fun r => (st.row r, rowBytes w cols)
    if st.block = 0 then data
    else
      let bw := (blockShape st.block).2
      data ++ (if st.transpose then (List.range cols).map fun k => (st.scaleAt st.block k 0, (rows + bw - 1) / bw)
               else (List.range rows).map fun r => (st.scaleAt st.block r 0, (cols + bw - 1) / bw))

/-- The byte ranges a write of rows × cols elements through Facet touches (R74, R103, R108). -/
def Stream.writes (st : Stream) (rows cols : Nat) : List (Nat × Nat) :=
  let num := st.numeric
  let w := fmtBits (numFmt num)
  let b := numBlock num
  let h := (blockShape b).1
  let bw := (blockShape b).2
  let data := (List.range (roundUp rows h)).map fun r => (st.row r, rowBytes w (roundUp cols bw))
  if b = 0 then data
  else data ++ (List.range rows).map fun r => (st.scaleAt b r 0, (cols + bw - 1) / bw)

/-- Does some range reach beyond core memory (R103)? -/
def beyondCm (l : List (Nat × Nat)) : Bool := l.any fun p => decide (cmBytes < p.1 + p.2)

/-- Constraints of R105 and R106 on an operand that is read. Its first row is the one at its base, and so begins a block (DEDUCED, log entry 135). -/
def Stream.readOk (st : Stream) : Bool :=
  decide (1 ≤ st.r0Count) && decide (st.r0Count ≤ 64) && pairOk st.fmt st.block &&
  (!st.transpose || (st.r0Count == 64 && aligned st.r0Pitch 64 && !is1D st.block)) &&
  (!is2D st.block || st.r0Count == 64)

/-- Constraints of R108 on OUT. -/
def Stream.writeOk (st : Stream) : Bool :=
  decide (1 ≤ st.r0Count) && decide (st.r0Count ≤ 64) && numOk st.numeric && numBlock st.numeric != 4 &&
  (!is2D (numBlock st.numeric) || st.r0Count == 64)

/-- A tile's element that nothing supplies (R98, R130): free, a function of the command, of the core's memory and of the accumulators it starts from
(R86). -/
def Device.outside (s : Device) (n : Nat) (cmd : List Nat) (old : Tile) (i : Nat) : F32 :=
  Config.outside cmd ((s.mem.cm.filter fun p => p.1 / cmBytes == n).map fun p => (p.1 % cmBytes, p.2)) old i

/-- Writes a tile of a core through Facet (R108, R133), and counts it. Of a scale row only the scales of the blocks are written, no pad byte (DESIGN CHOICE, log
entry 136). -/
def Device.storeTile (s : Device) (n : Nat) (out : Stream) (rows cols : Nat) (val : Nat → Nat → F32) : Device :=
  let num := out.numeric
  let e := encodeMatrix num rows cols val
  let w := fmtBits (numFmt num)
  let b := numBlock num
  let s : Device := (e.codes.zip (List.range e.codes.length)).foldl (fun (s : Device) p => s.cmPut n (out.row p.2) (packRow w p.1)) s
  let s : Device := (e.scales.zip (List.range e.scales.length)).foldl (fun (s : Device) p =>
    s.cmPut n (out.scaleAt b (p.2 * (blockShape b).1) 0) (p.1.map fun c => BitVec.ofNat 8 c)) s
  (s.facetCount e).loupeCount (s.occupant n) num e.elts

/-- A tile's element; a missing tail reads as +0. -/
def tileAt (t : Tile) (r c : Nat) : F32 := t.getD (64 * r + c) 0

/-- A tile from its elements. -/
def mkTile (f : Nat → Nat → F32) : Tile := (List.range 4096).map fun i => f (i / 64) (i % 64)

/-- A binary32 in a core's memory. -/
def Device.cmF32 (s : Device) (n a : Nat) : F32 := BitVec.ofNat 32 (leNat (s.cmGet n a 4))

/-- Reads a piecewise table (R113); none where it is refused. -/
def Device.polyTable (s : Device) (n a : Nat) : Option Poly :=
  if !aligned a 16 then none
  else polyOf (leNat (s.cmGet n a 1)) fun i f => s.cmF32 n (a + 16 + 20 * i + 4 * f)

/-- Bytes a piecewise table occupies. -/
def Device.polyBytes (s : Device) (n a : Nat) : Nat := 16 + 20 * leNat (s.cmGet n a 1)

/-! ## Errors of core and cluster memory (R120, R153) -/

/-- Is there a double-bit error among the hits? -/
def anyDouble (l : List EccHit) : Bool := l.any fun h => h.2

/-- The events and counters of errors in core memory (R120). -/
def Device.cmErrors (s : Device) (n : Nat) (l : List EccHit) : Device :=
  let c := n / 16
  let k := n % 16
  l.foldl (fun (s : Device) h =>
    let s : Device := if h.2 then s.bump (O.cmemUncorrected c k) else s.bump (O.cmemCorrected c k)
    let s : Device := s.setNum (O.cmemLastErrorAddress c k) h.1.toNat
    let m := match s.occupant n with
      | some j => masterId 1 j
      | none => 0xFFFF
    s.event { cls := if h.2 then 2 else 1, unit := 1, node := 0x40 + c, elem := k, master := m,
              status := if h.2 then Status.code .uncorrected else 0, addr := h.1.toNat }) s

/-- The events and counters of errors in cluster memory (R153). -/
def Device.clmErrors (s : Device) (c : Nat) (l : List EccHit) : Device :=
  l.foldl (fun (s : Device) h =>
    let s : Device := if h.2 then s.bump (O.clmemUncorrected c) else s.bump (O.clmemCorrected c)
    let s : Device := s.setNum (O.clmemLastErrorAddress c) h.1.toNat
    s.event { cls := if h.2 then 2 else 1, unit := 3, node := 0x40 + c, elem := h.1.toNat / 128 % 32,
              status := if h.2 then Status.code .uncorrected else 0, addr := h.1.toNat }) s

end Sys2Proof.Machine
end

