-- ==== Sys2Proof/Machine/Sequencer.lean ====
section
/-! DEFINITION. The sequencer and the matrix engine of a core (04_core_matrix_engine.md, rows 23 to 34 and 39): command lists, MMA and
its checks, the array, the drain, the finished-tile queue, the direct-store port, fences and waits, and patrol scrub. -/

namespace Sys2Proof.Machine

/-! ## When a core executes -/

/-- Is a core past the cheap point of a hand-over, so that its units no longer start anything (Table 16.7)? -/
def Device.coreHeld (s : Device) (n : Nat) : Bool :=
  match tget? s.work.hands n with
  | some h => h.stage != HandStage.toCheap
  | none => false

/-- A core's units work: its cluster runs, a job occupies it, and no hand-over has taken its state away. A core that saves in full
lets the command that runs end first (R391 step 3). -/
def Device.coreLive (s : Device) (n : Nat) : Bool :=
  s.coreRuns n && (s.occupant n).isSome &&
    (match tget? s.work.hands n with
     | some h => h.stage == HandStage.toCheap || h.stage == HandStage.full
     | none => true)

/-- The array of a core that saves in full ends the command that ran at the timeout, and starts no other (R391 step 3). -/
def Device.arrayMay (s : Device) (n : Nat) : Bool :=
  match tget? s.work.hands n with
  | some h => !(h.stage == HandStage.full && h.arrayDone)
  | none => true

/-- That command has ended. -/
def Device.arrayOver (s : Device) (n : Nat) : Device :=
  match tget? s.work.hands n with
  | some h => if h.stage == HandStage.full then { s with work := { s.work with hands := tput s.work.hands n { h with arrayDone := true } } } else s
  | none => s

/-- The row of the cheap-point table that names an entry of a core's list (R390): its offset in the job's HBM space. -/
def Device.cheapRow (s : Device) (x : Job) (n pc : Nat) : Option Nat :=
  (List.range (x.at_ 84 2)).findSome? fun i =>
    let o := x.at_ 112 8 + 16 * i
    if s.spaceLe x o 1 == n / 16 && s.spaceLe x (o + 1) 1 == n % 16 && s.spaceLe x (o + 4) 4 == pc then some o else none

/-- The fields of the command-list entry at an address (Table 4.3): kind, channel, argument. -/
def Device.listEntry (s : Device) (n pc : Nat) : Nat × Nat × Nat :=
  let b := s.cmGet n pc 16
  (bits (leAt b 0 8) 63 60, bits (leAt b 0 8) 59 58, leAt b 8 8)

/-- Is a core at a cheap point: idle, or before an END or an entry that its job's table names (R390)? -/
def Device.atCheap (s : Device) (n : Nat) : Bool :=
  let c := s.core n
  c.seq == SeqState.idle || c.seq == SeqState.stopped ||
    (c.seq == SeqState.run && ((s.listEntry n c.pc).1 == 6 ||
      (match s.occupant n with
       | some j => match s.job? j with
         | some x => (s.cheapRow x n c.pc).isSome
         | none => false
       | none => false)))

/-- A test of a core unit runs on the core: the sequencer issues nothing (R478). -/
def Device.coreTested (s : Device) (n : Nat) : Bool :=
  s.errs.running.any fun p => decide (p.2.unit ≤ 2) && p.2.node == 0x40 + n / 16 && p.2.elem == n % 16

/-- The sequencer may issue: it runs, and no hand-over stops it before a cheap point (R390). -/
def Device.seqReady (s : Device) (n : Nat) : Bool :=
  s.coreRuns n && (s.occupant n).isSome && (s.core n).seq == SeqState.run && !s.coreHeld n && !s.coreTested n &&
    !((tget? s.work.hands n).isSome && s.atCheap n)

/-- A refused command: the status object, the stop and the job's news (R102, R146). -/
def Device.refuse (s : Device) (n obj : Nat) (st : Status) : Device := (s.setNum obj st.code).stopCore n st

/-- A job's record of a core is no longer valid (R392, R480). -/
def Device.dropRecord (s : Device) (j n : Nat) : Device :=
  s.modJob j fun x => match tget? x.recs n with
    | some r => if r.valid then { x with recs := tput x.recs n { r with valid := false } } else x
    | none => x

/-- The sequencer has issued the entry at the pc: it goes on to the next one, and a record restored before is no longer valid (R392). -/
def Device.advance (s : Device) (n : Nat) : Device :=
  let c := s.core n
  let s : Device := s.setCore n { c with pc := (c.pc + 16) % cmBytes }
  match s.occupant n with
  | some j => s.dropRecord j n
  | none => s

/-- The sequencer executes the entry at its pc when it is of the row's kind; an undefined kind is refused with E_MALFORMED (Table 4.3). -/
def Device.seqRow (s : Device) (n kind : Nat) (f : Nat → Nat → Device) : Device :=
  if s.seqReady n then
    let e := s.listEntry n (s.core n).pc
    if e.1 = kind then f e.2.1 e.2.2
    else if e.1 = 0 || 7 ≤ e.1 then s.refuse n (O.lastCommandStatus (n / 16) (n % 16)) .malformed
    else s
  else s

/-! ## MMA (R100 to R103, R105 to R108, R110, R113) -/

/-- Decodes a command of 128 bytes; its piecewise table is read separately. -/
def Mma.decode (b : Bytes) : Mma :=
  let w := leAt b 0 8
  { mRows := bits w 55 49, nCols := bits w 48 42, k := bits w 41 30, acc := bits w 29 28, fn := bits w 27 24, dest := bits w 23 22,
    polyBase := bits (leAt b 8 8) 63 42,
    a := Stream.decode (slice b 16 24), b := Stream.decode (slice b 40 24), x := Stream.decode (slice b 64 24),
    out := Stream.decode (slice b 88 24) }

/-- Does a bank stay held behind the commands issued so far (R107)? -/
def CoreSt.chainHeld (c : CoreSt) : Bool :=
  match c.arrayQ.getLast? with
  | some m => m.dest == 2
  | none => c.banks.any fun b => b.st == BankState.held

/-- Is the head of the array command queue in the array: a bank is there for it (R114)? -/
def CoreSt.arrayRuns (c : CoreSt) : Bool :=
  match c.arrayQ.head? with
  | some m => if m.acc = 1 then c.banks.any fun b => b.st == BankState.held else c.banks.any fun b => b.st == BankState.free
  | none => false

/-- Commands that wait for the array; four fill its queue (R99). -/
def CoreSt.arrayWaits (c : CoreSt) : Nat := c.arrayQ.length - (if c.arrayRuns then 1 else 0)

/-- A format the array accepts (R97). -/
def arrayFmt (f : Nat) : Bool := decide (1 ≤ f) && decide (f ≤ 10)

/-- Steps 1 to 3 of R102. -/
def Mma.formOk (m : Mma) : Bool :=
  decide (1 ≤ m.mRows) && decide (m.mRows ≤ 64) && decide (1 ≤ m.nCols) && decide (m.nCols ≤ 64) && decide (m.acc ≤ 1) &&
  decide (m.dest ≤ 2) && decide (m.fn ≤ 8) && (m.dest != 2 || m.fn == 0) &&
  arrayFmt m.a.fmt && arrayFmt m.b.fmt && m.a.readOk && m.b.readOk &&
  (m.fn == 0 || (m.x.readOk && !m.x.transpose)) && (m.dest != 1 || m.out.writeOk)

/-- The ranges a command touches (R103). -/
def Mma.extents (m : Mma) : List (Nat × Nat) :=
  m.a.reads m.mRows m.k ++ m.b.reads m.nCols m.k ++ (if m.fn = 0 then [] else m.x.reads m.mRows m.nCols) ++
    (if m.dest = 1 then m.out.writes m.mRows m.nCols else [])

/-- The checks of R102 and the issue of a command. -/
def Device.issueMma (s : Device) (n a : Nat) : Device :=
  let c := s.core n
  let obj := O.lastCommandStatus (n / 16) (n % 16)
  let raw := s.cmGet n a 128
  let m := Mma.decode raw
  if 4 ≤ c.arrayWaits then s
  else if !aligned a 128 || cmBytes < a + 128 || leAt raw 7 1 ≠ 0x10 || !m.formOk then s.refuse n obj .range
  else if (m.acc == 1) != c.chainHeld then s.refuse n obj .state
  else match (if m.fn = 8 then (if cmBytes < m.polyBase + s.polyBytes n m.polyBase then none else s.polyTable n m.polyBase)
              else some []) with
    | none => s.refuse n obj .range
    | some t =>
      if beyondCm m.extents then
        s.coreViolation n 6 1
      else
        let at_ := if c.arrayQ.isEmpty then s.uptime else c.arrayAt
        (s.setCore n { c with arrayQ := c.arrayQ ++ [{ m with poly := t }], arrayAt := at_ }).advance n

/-- MMA (row 23). -/
def execMma (c : Fin 32) (k : Fin 16) (s : State) : Outc := s.run fun (s : Device) =>
  (s.seqRow (coreNo c k) 1 fun _ a => s.issueMma (coreNo c k) a)

/-! ## The array (R82, R83, R97, R98, R105) -/

/-- w of R98 in halves: the rate of the wider operand. -/
def Mma.halfRate (m : Mma) : Nat :=
  let w := max (fmtBits m.a.fmt) (fmtBits m.b.fmt)
  if w = 16 then 4 else if w = 8 then 2 else 1

/-- The compute time T (R98). -/
def Mma.cycles (m : Mma) : Nat := 16 * ((m.k + 15) / 16) * m.halfRate / 2

/-- The factor of a transposed read whose pitch is an even number of lines (R105). -/
def Stream.slow (st : Stream) : Nat := if st.transpose then (if st.r0Pitch / 64 % 2 = 1 then 1 else Nat.gcd (st.r0Pitch / 64) 16) else 1

/-- One K-group of an output element, summed exactly (R82). K is padded to steps of 16 with zero products. -/
def Device.groupSum (s : Device) (n : Nat) (m : Mma) (r c g i : Nat) : Fp :=
  (List.range (min g (m.k - g * i))).foldl (fun (x : Fp) k =>
    x.add ((s.streamElem n m.a r (g * i + k)).mul (s.streamElem n m.b c (g * i + k)))) (.fin false 0 0)

/-- An accumulator after a command (R82): groups in increasing K order, each added with one rounding. -/
def Device.dotAcc (s : Device) (n : Nat) (m : Mma) (r c : Nat) (acc : F32) : F32 :=
  let g := min m.a.group m.b.group
  (List.range ((roundUp m.k 16 + g - 1) / g)).foldl (fun (x : F32) i => toF32 (x.fp.add (s.groupSum n m r c g i))) acc

/-- The fields of a command as numbers. -/
def Mma.fields (m : Mma) : List Nat := [1, m.mRows, m.nCols, m.k, m.acc, m.fn, m.dest] ++ m.a.fields ++ m.b.fields ++ m.x.fields ++ m.out.fields

/-- Rows and columns beyond the command are computed and discarded: their values are free (R98, log entry 3). -/
def Device.arrayTile (s : Device) (n : Nat) (m : Mma) (old : Tile) : Tile :=
  mkTile fun r c =>
    if r < m.mRows && c < m.nCols then s.dotAcc n m r c (if m.acc = 1 then tileAt old r c else 0)
    else s.outside n m.fields old (64 * r + c)

/-- Takes the bank of the command that ends: the held one, or the first free one. -/
def CoreSt.bankFor (c : CoreSt) (m : Mma) : Option (Bank × List Bank) :=
  let want := if m.acc = 1 then BankState.held else BankState.free
  match c.banks.findIdx? fun b => b.st == want with
  | some i => some (c.banks.getD i {}, c.banks.eraseIdx i)
  | none => none

/-- The command at the head of the array's queue ends: its bank is held, or full and waits for its drain. Finished banks stand last,
so that drains go in the order of the commands. -/
def Device.computeEnd (s : Device) (n : Nat) (bankCycles stall : Nat) (hits : List EccHit) : Device :=
  let c := s.core n
  match c.arrayQ with
  | [] => s
  | m :: rest => match c.bankFor m with
    | none => s
    | some (b, others) =>
      let q := n / 16
      let k := n % 16
      let start := c.arrayAt
      let f := max m.a.slow m.b.slow
      let s : Device := s.bump (O.arrayBusyCycles q k) m.cycles
      let s : Device := s.bump (O.operandStallCycles q k) (m.cycles * (f - 1) + bankCycles)
      let s : Device := s.bump (O.queueStallCycles q k) stall
      let s : Device := (s.cmErrors n hits).noteRun n start
      if anyDouble hits then
        let left := rest.dropWhile fun x => x.acc == 1
        let s : Device := s.setCore n { c with arrayQ := left, arrayAt := s.uptime, banks := others ++ [({} : Bank)] }
        s.refuse n (O.lastCommandStatus q k) .uncorrected
      else
        let t := s.arrayTile n m b.tile
        let nb : Bank := { st := if m.dest = 2 then .held else .full, tile := t, cmd := some m }
        s.setCore n { c with arrayQ := rest, arrayAt := s.uptime, banks := others ++ [nb] }

/-- ARRAY_COMPUTE_END (row 24). The operands are the cycles lost to bank arbitration (R119), the cycles the array stalled for want of a
bank (R114) and the errors met (R120). -/
def execArrayComputeEnd (c : Fin 32) (k : Fin 16) (bankCycles stall : BitVec 32) (hits : List EccHit) (s : State) : Outc := s.run fun (s : Device) =>
  (if s.coreLive (coreNo c k) && s.arrayMay (coreNo c k) then
     (s.computeEnd (coreNo c k) bankCycles.toNat stall.toNat hits).arrayOver (coreNo c k)
   else s)

/-! ## Drain and queue (R110 to R115) -/

/-- A drain starts: the oldest finished bank claims an entry. -/
def Device.drainStart (s : Device) (n : Nat) : Device :=
  let c := s.core n
  if c.banks.any (fun b => b.st == BankState.draining) || 8 ≤ c.queue.length then s
  else match c.banks.findIdx? fun b => b.st == BankState.full with
    | none => s
    | some i =>
      let b := c.banks.getD i {}
      match b.cmd with
      | none => s
      | some m =>
        let s : Device := s.setCore n { c with banks := c.banks.set i { b with st := .draining },
                                               queue := c.queue ++ [({ cmd := m } : QEntry)] }
        let peak := O.queuePeak (n / 16) (n % 16)
        if s.num peak < c.queue.length + 1 then s.setNum peak (c.queue.length + 1) else s

/-- DRAIN_START (row 25). -/
def execDrainStart (c : Fin 32) (k : Fin 16) (s : State) : Outc := s.run fun (s : Device) =>
  (if s.coreLive (coreNo c k) then s.drainStart (coreNo c k) else s)

/-- The tile a drain puts out (R110, R112). -/
def Device.drained (s : Device) (n : Nat) (m : Mma) (t : Tile) : Tile :=
  if m.fn = 0 then t
  else mkTile fun r c =>
    if r < m.mRows && c < m.nCols then
      let x := toF32 (s.streamElem n m.x r c)
      fmul (tileAt t r c) (if m.fn = 8 then polyEval m.poly x else fderiv m.fn x)
    else tileAt t r c

/-- A drain ends. -/
def Device.drainEnd (s : Device) (n : Nat) (hits : List EccHit) : Device :=
  let c := s.core n
  match c.banks.findIdx? fun b => b.st == BankState.draining with
  | none => s
  | some i =>
    let b := c.banks.getD i {}
    match b.cmd with
    | none => s
    | some m =>
      let banks := c.banks.set i {}
      let s : Device := s.cmErrors n hits
      if anyDouble hits then
        (s.setCore n { c with banks := banks, queue := c.queue.filter fun e => e.filled }).refuse n
          (O.lastCommandStatus (n / 16) (n % 16)) .uncorrected
      else
        let e : QEntry := { filled := true, cmd := m, tile := s.drained n m b.tile }
        (s.setCore n { c with banks := banks, queue := c.queue.map fun x => if x.filled then x else e }).bump
          (O.tilesDrained (n / 16) (n % 16))

/-- DRAIN_END (row 26). The operand names the errors met in stream X. -/
def execDrainEnd (c : Fin 32) (k : Fin 16) (hits : List EccHit) (s : State) : Outc := s.run fun (s : Device) =>
  (if s.coreLive (coreNo c k) then s.drainEnd (coreNo c k) hits else s)

/-- Words in which a partial write met a double-bit error are not written (R120). -/
def Device.keepWords (s old : Device) (n : Nat) (hits : List EccHit) : Device :=
  (hits.filter fun h => h.2).foldl (fun (s : Device) h =>
    s.cmPut n (h.1.toNat % cmBytes / 8 * 8) (old.cmGet n (h.1.toNat % cmBytes / 8 * 8) 8)) s

/-- The direct-store port has written the head entry. -/
def Device.directStore (s : Device) (n : Nat) (hits : List EccHit) : Device :=
  let c := s.core n
  match c.queue with
  | e :: rest =>
    if e.filled && e.cmd.dest == 1 then
      let old := s
      let s : Device := (s.storeTile n e.cmd.out e.cmd.mRows e.cmd.nCols (tileAt e.tile)).keepWords old n hits
      (s.setCore n { c with queue := rest }).cmErrors n hits
    else s
  | [] => s

/-- DIRECT_STORE_END (row 27). -/
def execDirectStoreEnd (c : Fin 32) (k : Fin 16) (hits : List EccHit) (s : State) : Outc := s.run fun (s : Device) =>
  (if s.coreLive (coreNo c k) then s.directStore (coreNo c k) hits else s)

/-! ## Fences, waits and END -/

/-- Has every earlier MMA left the queue, and every earlier VECTOR command finished (R99, R131)? A holding command enters no queue. -/
def CoreSt.fenceMet (c : CoreSt) : Bool :=
  c.arrayQ.isEmpty && c.queue.isEmpty && c.vq.isEmpty && c.banks.all fun b => b.st == BankState.free || b.st == BankState.held

/-- FENCE (row 28). -/
def execFence (c : Fin 32) (k : Fin 16) (s : State) : Outc := s.run fun (s : Device) =>
  let n := coreNo c k
  (s.seqRow n 2 fun _ _ => (s.advance n).setCore n { (s.advance n).core n with seq := .fence })

/-- FENCE_RELEASE (row 29). -/
def execFenceRelease (c : Fin 32) (k : Fin 16) (s : State) : Outc := s.run fun (s : Device) =>
  let n := coreNo c k
  let x := s.core n
  (if s.coreLive n && !s.coreHeld n && x.seq == SeqState.fence && x.fenceMet then s.setCore n { x with seq := .run } else s)

/-- DMA (row 30): the descriptor enters the channel's queue; with 16 there the sequencer waits. A descriptor that is not aligned or not
in core memory is refused with E_MALFORMED. -/
def Device.issueDma (s : Device) (n j a : Nat) : Device :=
  let c := s.core n
  let d := tgetD c.dma j {}
  if 16 ≤ d.queue.length then s
  else if !aligned a 64 || cmBytes < a + 64 then s.refuse n (O.lastCommandStatus (n / 16) (n % 16)) .malformed
  else (s.setCore n { c with dma := tset c.dma j { d with queue := d.queue ++ [s.cmGet n a 64] } {} }).advance n

def execDma (c : Fin 32) (k : Fin 16) (s : State) : Outc := s.run fun (s : Device) =>
  (s.seqRow (coreNo c k) 3 fun j a => s.issueDma (coreNo c k) j a)

/-- The completion count of a channel. -/
def Device.dmaCount (s : Device) (n j : Nat) : Nat := s.num (O.dmaCompleted (n / 16) (4 * (n % 16) + j))

/-- WAIT_DMA (row 31). -/
def execWaitDma (c : Fin 32) (k : Fin 16) (s : State) : Outc := s.run fun (s : Device) =>
  let n := coreNo c k
  (s.seqRow n 4 fun j a =>
    let s : Device := s.advance n
    if a ≤ s.dmaCount n j then s else s.setCore n { s.core n with seq := .waitDma j a })

/-- WAIT_DMA_RELEASE (row 32). -/
def execWaitDmaRelease (c : Fin 32) (k : Fin 16) (s : State) : Outc := s.run fun (s : Device) =>
  let n := coreNo c k
  let x := s.core n
  (match x.seq with
   | .waitDma j a => if s.coreLive n && !s.coreHeld n && decide (a ≤ s.dmaCount n j) then s.setCore n { x with seq := .run } else s
   | _ => s)

/-- A core's list has ended (R155): the control core receives the completion event that names the core; a part of a split tile is done with it
(R179). -/
def Device.listEnd (s : Device) (n : Nat) : Device :=
  let x := s.core n
  let s : Device := s.setCore n { x with seq := .idle, entry := none, item := none }
  let s : Device := match x.item with
    | some p => { s with work := { s.work with done := s.work.done ++ [(p, n)] } }
    | none => s
  let s : Device := (s.setNum (O.coreState (n / 16) (n % 16)) 1).emit (.listEnded (n / 16) (n % 16))
  match s.occupant n, x.entry with
  | some j, some i => s.entryCoreDone j i n
  | _, _ => s

/-- END (row 34): the list has reached END (R155). Commands it queued go on. -/
def execEnd (c : Fin 32) (k : Fin 16) (s : State) : Outc := s.run fun (s : Device) =>
  let n := coreNo c k
  (s.seqRow n 6 fun _ _ => (s.advance n).listEnd n)

/-! ## Patrol scrub (R120, R121) -/

/-- CMEM_SCRUB (row 39): a scrub of a core's memory meets the errors named. -/
def execCmemScrub (c : Fin 32) (k : Fin 16) (hits : List EccHit) (s : State) : Outc := s.run fun (s : Device) =>
  (if s.runs (clusterDomain c) then s.cmErrors (coreNo c k) hits else s)

end Sys2Proof.Machine
end

