-- ==== Sys2Proof/Machine/VectorEngine.lean ====
section
/-! DEFINITION. The vector engine (05_vector_engine.md, rows 33, 40 and 41): VECTOR commands and their checks, element-wise stages,
reductions and empty lines, masks, and the depth-wise path. -/

namespace Sys2Proof.Machine

/-! ## Commands (R132) -/

/-- A stage word (Table 5.3). -/
def Stage.decode (w : Nat) : Stage where
  op := bits w 63 56
  selA := bits w 55 53
  idxA := bits w 52 50
  selB := bits w 49 47
  idxB := bits w 46 44
  axis := bit w 43
  acc := bit w 42
  red := bits w 41 39
  imm := bits w 31 0

/-- A command of 192 bytes (Tables 5.2, 5.5 and 5.9); its piecewise tables are read separately. -/
def VCmd.decode (b : Bytes) : VCmd :=
  let w := leAt b 0 8
  let w1 := leAt b 8 8
  let m0 := leAt b 152 8
  let m1 := leAt b 160 8
  let d := leAt b 168 8
  { src := bits w 55 54, srcReg := bits w 53 51, rows := bits w 50 44, cols := bits w 43 37,
    stages := (List.range (bits w 36 33)).map fun i => Stage.decode (leAt b (16 + 8 * i) 8),
    keepReg := bits w 32 30, keep := bit w 29, store := bit w 28, aux := bit w 27, causal := bit w 26, segment := bit w 25,
    rowBase := bits w1 63 32, colBase := bits w1 31 0,
    sSrc := Stream.decode (slice b 80 24), sAux := Stream.decode (slice b 104 24), sOut := Stream.decode (slice b 128 24),
    causalOffset := toSigned 32 (bits m0 63 32), rowSeg := bits m1 63 42, colSeg := bits m1 41 20,
    kh := bits d 63 59, kw := bits d 58 54, sx := bits d 53 51, dy := bits d 50 48, dx := bits d 47 45, cpg := 2 ^ bits d 44 43,
    fresh := bit d 42, tapBase := bits d 41 20 }

/-- Operations that use operand b (Tables 5.6 and 5.7). -/
def usesB (op : Nat) : Bool :=
  (2 ≤ op && op ≤ 9) || op == 0x19 || op == 0x1A || op == 0x1B || op == 0x46 || op == 0x47

def isReduction (op : Nat) : Bool := 0x40 ≤ op && op ≤ 0x47

/-- The registers a stage writes, with the kind they get (R136): NORM2 writes two of kind MEAN. -/
def Stage.writes (g : Stage) : List (Nat × Nat) :=
  if g.op = 0x47 then [(g.red, 0x44), (g.red + 1, 0x44)] else if isReduction g.op then [(g.red, g.op)] else []

/-- Is a stage well formed (R132, R136)? -/
def Stage.ok (g : Stage) : Bool :=
  ((1 ≤ g.op && g.op ≤ 0x1B) || isReduction g.op) && g.selA != 7 && (!usesB g.op || g.selB != 7) && (g.op != 0x47 || g.red != 7)

/-- The depth-wise fields (R141, R142). -/
def VCmd.depthOk (v : VCmd) : Bool :=
  v.src != 3 ||
    (v.sSrc.r0Count == 1 && 1 ≤ v.sSrc.fmt && v.sSrc.fmt ≤ 4 && v.sSrc.block == 0 &&
     1 ≤ v.kh && v.kh ≤ 16 && 1 ≤ v.kw && v.kw ≤ 16 && 1 ≤ v.sx && v.sx ≤ 4 && 1 ≤ v.dy && v.dy ≤ 4 && 1 ≤ v.dx && v.dx ≤ 4 &&
     (v.kh - 1) * v.dy + 1 ≤ 16 && (v.rows - 1) * v.sx + (v.kw - 1) * v.dx + 1 ≤ 128 && v.kh * v.kw * v.cpg ≤ 64)

/-- No two reduction stages write one register (R136). -/
def VCmd.redOk (v : VCmd) : Bool :=
  let l := v.stages.flatMap fun g => g.writes.map fun p => p.1
  l.eraseDups.length == l.length

/-- Steps 1 to 3 of R146; the segment vectors are 2-byte aligned (R134). -/
def VCmd.formOk (v : VCmd) : Bool :=
  1 ≤ v.rows && v.rows ≤ 64 && 1 ≤ v.cols && v.cols ≤ 64 && 1 ≤ v.stages.length && v.stages.length ≤ 8 &&
  v.stages.all Stage.ok && v.redOk && v.depthOk &&
  (v.src != 1 || v.sSrc.readOk) && (!v.aux || v.sAux.readOk) && (!v.store || v.sOut.writeOk) &&
  (!v.segment || (aligned v.rowSeg 2 && aligned v.colSeg 2))

/-- The kinds of the vector registers when the commands issued so far have ended. -/
def CoreSt.kindAfter (c : CoreSt) (r : Nat) : Nat :=
  c.vq.foldl (fun (k : Nat) v => v.stages.foldl (fun (k : Nat) g =>
    match g.writes.find? fun p => p.1 == r with
    | some p => p.2
    | none => k) k) (tgetD c.vregs r {}).kind

/-- Step 4 of R146: accumulating into a register of another kind. -/
def CoreSt.kindsOk (c : CoreSt) (v : VCmd) : Bool :=
  v.stages.all fun g => !g.acc || g.writes.all fun p => let k := c.kindAfter p.1; k == 0 || k == p.2

/-- Step 5 of R146, but for the tables' contents. -/
def VCmd.argsOk (v : VCmd) : Bool :=
  (v.src != 3 || aligned v.tapBase 256) &&
  v.stages.all fun g => g.op != 0x19 || (let c := g.imm % 16; 1 ≤ c && c ≤ 7)

/-- The addresses of the piecewise tables. -/
def VCmd.polyAddrs (v : VCmd) : List Nat := (v.stages.filter fun g => g.op == 0x18).map fun g => g.imm % cmBytes

/-- The tables of a command; none where one of them is refused. Of a table that reaches beyond core memory only its place and its segment count are
checked; its extent is left to step 6. -/
def Device.polyTables (s : Device) (n : Nat) : List Nat → Option (List Poly)
  | [] => some []
  | a :: r =>
    let count := leNat (s.cmGet n a 1)
    match (if aligned a 16 && 1 ≤ count && count ≤ 32 && cmBytes < a + s.polyBytes n a then some [] else s.polyTable n a), s.polyTables n r with
    | some t, some l => some (t :: l)
    | _, _ => none

/-- Positions of a row span of the window buffer (R142). -/
def VCmd.positions (v : VCmd) : Nat := (v.rows - 1) * v.sx + (v.kw - 1) * v.dx + 1

/-- Bytes of an element of SRC in depth-wise mode. -/
def VCmd.eb (v : VCmd) : Nat := fmtBits v.sSrc.fmt / 8

/-- The ranges a command touches (step 6 of R146). -/
def Device.vExtents (s : Device) (n : Nat) (v : VCmd) : List (Nat × Nat) :=
  (if v.src = 1 then v.sSrc.reads v.rows v.cols else []) ++
  (if v.src = 3 then
    ((List.range v.kh).flatMap fun ty => (List.range v.positions).map fun p =>
      (v.sSrc.base + ty * v.dy * v.sSrc.r0Pitch + p * v.sSrc.r1Pitch, roundUp v.cols v.cpg * v.eb)) ++
      [(v.tapBase, v.kh * v.kw * v.cpg * 256)] else []) ++
  (if v.aux then v.sAux.reads v.rows v.cols else []) ++ (if v.store then v.sOut.writes v.rows v.cols else []) ++
  (if v.segment then [(v.rowSeg, 128), (v.colSeg, 128)] else []) ++ v.polyAddrs.map fun a => (a, s.polyBytes n a)

/-- The vector engine's own state object, which follows from the core (R149): frozen while the core's job is, running, stopped on a refusal or an error,
idle. -/
def Device.vectorView (s : Device) (n : Nat) : Device :=
  let c := s.core n
  s.setNum (O.vectorState (n / 16) (n % 16)) (if c.vrun.isSome then 1 else if c.vstop then 3 else 0)

/-- A VECTOR command that is refused at issue or ends with an error stops the engine too (R146, R147, R149). -/
def Device.vrefuse (s : Device) (n : Nat) (st : Status) : Device :=
  (s.setCore n { s.core n with vstop := true }).vectorView n |>.refuse n (O.lastVectorStatus (n / 16) (n % 16)) st

/-- The checks of R146 and the issue of a command; with four waiting the sequencer waits (R131). -/
def Device.issueVector (s : Device) (n a : Nat) : Device :=
  let c := s.core n
  let raw := s.cmGet n a 192
  let v := VCmd.decode raw
  if 4 ≤ c.vq.length - (if c.vrun.isSome then 1 else 0) then s
  else if !aligned a 64 || cmBytes < a + 192 || leAt raw 7 1 ≠ 0x20 || !v.formOk then s.vrefuse n .range
  else if !c.kindsOk v then s.vrefuse n .state
  else if !v.argsOk then s.vrefuse n .range
  else match s.polyTables n v.polyAddrs with
    | none => s.vrefuse n .range
    | some t =>
      if beyondCm (s.vExtents n v) then
        s.coreViolation n 6 2
      else (s.setCore n { c with vq := c.vq ++ [{ v with polys := t }] }).advance n

/-- VECTOR (row 33). -/
def execVector (c : Fin 32) (k : Fin 16) (s : State) : Outc := s.run fun (s : Device) =>
  (s.seqRow (coreNo c k) 5 fun _ a => s.issueVector (coreNo c k) a)

/-! ## Lines of vector registers (R136 to R140) -/

/-- The identity of a reduction (Table 5.8). -/
def redIdentity (op : Nat) : F32 :=
  if op = 0x41 || op = 0x45 then f32NegInf else if op = 0x42 then f32PosInf else if op = 0x43 then f32One else 0

/-- The value selectors 4 and 5 read (Table 5.7); an empty line holds the identity (R139, R140). -/
def VReg.value (r : VReg) (i : Nat) : F32 :=
  let l := r.lines.getD i {}
  if r.kind = 0 then 0
  else if l.count = 0 then redIdentity r.kind
  else if r.kind = 0x44 then fdiv l.p (fofNat l.count)
  else if r.kind = 0x45 then fadd l.p (flog l.q)
  else l.p

/-- The combination of a reduction. -/
def redOp (op : Nat) : F32 → F32 → F32 :=
  if op = 0x41 || op = 0x45 then fmax else if op = 0x42 then fmin else if op = 0x43 then fmul else fadd

/-- Pairwise tree over a list of 2^n values (R137). -/
def pairTree (f : F32 → F32 → F32) : Nat → List F32 → F32
  | 0, l => l.headD 0
  | n + 1, l => f (pairTree f n (l.take (2 ^ n))) (pairTree f n (l.drop (2 ^ n)))

/-- One line of a tile reduced in the fixed order (R137): a tree along rows, in order from the identity along columns. -/
def reduceLine (op : Nat) (axis : Bool) (l : List F32) : F32 :=
  if axis then l.foldl (redOp op) (redIdentity op) else pairTree (redOp op) 6 l

/-- The contributions of a line: the value, or none where masked. -/
def lineOf (axis : Bool) (i : Nat) (val : Nat → Nat → F32) (un : Nat → Nat → Bool) : List (Option F32) :=
  (List.range 64).map fun k =>
    let r := if axis then k else i
    let c := if axis then i else k
    if un r c then some (val r c) else none

/-- A reduction of one line (R137, R138): the tile's p and q, and its count. -/
def reduceTile (op : Nat) (axis : Bool) (l : List (Option F32)) : VLine :=
  let n := (l.filter fun x => x.isSome).length
  let p := reduceLine op axis (l.map fun x => x.getD (redIdentity op))
  let q := if op = 0x45 then reduceLine 0x40 axis (l.map fun x => match x with
    | some a => fexpDiff a p
    | none => 0) else 0
  { p := p, q := q, count := n }

/-- term of R138. -/
def lseTerm (n : Nat) (s d : F32) : F32 := if n = 0 then 0 else fmul s (fexp d)

/-- The register's old line combined with the tile's result, the register as the left operand (R137, R138). An empty line holds the
identity (R139). -/
def combineLine (op : Nat) (old new : VLine) : VLine :=
  if op = 0x45 then
    let m := fmax old.p new.p
    { p := m, q := fadd (lseTerm old.count old.q (fsub old.p m)) (lseTerm new.count new.q (fsub new.p m)),
      count := old.count + new.count }
  else { p := redOp op old.p new.p, q := 0, count := old.count + new.count }

/-- The line a reduction into an empty line, or into a register of kind none, starts from (R139). -/
def startLine (op : Nat) : VLine := { p := redIdentity op, q := 0, count := 0 }

/-- A register after a reduction of n lines (R136 to R139). -/
def VReg.reduce (old : VReg) (op kind : Nat) (acc : Bool) (n : Nat) (line : Nat → VLine) : VReg :=
  let lines := (List.range 64).map fun i =>
    let o := old.lines.getD i {}
    if i < n then
      let t := line i
      if acc then combineLine op (if old.kind = 0 || o.count = 0 then startLine op else o) t else t
    else o
  { kind := kind, lines := lines,
    empty := ofBits ((List.range 64).map fun i => if i < n then (lines.getD i {}).count == 0 else bit old.empty i) }

/-! ## Sources and stages -/

/-- Is element (r, c) unmasked (R134)? -/
def Device.unmasked (s : Device) (n : Nat) (v : VCmd) (r c : Nat) : Bool :=
  r < v.rows && c < v.cols &&
  (!v.causal || decide ((v.colBase : Int) + c ≤ (v.rowBase : Int) + r + v.causalOffset)) &&
  (!v.segment || (let x := leNat (s.cmGet n (v.rowSeg + 2 * r) 2)
                  x == leNat (s.cmGet n (v.colSeg + 2 * c) 2) && x != 0xFFFF))

/-- The taps a depth-wise command uses. -/
def Device.readTaps (s : Device) (n : Nat) (v : VCmd) : List F32 :=
  (List.range (v.kh * v.kw * v.cpg * 64)).map fun i => s.cmF32 n (v.tapBase + 4 * i)

/-- The row span of kernel row ty (R144). -/
def VCmd.spanAddr (v : VCmd) (ty : Nat) : Nat := v.sSrc.base + ty * v.dy * v.sSrc.r0Pitch

/-- The resident span that serves a kernel row. -/
def CoreSt.span? (c : CoreSt) (v : VCmd) (ty : Nat) : Option Span :=
  c.spans.find? fun x => x.addr == v.spanAddr ty && x.fmt == v.sSrc.fmt && x.pitch == v.sSrc.r1Pitch && decide (v.positions ≤ x.len)

/-- Brings the spans and taps of a depth-wise command into the window buffer and the tap store (R144). -/
def Device.loadSpans (s : Device) (n : Nat) (v : VCmd) : Device :=
  let c := s.core n
  let c : CoreSt := if v.fresh then { c with spans := [], taps := none } else c
  let c : CoreSt := match c.taps with
    | some (b, _) => if b = v.tapBase then c else { c with taps := some (v.tapBase, s.readTaps n v) }
    | none => { c with taps := some (v.tapBase, s.readTaps n v) }
  (List.range v.kh).foldl (fun (s : Device) ty =>
    let c := s.core n
    match c.span? v ty with
    | some x => (s.setCore n { c with spans := x :: c.spans.erase x }).bump (O.windowSpanHits (n / 16) (n % 16))
    | none =>
      let x : Span := { addr := v.spanAddr ty, fmt := v.sSrc.fmt, pitch := v.sSrc.r1Pitch, len := v.positions,
                        data := (List.range v.positions).flatMap fun p => s.cmGet n (v.spanAddr ty + p * v.sSrc.r1Pitch) (64 * v.eb) }
      (s.setCore n { c with spans := (x :: c.spans).take 16 }).bump (O.windowSpanReads (n / 16) (n % 16)))
    (s.setCore n c)

/-- An output element of the depth-wise path (R143), from the window buffer and the tap store; `more ty p` reads position p of kernel row ty where it lies
beyond the resident span, as only positions j at or above `rows` do. -/
def depthElem (c : CoreSt) (v : VCmd) (more : Nat → Nat → Bytes) (j l : Nat) : F32 :=
  let g := l / v.cpg * v.cpg
  let taps := match c.taps with
    | some (_, t) => t
    | none => []
  (List.range v.kh).foldl (fun (a : F32) ty =>
    let sp := match c.span? v ty with
      | some x => x.data
      | none => []
    let pos (p : Nat) : Bytes := if sp.length < (p + 1) * 64 * v.eb then more ty p else slice sp (p * 64 * v.eb) (64 * v.eb)
    (List.range v.kw).foldl (fun (a : F32) tx => (List.range v.cpg).foldl (fun (a : F32) i =>
      let x := toF32 ((fmt! v.sSrc.fmt).decode (leAt (pos (j * v.sx + tx * v.dx)) ((g + i) * v.eb) v.eb))
      ffma x (taps.getD (((ty * v.kw + tx) * v.cpg + i) * 64 + l) 0) a) a) a) 0

/-- The fields of a command that its sources follow from, as numbers. -/
def VCmd.fields (v : VCmd) : List Nat := [2, v.src, v.rows, v.cols, v.aux.toNat] ++ v.sSrc.fields ++ v.sAux.fields

/-- The source tile of a command (R130, R132, R141, R143). Elements that nothing supplies are free. -/
def Device.sourceTile (s : Device) (n : Nat) (v : VCmd) : Tile :=
  let c := s.core n
  match v.src with
  | 0 => match c.queue.head? with
    | some e => e.tile
    | none => []
  | 1 => mkTile fun r k => if r < v.rows && k < v.cols then toF32 (s.streamElem n v.sSrc r k) else s.outside n v.fields [] (64 * r + k)
  | 2 => tgetD c.tregs v.srcReg []
  | _ => mkTile fun r k => depthElem c v (fun ty p => (List.range (64 * v.eb)).map fun i =>
      (s.cmGet n ((v.spanAddr ty + p * v.sSrc.r1Pitch + i) % cmBytes) 1).headD 0) r k

/-- The AUX tile. -/
def Device.auxTile (s : Device) (n : Nat) (v : VCmd) : Tile :=
  mkTile fun r k => if v.aux && r < v.rows && k < v.cols then toF32 (s.streamElem n v.sAux r k) else
    s.outside n v.fields [] (4096 + 64 * r + k)

/-- An operand of a stage (Table 5.4). -/
def operandOf (c : CoreSt) (v src aux : Tile) (sel idx imm r k : Nat) : F32 :=
  match sel with
  | 0 => tileAt v r k
  | 1 => tileAt src r k
  | 2 => tileAt aux r k
  | 3 => tileAt (tgetD c.tregs idx []) r k
  | 4 => (tgetD c.vregs idx {}).value r
  | 5 => (tgetD c.vregs idx {}).value k
  | _ => BitVec.ofNat 32 imm

/-- An element-wise operation (Table 5.6). -/
def vecOp (op imm : Nat) (poly : Poly) (masked : Bool) (v a b : F32) : F32 :=
  match op with
  | 0x01 => canon a
  | 0x02 => fadd a b
  | 0x03 => fsub a b
  | 0x04 => fmul a b
  | 0x05 => fdiv a b
  | 0x06 => ffma a b v
  | 0x07 => toF32 (v.fp.add (a.fp.mul b.fp).neg)
  | 0x08 => fmax a b
  | 0x09 => fmin a b
  | 0x0A => fabs a
  | 0x0B => fneg a
  | 0x0C => fsqrt a
  | 0x0D => frsqrt a
  | 0x0E => fdiv f32One a
  | 0x0F => fexp a
  | 0x10 => flog a
  | 0x11 => fact 0x11 a
  | 0x12 => fact 0x12 a
  | 0x13 => if a.fp.isNan then f32Nan else if flt 0 a then a else 0
  | 0x14 => fact 0x14 a
  | 0x15 => fact 0x15 a
  | 0x16 => fact 0x16 a
  | 0x17 => fact 0x17 a
  | 0x18 => polyEval poly a
  | 0x19 => fmul a (fderiv (imm % 16) b)
  | 0x1A => if masked then canon b else canon a
  | 0x1B => if masked || b == f32NegInf then 0 else fexpDiff a b
  | _ => v

/-- What a pass carries from stage to stage: the tile, the reductions to commit, the piecewise tables not yet used. -/
structure PassSt where
  v : Tile
  regs : List (Nat × VReg)
  polys : List Poly
deriving DecidableEq, Repr

/-- One stage (R135 to R138). -/
def Device.stage (s : Device) (n : Nat) (cmd : VCmd) (src aux : Tile) (un : Nat → Nat → Bool) (p : PassSt) (g : Stage) : PassSt :=
  let c := s.core n
  let a (r k : Nat) : F32 := operandOf c p.v src aux g.selA g.idxA g.imm r k
  let b (r k : Nat) : F32 := operandOf c p.v src aux g.selB g.idxB g.imm r k
  let lines := if g.axis then cmd.cols else cmd.rows
  let into (reg op kind : Nat) (val : Nat → Nat → F32) : Nat × VReg :=
    (reg, (tgetD c.vregs reg {}).reduce op kind g.acc lines fun i => reduceTile op g.axis (lineOf g.axis i val un))
  if g.op = 0x47 then
    { p with regs := p.regs ++ [into g.red 0x44 0x44 fun r k => fmul (a r k) (b r k), into (g.red + 1) 0x44 0x44 a] }
  else if g.op = 0x46 then { p with regs := p.regs ++ [into g.red 0x46 0x46 fun r k => fmul (a r k) (b r k)] }
  else if isReduction g.op then { p with regs := p.regs ++ [into g.red g.op g.op a] }
  else
    { v := mkTile fun r k => vecOp g.op g.imm (p.polys.headD []) (!un r k) (tileAt p.v r k) (a r k) (if usesB g.op then b r k else 0),
      regs := p.regs, polys := if g.op = 0x18 then p.polys.tail else p.polys }

/-- The empty-row word of a command (R139): every empty line its reductions report; without a reduction, the rows below `rows` that have
no unmasked element. -/
def emptyWord (v : VCmd) (un : Nat → Nat → Bool) (regs : List (Nat × VReg)) : Nat :=
  if (v.stages.any fun g => isReduction g.op) then
    let counted := v.stages.flatMap fun g => g.writes.map fun p => (p.1, if g.axis then v.cols else v.rows)
    ofBits ((List.range 64).map fun i => regs.any fun p => bit p.2.empty i && counted.any fun q => q.1 == p.1 && decide (i < q.2))
  else ofBits ((List.range 64).map fun r => decide (r < v.rows) && (List.range 64).all fun c => !un r c)

/-- The lines reported empty, counted once for every reduction that reports them (3.(40+c).113[k]). -/
def emptyCount (v : VCmd) (word : Nat) (regs : List (Nat × VReg)) : Nat :=
  if (v.stages.any fun g => isReduction g.op) then
    (v.stages.map fun g => match g.writes.head? with
      | some p => ((List.range (if g.axis then v.cols else v.rows)).filter fun i =>
          regs.any fun q => q.1 == p.1 && bit q.2.empty i).length
      | none => 0).sum
  else ((List.range 64).filter fun i => bit word i).length

/-! ## Passes (R129, R130, R133, R147) -/

/-- Is the source of a command there (R130)? -/
def CoreSt.sourceThere (c : CoreSt) (v : VCmd) : Bool :=
  v.src != 0 || (match c.queue.head? with
    | some e => e.filled && e.cmd.dest == 0
    | none => false)

/-- A pass starts once its source is there; until then the engine waits. -/
def Device.passStart (s : Device) (n : Nat) : Device :=
  let c := s.core n
  let st := O.vectorState (n / 16) (n % 16)
  match c.vq.head?, c.vrun with
  | some v, none =>
    if c.sourceThere v then
      let s : Device := (s.setCore n { c with vrun := some s.uptime }).vectorView n
      if v.src = 3 then s.loadSpans n v else s
    else s.setNum st 2
  | _, _ => s

/-- VECTOR_PASS_START (row 40). -/
def execVectorPassStart (c : Fin 32) (k : Fin 16) (s : State) : Outc := s.run fun (s : Device) =>
  (if s.coreLive (coreNo c k) && !s.coreHeld (coreNo c k) then s.passStart (coreNo c k) else s)

/-- The cycles of a command's work (R129, R145). -/
def VCmd.cycles (v : VCmd) : Nat := 64 + (if v.src = 3 then 64 * v.kh * v.kw * v.cpg else 0)

/-- The end of the head command: it leaves the queue, with the tile it took. -/
def CoreSt.popV (c : CoreSt) (v : VCmd) : CoreSt :=
  { c with vq := c.vq.tail, vrun := none, queue := if v.src = 0 then c.queue.tail else c.queue }

/-- A pass ends normally: reductions, keep and stores are committed. -/
def Device.passCommit (s : Device) (n : Nat) (v : VCmd) : Device :=
  let c := s.core n
  let un := s.unmasked n v
  let src := s.sourceTile n v
  let aux := s.auxTile n v
  let p := v.stages.foldl (s.stage n v src aux un) ({ v := src, regs := [], polys := v.polys } : PassSt)
  let word := emptyWord v un p.regs
  let q := n / 16
  let k := n % 16
  let c := c.popV v
  let c : CoreSt := { c with vregs := p.regs.foldl (fun (m : Tbl VReg) (e : Nat × VReg) => tset m e.1 e.2 {}) c.vregs }
  let c : CoreSt := if v.keep then { c with tregs := tset c.tregs v.keepReg p.v [], tflags := tset c.tflags v.keepReg word 0 } else c
  let s : Device := s.setCore n c
  let s : Device := if v.store then s.storeTile n v.sOut v.rows v.cols (tileAt p.v) else s
  let s : Device := (s.bump (O.emptyLines q k) (emptyCount v word p.regs)).setNum (O.lastEmptyRows q k) word
  let s : Device := if v.src = 3 then s.bump (O.depthwiseCommands q k) else s
  s.bump (O.vectorCommands q k)

/-- A pass that met an uncorrected error at a row (R147): the rows stored before it remain, in whole blocks. -/
def Device.passFail (s : Device) (n : Nat) (v : VCmd) (row : Nat) : Device :=
  let c := s.core n
  let rows := min v.rows row / (blockShape (numBlock v.sOut.numeric)).1 * (blockShape (numBlock v.sOut.numeric)).1
  let src := s.sourceTile n v
  let aux := s.auxTile n v
  let p := v.stages.foldl (s.stage n v src aux (s.unmasked n v)) ({ v := src, regs := [], polys := v.polys } : PassSt)
  let s : Device := s.setCore n (c.popV v)
  let s : Device := if v.store then s.storeTile n v.sOut rows v.cols (tileAt p.v) else s
  s.vrefuse n .uncorrected

/-- A pass ends. -/
def Device.passEnd (s : Device) (n wait overlap row : Nat) (hits : List EccHit) : Device :=
  let c := s.core n
  match c.vq.head?, c.vrun with
  | some v, some start =>
    let q := n / 16
    let k := n % 16
    let s : Device := (s.bump (O.vectorBusyCycles q k) (v.cycles + wait - overlap)).bump (O.vectorWaitCycles q k) wait
    let s : Device := (s.cmErrors n hits).noteRun n start
    if anyDouble hits then s.passFail n v row else (s.passCommit n v).vectorView n
  | _, _ => s

/-- VECTOR_PASS_END (row 41). The operands are the cycles added by arbitration and late spans (R129, R145), the cycles of depth-wise
compute and pass that overlap those of the neighbouring command, the row an uncorrected error was met in, and the errors met. -/
def execVectorPassEnd (c : Fin 32) (k : Fin 16) (wait overlap : BitVec 32) (row : Fin 64) (hits : List EccHit) (s : State) : Outc := s.run fun (s : Device) =>
  (if s.coreLive (coreNo c k) then s.passEnd (coreNo c k) wait.toNat overlap.toNat row.val hits else s)

end Sys2Proof.Machine
end

