-- ==== Sys2Proof/Machine/Dma.lean ====
section
/-! DEFINITION. The DMA channels of a core (R122 to R126, rows 35 to 38): descriptors, their checks in fixed order, copies, conversions
through Facet and fills, completion and halting. -/

namespace Sys2Proof.Machine

/-- A descriptor (Table 4.8). -/
structure Desc where
  op : Nat
  srcBuf : Nat
  dstBuf : Nat
  srcOff : Nat
  dstOff : Nat
  rowBytes : Nat
  rows : Nat
  srcPitch : Nat
  dstPitch : Nat
  numeric : Nat
  srcFmt : Nat
  scaleOff : Nat
  pattern : Nat
  resvOk : Bool
deriving DecidableEq, Repr

def Desc.decode (b : Bytes) : Desc :=
  let w (i : Nat) : Nat := leAt b (8 * i) 8
  { op := bits (w 0) 63 56, srcBuf := bits (w 0) 55 48, dstBuf := bits (w 0) 47 40,
    srcOff := bits (w 1) 47 0, dstOff := bits (w 2) 47 0, rowBytes := bits (w 3) 63 32, rows := bits (w 3) 31 0,
    srcPitch := bits (w 4) 63 32, dstPitch := bits (w 4) 31 0, numeric := bits (w 5) 63 32, srcFmt := bits (w 5) 31 27,
    scaleOff := bits (w 6) 47 0, pattern := bits (w 7) 63 32,
    resvOk := bits (w 0) 39 0 == 0 && bits (w 1) 63 48 == 0 && bits (w 2) 63 48 == 0 && bits (w 5) 26 0 == 0 &&
      bits (w 6) 63 48 == 0 && bits (w 7) 31 0 == 0 }

/-- Elements of a source row of a conversion. -/
def Desc.elems (d : Desc) : Nat := d.rowBytes / (fmtBits d.srcFmt / 8)

/-- Block shape of the destination of a conversion. -/
def Desc.shape (d : Desc) : Nat × Nat := blockShape (numBlock d.numeric)

/-- Rows and row bytes at the destination (R71, R74). -/
def Desc.dstRows (d : Desc) : Nat := if d.op = 2 then roundUp d.rows d.shape.1 else d.rows
def Desc.dstRow (d : Desc) : Nat :=
  if d.op = 2 then Sys2Proof.Machine.rowBytes (fmtBits (numFmt d.numeric)) (roundUp d.elems d.shape.2) else d.rowBytes

/-- The extent of a stream of rows (step 4 of R125). -/
def extentOf (rows pitch len : Nat) : Nat := if rows = 0 || len = 0 then 0 else (rows - 1) * pitch + len

/-- Bytes of a block row of the destination's scale array, and of all of it. -/
def Desc.scaleRow (d : Desc) : Nat := roundUp ((d.elems + d.shape.2 - 1) / d.shape.2) 4
def Desc.scaleBytes (d : Desc) : Nat :=
  if d.op = 2 && numBlock d.numeric != 0 then (d.rows + d.shape.1 - 1) / d.shape.1 * d.scaleRow else 0

/-- Steps 1 and 2 of R125, and between them the pairing of R75 (DEDUCED: it is a check of formats, log entry 137): the status, if one fails. -/
def Desc.formFault (d : Desc) : Option Status :=
  if d.op < 1 || 3 < d.op || !d.resvOk || (d.op == 2 && (decide (2 < d.srcFmt) || !fmtOk (numFmt d.numeric))) then some .malformed
  else if d.op = 2 && !numOk d.numeric then some .range
  else if 1 < d.rows && d.dstPitch < d.dstRow then some .malformed
  else none

/-- The streams of a descriptor: buffer, offset, extent, write or not. -/
def Desc.streams (d : Desc) (x : Job) : List (Buf × Nat × Nat × Bool) :=
  (if d.op = 3 then [] else [(x.buf d.srcBuf, d.srcOff, extentOf d.rows d.srcPitch d.rowBytes, false)]) ++
  [(x.buf d.dstBuf, d.dstOff, extentOf d.dstRows d.dstPitch d.dstRow, true)] ++
  (if d.scaleBytes = 0 then [] else [(x.buf d.dstBuf, d.scaleOff, d.scaleBytes, true)])

/-- The failing check among steps 3 and 4 of R125; none where they hold. -/
def Desc.violates (d : Desc) (x : Job) : Option Nat :=
  let l := d.streams x
  if l.any fun t => !t.1.valid || !(if t.2.2.2 then t.1.write else t.1.read) then some 3
  else if l.any fun t => decide (t.1.size < t.2.1 + t.2.2.1) then some 4
  else none

def dmaMaster (n j : Nat) : Nat := masterId 3 (64 * (n / 16) + 4 * (n % 16) + j)

/-- The channel's element of the objects of Table 4.9. -/
def dmaEl (n j : Nat) : Nat := 4 * (n % 16) + j

def Device.chan (s : Device) (n j : Nat) : DmaCh := tgetD (s.core n).dma j {}
def Device.setChan (s : Device) (n j : Nat) (d : DmaCh) : Device :=
  s.setCore n { s.core n with dma := tset (s.core n).dma j d {} }

/-- A descriptor completes with a status (R122, R126): it leaves the queue and is counted. -/
def Device.dmaDone (s : Device) (n j : Nat) (st : Status) : Device :=
  let d := s.chan n j
  let s : Device := s.setChan n j { d with queue := d.queue.tail, active := none }
  let s : Device := (s.bump (O.dmaCompleted (n / 16) (dmaEl n j))).setNum (O.dmaState (n / 16) (dmaEl n j)) 0
  if st = .ok then s else s.setNum (O.dmaLastStatus (n / 16) (dmaEl n j)) st.code

/-- An access violation of a channel: counted, logged, frozen (R11, R125). -/
def Device.dmaViolation (s : Device) (n j check addr : Nat) : Device :=
  (s.bump (O.dmaLengthViolations (n / 16))).violation (dmaMaster n j) check addr 1 (0x40 + n / 16) (n % 16)

/-- Checks of an HBM stream beyond R125: the map (R269), and for uncached ones the region table (R242). -/
def Device.hbmStreamBad (s : Device) (t : Buf × Nat × Nat × Bool) : Bool × Bool :=
  let a := t.1.base + t.2.1
  (decide (2 ≤ t.1.space) && t.2.2.1 != 0 && !s.hbmIn a t.2.2.1, t.1.space == 3 && t.2.2.1 != 0 && s.inRegion a t.2.2.1)

/-- What keeps a channel from starting a descriptor whose checks it has passed: on channel 3, the control core's (R184), a frame that the step writes and
that is still shared (R190). -/
def Device.dmaHold (s : Device) (n j : Nat) (x : Job) (d : Desc) : Option Device := if j = 3 then s.writeGuard (n / 16) x d.dstBuf else none

/-- A channel starts the descriptor at the head of its queue, after its checks (R125). -/
def Device.dmaStart (s : Device) (n j op : Nat) : Device :=
  let ch := s.chan n j
  let ready := s.coreLive n && !s.coreHeld n && s.num (O.dmaState (n / 16) (dmaEl n j)) == 0 && ch.active.isNone && !ch.halted
  match ch.queue.head?, s.occupant n with
  | some raw, some job => match s.job? job with
    | some x =>
      let d := Desc.decode raw
      if !ready then s
      else if d.op ≠ op && 1 ≤ d.op && d.op ≤ 3 then s
      else match d.formFault, d.violates x with
        | some st, _ => s.dmaDone n j st
        | none, some k => s.dmaViolation n j k 0
        | none, none =>
          match (d.streams x).find? fun t => (s.hbmStreamBad t).1 || (s.hbmStreamBad t).2 with
          | some t =>
            let a := t.1.base + t.2.1
            let s : Device := if (s.hbmStreamBad t).1 then s.bump (O.mapViolations (n / 16 / 8))
              else s.bump (O.txnUncachedViolations (s.homeDie a))
            s.dmaViolation n j 0 a
          | none => match s.dmaHold n j x d with
            | some s => s
            | none => (s.setChan n j { ch with active := some s.uptime }).setNum (O.dmaState (n / 16) (dmaEl n j)) 1
    | none => s
  | _, _ => s

/-- DMA_COPY (row 35). -/
def execDmaCopy (c : Fin 32) (k : Fin 16) (j : Fin 4) (s : State) : Outc := s.run fun (s : Device) => (s.dmaStart (coreNo c k) j 1)

/-- DMA_CONVERT (row 36). -/
def execDmaConvert (c : Fin 32) (k : Fin 16) (j : Fin 4) (s : State) : Outc := s.run fun (s : Device) => (s.dmaStart (coreNo c k) j 2)

/-- DMA_FILL (row 37). -/
def execDmaFill (c : Fin 32) (k : Fin 16) (j : Fin 4) (s : State) : Outc := s.run fun (s : Device) => (s.dmaStart (coreNo c k) j 3)

/-! ## Moving the bytes -/

/-- The first source or destination row that meets a dead pseudo-channel or a lost line (R289, R290). -/
def Device.dmaBadRow (s : Device) (d : Desc) (x : Job) : Option Nat :=
  (List.range d.rows).find? fun r =>
    (d.op != 3 && s.bufBlocked (x.buf d.srcBuf) (d.srcOff + r * d.srcPitch) d.rowBytes false) ||
      s.bufBlocked (x.buf d.dstBuf) (d.dstOff + r * d.dstPitch) d.dstRow true

/-- Must a descriptor wait for a lock (Table 10.3)? -/
def Device.dmaWaits (s : Device) (d : Desc) (x : Job) : Bool :=
  (d.streams x).any fun t => s.bufWaits t.1 t.2.1 t.2.2.1 t.2.2.2

/-- One row of a copy or a fill. -/
def Device.dmaRow (s : Device) (d : Desc) (x : Job) (r : Nat) : Device :=
  let b := x.buf d.dstBuf
  let src := x.buf d.srcBuf
  if d.op = 3 then
    (s.bufPut b (d.dstOff + r * d.dstPitch) ((List.range d.rowBytes).map fun i => (leBytes 4 d.pattern).getD (i % 4) 0)).bufTouch b
      (d.dstOff + r * d.dstPitch) d.rowBytes true
  else
    let s : Device := s.bufTouch src (d.srcOff + r * d.srcPitch) d.rowBytes false
    (s.bufPut b (d.dstOff + r * d.dstPitch) (s.bufGet src (d.srcOff + r * d.srcPitch) d.rowBytes)).bufTouch b
      (d.dstOff + r * d.dstPitch) d.rowBytes true

/-- A conversion of the first rows of a descriptor through Facet. -/
def Device.dmaConvert (s : Device) (job : Nat) (d : Desc) (x : Job) (rows : Nat) : Device :=
  let b := x.buf d.dstBuf
  let f := fmt! d.srcFmt
  let vals := (List.range rows).map fun r => s.bufGet (x.buf d.srcBuf) (d.srcOff + r * d.srcPitch) d.rowBytes
  let s : Device := (List.range rows).foldl (fun (s : Device) r => s.bufTouch (x.buf d.srcBuf) (d.srcOff + r * d.srcPitch) d.rowBytes false) s
  let e := encodeMatrix d.numeric rows d.elems fun r c => toF32 (f.decode (leAt (vals.getD r []) (c * (f.w / 8)) (f.w / 8)))
  let s : Device := (e.codes.zip (List.range e.codes.length)).foldl (fun (s : Device) p =>
    let row := packRow (fmtBits (numFmt d.numeric)) p.1
    (s.bufPut b (d.dstOff + p.2 * d.dstPitch) row).bufTouch b (d.dstOff + p.2 * d.dstPitch) row.length true) s
  let s : Device := (e.scales.zip (List.range e.scales.length)).foldl (fun (s : Device) p =>
    (s.bufPut b (d.scaleOff + p.2 * d.scaleRow) (padTo d.scaleRow (p.1.map fun c => BitVec.ofNat 8 c))).bufTouch b
      (d.scaleOff + p.2 * d.scaleRow) d.scaleRow true) s
  (s.facetCount e).loupeCount (some job) d.numeric e.elts

/-- Moves the first rows of a descriptor, and counts the bytes. -/
def Device.dmaMove (s : Device) (n j job : Nat) (d : Desc) (x : Job) (rows : Nat) : Device :=
  if d.rowBytes = 0 then s
  else if !s.bufOn (x.buf d.dstBuf) then s.dropped (dmaMaster n j)
  else
    let rows := if d.op = 2 && rows < d.rows then rows / d.shape.1 * d.shape.1 else rows
    let s : Device := if d.op = 2 then (if rows = 0 then s else s.dmaConvert job d x rows)
      else (List.range rows).foldl (fun (s : Device) r => s.dmaRow d x r) s
    s.bump (O.dmaBytes (n / 16) (dmaEl n j)) ((if d.op = 2 then roundUp rows d.shape.1 else rows) * d.dstRow)

/-! ## Errors that a descriptor meets (R120, R126, R153, R276) -/

/-- What row r of a descriptor reads and writes: buffer, address, bytes, write or not; the scales of a block row with its first row. -/
def Desc.rowStreams (d : Desc) (x : Job) (r : Nat) : List (Buf × Nat × Nat × Bool) :=
  let src := x.buf d.srcBuf
  let dst := x.buf d.dstBuf
  (if d.op = 3 then [] else [(src, src.base + d.srcOff + r * d.srcPitch, d.rowBytes, false)]) ++
  [(dst, dst.base + d.dstOff + r * d.dstPitch, d.dstRow, true)] ++
  (if d.scaleBytes = 0 || r % d.shape.1 ≠ 0 then [] else [(dst, dst.base + d.scaleOff + r / d.shape.1 * d.scaleRow, d.scaleRow, true)])

/-- The errors of core or cluster memory that an access meets: those of the 64-bit words that it reads, or writes in part. -/
def eccIn (a n : Nat) (write : Bool) (l : List EccHit) : List EccHit := l.filter fun h =>
  let w := h.1.toNat / 8 * 8
  decide (a < w + 8) && decide (w < a + n) && !(write && decide (a ≤ w) && decide (w + 8 ≤ a + n))

/-- The errors that one access of a descriptor meets, those that are left afterwards, and whether one of them cannot be corrected. -/
def DmaMet.at_ (m : DmaMet) (t : Buf × Nat × Nat × Bool) : DmaMet :=
  { core := if t.1.space = 0 then eccIn t.2.1 t.2.2.1 t.2.2.2 m.core else [],
    cluster := if t.1.space = 1 then eccIn t.2.1 t.2.2.1 t.2.2.2 m.cluster else [],
    hbm := if t.1.space ≤ 1 then [] else if t.2.2.2 then errsPart t.2.1 t.2.2.1 m.hbm else errsIn t.2.1 t.2.2.1 m.hbm }
def DmaMet.less (m k : DmaMet) : DmaMet :=
  { core := m.core.filter fun h => !k.core.contains h, cluster := m.cluster.filter fun h => !k.cluster.contains h,
    hbm := m.hbm.filter fun h => !k.hbm.contains h }
def DmaMet.bad (m : DmaMet) : Bool := anyDouble m.core || anyDouble m.cluster || m.hbm.any SymErr.bad

/-- They are counted, reported and corrected where they occur. -/
def Device.dmaMeets (s : Device) (m : Nat) (b : Buf) (k : DmaMet) : Device :=
  k.hbm.foldl (fun (s : Device) e => s.symError m e) ((s.cmErrors (coreNo b.cluster b.core) k.core).clmErrors b.cluster k.cluster)

/-- The errors that a descriptor meets in its first rows, row by row, each once; the answer begins with the first row that meets one which cannot be
corrected: rows after it are not reached. -/
def Device.dmaErrors (s : Device) (m : Nat) (d : Desc) (x : Job) (rows : Nat) (met : DmaMet) : Option Nat × Device :=
  if met = {} then (none, s)
  else
    let r := (List.range rows).foldl (fun (a : Option Nat × DmaMet × Device) r =>
      if a.1.isSome then a
      else (d.rowStreams x r).foldl (fun (a : Option Nat × DmaMet × Device) t =>
        let k := a.2.1.at_ t
        (if k.bad && a.1.isNone then some r else a.1, a.2.1.less k, a.2.2.dmaMeets m t.1 k)) a)
      ((none, met, s) : Option Nat × DmaMet × Device)
    (r.1, r.2.2)

/-- The row at which a descriptor stops: the smallest of those given that it has. -/
def Desc.stopRow (d : Desc) (l : List (Option Nat)) : Option Nat := ((l.filterMap id).filter fun r => decide (r < d.rows)).min?

/-- The channel halts (R126). -/
def Device.dmaHalt (s : Device) (n j : Nat) : Device :=
  (s.setChan n j { s.chan n j with halted := true }).setNum (O.dmaState (n / 16) (dmaEl n j)) 2

/-- The descriptor that runs has moved its bytes, or has met an uncorrected error at a row and stops there (R126). -/
def Device.dmaEnd (s : Device) (n j : Nat) (bad : Option Nat) (met : DmaMet) : Device :=
  let ch := s.chan n j
  match ch.queue.head?, ch.active, s.occupant n with
  | some raw, some start, some job => match s.job? job with
    | some x =>
      let d := Desc.decode raw
      if s.dmaWaits d x then s.stall (dmaMaster n j) ((x.buf d.dstBuf).base + d.dstOff)
      else if d.op ≠ 3 && d.rowBytes ≠ 0 && !s.bufOn (x.buf d.srcBuf) then (s.dmaDone n j .domainOff).noteRun n start
      else
        let s : Device := s.unstall (dmaMaster n j)
        let first := d.stopRow [bad, s.dmaBadRow d x]
        let e := s.dmaErrors (dmaMaster n j) d x (match first with | some r => r + 1 | none => d.rows) met
        let s : Device := e.2
        match d.stopRow [first, e.1] with
        | some r => (((s.dmaMove n j job d x r).dmaDone n j .uncorrected).dmaHalt n j).noteRun n start
        | none => ((s.dmaMove n j job d x d.rows).dmaDone n j .ok).noteRun n start
    | none => s
  | _, _, _ => s

/-- DMA_DESCRIPTOR_COMPLETE (row 38). The operands are a row at which an uncorrected error was met on the way, and the errors met in core memory, cluster
memory and HBM. -/
def execDmaDescriptorComplete (c : Fin 32) (k : Fin 16) (j : Fin 4) (bad : Option (BitVec 32)) (met : DmaMet) (s : State) : Outc := s.run fun (s : Device) =>
  let n := coreNo c k
  (if s.coreLive n && (s.chan n j).active.isSome then s.dmaEnd n j (bad.map fun b => b.toNat) met else s)

end Sys2Proof.Machine
end

