-- ==== Sys2Proof/Machine/Maps.lean ====
section
/-! DEFINITION. The window unit and Cameo (06_clusters_feature_maps.md, rows 42 to 52): map descriptors, the checks of R167, pooling and
its backward passes, direct convolutions and the stem's weight gradient, and the scrub of cluster memory. -/

namespace Sys2Proof.Machine

def Device.clu (s : Device) (c : Nat) : ClusterSt := tgetD s.clusters c {}
def Device.setClu (s : Device) (c : Nat) (x : ClusterSt) : Device := { s with clusters := tset s.clusters c x {} }

/-! ## Maps (R156) -/

/-- A map descriptor (Table 6.2). -/
def MapD.decode (b : Bytes) : MapD :=
  let w0 := leAt b 0 8
  let w1 := leAt b 8 8
  let w2 := leAt b 16 8
  { base := bits w0 63 39, scaleBase := bits w0 38 14, fmt := bits w0 13 9, block := bits w0 8 6,
    height := bits w1 63 48, width := bits w1 47 32, channels := bits w1 31 20, rowPitch := bits w2 63 40, numeric := bits w2 31 0 }

/-- A map that is written: format and block mode are those of its numeric word. -/
def MapD.written (m : MapD) : MapD := { m with fmt := numFmt m.numeric, block := numBlock m.numeric }

/-- Bytes of a pixel. -/
def MapD.pb (m : MapD) : Nat := rowBytes (fmtBits m.fmt) m.channels

/-- Channels under one scale, and bytes of a pixel's scales. -/
def MapD.extent (m : MapD) : Nat := (blockShape m.block).2
def MapD.sb (m : MapD) : Nat := roundUp ((m.channels + m.extent - 1) / m.extent) 4

/-- Is a descriptor accepted (step 2 of R167)? -/
def MapD.ok (m : MapD) : Bool :=
  decide (m.block ≤ 4) && pairOk m.fmt m.block && 1 ≤ m.height && m.height ≤ 16384 && 1 ≤ m.width && m.width ≤ 16384 &&
  1 ≤ m.channels && m.channels ≤ 4095 && decide (m.width * m.pb ≤ m.rowPitch)

def MapD.pixel (m : MapD) (y x : Nat) : Nat := m.base + y * m.rowPitch + x * m.pb
def MapD.scaleAt (m : MapD) (y x : Nat) : Nat := m.scaleBase + (y * m.width + x) * m.sb

/-- An element of a map in cluster memory, decoded to FP32 (R84). -/
def Device.mapElem (s : Device) (c : Nat) (m : MapD) (y x ch : Nat) : F32 :=
  let f := fmt! m.fmt
  let off := ch * f.w % 8
  let raw := leNat (s.clmGet c (m.pixel y x + ch * f.w / 8) ((off + f.w + 7) / 8)) / 2 ^ off % 2 ^ f.w
  toF32 (if m.block = 0 then f.decode raw else decodeElem f (some (leNat (s.clmGet c (m.scaleAt y x + ch / m.extent) 1))) raw)

/-- Writes channels first to first + n − 1 of a row of pixels through Facet, and counts them (R156). -/
def Device.storePixels (s : Device) (c job : Nat) (m : MapD) (y width first n : Nat) (val : Nat → Nat → F32) : Device :=
  let e := encodeMatrix m.numeric width n val
  let w := fmtBits m.fmt
  let s : Device := (List.range width).foldl (fun (s : Device) x =>
    s.clmPut c (m.pixel y x + first * w / 8) (packRow w ((e.codes.getD x []).take n))) s
  let s : Device := if m.block = 0 then s else (List.range width).foldl (fun (s : Device) x =>
    let sc : Bytes := (e.scales.getD x []).map fun v => BitVec.ofNat 8 v
    let sc := if first + n = m.channels then padTo (m.sb - first / m.extent) sc else sc
    s.clmPut c (m.scaleAt y x + first / m.extent) sc) s
  (s.facetCount e).loupeCount (some job) m.numeric e.elts

/-- Ranges of channels of some pixels, with their scales. -/
def MapD.ranges (m : MapD) (ys xs : List Nat) (first n : Nat) : List (Nat × Nat) :=
  let w := fmtBits m.fmt
  ys.flatMap fun y => xs.flatMap fun x =>
    (m.pixel y x + first * w / 8, ((first + n) * w + 7) / 8 - first * w / 8) ::
      (if m.block = 0 then [] else [(m.scaleAt y x + first / m.extent,
        if first + n = m.channels then m.sb - first / m.extent else (n + m.extent - 1) / m.extent)])

/-- Does a range lie in the partition that a job holds in the cluster (R154)? -/
def Device.inPart (s : Device) (c j : Nat) (r : Nat × Nat) : Bool :=
  (tgetD s.work.parts c []).any fun p => p.job == j && decide (p.base ≤ r.1) && decide (r.1 + r.2 ≤ p.base + p.size)

/-! ## Geometry (R158) -/

/-- The rows or columns of the forward output. -/
def outDim (n padA padB k stride : Nat) : Nat := if n + padA + padB < k then 0 else (n + padA + padB - k) / stride + 1

/-- The input position of a tap, where it is real. -/
def tapPos (n pad stride o t : Nat) : Option Nat :=
  if pad ≤ o * stride + t && o * stride + t - pad < n then some (o * stride + t - pad) else none

/-- The input positions that outputs touch. -/
def tapsOf (n pad stride k : Nat) (outs : List Nat) : List Nat :=
  (List.range n).filter fun i => outs.any fun o => (List.range k).any fun t => tapPos n pad stride o t == some i

/-- The rows a command computes. -/
def rowsFrom (first count : Nat) : List Nat := (List.range count).map fun i => first + i

/-! ## Window commands (R157 to R162) -/

def WinCmd.decode (b : Bytes) : WinCmd :=
  let w := leAt b 0 8
  let w1 := leAt b 8 8
  { op := bits w 55 53, kh := bits w 52 48, kw := bits w 47 43, sh := bits w 42 39, sw := bits w 38 35, padT := bits w 34 31,
    padL := bits w 30 27, padB := bits w 26 23, padR := bits w 22 19, countPad := bit w 18, job := bits w 17 13,
    rowFirst := bits w1 63 48, rowCount := bits w1 47 32, indexBase := bits w1 31 7,
    inM := MapD.decode (slice b 16 24), outM := (MapD.decode (slice b 40 24)).written }

/-- The forward input and output maps of a command. -/
def WinCmd.big (w : WinCmd) : MapD := if w.op ≤ 2 then w.inM else w.outM
def WinCmd.small (w : WinCmd) : MapD := if w.op ≤ 2 then w.outM else w.inM

/-- Step 1 of R167. -/
def WinCmd.headOk (w : WinCmd) : Bool :=
  w.op ≤ 4 && 1 ≤ w.kh && w.kh ≤ 16 && 1 ≤ w.kw && w.kw ≤ 16 && 1 ≤ w.sh && w.sh ≤ 8 && 1 ≤ w.sw && w.sw ≤ 8 &&
  w.padT < w.kh && w.padB < w.kh && w.padL < w.kw && w.padR < w.kw && 1 ≤ w.rowCount && w.rowCount ≤ 16384

/-- Step 2 of R167. -/
def WinCmd.mapsOk (w : WinCmd) : Bool :=
  w.inM.ok && w.outM.ok && (w.op ≤ 2 || (w.outM.fmt == 0 && w.outM.block == 0 && !numCount w.outM.numeric))

/-- Step 3 of R167. -/
def WinCmd.geomOk (w : WinCmd) : Bool :=
  w.inM.channels == w.outM.channels && w.small.height == outDim w.big.height w.padT w.padB w.kh w.sh &&
  w.small.width == outDim w.big.width w.padL w.padR w.kw w.sw && decide (w.rowFirst + w.rowCount ≤ w.small.height)

/-- The cycles of a command (R162). -/
def WinCmd.cycles (w : WinCmd) : Nat :=
  let c := w.inM.channels
  let g := if 64 ≤ c then 1 else 64 / 2 ^ Nat.clog 2 c
  w.rowCount * ((w.small.width + g - 1) / g) * ((c + 63) / 64) * w.kh * w.kw

/-- The ranges a command touches (step 5 of R167). -/
def WinCmd.touches (w : WinCmd) : List (Nat × Nat) :=
  let rows := rowsFrom w.rowFirst w.rowCount
  let cols := List.range w.small.width
  w.small.ranges rows cols 0 w.small.channels ++
  w.big.ranges (tapsOf w.big.height w.padT w.sh w.kh rows) (tapsOf w.big.width w.padL w.sw w.kw cols) 0 w.big.channels ++
  (if w.op = 2 || w.op = 3 then
    [(w.indexBase + w.rowFirst * w.small.width * w.small.channels, w.rowCount * w.small.width * w.small.channels)] else [])

/-- The job of a unit's command is told of a refusal (R167). -/
def Device.unitRefuse (s : Device) (job obj stObj : Nat) (busy : Bool) (st : Status) : Device :=
  let s : Device := s.setNum obj st.code
  let s : Device := if busy then s else s.setNum stObj 2
  s.tellJob job st

/-- A length beyond the partition of the job: its core group is frozen (step 5 of R167). -/
def Device.partViolation (s : Device) (c job : Nat) : Device := (s.tellJob job .access).violation (masterId 1 job) 5 0 3 (0x40 + c) 0

/-- The checks and the issue of a window command whose queue has room (R167). -/
def Device.windowIssue (s : Device) (c : Nat) (b : Bytes) : Device :=
  let w := WinCmd.decode b
  let x := s.clu c
  let no (st : Status) : Device := s.unitRefuse w.job (O.windowLastStatus c) (O.windowState c) (!x.winQ.isEmpty) st
  if leAt b 7 1 ≠ 0x30 || !w.headOk then no .range
  else if !w.mapsOk then no .range
  else if !w.geomOk then no .range
  else if 30000 < w.cycles then no .limit
  else if w.touches.any fun r => !s.inPart c w.job r then s.partViolation c w.job
  else
    let at_ := if x.winQ.isEmpty then s.uptime else x.winAt
    (s.setClu c { x with winQ := x.winQ ++ [w], winAt := at_ }).setNum (O.windowState c) 1

/-- The real taps of a window, in the order ty, then tx: tap index and input position. -/
def WinCmd.taps (w : WinCmd) (oy ox : Nat) : List (Nat × Nat × Nat) :=
  (List.range w.kh).flatMap fun ty => (List.range w.kw).filterMap fun tx =>
    match tapPos w.big.height w.padT w.sh oy ty, tapPos w.big.width w.padL w.sw ox tx with
    | some y, some x => some (ty * w.kw + tx, y, x)
    | _, _ => none

/-- n of R159. -/
def WinCmd.divisor (w : WinCmd) (oy ox : Nat) : F32 := fofNat (if w.countPad then w.kh * w.kw else (w.taps oy ox).length)

/-- The largest element of a list with its tap: a tie stays with the lower tap, the first NaN stands (R159). -/
def maxTap : List (Nat × F32) → Nat × F32
  | [] => (0, 0)
  | a :: r => r.foldl (fun (m : Nat × F32) x =>
      if m.2.fp.isNan then m else if x.2.fp.isNan then (x.1, f32Nan)
      else (if flt m.2 x.2 then x.1 else m.1, fmax m.2 x.2)) (a.1, canon a.2)

/-- One output row of a forward command. -/
def Device.windowRow (s : Device) (c : Nat) (w : WinCmd) (oy : Nat) : Device :=
  let elem (ox ch : Nat) : List (Nat × F32) := (w.taps oy ox).map fun t => (t.1, s.mapElem c w.inM t.2.1 t.2.2 ch)
  let val (ox ch : Nat) : F32 :=
    if w.op = 1 then fdiv ((elem ox ch).foldl (fun (a : F32) e => fadd a e.2) 0) (w.divisor oy ox) else (maxTap (elem ox ch)).2
  let idx : Bytes := (List.range w.outM.width).flatMap fun ox => (List.range w.outM.channels).map fun ch =>
    BitVec.ofNat 8 (maxTap (elem ox ch)).1
  let s : Device := s.storePixels c w.job w.outM oy w.outM.width 0 w.outM.channels val
  if w.op = 2 then s.clmPut c (w.indexBase + oy * w.outM.width * w.outM.channels) idx else s

/-- Adds to an FP32 element of OUT (R160). -/
def Device.mapAdd (s : Device) (c : Nat) (m : MapD) (y x ch : Nat) (v : F32) : Device :=
  let a := m.pixel y x + 4 * ch
  s.clmPut c a (leBytes 4 (fadd (BitVec.ofNat 32 (leNat (s.clmGet c a 4))) v).toNat)

/-- One row of dy of a backward command. An index that names no element of dx adds to none. -/
def Device.windowRowBwd (s : Device) (c : Nat) (w : WinCmd) (oy : Nat) : Device :=
  (List.range w.inM.width).foldl (fun (s : Device) ox => (List.range w.inM.channels).foldl (fun (s : Device) ch =>
    let dy := s.mapElem c w.inM oy ox ch
    if w.op = 3 then
      let i := leNat (s.clmGet c (w.indexBase + (oy * w.inM.width + ox) * w.inM.channels + ch) 1)
      match (w.taps oy ox).find? fun t => t.1 == i with
      | some t => s.mapAdd c w.outM t.2.1 t.2.2 ch dy
      | none => s
    else
      let v := fdiv dy (w.divisor oy ox)
      (w.taps oy ox).foldl (fun (s : Device) t => s.mapAdd c w.outM t.2.1 t.2.2 ch v) s) s) s

/-- The command at the head of the window unit's queue ends, at a failing row or after its last (R153). -/
def Device.windowEnd (s : Device) (c wait : Nat) (bad : Option Nat) (hits : List EccHit) : Device :=
  let x := s.clu c
  match x.winQ with
  | [] => s
  | w :: rest =>
    let rows := rowsFrom w.rowFirst (min w.rowCount (bad.getD w.rowCount))
    let s : Device := rows.foldl (fun (s : Device) oy => if w.op ≤ 2 then s.windowRow c w oy else s.windowRowBwd c w oy) s
    let s : Device := ((s.clmErrors c hits).noteJob w.job x.winAt).setClu c { s.clu c with winQ := rest, winAt := s.uptime }
    let s : Device := (s.bump (O.windowBusyCycles c) (w.cycles + wait)).bump (O.windowWaitCycles c) wait
    let s : Device := s.setNum (O.windowState c) (if rest.isEmpty then 0 else 1)
    if bad.isSome then s.unitRefuse w.job (O.windowLastStatus c) (O.windowState c) (!rest.isEmpty) .uncorrected
    else s.bump (O.windowCommands c)

/-! ## Cameo (R163 to R166) -/

def CameoCmd.decode (b : Bytes) : CameoCmd :=
  let w := leAt b 0 8
  let w1 := leAt b 8 8
  let mode := bits w 55 54
  { mode := mode, kh := bits w 53 50, kw := bits w 49 46, sh := bits w 45 43, sw := bits w 42 40, padT := bits w 39 36,
    padL := bits w 35 32, padB := bits w 31 28, padR := bits w 27 24, coFirst := bits w 23 12, coCount := bits w 11 5, job := bits w 4 0,
    rowFirst := bits w1 63 48, rowCount := bits w1 47 32, weightBase := bits w1 31 7, bias := bit w1 6,
    biasBase := bits (leAt b 64 8) 63 39, a := MapD.decode (slice b 16 24),
    b := if mode = 2 then MapD.decode (slice b 40 24) else (MapD.decode (slice b 40 24)).written }

def CameoCmd.headOk (w : CameoCmd) : Bool :=
  w.mode ≤ 2 && 1 ≤ w.kh && w.kh ≤ 11 && 1 ≤ w.kw && w.kw ≤ 11 && 1 ≤ w.sh && w.sh ≤ 4 && 1 ≤ w.sw && w.sw ≤ 4 &&
  w.padT ≤ 10 && w.padT < w.kh && w.padB ≤ 10 && w.padB < w.kh && w.padL ≤ 10 && w.padL < w.kw && w.padR ≤ 10 && w.padR < w.kw &&
  1 ≤ w.coCount && w.coCount ≤ 64 && 1 ≤ w.rowCount && w.rowCount ≤ 16384 && aligned w.weightBase 4

def readFmt (f : Nat) : Bool := 1 ≤ f && f ≤ 4

/-- Formats, channels and blocks (R164). -/
def CameoCmd.mapsOk (w : CameoCmd) : Bool :=
  w.a.ok && w.b.ok && readFmt w.a.fmt && (w.mode != 2 || readFmt w.b.fmt) &&
  (match w.mode with
   | 1 => w.b.channels ≤ 8 && w.coFirst == 0 && w.coCount == w.b.channels
   | _ => w.a.channels ≤ 8 && decide (w.coFirst + w.coCount ≤ w.b.channels)) &&
  (w.mode != 0 || w.b.block == 0 ||
    (aligned w.coFirst w.b.extent && (aligned (w.coFirst + w.coCount) w.b.extent || w.coFirst + w.coCount == w.b.channels)))

def CameoCmd.geomOk (w : CameoCmd) : Bool :=
  w.b.height == outDim w.a.height w.padT w.padB w.kh w.sh && w.b.width == outDim w.a.width w.padL w.padR w.kw w.sw &&
  decide (w.rowFirst + w.rowCount ≤ w.b.height)

/-- The cycles of a command (R166). -/
def CameoCmd.cycles (w : CameoCmd) : Nat :=
  let g := if w.mode = 1 then 128 else 16
  w.rowCount * ((w.b.width + g - 1) / g) * w.kh * w.kw * w.a.channels

/-- The address of a weight and of a bias. -/
def CameoCmd.weightAt (w : CameoCmd) (co ty tx ci : Nat) : Nat :=
  w.weightBase + (((co * w.kh + ty) * w.kw + tx) * w.a.channels + ci) * 4
def CameoCmd.biasAt (w : CameoCmd) (co : Nat) : Nat := w.biasBase + co * 4

def CameoCmd.touches (w : CameoCmd) : List (Nat × Nat) :=
  let rows := rowsFrom w.rowFirst w.rowCount
  let cols := List.range w.b.width
  w.a.ranges (tapsOf w.a.height w.padT w.sh w.kh rows) (tapsOf w.a.width w.padL w.sw w.kw cols) 0 w.a.channels ++
  w.b.ranges rows cols w.coFirst w.coCount ++
  [(w.weightAt w.coFirst 0 0 0, w.coCount * w.kh * w.kw * w.a.channels * 4)] ++
  (if w.bias then [(w.biasAt w.coFirst, 4 * w.coCount)] else [])

/-- The checks and the issue of a Cameo command whose queue has room. -/
def Device.cameoIssue (s : Device) (c : Nat) (b : Bytes) : Device :=
  let w := CameoCmd.decode b
  let x := s.clu c
  let no (st : Status) : Device := s.unitRefuse w.job (O.cameoLastStatus c) (O.cameoState c) (!x.camQ.isEmpty) st
  if leAt b 7 1 ≠ 0x31 || !w.headOk then no .range
  else if !w.mapsOk then no .range
  else if !w.geomOk then no .range
  else if 30000 < w.cycles then no .limit
  else if w.touches.any fun r => !s.inPart c w.job r then s.partViolation c w.job
  else
    let at_ := if x.camQ.isEmpty then s.uptime else x.camAt
    (s.setClu c { x with camQ := x.camQ ++ [w], camAt := at_ }).setNum (O.cameoState c) 1

/-- A binary32 of cluster memory. -/
def Device.clmF32 (s : Device) (c a : Nat) : F32 := BitVec.ofNat 32 (leNat (s.clmGet c a 4))

/-- The real taps of an output position, in order. -/
def CameoCmd.taps (w : CameoCmd) (oy ox : Nat) : List (Nat × Nat × Nat × Nat) :=
  (List.range w.kh).flatMap fun ty => (List.range w.kw).filterMap fun tx =>
    match tapPos w.a.height w.padT w.sh oy ty, tapPos w.a.width w.padL w.sw ox tx with
    | some y, some x => some (ty, tx, y, x)
    | _, _ => none

/-- An output element of STEM and HEAD (R165). -/
def Device.cameoElem (s : Device) (c : Nat) (w : CameoCmd) (oy ox co : Nat) : F32 :=
  (w.taps oy ox).foldl (fun (a : F32) t => (List.range w.a.channels).foldl (fun (a : F32) ci =>
    ffma (s.mapElem c w.a t.2.2.1 t.2.2.2 ci) (s.clmF32 c (w.weightAt co t.1 t.2.1 ci)) a) a)
    (if w.bias then s.clmF32 c (w.biasAt co) else 0)

/-- The weight gradient of one output position (R165). -/
def Device.cameoGrad (s : Device) (c : Nat) (w : CameoCmd) (oy ox : Nat) : Device :=
  (rowsFrom w.coFirst w.coCount).foldl (fun (s : Device) co =>
    let dy := s.mapElem c w.b oy ox co
    let s : Device := (w.taps oy ox).foldl (fun (s : Device) t => (List.range w.a.channels).foldl (fun (s : Device) ci =>
      let a := w.weightAt co t.1 t.2.1 ci
      s.clmPut c a (leBytes 4 (ffma dy (s.mapElem c w.a t.2.2.1 t.2.2.2 ci) (s.clmF32 c a)).toNat)) s) s
    if w.bias then s.clmPut c (w.biasAt co) (leBytes 4 (fadd (s.clmF32 c (w.biasAt co)) dy).toNat) else s) s

/-- One output row. -/
def Device.cameoRow (s : Device) (c : Nat) (w : CameoCmd) (oy : Nat) : Device :=
  if w.mode = 2 then (List.range w.b.width).foldl (fun (s : Device) ox => s.cameoGrad c w oy ox) s
  else s.storePixels c w.job w.b oy w.b.width w.coFirst w.coCount fun ox k => s.cameoElem c w oy ox (w.coFirst + k)

/-- The command at the head of Cameo's queue ends. -/
def Device.cameoEnd (s : Device) (c wait : Nat) (bad : Option Nat) (hits : List EccHit) : Device :=
  let x := s.clu c
  match x.camQ with
  | [] => s
  | w :: rest =>
    let rows := rowsFrom w.rowFirst (min w.rowCount (bad.getD w.rowCount))
    let s : Device := rows.foldl (fun (s : Device) oy => s.cameoRow c w oy) s
    let s : Device := ((s.clmErrors c hits).noteJob w.job x.camAt).setClu c { s.clu c with camQ := rest, camAt := s.uptime }
    let s : Device := (s.bump (O.cameoBusyCycles c) (w.cycles + wait)).bump (O.cameoWaitCycles c) wait
    let s : Device := s.setNum (O.cameoState c) (if rest.isEmpty then 0 else 1)
    if bad.isSome then s.unitRefuse w.job (O.cameoLastStatus c) (O.cameoState c) (!rest.isEmpty) .uncorrected
    else s.bump (O.cameoCommands c)

/-- CLMEM_SCRUB (row 52): a scrub of a cluster's memory meets the errors named. -/
def execClmemScrub (c : Fin 32) (hits : List EccHit) (s : State) : Outc := s.run fun (s : Device) =>
  (if s.runs (clusterDomain c) then s.clmErrors c hits else s)

end Sys2Proof.Machine
end

