-- ==== Sys2Proof/Machine/Halo.lean ====
section
/-! DEFINITION. The halo unit (R168 to R174): tokens, READY and RETURN, gates and their starts; the command ports of the cluster's units (R155);
rows 42 to 57, the scrub apart. -/

namespace Sys2Proof.Machine

/-- The code of a token's state (Table 6.5). -/
def Token.code : Token → Nat
  | .home => 0
  | .toConsumer => 1
  | .ready => 2
  | .toProducer => 3

/-- The producer end of a channel: the cluster and the channel at which its tokens are kept. -/
def Device.haloEnd (s : Device) (c h : Nat) : Option (Nat × Nat × HaloCh) :=
  match tget? (s.clu c).halo h with
  | some x => some (c, h, x)
  | none => s.clusters.findSome? fun p => p.2.halo.findSome? fun q => if q.2.cons == c && q.2.consCh == h then some (p.1, q.1, q.2) else none

def HaloCh.token (x : HaloCh) (slot : Nat) : Token := if slot = 0 then x.t0 else x.t1
def HaloCh.setToken (x : HaloCh) (slot : Nat) (t : Token) : HaloCh := if slot = 0 then { x with t0 := t } else { x with t1 := t }

/-- Stores a channel's tokens and shows them at both ends. -/
def Device.setHalo (s : Device) (p h : Nat) (x : HaloCh) : Device :=
  let c := s.clu p
  let v := x.t0.code + 4 * x.t1.code
  ((s.setClu p { c with halo := tput c.halo h x }).setNum (O.haloTokenStates p h) v).setNum (O.haloTokenStates x.cons x.consCh) v

def Device.credit (s : Device) (id : Nat) : Credit := tgetD s.mem.credits id {}
def Device.setCredit (s : Device) (id : Nat) (c : Credit) : Device := { s with mem := { s.mem with credits := tset s.mem.credits id c {} } }

/-- Changes the counts of a cluster's token ledger (R173, R307). -/
def Device.tokenCount (s : Device) (p : Nat) (f : Credit → Credit) : Device := s.setCredit (ledgerId 5 p) (f (s.credit (ledgerId 5 p)))

/-- How many tokens of a channel are in a state. -/
def HaloCh.inState (x : HaloCh) (t : Token) : Nat := ([x.t0, x.t1].filter (· == t)).length

/-- A marker enters every channel's route behind the tokens on their way to the consumer, or a reply behind those on their way back. -/
def Device.markHalos (s : Device) (p : Nat) (t : Token) : Device :=
  let c := s.clu p
  s.setClu p { c with halo := c.halo.map fun h =>
    (h.1, if t = .toConsumer then { h.2 with ahead := h.2.inState t } else { h.2 with behind := h.2.inState t }) }

/-- Where a token in flight comes from and goes to. -/
def HaloCh.way (x : HaloCh) (p slot : Nat) : Nat × Nat := if x.token slot = .toProducer then (x.cons, p) else (p, x.cons)

/-- The way of a token that travels. -/
def Device.wayOf (s : Device) (f : Nat × Nat × Nat) : Option (Nat × Nat) := (tget? (s.clu f.1).halo f.2.1).map fun x => x.way f.1 f.2.2

/-- The islands that a token passes: those of both clusters, and of their dies where these differ (R20, R28). -/
def wayIslands (w : Nat × Nat) : List Nat :=
  if w.1 / 2 = w.2 / 2 then [18 + w.1 / 2] else [18 + w.1 / 2, 18 + w.2 / 2, 2 + w.1 / 8, 2 + w.2 / 8]

/-- Is a token the oldest of its route? Within one cluster it passes no crossing and waits for no other (R28, R170). -/
def Device.tokenDue (s : Device) (f : Nat × Nat × Nat) (w : Nat × Nat) : Bool :=
  !(wayIslands w).any s.islandStopped &&
    (w.1 == w.2 || ((s.clu w.1).flying.find? fun g => s.wayOf g == some w) == some f)

/-- A token leaves one end of its channel. -/
def Device.tokenLeaves (s : Device) (p h : Nat) (x : HaloCh) (slot : Nat) (t : Token) : Device :=
  let y := x.setToken slot t
  let s : Device := s.setHalo p h y
  let src := (y.way p slot).1
  let s : Device := s.setClu src { s.clu src with flying := (s.clu src).flying ++ [(p, h, slot)] }
  s.tokenCount p fun k => if t = .toConsumer then { k with sent := k.sent + 1 } else { k with returned := k.returned + 1 }

/-- A token reaches the other end. -/
def Device.tokenArrives (s : Device) (p h : Nat) (x : HaloCh) (slot : Nat) : Device :=
  let src := (x.way p slot).1
  let s : Device := s.setClu src { s.clu src with flying := (s.clu src).flying.erase (p, h, slot) }
  if x.token slot = .toConsumer then
    (s.setHalo p h { x.setToken slot .ready with ahead := x.ahead - 1 }).tokenCount p fun k => { k with received := k.received + 1 }
  else (s.setHalo p h { x.setToken slot .home with behind := x.behind - 1 }).tokenCount p fun k => { k with back := k.back + 1 }

/-- A halo command (Table 6.6). -/
structure HaloCmd where
  op : Nat
  ch : Nat
  slot : Nat
  core : Nat
  conds : List (Nat × Nat × Bool)
  condCount : Nat
  job : Nat
  list : Nat
deriving DecidableEq, Repr

def HaloCmd.decode (b : Bytes) : HaloCmd :=
  let w := leAt b 0 8
  let w1 := leAt b 8 8
  { op := bits w 63 60, ch := bits w 59 54, slot := bits w 53 53, core := bits w 52 49, condCount := bits w 48 45, job := bits w 44 40,
    list := bits w1 63 42,
    conds := (List.range (bits w 48 45)).map fun i => let c := bits w1 (41 - 8 * i) (34 - 8 * i); (c / 4, c / 2 % 2, c % 2 == 1) }

/-- A halo command refused under R170: counted, and the job told. -/
def Device.haloRefuse (s : Device) (c job : Nat) (st : Status) : Device := (s.bump (O.haloRefusals c)).tellJob job st

/-- READY and RETURN (R170): the token leaves the end that holds it. -/
def Device.haloMove (s : Device) (c : Nat) (h : HaloCmd) (atProducer : Bool) (have_ sent : Token) : Device :=
  match s.haloEnd c h.ch with
  | none => s.haloRefuse c h.job .access
  | some (p, ph, x) =>
    if x.job ≠ h.job then s.haloRefuse c h.job .access
    else if (p == c && ph == h.ch) != atProducer || x.token h.slot ≠ have_ then s.haloRefuse c h.job .state
    else s.tokenLeaves p ph x h.slot sent

/-- Is a condition's channel one of the job (R170)? A need that does not fit the end never comes true (R171). -/
def Device.condOwn (s : Device) (c job : Nat) (x : Nat × Nat × Bool) : Bool :=
  match s.haloEnd c x.1 with
  | none => false
  | some (_, _, h) => h.job == job

/-- GATE with room in the queue of its core (R169, R171). -/
def Device.gateIssue (s : Device) (c : Nat) (h : HaloCmd) : Device :=
  let n := coreNo c h.core
  let x := s.core n
  let own := match s.job? h.job with
    | some j => j.cores.contains n
    | none => false
  if 4 < h.condCount then s.tellJob h.job .range
  else if !own || !h.conds.all (s.condOwn c h.job) then s.haloRefuse c h.job .access
  else s.setCore n { x with gates := x.gates ++ [({ job := h.job, list := h.list, conds := h.conds } : Gate)] }

/-- A halo command executes (R169, R170). -/
def Device.haloIssue (s : Device) (c : Nat) (b : Bytes) : Device :=
  let h := HaloCmd.decode b
  match h.op with
  | 1 => s.haloMove c h true .home .toConsumer
  | 2 => s.haloMove c h false .ready .toProducer
  | 3 => s.gateIssue c h
  | _ => s.tellJob h.job .range

/-! ## The command ports (R155) -/

/-- Is the queue that a command is to enter full? READY and RETURN enter none. -/
def Device.portFull (s : Device) (c : Nat) (p : PortCmd) : Bool :=
  match p.unit with
  | .window => decide (9 ≤ (s.clu c).winQ.length)
  | .cameo => decide (9 ≤ (s.clu c).camQ.length)
  | .halo => (HaloCmd.decode p.data).op == 3 && decide (4 ≤ (s.core (coreNo c (HaloCmd.decode p.data).core)).gates.length)

/-- A command reaches its unit. -/
def Device.portRun (s : Device) (c : Nat) (p : PortCmd) : Device :=
  match p.unit with
  | .window => s.windowIssue c p.data
  | .cameo => s.cameoIssue c p.data
  | .halo => s.haloIssue c p.data

/-- The writes that hold the control core go on, oldest first, up to the first whose queue is still full. -/
def Device.portDrain (s : Device) (c : Nat) : Nat → Device
  | 0 => s
  | n + 1 => match (s.clu c).port with
    | [] => s
    | p :: r => if s.portFull c p then s else ((s.setClu c { s.clu c with port := r }).portRun c p).portDrain c n

/-- What follows where an entry of a queue has become free. -/
def Device.portGoes (s : Device) (c : Nat) : Device := if s.ctrlWorks c then s.portDrain c (s.clu c).port.length else s

/-- The control core writes a command: with its queue full, or an earlier write still waiting, the write holds the control core. -/
def Device.portWrite (s : Device) (c : Nat) (p : PortCmd) : Device :=
  if !s.ctrlWorks c then s
  else
    let s : Device := s.portGoes c
    if (s.clu c).port.isEmpty && !s.portFull c p then s.portRun c p
    else s.setClu c { s.clu c with port := (s.clu c).port ++ [p] }

/-- A row of the window unit: a command of 64 bytes with the row's op, or with one that every row refuses. -/
def Device.windowWrite (s : Device) (c op : Nat) (b : Bytes) : Device :=
  let w := WinCmd.decode b
  if b.length ≠ 64 || (w.op ≠ op && w.op ≤ 4) then s else s.portWrite c { unit := .window, job := w.job, data := b }

/-- A row of Cameo: a command of 96 bytes with the row's mode, or mode 3. -/
def Device.cameoWrite (s : Device) (c mode : Nat) (b : Bytes) : Device :=
  let w := CameoCmd.decode b
  if b.length ≠ 96 || (w.mode ≠ mode && w.mode ≤ 2) then s else s.portWrite c { unit := .cameo, job := w.job, data := b }

/-- A row of the halo unit: a command of 16 bytes with the row's op, or with one that every row refuses (R169). -/
def Device.haloWrite (s : Device) (c op : Nat) (b : Bytes) : Device :=
  let h := HaloCmd.decode b
  if b.length ≠ 16 || (h.op ≠ op && 1 ≤ h.op && h.op ≤ 3) then s else s.portWrite c { unit := .halo, job := h.job, data := b }

/-- WINDOW_MAX (row 42). -/
def execWindowMax (c : Fin 32) (b : Bytes) (s : State) : Outc := s.run fun (s : Device) => (s.windowWrite c 0 b)
/-- WINDOW_AVG (row 43). -/
def execWindowAvg (c : Fin 32) (b : Bytes) (s : State) : Outc := s.run fun (s : Device) => (s.windowWrite c 1 b)
/-- WINDOW_MAX_IDX (row 44). -/
def execWindowMaxIdx (c : Fin 32) (b : Bytes) (s : State) : Outc := s.run fun (s : Device) => (s.windowWrite c 2 b)
/-- WINDOW_MAX_BWD (row 45). -/
def execWindowMaxBwd (c : Fin 32) (b : Bytes) (s : State) : Outc := s.run fun (s : Device) => (s.windowWrite c 3 b)
/-- WINDOW_AVG_BWD (row 46). -/
def execWindowAvgBwd (c : Fin 32) (b : Bytes) (s : State) : Outc := s.run fun (s : Device) => (s.windowWrite c 4 b)

/-- WINDOW_COMMAND_END (row 47). The operands are the bank-wait cycles, the number of rows finished before a row that met an uncorrected
error, and the errors met. -/
def execWindowCommandEnd (c : Fin 32) (wait : BitVec 32) (bad : Option (BitVec 16)) (hits : List EccHit) (s : State) : Outc := s.run fun (s : Device) =>
  (if s.works (clusterDomain c) then (s.windowEnd c wait.toNat (bad.map fun b => b.toNat) hits).portGoes c else s)

/-- CAMEO_STEM (row 48). -/
def execCameoStem (c : Fin 32) (b : Bytes) (s : State) : Outc := s.run fun (s : Device) => (s.cameoWrite c 0 b)
/-- CAMEO_HEAD (row 49). -/
def execCameoHead (c : Fin 32) (b : Bytes) (s : State) : Outc := s.run fun (s : Device) => (s.cameoWrite c 1 b)
/-- CAMEO_STEM_WGRAD (row 50). -/
def execCameoStemWgrad (c : Fin 32) (b : Bytes) (s : State) : Outc := s.run fun (s : Device) => (s.cameoWrite c 2 b)

/-- CAMEO_COMMAND_END (row 51). -/
def execCameoCommandEnd (c : Fin 32) (wait : BitVec 32) (bad : Option (BitVec 16)) (hits : List EccHit) (s : State) : Outc := s.run fun (s : Device) =>
  (if s.works (clusterDomain c) then (s.cameoEnd c wait.toNat (bad.map fun b => b.toNat) hits).portGoes c else s)

/-! ## Rows of the halo unit -/

/-- HALO_READY (row 53). -/
def execHaloReady (c : Fin 32) (b : Bytes) (s : State) : Outc := s.run fun (s : Device) => (s.haloWrite c 1 b)
/-- HALO_RETURN (row 54). -/
def execHaloReturn (c : Fin 32) (b : Bytes) (s : State) : Outc := s.run fun (s : Device) => (s.haloWrite c 2 b)
/-- HALO_GATE (row 55): the entry enters its core's gate queue; with four there, the control core is held (R155). -/
def execHaloGate (c : Fin 32) (b : Bytes) (s : State) : Outc := s.run fun (s : Device) => (s.haloWrite c 3 b)

/-- HALO_TOKEN_ARRIVAL (row 56): a token in flight of a channel, named at its producer end, reaches the other end; tokens between two clusters
arrive in the order in which they left (R28, R170). -/
def execHaloTokenArrival (c : Fin 32) (h : Fin 64) (slot : Fin 2) (s : State) : Outc := s.run fun (s : Device) =>
  (match tget? (s.clu c).halo h.val with
   | some x =>
     let w := x.way c slot
     if (x.token slot == .toConsumer || x.token slot == .toProducer) && s.works (clusterDomain w.2) && s.tokenDue (c.val, h.val, slot.val) w
     then s.tokenArrives c h x slot else s
   | none => s)

/-- Does a condition hold at the local end of its channel (R171)? -/
def Device.condHolds (s : Device) (c : Nat) (x : Nat × Nat × Bool) : Bool :=
  match s.haloEnd c x.1 with
  | some (_, _, h) => h.token x.2.1 == (if x.2.2 then Token.ready else Token.home)
  | none => false

/-- A core starts the command list of a gate entry. -/
def Device.startList (s : Device) (n : Nat) (g : Gate) : Device :=
  let x := s.core n
  ((s.setCore n { x with seq := .run, pc := g.list, entry := g.entry, item := g.item, began := true, vstop := false }).vectorView n).setNum
    (O.coreState (n / 16) (n % 16)) 2

/-- GATE_START (row 57): the head entry starts its list when the core is idle, occupied by the entry's job and not being handed over,
and every condition holds. The operand gives, condition by condition, the cycles the entry has waited only for it (R171). -/
def execGateStart (c : Fin 32) (k : Fin 16) (waited : List (BitVec 32)) (s : State) : Outc := s.run fun (s : Device) =>
  let n := coreNo c k
  let x := s.core n
  (match x.gates with
   | [] => s
   | g :: rest =>
     if s.coreRuns n && s.occupant n == some g.job && (tget? s.work.hands n).isNone &&
        x.seq == SeqState.idle && g.conds.all (s.condHolds c) then
       let s : Device := (g.conds.zip waited).foldl (fun (s : Device) (p : (Nat × Nat × Bool) × BitVec 32) => if p.2.toNat = 0 then s else
         s.bump (O.haloWaitCycles c p.1.1) p.2.toNat) s
       ((s.setCore n { x with gates := rest }).startList n g).portGoes c
     else s)

end Sys2Proof.Machine
end

