-- ==== Sys2Proof/Machine/Walks.lean ====
section
/-! DEFINITION. Lengths tables, work items and walks (R180 to R185, rows 58 to 62). -/

namespace Sys2Proof.Machine

/-! ## The lengths table (R181) -/

/-- The status of an entry for itself (R181, R388): slot active, lengths in range. -/
def lenStatus (j : Job) (e : LenEntry) : Nat :=
  if !j.slots.contains e.slot then Status.code .state
  else if e.ctxLen < e.qLen || e.ctxLen = 0 then Status.code .range
  else if 2097152 < e.ctxLen then Status.code .limit
  else 0

/-- Keeps an entry's status, and writes it into the status array of the step (Table 16.5). -/
def Device.setLenStatus (s : Device) (j i st : Nat) : Device :=
  match s.job? j with
  | some x => match x.cur with
    | some r => (s.spacePut x (r.statusOffset + i) [BitVec.ofNat 8 st]).modJob j fun x =>
        { x with cur := some { r with lenStatus := r.lenStatus.set i st } }
    | none => s
  | none => s

/-! ## Work items (R182) -/

/-- A work item: entry, tile, part, parts, its blocks, and its core. -/
structure WorkPart where
  entry : Nat
  tile : Nat
  part : Nat
  parts : Nat
  first : Nat
  last : Nat
  core : Nat
deriving DecidableEq, Repr

/-- Rows of tile t, and its first key position (R180, R182). -/
def LenEntry.rows (e : LenEntry) (t : Nat) : Nat := min 64 (e.qLen - 64 * t)
def LenEntry.rowBase (e : LenEntry) (t : Nat) : Nat := e.ctxLen - e.qLen + 64 * t

/-- Key blocks of a tile. -/
def LenEntry.blocks (e : LenEntry) (causal : Bool) (t : Nat) : Nat :=
  if causal then (e.rowBase t + e.rows t - 1) / 64 + 1 else (e.ctxLen + 63) / 64

/-- The length class of an entry. -/
def LenEntry.cls (e : LenEntry) : Nat := Nat.clog 2 ((e.ctxLen + 63) / 64)

/-- The items of an entry, without their cores. -/
def LenEntry.items (e : LenEntry) (i : Nat) (causal : Bool) (split : Nat) : List WorkPart :=
  (List.range ((e.qLen + 63) / 64)).flatMap fun t =>
    let nb := e.blocks causal t
    let parts := min 16 ((nb + split - 1) / split)
    (List.range parts).map fun p => { entry := i, tile := t, part := p, parts := parts, first := p * nb / parts, last := (p + 1) * nb / parts,
                                      core := 0 }

/-- The core of a list that has been dealt the fewest blocks; the lowest one of several. -/
def leastLoaded (load : Tbl Nat) (l : List Nat) : Nat :=
  l.foldl (fun (b : Nat) n => if tgetD load n 0 < tgetD load b 0 then n else b) (l.headD 0)

/-- Deals one item: part 0 to the least loaded core of the group, a later part to that of the same cluster. -/
def dealItem (cores : List Nat) (a : Tbl Nat × List WorkPart) (it : WorkPart) : Tbl Nat × List WorkPart :=
  let n := if it.part = 0 then leastLoaded a.1 cores
    else
      let q := (a.2.getLast?.map fun i => i.core / 16).getD 0
      leastLoaded a.1 (cores.filter fun n => n / 16 == q)
  (tset a.1 n (tgetD a.1 n 0 + (it.last - it.first)) 0, a.2 ++ [{ it with core := n }])

/-- The assignment of a step's items: a function of the lengths table, the core group and D.00.010 alone (R182). -/
def Device.dealt (s : Device) (j : Job) (r : StepRun) (causal : Bool) : List WorkPart :=
  let ents := (List.range r.lenCount).filterMap fun i =>
    let e := s.lenEntry j r i
    if lenStatus j e = 0 && e.qLen != 0 then some (i, e) else none
  let order := (List.range 16).reverse.flatMap fun c => ents.filter fun x => x.2.cls == c
  ((order.flatMap fun x => x.2.items x.1 causal r.split).foldl (dealItem j.cores) ([], [])).2

/-! ## Walk records (R183) -/

/-- A field of word w of a record. -/
def Walk.f (x : Walk) (w hi lo : Nat) : Nat := bits (leAt x.words (8 * w) 8) hi lo
def recF (b : Bytes) (w hi lo : Nat) : Nat := bits (leAt b (8 * w) 8) hi lo

/-- Bytes of a row of a head. -/
def recRb (b : Bytes) : Nat := 512 / 2 ^ recF b 0 20 19

/-- A record refused (R183). -/
def Device.walkRefuse (s : Device) (c job : Nat) (st : Status) : Device :=
  ((s.bump (O.walkRecordRefusals c)).setNum (O.lastWalkStatus c) st.code).tellJob job st

/-- Are the fields of a record in their ranges? -/
def Device.recOk (s : Device) (c : Nat) (b : Bytes) (j : Job) (r : StepRun) : Bool :=
  let paged := recF b 0 55 55 == 0
  recF b 0 63 56 == 0x40 && j.cores.contains (coreNo c (recF b 0 38 35)) && 1 ≤ recF b 0 25 21 && recF b 0 25 21 ≤ 16 &&
  decide (recF b 0 29 26 < recF b 0 25 21) && decide (recF b 0 41 39 < 2 ^ recF b 0 20 19) && decide (recF b 1 63 48 < r.lenCount) &&
  (!paged || (match s.pool? (recF b 0 52 50) with
    | some p => p.job == recF b 0 34 30 && decide (recF b 0 49 42 < p.layers)
    | none => false))

/-- The walks of a control core. -/
def Device.walksOf (s : Device) (c : Nat) : List Walk := tgetD s.work.walks c []
def Device.setWalks (s : Device) (c : Nat) (l : List Walk) : Device := { s with work := { s.work with walks := tset s.work.walks c l [] } }

/-- The walk of a core. -/
def Device.walk? (s : Device) (c k : Nat) : Option Walk := (s.walksOf c).find? fun w => w.core == k
def Device.putWalk (s : Device) (c : Nat) (w : Walk) : Device := s.setWalks c ((s.walksOf c).map fun x => if x.core == w.core then w else x)
def Device.dropWalk (s : Device) (c k : Nat) : Device := s.setWalks c ((s.walksOf c).filter fun x => x.core != k)

def Walk.paged (w : Walk) : Bool := w.f 0 55 55 == 0
def Walk.poolNo (w : Walk) : Nat := w.f 0 52 50

/-- Puts a command list into a core's gate queue, without conditions (R184); none where the queue is full. -/
def Device.pushGate (s : Device) (n job list : Nat) (item : Option PartId := none) : Option Device :=
  let x := s.core n
  if 4 ≤ x.gates.length then none
  else some (s.setCore n { x with gates := x.gates ++ [({ job := job, list := list, conds := [], item := item } : Gate)] })

/-- May a control core work on a job's walks: its cluster works, it is not frozen, and the job is on its cores? -/
def Device.walkable (s : Device) (c job : Nat) : Bool :=
  s.ctrlWorks c && !s.isFrozen (masterId 2 c) && s.jobCode job == jsRunning

/-- The walk of a record's item, where the item is dealt to a core of this cluster (R182). -/
def Device.walkOf (s : Device) (c : Nat) (b : Bytes) (j : Job) (r : StepRun) : Option Walk :=
  let e := s.lenEntry j r (recF b 1 63 48)
  let it := (s.dealt j r (recF b 0 54 54 == 1)).find? fun i => i.entry == recF b 1 63 48 && i.tile == recF b 1 31 0 && i.part == recF b 0 29 26 &&
    i.parts == recF b 0 25 21 && i.core == coreNo c (recF b 0 38 35)
  it.map fun it => { words := b, job := recF b 0 34 30, core := recF b 0 38 35, qLen := e.qLen, ctxLen := e.ctxLen, pt := e.pt,
                     stage := if recF b 0 55 55 = 0 then .pinning else .blocks, emitted := it.first, started := it.first, last := it.last }

/-- An item ends with a status: counted, kept, and reported for its entry (R185). -/
def Device.walkFails (s : Device) (c : Nat) (w : Walk) (st : Status) : Device :=
  ((s.bump (O.walkAborts c)).setNum (O.lastWalkStatus c) st.code).setLenStatus w.job (w.f 1 63 48) st.code

/-- A walk of a control core is through with its pool's pages: the pin is written 0 once no other walk of it reads the pool (R188). -/
def Device.walkUnpins (s : Device) (c : Nat) (w : Walk) : Device :=
  if w.paged && (s.walksOf c).all fun x => x.core == w.core || !(x.paged && x.poolNo == w.poolNo && x.stage != WalkStage.draining)
  then s.unpin c w.poolNo else s

/-- A walk begins (R184): a paged one pins its pool, another starts its init list through GATE. -/
def Device.walkBegin (s : Device) (c : Nat) (j : Job) (w : Walk) : Device :=
  if w.paged then
    match s.pool? w.poolNo with
    | some x =>
      if (x.pts j).size < w.pt + (w.ctxLen + 63) / 64 * 8 then s.violation (masterId 1 w.job) 0 ((x.pts j).base + w.pt) 4 (0x40 + c)
      else
        if s.pinWaits x c then s
        else match s.takePin x c w.poolNo with
          | (.ok, s) => s.setWalks c (s.walksOf c ++ [w])
          | (st, s) => s.walkFails c w st
    | none => s
  else match s.pushGate (coreNo c w.core) w.job (w.f 3 63 42) with
    | some s => s.setWalks c (s.walksOf c ++ [w])
    | none => s

/-- WALK_START (row 58): the record of an item dealt to a core of this cluster. A job's items are those of R182; a record whose item is dealt
to another core is not this control core's, and it starts nothing. -/
def execWalkStart (c : Fin 32) (b : Bytes) (s : State) : Outc := s.run fun (s : Device) =>
  let job := recF b 0 34 30
  (if !s.walkable c job || b.length ≠ 64 then s
   else match s.job? job with
   | none => s
   | some j => match j.cur with
     | none => s
     | some r =>
       let st := lenStatus j (s.lenEntry j r (recF b 1 63 48))
       if !s.recOk c b j r || (recF b 1 31 0) ≥ ((s.lenEntry j r (recF b 1 63 48)).qLen + 63) / 64 then
         (if st = 0 then s.walkRefuse c job .range else s)
       else if st ≠ 0 || (s.walk? c (recF b 0 38 35)).isSome then s
       else match s.walkOf c b j r with
         | none => s
         | some w => s.walkBegin c j w)

/-- WALK_PIN_DONE (row 59): the pin's atomic has completed and the init list is started through GATE; with a full gate queue the control
core is held. -/
def execWalkPinDone (c : Fin 32) (k : Fin 16) (s : State) : Outc := s.run fun (s : Device) =>
  (match s.walk? c k with
   | some w =>
     if s.walkable c w.job && w.stage == WalkStage.pinning then
       match s.pushGate (coreNo c k) w.job (w.f 3 63 42) with
       | some s => s.putWalk c { w with stage := .blocks }
       | none => s
     else s
   | none => s)

/-- Is channel 3 of a core through with every descriptor? -/
def Device.channelDone (s : Device) (n : Nat) : Bool :=
  let d := s.chan n 3
  d.queue.isEmpty && d.active.isNone

/-- Has every list that was put into a core's gate queue ended? -/
def Device.coreThrough (s : Device) (n : Nat) : Bool :=
  let x := s.core n
  x.gates.isEmpty && x.seq == SeqState.idle

/-- A walk ends under R185: the pin is released, the entry has its status. -/
def Device.walkAbort (s : Device) (c : Nat) (w : Walk) (st : Status) : Device :=
  ((s.walkUnpins c w).dropWalk c w.core).walkFails c w st

/-- A little-endian word of core memory with bits [hi:lo] replaced. -/
def Device.cmField (s : Device) (n a hi lo v : Nat) : Device :=
  let w := s.cmWord n a
  s.cmPut n a (leBytes 8 (w - bits w hi lo * 2 ^ lo + v % 2 ^ (hi + 1 - lo) * 2 ^ lo))

/-- Writes the block's mask settings and widths into its program (R180, R184, Tables 7.2, 5.2, 5.5 and 4.4): into passes A and C the causal and
segment bits, cols, row_base and col_base, causal_offset 0, and with segment the segment addresses. -/
def Device.patchProgram (s : Device) (n prog : Nat) (w : Walk) (b cols : Nat) : Device :=
  let rowBase := w.ctxLen - w.qLen + 64 * w.f 1 31 0
  let seg := w.f 7 63 42
  let s : Device := (s.cmField n (prog + 128) 48 42 cols).cmField n (prog + 256) 41 30 cols
  [384, 768].foldl (fun (s : Device) o =>
    let s : Device := (s.cmField n (prog + o) 26 25 (2 * w.f 0 54 54 + w.f 0 53 53)).cmField n (prog + o + 152) 63 32 0
    let s : Device := (s.cmField n (prog + o) 43 37 cols).cmPut n (prog + o + 8) (leBytes 8 (rowBase * 2 ^ 32 + 64 * b))
    if w.f 0 53 53 = 1 then s.cmField n (prog + o + 160) 63 20 ((seg + 2 * rowBase) % 2 ^ 22 * 2 ^ 22 + (seg + 128 * b) % 2 ^ 22) else s) s

/-- The descriptor of a block (R184). -/
def Walk.descriptor (w : Walk) (off slot : Nat) : Bytes :=
  let rb := recRb w.words
  leBytes 8 (0x01 * 2 ^ 56 + w.f 4 55 48 * 2 ^ 48 + w.f 4 63 56 * 2 ^ 40) ++ leBytes 8 (off % 2 ^ 48) ++ leBytes 8 slot ++
    leBytes 8 (64 * rb * 2 ^ 32 + 2) ++ leBytes 8 (32768 * 2 ^ 32 + w.f 5 31 0) ++ List.replicate 24 0

/-- Emits the descriptor of the next block, after the checks of R185. -/
def Device.walkEmit (s : Device) (c : Nat) (w : Walk) : Device :=
  let n := coreNo c w.core
  let b := w.emitted
  let cols := min 64 (w.ctxLen - 64 * b)
  let rb := recRb w.words
  let odd := b % 2 = 1
  let prog := if odd then w.f 2 41 20 else w.f 2 63 42
  let slot := if odd then w.f 6 41 20 else w.f 6 63 42
  let send (s : Device) (off : Nat) : Device :=
    let d := s.chan n 3
    if 16 ≤ d.queue.length then s
    else
      let desc := w.descriptor off slot
      let s : Device := ((s.cmPut n (prog + 1152) desc).setChan n 3 { d with queue := d.queue ++ [desc] }).patchProgram n prog w b cols
      (s.bump (O.walkDescriptors c)).putWalk c { w with emitted := b + 1 }
  if w.paged then
    match s.pool? w.poolNo, s.job? w.job with
    | some x, some j =>
      let e := s.pte x j w.pt b
      if s.bufWaits (x.pts j) (w.pt + 8 * b) 8 false then s.stall (masterId 2 c) (x.pteAt j w.pt b)
      else if s.bufBlocked (x.pts j) (w.pt + 8 * b) 8 false then s.walkAbort c w .uncorrected
      else
      let s : Device := (s.unstall (masterId 2 c)).bufTouch (x.pts j) (w.pt + 8 * b) 8 false
      if !e.valid then s.walkAbort c w .aborted
      else if x.frames ≤ e.frame || e.fill < cols then s.walkAbort c w .range
      else send s ((e.frame * x.layers + w.f 0 49 42) * 65536 + w.f 0 41 39 * 64 * rb)
    | _, _ => s
  else send s (w.f 4 47 0 + b * w.f 5 63 32 + w.f 0 41 39 * 64 * rb)

/-- WALK_BLOCK_START (row 60): the program of a block whose descriptor has completed is started once the program before it has ended, and
the next block's descriptor is emitted; before the first block only its descriptor is emitted. -/
def execWalkBlockStart (c : Fin 32) (k : Fin 16) (s : State) : Outc := s.run fun (s : Device) =>
  (match s.walk? c k with
   | some w =>
     let n := coreNo c k
     if !s.walkable c w.job || w.stage != WalkStage.blocks then s
     else if w.emitted = w.started then (if w.emitted < w.last then s.walkEmit c w else s)
     else if s.channelDone n && s.coreThrough n then
       match s.pushGate n w.job (if w.started % 2 = 1 then w.f 2 41 20 else w.f 2 63 42) with
       | some s =>
         let w := { w with started := w.started + 1 }
         let s : Device := s.putWalk c w
         if w.emitted < w.last then s.walkEmit c w else s
       | none => s
     else s
   | none => s)

/-- WALK_PIN_RELEASE (row 61): the last descriptor has completed; the pin is written 0 and limbo frames may move (R188). -/
def execWalkPinRelease (c : Fin 32) (k : Fin 16) (s : State) : Outc := s.run fun (s : Device) =>
  (match s.walk? c k with
   | some w =>
     if s.ctrlWorks c && w.paged && w.stage == WalkStage.blocks && w.emitted == w.last && s.channelDone (coreNo c k) then
       (s.walkUnpins c w).putWalk c { w with stage := .draining }
     else s
   | none => s)

/-- The part of a split tile that a walk computes. -/
def Walk.item (w : Walk) : Option PartId :=
  if w.f 0 25 21 ≤ 1 then none
  else some { job := w.job, entry := w.f 1 63 48, tile := w.f 1 31 0, part := w.f 0 29 26, parts := w.f 0 25 21 }

/-- The final list of a core's walk: after its last block program has ended (R184). -/
def Device.walkFinal (s : Device) (c k : Nat) : Device :=
  match s.walk? c k with
  | some w =>
    let n := coreNo c k
    if s.walkable c w.job && w.started == w.last && (!w.paged || w.stage == WalkStage.draining) && w.stage != WalkStage.pinning &&
       s.coreThrough n then
      match s.pushGate n w.job (w.f 3 41 20) w.item with
      | some s => s.dropWalk c k
      | none => s
    else s
  | none => s

/-- Have the lists of every part of a tile ended? -/
def Device.partsDone (s : Device) (p : PartId) : Bool :=
  (List.range p.parts).all fun i => s.work.done.any fun d => d.1 == { p with part := i }

/-- The merge list of a split tile: on the core that ran part 0, after the completion events of every part (R179). -/
def Device.mergeStart (s : Device) (c k list : Nat) : Device :=
  let n := coreNo c k
  match s.work.done.find? fun d => d.1.part == 0 && d.2 == n && s.partsDone d.1 with
  | some d =>
    if s.walkable c d.1.job then
      match s.pushGate n d.1.job list with
      | some s => { s with work := { s.work with done := s.work.done.filter fun e => { e.1 with part := 0 } != d.1 } }
      | none => s
    else s
  | none => s

/-- WALK_FINAL_START (row 62): after the last block program has ended, the final list is started; with a merge list, that of a tile whose parts
have all ended. -/
def execWalkFinalStart (c : Fin 32) (k : FinalStart) (s : State) : Outc := s.run fun (s : Device) =>
  match k.merge with
  | none => s.walkFinal c k.core
  | some a => s.mergeStart c k.core a.toNat

end Sys2Proof.Machine
end

