-- ==== Sys2Proof/Machine/Staging.lean ====
section
/-! DEFINITION. Waiting handoffs (R302) and the audits of the conservation ledgers (R305 to R310): rows 120 to 124. -/

namespace Sys2Proof.Machine

/-- A buffer has reached an IN channel: the first piece of its stream that still waits for one has one less to wait for. -/
def Device.handedOver (s : Device) (q b : Nat) : Device :=
  match s.net.streams.find? fun t => t.1 / 64 == q && t.2.pool == b with
  | none => s
  | some (k, t) =>
    let before := t.inq.takeWhile fun p => p.need == 0
    match t.inq.drop before.length with
    | p :: r => { s with net := { s.net with streams := tput s.net.streams k { t with inq := before ++ { p with need := p.need - 1 } :: r } } }
    | [] => s

/-- HANDOFF_RETRY (row 120): the handoff at the head of a channel's queue is granted in its turn (R303). -/
def execHandoffRetry (q : Fin 4) (a : Fin 1024) (s : State) : Outc := s.run fun (s : Device) =>
  (let c := s.poolCh q.val a.val
   match c.handoffs with
   | [] => s
   | b :: r =>
     if !s.domainOn 1 || !(s.handoffTurn q).contains (a.val, b) then s
     else match s.tryHandoff q.val a.val b with
       | some s => (s.setPoolCh q.val a.val { s.poolCh q.val a.val with handoffs := r }).handedOver q.val b
       | none => s)

/-! ## Ledgers (R305 to R310) -/

/-- Credits of a class (REQ, RSP, WR, CTL) on a crossing of Table 12.2. -/
def crossingCredits (x cls : Nat) : Nat :=
  let l := if x < 16 then [32, 64, 64, 16] else if x < 20 then [256, 256, 256, 16] else if x < 24 then [128, 128, 128, 16]
    else if x < 28 then [64, 64, 64, 16] else [32, 32, 32, 16]
  l.getD cls 0

/-- Credits of a class on a ring edge, each hop set. -/
def edgeCredits (cls : Nat) : Nat := [256, 2048, 2048, 64].getD cls 0

/-- A ledger's total (Table 12.4). -/
def Device.ledgerTotal (s : Device) (id : Nat) : Nat :=
  let i := id % 4096
  match id / 4096 with
  | 1 => 8192
  | 2 => crossingCredits (i / 8) (i % 4)
  | 3 => edgeCredits (i % 4)
  | 4 => 64
  | 5 => 128
  | 6 => 64
  | _ => match s.pool? i with
    | some x => x.frames
    | none => 0

/-- The domain a ledger belongs to. -/
def ledgerDomain (id : Nat) : Nat :=
  let i := id % 4096
  match id / 4096 with
  | 2 => let x := i / 8
         if x < 16 then 8 + x else if x < 20 then 3 else if x < 24 then 2 else if x < 28 then x - 20 else 1
  | 4 => 3
  | 5 => 8 + i / 2
  | 6 => 3
  | 7 => 3
  | _ => 1

/-- The ledgers that the switch-on of a domain initialises. -/
def domainLedgers (d : Nat) : List Nat :=
  let credits (x : Nat) : List Nat := (List.range 8).map fun i => ledgerId 2 (8 * x + i)
  if d = 1 then (List.range 4).map (fun q => ledgerId 1 q) ++ credits 32 ++ (List.range 64).map fun i => ledgerId 3 i
  else if d = 2 then (List.range 4).flatMap fun q => credits (20 + q)
  else if d = 3 then (List.range 4).flatMap (fun q => credits (16 + q)) ++ (List.range 640).map (fun p => ledgerId 4 p) ++
    (List.range 4).map fun q => ledgerId 6 q
  else if d < 4 then []
  else if d < 8 then credits (20 + d)
  else credits (d - 8) ++ [ledgerId 5 (2 * (d - 8)), ledgerId 5 (2 * (d - 8) + 1)]

/-- A ledger is initialised: every object free (R305). -/
def Device.initLedger (s : Device) (id : Nat) : Device :=
  { s with mem := { s.mem with ledgers := tput s.mem.ledgers id { free := s.ledgerTotal id }, credits := tdel s.mem.credits id } }

/-- C.00.011 and C.00.014 after ledgers came or went. -/
def Device.ledgerView (s : Device) : Device := (s.setNum O.ledgerRows s.mem.ledgers.length).voidView

def Device.initLedgers (s : Device) (d : Nat) : Device := ((domainLedgers d).foldl Device.initLedger s).ledgerView

/-- A domain switches off: its ledgers are discarded (R308). -/
def Device.dropLedgers (s : Device) (d : Nat) : Device :=
  let gone := domainLedgers d
  ({ s with mem := { s.mem with ledgers := s.mem.ledgers.filter fun l => !gone.contains l.1,
                                credits := s.mem.credits.filter fun c => !gone.contains c.1 } } : Device).ledgerView

/-- The counts of a ledger whose sides need no marker, and of halo tokens: free, reserved, held, in flight (Table 12.4). -/
def Device.ledgerCounts (s : Device) (id : Nat) : Nat × Nat × Nat × Nat :=
  let i := id % 4096
  match id / 4096 with
  | 1 => (s.num (O.poolSharedFree i),
          ((s.channels i).map fun n => s.chReserve i n - s.chHeld i n).sum + s.num (O.poolUrgentFree i), s.num (O.poolHeld i), 0)
  | 4 => if s.pcSt i = 1 then (0, 64, 0, 0) else (64, 0, 0, 0)
  | 5 =>
    let toks := (s.clu i).halo.flatMap fun h => [h.2.t0, h.2.t1]
    let of (p : Token → Bool) : Nat := (toks.filter p).length
    (128 - toks.length, of (· == Token.home), of (· == Token.ready), of fun t => t == Token.toConsumer || t == Token.toProducer)
  | 6 =>
    let l := s.mem.txns.filter fun t => t.1 / 64 == i
    let busy := (l.filter fun t => t.2.state == TxnState.preparing || t.2.state == TxnState.installing).length
    (64 - l.length, 0, l.length - busy, busy)
  | 7 => match s.pool? i with
    | some x => (s.num (O.poolFreeFrames i), s.num (O.poolLimboFrames i), ((List.range x.frames).filter fun f => (s.frameRec x f).st == 1).length, 0)
    | none => (0, 0, 0, 0)
  | _ => (0, 0, 0, 0)

/-- A passed audit: the counts are reported. -/
def Device.auditPass (s : Device) (id free held fly : Nat) : Device :=
  let l := s.ledger id
  let s : Device := { s with mem := { s.mem with ledgers := tput s.mem.ledgers id { l with free := free, held := held, inFlight := fly, audit := none } } }
  s.bump O.auditsPassed

/-- A failed audit. -/
def Device.auditFail (s : Device) (id kind observed : Nat) : Device :=
  let l := s.ledger id
  let s : Device := { s with mem := { s.mem with ledgers := tput s.mem.ledgers id { l with audit := none } } }
  s.ledgerFault id kind (s.ledgerTotal id) observed

def Device.setAudit (s : Device) (id : Nat) (a : Option AuditPhase) : Device :=
  { s with mem := { s.mem with ledgers := tput s.mem.ledgers id { s.ledger id with audit := a } } }

/-- An audit starts: the next is due 25 counts later (R307). -/
def Device.auditBegins (s : Device) (id : Nat) : Device :=
  { s with mem := { s.mem with ledgers := tput s.mem.ledgers id { s.ledger id with auditDue := s.uptime + 25 } } }

/-- Has a ledger two sides? -/
def twoSided (id : Nat) : Bool := id / 4096 == 2 || id / 4096 == 3 || id / 4096 == 5

/-- The islands on a ledger's path (Table 1.6). -/
def ledgerIslands (id : Nat) : List Nat :=
  let i := id % 4096
  match id / 4096 with
  | 2 => let x := i / 8
         [2 + crossingDie x, if x < 16 then 18 + x else if x < 20 then x - 10 else if x < 24 then x - 10 else if x < 28 then x - 10 else 1]
  | 3 => [2 + (edgeEnds (i / 16)).1, 2 + (edgeEnds (i / 16)).2]
  | 5 => [18 + i / 2]
  | _ => []

/-- Have a marker or a reply of a halo ledger followed every token in front of them, on each channel's route (R307)? -/
def Device.markerThrough (s : Device) (id : Nat) : Bool :=
  id / 4096 != 5 || (s.clu (id % 4096)).halo.all fun h => h.2.ahead == 0 && h.2.behind == 0

/-- LEDGER_AUDIT (row 121): every 25 counts of the uptime a ledger starts an audit unless one is outstanding (R307). One-sided counts are summed
at once. -/
def execLedgerAudit (kind : Fin 8) (inst : BitVec 12) (s : State) : Outc := s.run fun (s : Device) =>
  (let id := ledgerId kind.val inst.toNat
   match tget? s.mem.ledgers id with
   | none => s
   | some l =>
     if l.audit.isSome || !s.runs (ledgerDomain id) || s.uptime < l.auditDue then s
     else
     let s : Device := s.auditBegins id
     if twoSided id then
       (if kind.val = 5 then s.markHalos (id % 4096) Token.toConsumer else s).setAudit id (some (.marker (s.credit id).sent s.uptime))
     else
       let c := s.ledgerCounts id
       let sum := c.1 + c.2.1 + c.2.2.1 + c.2.2.2
       if sum = s.ledgerTotal id then s.auditPass id c.1 c.2.2.1 c.2.2.2 else s.auditFail id 1 sum)

/-- AUDIT_MARKER_ARRIVAL (row 122): the marker has followed every item sent before it. `seen` are the counts that a receiver whose
counters are damaged records in place of the items received and the credits returned (R309, condition 1). -/
def execAuditMarkerArrival (kind : Fin 8) (inst : BitVec 12) (seen : Option (BitVec 32 × BitVec 32)) (s : State) : Outc := s.run fun (s : Device) =>
  (let id := ledgerId kind.val inst.toNat
   match tget? s.mem.ledgers id with
   | some l => match l.audit with
     | some (.marker sM start) =>
       let c := s.credit id
       if (ledgerIslands id).any s.islandStopped || c.received < sM || !s.markerThrough id then s
       else
         let r := (seen.map fun (p : BitVec 32 × BitVec 32) => (p.1.toNat, p.2.toNat)).getD (sM, c.returned)
         (if kind.val = 5 then s.markHalos (id % 4096) Token.toProducer else s).setAudit id (some (.reply sM r.1 r.2 start))
     | _ => s
   | none => s)

/-- AUDIT_REPLY_ARRIVAL (row 123): the reply follows the returns recorded in it, so the sender has received exactly those; the audit is
judged (R307). -/
def execAuditReplyArrival (kind : Fin 8) (inst : BitVec 12) (back : Option (BitVec 32)) (s : State) : Outc := s.run fun (s : Device) =>
  (let id := ledgerId kind.val inst.toNat
   match tget? s.mem.ledgers id with
   | some l => match l.audit with
     | some (.reply sM rM fM _) =>
       if (ledgerIslands id).any s.islandStopped || !s.markerThrough id then s
       else
         let c := s.credit id
         let got := (back.map fun (b : BitVec 32) => b.toNat).getD fM
         let s : Device := s.setCredit id { c with back := max c.back (min fM c.returned) }
         let total := s.ledgerTotal id
         if rM ≠ sM then s.auditFail id 3 rM
         else if got ≠ fM then s.auditFail id 3 got
         else if rM < fM || total < rM - fM then s.auditFail id 3 (rM - fM)
         else if id / 4096 = 5 then
           let h := s.ledgerCounts id
           s.auditPass id h.1 h.2.2.1 h.2.2.2
         else s.auditPass id (total - (rM - fM) - (c.sent - sM)) (rM - fM) (c.sent - sM)
     | _ => s
   | none => s)

/-- AUDIT_STALL (row 124): an audit has been outstanding for longer than C.00.005 with every island on its path running; with one
stopped the time is deferred (R308). -/
def execAuditStall (kind : Fin 8) (inst : BitVec 12) (s : State) : Outc := s.run fun (s : Device) =>
  (let id := ledgerId kind.val inst.toNat
   let again (a : AuditPhase) (start : Nat) : Device :=
     if (ledgerIslands id).any s.islandStopped then (s.bump O.auditDeferredNs (40 * (s.uptime - start))).setAudit id (some a)
     else if start + us (s.num O.auditStallLimitUs) < s.uptime then (s.setAudit id (some a)).ledgerFault id 6 (s.ledgerTotal id) 0
     else s
   match tget? s.mem.ledgers id with
   | some l => match l.audit with
     | some (.marker sM start) => again (.marker sM s.uptime) start
     | some (.reply sM rM fM start) => again (.reply sM rM fM s.uptime) start
     | none => s
   | none => s)

/-- The rows of C.00.010. -/
def Device.ledgerTableRows (s : Device) : List Bytes :=
  s.mem.ledgers.map fun e =>
    let l := e.2
    let total := s.ledgerTotal e.1
    beBytes 2 e.1 ++ beBytes 1 (match l.state with | .normal => 0 | .faulted => 1 | .void => 2) ++
      beBytes 1 (s.ledgerUnit (e.1 / 4096) (e.1 % 4096)).2.1 ++ beBytes 4 0 ++ beBytes 4 total ++ beBytes 4 l.free ++
      beBytes 4 (total - l.free - l.held - l.inFlight) ++ beBytes 4 l.held ++ beBytes 4 l.inFlight ++ beBytes 4 0

end Sys2Proof.Machine
end

