-- ==== Sys2Proof/Machine/Frames.lean ====
section
/-! DEFINITION. Ports and frames (R312 to R319, R331): rows 125 to 133 and 315, and the answers to faulty packets (R338). -/

namespace Sys2Proof.Machine

/-! ## Ports -/

/-- MAC rate of a port in Mbit/s (Table 13.1). -/
def macMbps (mode lanes : Nat) : Nat := if mode = 2 then 120470 * lanes else 100000 * lanes

/-- The port that a lane is the first lane of is not off. -/
def Device.portOn (s : Device) (l : Nat) : Bool := s.num (O.portMode l) != 0
/-- A port is up and its die's link-layer island runs: the SerDes clocks meet that island through a crossing (R27, R29). -/
def Device.portUp (s : Device) (l : Nat) : Bool :=
  s.runs 2 && s.portOn l && s.num (O.portState l) == 2 && !s.islandStopped (10 + l / 24)

/-- The lanes of a port. -/
def Device.portLanesOf (s : Device) (l : Nat) : List Nat := (List.range (s.num (O.portLanes l))).map fun i => l + i

/-- Sets the states of a port and of its lanes. -/
def Device.setPortState (s : Device) (l st : Nat) : Device :=
  (s.portLanesOf l).foldl (fun (s : Device) x => s.setNum (O.laneState x) st) (s.setNum (O.portState l) st)

/-- The contexts of a port, of every number whose state is not CLOSED. -/
def Device.portCtxs (s : Device) (l : Nat) : List Nat :=
  (s.net.ctxs.map fun c => c.1).filter fun n => s.ctxPort n == l && s.num (O.ctxState n) != 0

/-- The priority that the port's Brodlu traffic carries. -/
def Device.pcp (s : Device) (l : Nat) : Nat := bits (s.num (O.vlan l)) 14 12

/-- Does PFC apply on a port (R331)? -/
def Device.pfcOn (s : Device) (l : Nat) : Bool := bit (s.num (O.pfcMask l)) (s.pcp l)

/-! ## The bytes of a frame (R316, R318, R320) -/

/-- CRC-8 with the polynomial x^8 + x^2 + x + 1 from 0x00 (R318, R512). -/
def crc8 (b : Bytes) : Nat :=
  b.foldl (fun c x => (List.range 8).foldl (fun c _ => if 128 ≤ c then (2 * c) ^^^ 0x107 else 2 * c) (c ^^^ x.toNat)) 0

/-- The seven bytes after the start character of a native frame (R318). -/
def startBlock (seq flags : Nat) : Bytes :=
  let b : Bytes := 0x4E :: beBytes 2 seq ++ beBytes 1 flags
  b ++ beBytes 1 (crc8 b) ++ [0x55, 0xD5]

/-- A frame with the padding that brings it to 64 bytes with its FCS. -/
def padFrame (b : Bytes) : Bytes := b ++ List.replicate (60 - b.length) 0

/-- Addresses and EtherType of an untagged frame of a port. -/
def Device.macHead (s : Device) (l dst etherType : Nat) : Bytes :=
  beBytes 6 dst ++ beBytes 6 (s.num (O.macAddress l)) ++ beBytes 2 etherType

/-- The same with the port's tag, where it sends one (R316): PCP and VID. -/
def Device.etherHead (s : Device) (l dst etherType : Nat) : Bytes :=
  let v := s.num (O.vlan l)
  if bit v 15 then beBytes 6 dst ++ beBytes 6 (s.num (O.macAddress l)) ++ [0x81, 0x00] ++
    beBytes 2 (bits v 14 12 * 8192 + bits v 11 0) ++ beBytes 2 etherType
  else s.macHead l dst etherType

/-- One's complement sum of 16-bit words. -/
def onesSum (b : Bytes) : Nat := ((chunks 2 b.length b).map fun w => beNat (padTo 2 w)).sum

/-- The Internet checksum of a sum of 16-bit words. -/
def onesCheck (n : Nat) : Nat := 65535 - (if n = 0 then 0 else (n - 1) % 65535 + 1)

/-- A correct Internet checksum over bytes that include it. -/
def onesOk (n : Nat) : Bool := n % 65535 == 0 && n != 0

/-- An IP packet of a port around a payload (R316): DSCP, ECT(0), DF on IPv4. IPv4's identification and the hop limit are bits of the free
value `v`; the flow label is 0 (log 145). -/
def Device.ipPacket (s : Device) (l : Nat) (v4 : Bool) (src dst : Bytes) (proto hops : Nat) (v : BitVec 64) (data : Bytes) : Bytes :=
  let tos := s.num (O.dscp l) * 4 + (if s.num (O.ecnEnable l) = 1 then 2 else 0)
  if v4 then
    let a := beBytes 1 0x45 ++ beBytes 1 tos ++ beBytes 2 (20 + data.length) ++ beBytes 2 (v.toNat % 65536) ++ [0x40, 0x00] ++
      beBytes 1 hops ++ beBytes 1 proto
    let b := src.drop 12 ++ dst.drop 12
    a ++ beBytes 2 (onesCheck (onesSum (a ++ b))) ++ b ++ data
  else beBytes 4 (6 * 2 ^ 28 + tos * 2 ^ 20) ++ beBytes 2 data.length ++ beBytes 1 proto ++ beBytes 1 hops ++ src ++ dst ++ data

/-- The sum of the pseudo header of an upper-layer checksum. -/
def pseudoSum (v4 : Bool) (src dst : Bytes) (proto n : Nat) : Nat :=
  onesSum (if v4 then src.drop 12 else src) + onesSum (if v4 then dst.drop 12 else dst) + proto + n

/-- A UDP datagram with its checksum; a sum of 0 is sent as 0xFFFF. -/
def udpBytes (v4 : Bool) (src dst : Bytes) (sport dport : Nat) (data : Bytes) : Bytes :=
  let n := 8 + data.length
  let h := beBytes 2 sport ++ beBytes 2 dport ++ beBytes 2 n
  let c := onesCheck (pseudoSum v4 src dst 17 n + onesSum (h ++ [0, 0] ++ data))
  h ++ beBytes 2 (if c = 0 then 65535 else c) ++ data

/-- Is an address IPv4 (as ::ffff:a.b.c.d)? -/
def isV4 (ip : Bytes) : Bool := ip.take 12 == List.replicate 10 0 ++ [0xFF, 0xFF]

def mapped4 (b : Bytes) : Bytes := List.replicate 10 0 ++ [0xFF, 0xFF] ++ b

/-- The port's own address of a family. -/
def Device.ownIp (s : Device) (l : Nat) (v4 : Bool) : Bytes :=
  if v4 then mapped4 (beBytes 4 (s.num (O.ipv4Address l))) else padTo 16 (s.bytes (O.ipv6Address l))

/-- Is an own address set? -/
def Device.ownIpSet (s : Device) (l : Nat) (v4 : Bool) : Bool :=
  if v4 then s.num (O.ipv4Address l) != 0 else (s.bytes (O.ipv6Address l)).any fun b => b != 0

/-- A UDP frame of a port to an address. -/
def Device.udpFrame (s : Device) (l mac : Nat) (ip : Bytes) (sport dport : Nat) (v : BitVec 64) (data : Bytes) : Bytes :=
  let v4 := isV4 ip
  let own := s.ownIp l v4
  padFrame (s.etherHead l mac (if v4 then 0x0800 else 0x86DD) ++
    s.ipPacket l v4 own ip 17 (bits v.toNat 23 16) v (udpBytes v4 own ip sport dport data))

/-- The 40 header bytes of a packet (Table 13.3) and its payload. -/
def Packet.encode (p : Packet) : Bytes :=
  beBytes 8 (p.version * 2 ^ 60 + p.type * 2 ^ 56 + p.first.toNat * 2 ^ 55 + p.last.toNat * 2 ^ 54 + p.ackReq.toNat * 2 ^ 53 +
    p.retx.toNat * 2 ^ 52 + p.gen * 2 ^ 48 + p.dst * 2 ^ 36 + p.src * 2 ^ 24 + p.payLen) ++
  beBytes 4 p.seq ++ beBytes 4 p.ack ++ beBytes 8 p.sack ++ beBytes 4 p.credit ++ beBytes 4 (p.ceEcho.toNat * 2 ^ 31) ++
  beBytes 8 p.op ++ p.payload

/-! ## Frames that leave a port -/

/-- Replay buffer bytes of a port: 128 KiB per lane (R319). -/
def Device.replayRoom (s : Device) (l : Nat) : Nat := 131072 * s.num (O.portLanes l)

/-- Bytes of the frame of a UDP payload of n bytes, from destination address to FCS. -/
def Device.frameLen (s : Device) (l : Nat) (v4 : Bool) (n : Nat) : Nat :=
  max 64 (14 + (if bit (s.num (O.vlan l)) 15 then 4 else 0) + (if v4 then 20 else 40) + 8 + n + 4)

/-- Is the port's priority paused by PFC? -/
def Device.pcpPaused (s : Device) (l : Nat) : Bool :=
  s.pfcOn l && (match tget? (s.port l).paused (s.pcp l) with
    | some t => decide (s.uptime < t)
    | none => false)

/-- Has a native port's replay buffer room for a frame of n bytes (R319)? -/
def Device.replayFree (s : Device) (l n : Nat) : Bool :=
  s.num (O.portMode l) != 2 || decide ((((s.port l).replay.map fun f => f.data.length + 4).sum) + n ≤ s.replayRoom l)

/-- May a frame of n bytes leave: port up, priority not paused, room in a native port's replay buffer (R315, R319, R331)? -/
def Device.maySend (s : Device) (l n : Nat) : Bool := s.portUp l && !s.pcpPaused l && s.replayFree l n

/-- A frame leaves; a native port numbers it and keeps it (R318, R319). -/
def Device.sendNow (s : Device) (l : Nat) (d : Bytes) : Device :=
  if s.num (O.portMode l) = 2 then
    let x := s.port l
    (s.setPort l { x with txSeq := (x.txSeq + 1) % 65536, replay := x.replay ++ [({ seq := x.txSeq, data := d } : LinkFrame)] }).emit
      (.frame l (startBlock x.txSeq 0) d)
  else s.emit (.frame l [] d)

/-- A frame is put out: it leaves, or it waits behind those that wait. -/
def Device.putOut (s : Device) (l : Nat) (d : Bytes) : Device :=
  let x := s.port l
  if x.outq.isEmpty && s.maySend l (d.length + 4) then s.sendNow l d else s.setPort l { x with outq := x.outq ++ [d] }

/-- Waiting frames leave, in order, as far as they may. -/
def Device.portFlush (s : Device) (l : Nat) : Device :=
  ((s.port l).outq.foldl (fun (a : Bool × Device) (d : Bytes) =>
    if a.1 && a.2.maySend l (d.length + 4) then
      let x := a.2.port l
      (true, (a.2.setPort l { x with outq := x.outq.drop 1 }).sendNow l d)
    else (false, a.2)) ((true, s) : Bool × Device)).2

/-- A UDP payload goes out on a port to an address; IPv4 identification and hop limit are free (log 145). -/
def Device.udpOut (s : Device) (l mac : Nat) (ip : Bytes) (sport dport : Nat) (data : Bytes) : Device :=
  let r := s.freeVal
  r.2.putOut l (r.2.udpFrame l mac ip sport dport r.1 data)

/-- A UDP payload of a context, to its peer (R320, Table 13.5). -/
def Device.ctxOut (s : Device) (n : Nat) (data : Bytes) : Device :=
  let c := s.bytes (O.ctxConfig n)
  s.udpOut (s.ctxPort n) (beAt c 8 6) (slice c 16 16) (0xC000 + n) (beAt c 14 2) data

/-- A link control frame (R318): 1 ACK, 2 REPLAY. It is never replayed and carries link_seq 0. -/
def Device.linkControl (s : Device) (l kind seq : Nat) : Device :=
  s.emit (.frame l (startBlock 0 1)
    (padFrame (s.macHead l (s.num (O.peerMac l)) 0x88B5 ++ beBytes 1 kind ++ beBytes 2 seq ++ List.replicate 43 0)))

def pfcAddress : Nat := 0x0180C2000001
def broadcast : Nat := 0xFFFFFFFFFFFF

/-- A PFC frame of the port's priority (R331): its priority is no reason to hold it. -/
def Device.pfcSend (s : Device) (l quanta : Nat) : Device :=
  let s : Device := s.bump (O.pfcSent l)
  let d := padFrame (s.macHead l pfcAddress 0x8808 ++ [0x01, 0x01] ++ beBytes 2 (2 ^ s.pcp l) ++
    (List.range 8).flatMap fun i => beBytes 2 (if i = s.pcp l then quanta else 0))
  if s.portUp l && s.replayFree l (d.length + 4) then s.sendNow l d else s.setPort l { s.port l with outq := (s.port l).outq ++ [d] }

/-- XOFF and XON by the buffers that the link-receive channel holds (R331). -/
def Device.pfcCheck (s : Device) (l : Nat) : Device :=
  let p := s.port l
  let held := s.chHeld (l / 24) p.pool
  if !s.pfcOn l then s
  else if !p.xoff && s.num (O.pfcXoff l) ≤ held then (s.setPort l { p with xoff := true, xoffAt := s.uptime }).pfcSend l 0xFFFF
  else if p.xoff && held ≤ s.num (O.pfcXon l) then (s.setPort l { p with xoff := false }).pfcSend l 0
  else s

/-- Buffers of a received frame, taken and given back. -/
def Device.rxTake (s : Device) (l k : Nat) : Bool × Device :=
  let r := s.poolTake (l / 24) (s.port l).pool k
  (r.1, r.2.pfcCheck l)
def Device.rxFree (s : Device) (l k : Nat) : Device := (s.poolRelease (l / 24) (s.port l).pool k).pfcCheck l

/-! ## Port modes and states -/

/-- A write of port_mode (R312, R33, R66, R300, R429): the lanes are claimed and the link-receive channel opened, or both released. -/
def Device.portModeWrite (s : Device) (l mode sid : Nat) : Ans :=
  let obj := O.portMode l
  let old := s.num obj
  let n := s.num (O.portLanes l)
  if 2 < mode then s.deny .range obj
  else if !bit (s.num (O.clockEnables (12 + l / 24))) 0 then s.deny .state obj
  else if !(s.portCtxs l).isEmpty then s.deny .state obj
  else if mode = old then s.okay
  else if old = 0 then
    if l % n ≠ 0 then s.deny .range obj
    else if (s.portLanesOf l).any s.laneFailed then s.deny .state obj
    else match s.claim ((s.portLanesOf l).map fun x => O.laneState x) obj sid with
      | (_, some h) => s.deny .held h.1
      | (t, none) =>
        match t.poolOpen (l / 24) 1 (s.num (O.rxReserve l)) (s.num (O.rxCap l)) (s.num (O.rxClass l)) obj sid with
        | .inl lim => s.deny .limit lim
        | .inr (ch, t) => (((t.setNum obj mode).setPort l { pool := ch }).setPortState l 1).okay
  else if mode = 0 then
    let p := s.port l
    if s.chHeld (l / 24) p.pool ≠ 0 then s.deny .state obj
    else
      let s : Device := (s.poolClose (l / 24) p.pool).setPortState l 0
      ((({ s with net := { s.net with ports := tdel s.net.ports l } } : Device).release obj).setNum obj 0).okay
  else (((s.setNum obj mode).setPort l { pool := (s.port l).pool }).setPortState l 1).okay

/-- PORT_MODE_WRITE (row 125). -/
def execPortModeWrite (l : Fin 96) (mode : BitVec 8) (s : State) : Outc := s.run fun (s : Device) =>
  s.ownWrite (O.portMode l.val) fun s => s.portModeWrite l.val mode.toNat 0xFFFFFFFF

/-- PORT_TRAINING_COMPLETE (row 126): a native port trains only with a native partner of the same lane count (R314); no port with a failed
lane does (Table 20.3), and none on a die without its reference clock (Table 22.5). -/
def execPortTrainingComplete (l : Fin 96) (native : Bool) (s : State) : Outc := s.run fun (s : Device) =>
  (let st := s.num (O.portState l.val)
   if s.runs 2 && s.portOn l.val && (st == 1 || st == 3) && (s.num (O.portMode l.val) != 2 || native) &&
       !(s.portLanesOf l.val).any s.laneFailed && bit (s.num O.refclkPresent) (2 + l.val / 24) then
     (s.setPortState l.val 2).portFlush l.val
   else s)

/-- PORT_DOWN (row 127): transmission stops; frames queued for the port wait (R315). -/
def Device.portDown (s : Device) (l : Nat) : Device := if s.portOn l && s.num (O.portState l) == 2 then s.setPortState l 3 else s
def execPortDown (l : Fin 96) (s : State) : Outc := s.run fun (s : Device) => (s.portDown l.val)

/-- A failed lane takes its port down (Table 20.3). -/
def Device.laneGoesDown (s : Device) (l : Nat) : Device :=
  match (List.range 96).find? fun p => s.portOn p && (s.portLanesOf p).contains l with
  | some p => ((s.setNum (O.portState p) 3).setPortState p 3)
  | none => s

/-! ## Native link-level retry (R318, R319) -/

/-- A difference of 16-bit sequences. -/
def seq16 (a b : Nat) : Nat := (a + 65536 - b) % 65536

/-- A REPLAY is sent and an episode begins, unless one runs. -/
def Device.beginEpisode (s : Device) (l : Nat) : Device :=
  let p := s.port l
  if p.episode.isSome then s
  else ((s.setPort l { p with episode := some s.uptime }).bump (O.linkReplays l)).linkControl l 2 p.rxNext

/-- An episode ends: the transport timers of the port's contexts, suspended while it ran, go on (R319, R484). -/
def Device.endEpisode (s : Device) (l : Nat) : Device :=
  match (s.port l).episode with
  | none => s
  | some t =>
    let d := s.uptime - t
    let s : Device := s.setPort l { s.port l with episode := none }
    (s.portCtxs l).foldl (fun (s : Device) n =>
      let c := s.ctx n
      if c.unacked.isEmpty then s
      else (s.setCtx n { c with unacked := c.unacked.map fun u => { u with timerAt := u.timerAt + d } }).bump O.timerPauses) s

/-- A data frame reaches a native receiver with a good check: is it passed on, and the state after. -/
def Device.linkAccept (s : Device) (l seq : Nat) : Bool × Device :=
  let p := s.port l
  let gap := seq16 seq p.rxNext
  if p.resync then
    let s : Device := s.bump (O.linkReplaySkips l) gap
    (true, s.setPort l { s.port l with resync := false, rxNext := (seq + 1) % 65536, unacked := true })
  else if gap = 0 then
    let s : Device := s.endEpisode l
    (true, s.setPort l { s.port l with rxNext := (seq + 1) % 65536, unacked := true })
  else if gap < 32768 then (false, s.beginEpisode l)
  else (false, s)

/-- LINK_ACK (row 130): frees the frames before the named sequence. -/
def Device.linkAck (s : Device) (l seq : Nat) : Device :=
  let p := s.port l
  (s.setPort l { p with replay := p.replay.filter fun f => decide (seq16 f.seq seq < 32768) }).portFlush l
def execLinkAck (l : Fin 96) (seq : BitVec 16) (s : State) : Outc := s.run fun (s : Device) =>
  (if s.portUp l.val && s.num (O.portMode l.val) == 2 then s.linkAck l.val seq.toNat else s)

/-- LINK_REPLAY (row 131): the sender resends from the named frame, in order. -/
def Device.linkReplay (s : Device) (l seq : Nat) : Device :=
  let p := s.port l
  let again := p.replay.filter fun f => decide (seq16 f.seq seq < 32768)
  again.foldl (fun (s : Device) f => s.emit (.frame l (startBlock f.seq 0) f.data)) s
def execLinkReplay (l : Fin 96) (seq : BitVec 16) (s : State) : Outc := s.run fun (s : Device) =>
  (if s.portUp l.val && s.num (O.portMode l.val) == 2 then s.linkReplay l.val seq.toNat else s)

/-- LINK_ACK_TIMER (row 132): every 1 µs, while unacknowledged frames are held, an ACK names the next sequence expected. -/
def execLinkAckTimer (l : Fin 96) (s : State) : Outc := s.run fun (s : Device) =>
  (let p := s.port l.val
   if s.portUp l.val && s.num (O.portMode l.val) == 2 && p.unacked && decide (p.ackAt + us 1 ≤ s.uptime) then
     (s.setPort l.val { p with unacked := false, ackAt := s.uptime }).linkControl l.val 1 p.rxNext
   else s)

/-- LINK_EPISODE_TIMEOUT (row 133): an episode not ended within 8 µs skips the missing frames: the next frame to arrive is taken. -/
def execLinkEpisodeTimeout (l : Fin 96) (s : State) : Outc := s.run fun (s : Device) =>
  (match (s.port l.val).episode with
   | some t =>
     if t + us 8 ≤ s.uptime then
       let s : Device := s.endEpisode l.val
       s.setPort l.val { s.port l.val with resync := true }
     else s
   | none => s)

/-! ## PFC (R331) -/

/-- Uptime counts of a number of quanta of 512 bit times. -/
def quantaCounts (q mbps : Nat) : Nat := (q * 12800 + mbps - 1) / mbps

/-- A received PFC frame pauses, or releases, the priorities its enable vector names. -/
def Device.pfcFrame (s : Device) (l : Nat) (payload : Bytes) : Device :=
  let v := beAt payload 2 2
  let rate := macMbps (s.num (O.portMode l)) (s.num (O.portLanes l))
  if !s.pfcOn l then s
  else ((List.range 8).foldl (fun (s : Device) i =>
    if !bit v i then s
    else
      let p := s.port l
      let q := beAt payload (4 + 2 * i) 2
      s.setPort l { p with paused := if q = 0 then tdel p.paused i else tput p.paused i (s.uptime + quantaCounts q rate) }) s).portFlush l

/-- PFC_PAUSE_EXPIRY (row 315): the quanta have run out. -/
def execPfcPauseExpiry (l : Fin 96) (prio : Fin 8) (s : State) : Outc := s.run fun (s : Device) =>
  (let p := s.port l.val
   match tget? p.paused prio.val with
   | some t => if t ≤ s.uptime then (s.setPort l.val { p with paused := tdel p.paused prio.val }).portFlush l.val else s
   | none => s)

/-- PFC_XOFF_REPEAT (row 129): XOFF is repeated every 10 µs while the channel is above its threshold. -/
def execPfcXoffRepeat (l : Fin 96) (s : State) : Outc := s.run fun (s : Device) =>
  (let p := s.port l.val
   if s.portUp l.val && s.pfcOn l.val && p.xoff && decide (p.xoffAt + us 10 ≤ s.uptime) then
     (s.setPort l.val { p with xoffAt := s.uptime }).pfcSend l.val 0xFFFF
   else s)

/-! ## Packets and their faults (R320, R338) -/

/-- Reads a Brodlu header (Table 13.3) and the payload that follows it. -/
def Packet.decode (b : Bytes) : Packet :=
  let w := beAt b 0 8
  { version := bits w 63 60, type := bits w 59 56, first := bit w 55, last := bit w 54, ackReq := bit w 53, retx := bit w 52,
    gen := bits w 51 48, dst := bits w 47 36, src := bits w 35 24, payLen := bits w 15 0, seq := beAt b 8 4, ack := beAt b 12 4,
    sack := beAt b 16 8, credit := beAt b 24 4, ceEcho := bit (beAt b 28 4) 31, op := beAt b 32 8, payload := b.drop 40 }

/-- Does a Brodlu message of the UDP length agree with Tables 13.3 and 13.4 (NAK MALFORMED)? -/
def Packet.formOk (p : Packet) (b : Bytes) : Bool :=
  let n := p.payLen
  decide (40 ≤ b.length) && p.version == 1 && decide (1 ≤ p.type) && decide (p.type ≤ 8) && bits (beAt b 0 8) 23 16 == 0 &&
  bits (beAt b 28 4) 30 0 == 0 && decide (n ≤ 8192) && n + 40 == b.length &&
  (match p.type with
   | 1 => decide (1 ≤ n) && bits p.op 55 48 == 0
   | 2 => decide (128 ≤ n) && aligned n 128 && decide (bits p.op 55 48 ≤ 1) && aligned (bits p.op 47 0) 128
   | 3 => bits p.op 31 0 == 0
   | 4 => bits p.op 31 0 == 0
   | 6 => n == 0 && bits p.op 55 32 == 0
   | _ => n == 0 && p.op == 0)

/-- The header of a packet that a context sends now (R320, R328): its ack, sack, credit limit and echo. -/
def Device.header (s : Device) (n type seq : Nat) (credit : Nat) : Packet :=
  let c := s.ctx n
  { type := type, gen := c.gen, dst := s.ctxCfg n 32 2, src := n, seq := seq, ack := c.rxAck,
    sack := ofBits ((List.range 64).map fun i => c.rx.any fun r => r.pkt.seq == (c.rxAck + 1 + i) % 2 ^ 32),
    credit := credit, ceEcho := c.ce }

/-- Codes that are partner protocol violations (R338). -/
def violationCode (code : Nat) : Bool := (1 ≤ code && code ≤ 4) || code == 8 || code == 9

/-- A packet is refused with a NAK code (R338): partner violations are counted, logged and recorded; the NAK itself is rate-limited. `n` is
the context it names, if any; a named context whose credit limit is given answers from itself. -/
def Device.nak (s : Device) (l : Nat) (n : Option Nat) (r : RxIn) (code : Nat) : Device :=
  let s : Device := if violationCode code then
      let row : Violation := { time := s.uptime, addr := r.ip, ctx := n.getD 0xFFFF, src := r.pkt.src, lane := l, code := code, seq := r.pkt.seq }
      let s : Device := { s with net := { s.net with violations := logPush 1024 s.net.violations row } }
      (s.bump O.violationCount).event { cls := 4, node := 0xA0 + l, cause := code }
    else s
  let op := code * 2 ^ 56 + r.pkt.seq
  match n with
  | some n =>
    let c := s.ctx n
    let last := tget? c.nakAt code
    if (match last with | some t => decide (s.uptime < t + us 10) | none => false) then s
    else
      let h : Packet := { s.header n 6 c.txSeq c.sentLimit with op := op }
      let s : Device := (s.setCtx n { c with nakAt := tput c.nakAt code s.uptime, ce := false }).bumpStat (O.ctxStats n) 4
      (s.bumpStat (O.ctxStats n) 0).ctxOut n h.encode
  | none =>
    let p := s.port l
    if (match p.nakAt with | some t => decide (s.uptime < t + us 1) | none => false) then s
    else
      let h : Packet := { type := 6, dst := r.pkt.src, src := r.pkt.dst, op := op }
      (s.setPort l { p with nakAt := some s.uptime }).udpOut l r.mac r.ip (0xC000 + r.pkt.dst) r.udpSrc h.encode

/-- The context a packet names, if it is in a state other than CLOSED. -/
def Device.named (s : Device) (n : Nat) : Option Nat := if s.num (O.ctxState n) = 0 then none else some n

/-! ## Frames (R316, R317) -/

/-- Check 4 of R317: at most one tag, and the one the port is set to. MAC control frames carry none. -/
def Device.tagOk (s : Device) (l : Nat) (f : RxFrame) : Bool :=
  let v := s.num (O.vlan l)
  if f.etherType.toNat = 0x8808 then f.tags.isEmpty
  else match f.tags with
    | [] => !bit v 15
    | [t] => bit v 15 && bits t.toNat 11 0 == bits v 11 0
    | _ => false

/-- Check 3 of R317: the port's address; broadcast for ARP; the PFC address. -/
def Device.dstOk (s : Device) (l : Nat) (f : RxFrame) : Bool :=
  f.dst.toNat == s.num (O.macAddress l) || (f.dst.toNat == broadcast && f.etherType.toNat == 0x0806) ||
    (f.dst.toNat == pfcAddress && f.etherType.toNat == 0x8808)

/-- An IP packet: source and destination (IPv4 as ::ffff:a.b.c.d), ECN, the payload, whether it is IPv4. -/
structure Ip where
  src : Bytes
  dst : Bytes
  ecn : Nat
  proto : Nat
  data : Bytes
  v4 : Bool

/-- Check 6 of R317. -/
def parseIp (etherType : Nat) (b : Bytes) : Option Ip :=
  if etherType = 0x0800 then
    let total := beAt b 2 2
    if beAt b 0 1 = 0x45 && 20 ≤ total && total ≤ b.length && beAt b 6 2 % 0x4000 = 0 && onesOk (onesSum (b.take 20)) then
      some { src := mapped4 (slice b 12 4), dst := mapped4 (slice b 16 4), ecn := beAt b 1 1 % 4, proto := beAt b 9 1,
             data := slice b 20 (total - 20), v4 := true }
    else none
  else
    let n := beAt b 4 2
    if beAt b 0 1 / 16 = 6 && 40 + n ≤ b.length then
      some { src := slice b 8 16, dst := slice b 24 16, ecn := beAt b 0 2 / 16 % 4, proto := beAt b 6 1, data := slice b 40 n, v4 := false }
    else none

/-- Check 8 of R317: lengths and checksum; a zero checksum on IPv4 only. -/
def Ip.udpOk (p : Ip) : Bool :=
  let u := p.data
  let n := beAt u 4 2
  decide (8 ≤ n) && decide (n ≤ u.length) &&
  (if beAt u 6 2 = 0 then p.v4
   else onesOk (pseudoSum p.v4 p.src p.dst 17 n + onesSum (u.take n)))

/-- An ARP request for the port's IPv4 address (R316). -/
def Device.arpForUs (s : Device) (l : Nat) (b : Bytes) : Bool :=
  beAt b 2 2 == 0x0800 && beAt b 6 2 == 1 && s.ownIpSet l true && slice b 24 4 == beBytes 4 (s.num (O.ipv4Address l))

/-- A neighbour solicitation for the port's IPv6 address (R316). -/
def Device.solicited (s : Device) (l : Nat) (p : Ip) : Bool :=
  !p.v4 && p.proto == 58 && beAt p.data 0 1 == 135 && s.ownIpSet l false && slice p.data 8 16 == s.ownIp l false

/-- An ARP request is answered: the port's address, to the address that asked (R316). -/
def Device.arpAnswer (s : Device) (l : Nat) (b : Bytes) : Device :=
  let asker := slice b 8 6
  s.putOut l (padFrame (s.etherHead l (beNat asker) 0x0806 ++ [0, 1, 0x08, 0, 6, 4, 0, 2] ++ beBytes 6 (s.num (O.macAddress l)) ++
    beBytes 4 (s.num (O.ipv4Address l)) ++ asker ++ slice b 14 4))

/-- A neighbour solicitation is answered with an advertisement (R316): solicited where it names who asks, else to all nodes. -/
def Device.neighbourAnswer (s : Device) (l : Nat) (f : RxFrame) (p : Ip) : Device :=
  let known := p.src.any fun b => b != 0
  let own := s.ownIp l false
  let dst : Bytes := if known then p.src else [0xFF, 0x02] ++ List.replicate 13 0 ++ [1]
  let mac := if known then f.src.toNat else 0x333300000001
  let a : Bytes := [136, 0]
  let b := beBytes 4 (known.toNat * 2 ^ 30 + 2 ^ 29) ++ own ++ [2, 1] ++ beBytes 6 (s.num (O.macAddress l))
  let m := a ++ beBytes 2 (onesCheck (pseudoSum false own dst 58 32 + onesSum (a ++ b))) ++ b
  s.putOut l (padFrame (s.etherHead l mac 0x86DD ++ s.ipPacket l false own dst 58 255 0 m))

/-- A frame dropped and counted. -/
def Device.rxDrop (s : Device) (l : Nat) : Device := s.bump (O.rxDrops l)

/-- A Brodlu message of a frame that passed the checks: faults of its header are answered; a frame for which no buffers are free is
answered NO_BUFFER; others wait for their row. -/
def Device.brodluIn (s : Device) (l : Nat) (f : RxFrame) (ip : Ip) : Device :=
  let b := slice ip.data 8 (beAt ip.data 4 2 - 8)
  let p := Packet.decode b
  let r : RxIn := { pkt := p, bufs := (f.size.toNat + 4095) / 4096, mac := f.src.toNat, ip := ip.src, udpSrc := beAt ip.data 0 2, ce := ip.ecn == 3 }
  if !p.formOk b then s.nak l (s.named p.dst) r 1
  else match s.rxTake l r.bufs with
    | (false, s) => s.nak l (s.named p.dst) r 5
    | (true, s) => s.setPort l { s.port l with rxq := (s.port l).rxq ++ [r] }

/-- Checks 2 to 9 of R317. -/
def Device.frameIn (s : Device) (l : Nat) (f : RxFrame) : Device :=
  let et := f.etherType.toNat
  if f.size.toNat < 64 || 9216 < f.size.toNat || !s.dstOk l f || !s.tagOk l f then s.rxDrop l
  else if et = 0x8808 then
    if beAt f.payload 0 2 = 0x0101 then s.pfcFrame l f.payload
    else if beAt f.payload 0 2 = 0x0001 then (s.bump (O.pauseIgnored l)).rxDrop l
    else s.rxDrop l
  else if et = 0x0806 then (if s.arpForUs l f.payload then s.arpAnswer l f.payload else s.rxDrop l)
  else if et ≠ 0x0800 && et ≠ 0x86DD then s.rxDrop l
  else match parseIp et f.payload with
    | none => s.rxDrop l
    | some ip =>
      if s.solicited l ip then s.neighbourAnswer l f ip
      else if ip.proto ≠ 17 || !s.ownIpSet l ip.v4 || ip.dst ≠ s.ownIp l ip.v4 || !ip.udpOk || beAt ip.data 2 2 ≠ s.num O.brodluUdpPort then s.rxDrop l
      else s.brodluIn l f ip

/-- A frame reaches the link layer: link-level retry of a native port first, then the checks of R317. -/
def Device.frameArrives (s : Device) (l : Nat) (f : RxFrame) : Device :=
  if s.num (O.portMode l) = 2 then
    if !f.fcsGood then (s.rxDrop l).beginEpisode l
    else if !f.startGood then s.beginEpisode l
    else if f.control then
      if f.etherType.toNat ≠ 0x88B5 || f.dst.toNat ≠ s.num (O.macAddress l) then s.rxDrop l
      else if beAt f.payload 0 1 = 1 then s.linkAck l (beAt f.payload 1 2)
      else if beAt f.payload 0 1 = 2 then s.linkReplay l (beAt f.payload 1 2)
      else s.rxDrop l
    else match s.linkAccept l f.linkSeq.toNat with
      | (true, s) => s.frameIn l f
      | (false, s) => s
  else if !f.fcsGood then s.rxDrop l
  else s.frameIn l f

/-- Frames that the crossing from the SerDes held while the island was stopped come in, in order, and frames that waited leave (R27, R29). -/
def Device.linkResumes (s : Device) (l : Nat) : Device :=
  let p := s.port l
  if !s.portUp l || p.held.isEmpty then s
  else (p.held.foldl (fun (s : Device) f => s.frameArrives l f) (s.setPort l { p with held := [] })).portFlush l

/-- FRAME_RECEIVE (row 128). A frame that comes while the link-layer island is stopped is held in the crossing. -/
def execFrameReceive (l : Fin 96) (f : RxFrame) (s : State) : Outc := s.run fun (s : Device) =>
  (let l := l.val
   if s.portUp l then (s.linkResumes l).frameArrives l f
   else if s.runs 2 && s.portOn l && s.num (O.portState l) == 2 then s.setPort l { s.port l with held := (s.port l).held ++ [f] }
   else s)

end Sys2Proof.Machine
end

