-- ==== Sys2Proof/Machine/Brodlu.lean ====
section
/-! DEFINITION. Peer contexts and the Brodlu transport (R320 to R332, R338): opening and closing, sequence checks, applying packets, credits,
sending and retransmission, timers and rates: what rows 134 to 151 do. The rows of received data packets stand in Foreri.lean. -/

namespace Sys2Proof.Machine

/-! ## Context configuration and windows (Tables 13.5 and 13.9) -/

def Device.ctxIp (s : Device) (n : Nat) : Bytes := slice (s.bytes (O.ctxConfig n)) 16 16
def Device.ctxDatagram (s : Device) (n : Nat) : Bool := s.ctxCfg n 2 1 == 1
def Device.ctxJob (s : Device) (n : Nat) : Nat := s.ctxCfg n 4 1
def Device.ctxDelivery (s : Device) (n : Nat) : Nat := s.ctxCfg n 5 1
def Device.ctxSt (s : Device) (n : Nat) : Nat := s.num (O.ctxState n)

/-- Are the fields of a configuration in their ranges? -/
def ctxConfigOk (b : Bytes) : Bool :=
  b.length == 64 && decide (beAt b 0 2 < 96) && decide (beAt b 2 1 ≤ 1) && decide (beAt b 3 1 ≤ 1) &&
  (decide (beAt b 4 1 < 32) || beAt b 4 1 == 0xFF) && decide (beAt b 5 1 ≤ 2) && decide (beAt b 6 1 ≤ 15) && decide (1 ≤ beAt b 7 1) &&
  decide (beAt b 32 2 ≤ 4095) && decide (beAt b 34 2 ≤ 1024)

/-- A configuration with its reserved fields as they read. -/
def ctxConfigClean (b : Bytes) : Bytes := b.take 38 ++ [0, 0] ++ slice b 40 4 ++ List.replicate 20 0

/-- A window: the range it names, and its rights. -/
structure Window where
  buf : Buf
  rights : Nat

/-- Decodes an entry of Table 13.9. -/
def Window.decode (b : Bytes) : Window where
  buf := { space := beAt b 0 1, cluster := beAt b 2 1, base := beAt b 8 8, size := beAt b 16 8, valid := true }
  rights := beAt b 1 1 % 8

/-- The windows of a value of ctx_windows. -/
def windowsOf (v : Bytes) : List Window := (chunks 24 16 v).map Window.decode

/-- Is one window acceptable to the context's owner (R332)? -/
def Device.windowOk (s : Device) (job : Nat) (w : Window) : Bool :=
  let b := w.buf
  b.space == 0 ||
  (decide (b.space ≤ 3) && decide (b.cluster < 32) &&
   (match s.job? job with
    | some x =>
      if b.space = 1 then decide ((x.part b.cluster).1 ≤ b.base) && decide (b.base + b.size ≤ (x.part b.cluster).1 + (x.part b.cluster).2)
      else x.holdsAddr b.base b.size
    | none => job == 0xFF && (if b.space = 1 then decide (b.base + b.size ≤ clmBytes) else s.hbmIn b.base b.size)) &&
   !(b.space == 3 && (s.inRegion b.base b.size || bit w.rights 1)))

/-- Is a window set accepted (R332)? -/
def Device.windowsOk (s : Device) (n : Nat) (v : Bytes) : Bool :=
  aligned v.length 24 && decide (v.length ≤ 384) && (windowsOf v).all fun w => s.windowOk (s.ctxJob n) w

/-- A window set with its reserved fields as they read. -/
def windowsClean (v : Bytes) : Bytes :=
  (chunks 24 16 v).flatMap fun b => b.take 1 ++ beBytes 1 (beAt b 1 1 % 8) ++ slice b 2 1 ++ List.replicate 5 0 ++ b.drop 8

/-- Window i of a context. -/
def Device.window (s : Device) (n i : Nat) : Option Window :=
  match (windowsOf (s.bytes (O.ctxWindows n)))[i]? with
  | some w => if w.buf.space = 0 then none else some w
  | none => none

/-- The ring of a context with delivery 1: its window and the length of its data, if it carries the ring right and holds 16 KiB of data. -/
def Device.ringOf (s : Device) (n : Nat) : Option (Buf × Nat) :=
  match s.window n (s.ctxCfg n 6 1) with
  | some w =>
    let len := 2 ^ Nat.log2 (w.buf.size - 64)
    if bit w.rights 2 && decide (16384 + 64 ≤ w.buf.size) then some (w.buf, len) else none
  | none => none

/-- Head and tail of a ring (R329). -/
def Device.ringHead (s : Device) (b : Buf) : Nat := leNat (s.bufGet b 0 8)
def Device.ringTail (s : Device) (b : Buf) : Nat := leNat (s.bufGet b 8 8)

/-- Free bytes of a ring, less those of the message being received. -/
def Device.ringFree (s : Device) (n : Nat) (b : Buf) (len : Nat) : Nat :=
  len - (s.ringHead b + 2 ^ 64 - s.ringTail b) % 2 ^ 64 - (if (s.ctx n).msg.isEmpty then 0 else 8 + (s.ctx n).msg.length)

/-! ## Sequence numbers, credits, headers (R320, R328) -/

/-- a before b, by serial arithmetic modulo 2^32. -/
def before (a b : Nat) : Bool := a != b && decide ((b + 2 ^ 32 - a) % 2 ^ 32 < 2 ^ 31)
def seqAdd (a n : Nat) : Nat := (a + n) % 2 ^ 32

/-- The sample stream that a context is bound to (R340). -/
def Device.streamOf (s : Device) (n : Nat) : Option Nat := (s.net.streams.find? fun (t : Nat × StreamSt) => t.2.ctx == n).map fun t => t.1

/-- The credit limit a receiver would advertise now (R328, R342), never lower than before. -/
def Device.creditNow (s : Device) (n : Nat) : Nat :=
  let c := s.ctx n
  let cap (x y : Nat) : Nat := min x y
  let more := s.ctxCfg n 7 1
  let more := if s.ctxDelivery n = 1 then match s.ringOf n with
      | some (b, len) => cap more (s.ringFree n b len / 8200)
      | none => more
    else if s.ctxDelivery n = 2 then match s.streamOf n with
      | some k =>
        let m := k / 64
        cap more ((leAt (s.bytes (O.streamConfig m (k % 64))) 8 2 - s.chHeld m (tgetD s.net.streams k {}).pool) / 3)
      | none => more
    else more
  let lim := seqAdd c.rxAck more
  if before c.sentLimit lim then lim else c.sentLimit

/-- A packet of a context is put out: it carries the present ack, sack, credit limit and echo, and counts as an ACK (R326). -/
def Device.ctxSend (s : Device) (n type seq : Nat) (f : Packet → Packet) : Device :=
  let lim := s.creditNow n
  let p := f (s.header n type seq lim)
  let s : Device := s.setCtx n { s.ctx n with sentLimit := lim, ce := false, ackDue := none, accepted := 0 }
  (s.bumpStat (O.ctxStats n) 0).ctxOut n p.encode

/-- An ACK at once. -/
def Device.ackNow (s : Device) (n : Nat) : Device := s.ctxSend n 5 (s.ctx n).txSeq id

/-- A SYNC. -/
def Device.syncSend (s : Device) (n : Nat) (ask : Bool) : Device := s.ctxSend n 7 (s.ctx n).txSeq fun p => { p with ackReq := ask }

/-- The sequence number that the peer expects next: the oldest packet not acknowledged. -/
def Ctx.peerAck (c : Ctx) : Nat := match c.unacked.head? with
  | some u => u.pkt.seq
  | none => c.txSeq

/-! ## Failure, opening, closing (R322, R323) -/

/-- A context enters FAILED: its operations end with a status. -/
def Device.ctxFail (s : Device) (n : Nat) (st : Status) : Device := (s.setNum (O.ctxState n) 3).ctxDrop n st

/-- The highest rate of a context (R330), in Mbit/s. -/
def Device.rateMax (s : Device) (n : Nat) : Nat :=
  let l := s.ctxPort n
  let m := s.ctxCfg n 40 4
  if m = 0 then macMbps (s.num (O.portMode l)) (s.num (O.portLanes l)) else m

/-- CTX_OPEN: a write of 1 to ctx_control (R321 to R323). -/
def Device.ctxOpen (s : Device) (n sid : Nat) : Ans :=
  let obj := O.ctxControl n
  let l := s.ctxPort n
  let quiet := match (s.ctx n).closedAt with
    | some t => decide (t + ms 4 ≤ s.uptime)
    | none => true
  if s.ctxSt n ≠ 0 || !quiet || !s.portOn l then s.deny .state obj
  else
    let c := s.ctx n
    let rate := s.rateMax n
    let dg := s.ctxDatagram n
    match s.poolOpen (l / 24) 2 (s.ctxCfg n 34 2) (s.ctxCfg n 36 2) (s.ctxCfg n 3 1) obj sid with
    | .inl lim => s.deny .limit lim
    | .inr (ch, s) =>
      let s : Device := s.setStat (O.ctxStats n) 7 rate
      if dg then
        ((s.setCtx n { gen := c.gen, consumed := c.consumed, msgNo := c.msgNo, pool := some ch, openedAt := s.uptime }).setNum
          (O.ctxState n) 2).okay
      else
        let c : Ctx := { gen := (c.gen + 1) % 16, consumed := c.consumed, msgNo := c.msgNo, pool := some ch, openedAt := s.uptime,
                         lastSync := s.uptime }
        (((s.setCtx n c).setNum (O.ctxState n) 1).syncSend n true).okay

/-- Once every packet is acknowledged, FIN is sent and the context is CLOSED (R323). -/
def Device.closeIfDone (s : Device) (n : Nat) : Device :=
  let c := s.ctx n
  if c.closing && s.ctxSt n == 2 && c.unacked.isEmpty && c.queue.isEmpty then
    (if s.ctxDatagram n then s else s.ctxSend n 8 c.txSeq fun p => { p with first := true, last := true }).ctxClosed n
  else s

/-- CTX_CLOSE: a write of 2 to ctx_control (R323). -/
def Device.ctxClose (s : Device) (n : Nat) : Ans :=
  match s.ctxSt n with
  | 2 => ((s.setCtx n { s.ctx n with closing := true }).closeIfDone n).okay
  | 3 => (s.ctxClosed n).okay
  | _ => s.deny .state (O.ctxControl n)

/-- A write of 1 to ctx_thaw (R332). -/
def Device.ctxThaw (s : Device) (n : Nat) : Ans := if s.ctxSt n = 4 then s.thaw (masterId 4 n) else s.deny .state (O.ctxThaw n)

/-! ## What a packet tells the sender (R326 to R328, R338) -/

/-- A packet is sent again. -/
def Device.resend (s : Device) (n seq : Nat) : Device :=
  match (s.ctx n).unacked.find? fun u => u.pkt.seq == seq with
  | none => s
  | some u =>
    let c := s.ctx n
    let s : Device := s.setCtx n { c with unacked := c.unacked.map fun x => if x.pkt.seq == seq then { x with retryAt := none } else x }
    (s.bumpStat (O.ctxStats n) 2).ctxSend n u.pkt.type seq fun p =>
      { u.pkt with ackReq := true, retx := true, ack := p.ack, sack := p.sack, credit := p.credit, ceEcho := p.ceEcho }

/-- The packets before ack are acknowledged: their buffers are returned. -/
def Device.acked (s : Device) (n ack : Nat) : Device :=
  let c := s.ctx n
  let gone := c.unacked.filter fun u => before u.pkt.seq ack
  if gone.isEmpty then s
  else
    let s : Device := s.setCtx n { c with unacked := c.unacked.filter fun u => !before u.pkt.seq ack }
    let s : Device := match c.pool with
      | some ch => s.poolRelease (s.ctxPort n / 24) ch ((gone.map fun u => u.bufs).sum)
      | none => s
    if s.ctxSt n = 3 then s.bump O.lateCompletions else s

/-- Does a packet count as received by the peer: acknowledged selectively? -/
def sacked (p : Packet) (seq : Nat) : Bool :=
  let i := (seq + 2 ^ 32 - p.ack) % 2 ^ 32
  decide (1 ≤ i) && decide (i ≤ 64) && bit p.sack (i - 1)

/-- The fields that every packet carries (R320): acknowledgements, the credit limit, the echo; fast retransmission (R327). -/
def Device.peerInfo (s : Device) (n : Nat) (p : Packet) : Device :=
  let s : Device := s.acked n p.ack
  let c := s.ctx n
  let un := c.unacked.map fun u => if sacked p u.pkt.seq then { u with sacked := true } else u
  let missing := un.filter fun u => !u.sacked && !u.fast && decide (3 ≤ (un.filter fun v => v.sacked && before u.pkt.seq v.pkt.seq).length)
  let un := un.map fun u => if missing.any (fun v => v.pkt.seq == u.pkt.seq) then { u with fast := true } else u
  let s : Device := s.setCtx n { c with unacked := un, peerLimit := if before c.peerLimit p.credit then p.credit else c.peerLimit,
                                        echoed := c.echoed || p.ceEcho }
  let s : Device := if s.ctxSt n = 2 then missing.foldl (fun (s : Device) u => s.resend n u.pkt.seq) s else s
  s.closeIfDone n

/-! ## Applying packets (R325, R329) -/

/-- Does a WRITE or a REDUCE fail its window check (R332)? -/
def Device.windowFails (s : Device) (n : Nat) (p : Packet) : Bool :=
  match s.window n (bits p.op 63 56) with
  | some w => !bit w.rights (if p.type = 2 then 1 else 0) || decide (w.buf.size < bits p.op 47 0 + p.payLen)
  | none => true

/-- The buffer and the range that a packet writes: a window's, or the whole ring of a SEND for a ring. -/
def Device.packetRange (s : Device) (n : Nat) (p : Packet) : Option (Buf × Nat × Nat) :=
  if p.type = 3 then (if s.ctxDelivery n = 1 then (s.ringOf n).map fun b => (b.1, 0, b.1.size) else none)
  else if p.type = 1 || p.type = 2 then (s.window n (bits p.op 63 56)).map fun w => (w.buf, bits p.op 47 0, p.payLen)
  else none

/-- A packet that fails its window check, the map or the region check: an access violation; nothing of it is applied (R332, R242, R269). -/
def Device.packetViolation (s : Device) (l n : Nat) (r : RxIn) (check : Nat) : Device :=
  let s : Device := s.nak l (some n) r 6
  let a := match s.packetRange n r.pkt with
    | some t => t.1.base + t.2.1
    | none => bits r.pkt.op 47 0
  s.violation (masterId 4 n) check a 0 (0xA0 + l)

/-- The failing check of R269 for a packet's range, 0 where it holds. -/
def Device.packetUnmapped (s : Device) (n : Nat) (p : Packet) : Nat :=
  match s.packetRange n p with
  | some (b, o, len) => if b.space ≤ 1 then 0 else s.mapCheck (b.base + o) len
  | none => 0

/-- The address of a packet's uncached write that overlaps a transactional region (R242). -/
def Device.packetInRegion (s : Device) (n : Nat) (p : Packet) : Option Nat :=
  match s.packetRange n p with
  | some (b, o, len) => if b.space = 3 && len != 0 && s.inRegion (b.base + o) len then some (b.base + o) else none
  | none => none

/-- Adds a line to memory element by element (R283). -/
def addBytes (elt : Nat) (old new : Bytes) : Bytes :=
  let ty := 4 + elt
  let k := tyBytes ty
  ((chunks k old.length old).zip (chunks k new.length new)).flatMap fun p => leBytes k (elemAdd ty (leNat p.1) (leNat p.2))

/-- Adds lines to a buffer in address order, each by FADD in its home slice. -/
def Device.addLines (s : Device) (b : Buf) (o elt : Nat) (d : Bytes) : Device :=
  let lines := chunks 128 d.length d
  (lines.zip (List.range lines.length)).foldl (fun (s : Device) (x : Bytes × Nat) =>
    let a := o + 128 * x.2
    let s : Device := s.bufTouch b a 128 true
    let s : Device := s.bufPut b a (addBytes elt (s.bufGet b a 128) x.1)
    if b.space = 2 then s.bump (O.reductionAdds (s.homeDie (b.base + a))) else s) s

/-- Writes to a window or adds to it; where its memory is off the write is dropped and logged (R25), where it is lost nothing is written. -/
def Device.windowPut (s : Device) (n : Nat) (p : Packet) : Device :=
  match s.window n (bits p.op 63 56) with
  | none => s
  | some w =>
    let o := bits p.op 47 0
    if !s.bufOn w.buf then s.dropped (masterId 4 n)
    else if s.bufBlocked w.buf o p.payload.length true then s
    else if p.type = 1 then
      let s : Device := (s.bufTouch w.buf o p.payload.length true).bufPut w.buf o p.payload
      match (s.ctx n).plan with
      | some id => match s.net.plans.find? fun x => x.id == id && x.gather && w.buf.space == 1 with
        | some x => s.bump (O.gatherBytes x.job) p.payload.length
        | none => s
      | none => s
    else s.addLines w.buf o (bits p.op 55 48) p.payload

/-- Must a packet's write wait for a lock (Table 10.3)? -/
def Device.windowWaits (s : Device) (n : Nat) (p : Packet) : Bool :=
  match s.window n (bits p.op 63 56) with
  | some w => s.bufWaits w.buf (bits p.op 47 0) p.payload.length true
  | none => false

/-- Writes bytes into a ring's data from a byte count on, wrapping at the end. -/
def Device.ringPut (s : Device) (b : Buf) (len at_ : Nat) (d : Bytes) : Device :=
  let o := at_ % len
  let n := len - o
  let s : Device := (s.bufTouch b (64 + o) (d.take n).length true).bufPut b (64 + o) (d.take n)
  if d.length ≤ n then s else (s.bufTouch b 64 (d.length - n) true).bufPut b 64 (d.drop n)

/-- A record of a ring: length, message number, payload padded to 8 bytes. -/
def ringRecord (msgNo : Nat) (m : Bytes) : Bytes :=
  leBytes 4 m.length ++ leBytes 4 msgNo ++ m ++ List.replicate ((8 - m.length % 8) % 8) 0

/-- A row of a complex's reject log (6.(30+m).020). -/
def Device.rejectRow (s : Device) (m stream : Nat) (st : Status) (stage seq detail : Nat) : Device :=
  let r : Reject := { time := s.uptime, stream := stream, status := st.code, stage := stage, seq := seq, detail := detail }
  let s : Device := if stage ≠ 0 then s
    else s.event { cls := 4, node := 0x30 + m, master := if stream < 256 then masterId 6 stream else 0xFFFF, status := st.code, cause := detail }
  { s with net := { s.net with rejects := tset s.net.rejects m (logPush 256 (tgetD s.net.rejects m []) r) [] } }

/-- A SEND packet for the input pipeline is handed off to its stream's IN channel (R329, R302); without an open stream its record is
discarded (R343 check 1). -/
def Device.toPipeline (s : Device) (l n : Nat) (p : Packet) (bufs : Nat) : Device :=
  match s.streamOf n with
  | none =>
    let s : Device := s.rxFree l bufs
    if p.first then s.rejectRow (l / 24) (leAt p.payload 14 2) .state 0 (leAt p.payload 0 4) 1 else s
  | some k =>
    let t := tgetD s.net.streams k {}
    let a := (s.port l).pool
    let q := l / 24
    let w := (s.poolCh q a).handoffs.length
    let s : Device := ((List.range bufs).foldl (fun (s : Device) _ => s.handoff q a t.pool) s).pfcCheck l
    let need := (s.poolCh q a).handoffs.length - w
    let piece : Piece := { first := p.first, last := p.last, data := p.payload, bufs := bufs, need := need }
    { s with net := { s.net with streams := tput s.net.streams k { t with inq := t.inq ++ [piece] } } }

/-- The wait of a packet's write begins where its lines are locked (R253). -/
def Device.packetStalls (s : Device) (p : Packet) : Device :=
  match s.packetRange p.dst p with
  | some (b, o, n) => if s.bufWaits b o n true then s.stall (masterId 4 p.dst) (b.base + o) else s
  | none => s

/-- Applies one packet in sequence order; none where it must wait for a lock or for room in the ring. -/
def Device.applyPacket (s : Device) (l n : Nat) (p : Packet) (bufs : Nat) : Option Device :=
  let c := s.ctx n
  match p.type with
  | 2 => if s.windowWaits n p then none else some ((s.windowPut n p).rxFree l bufs)
  | 3 =>
    if s.ctxDelivery n = 2 then some (s.toPipeline l n p bufs)
    else
      let m := if p.first then p.payload else c.msg ++ p.payload
      if !p.last then some ((s.setCtx n { c with msg := m }).rxFree l bufs)
      else match s.ringOf n with
        | some (b, len) =>
          let d := ringRecord (bits p.op 63 32) m
          if s.bufWaits b 0 b.size true || decide (len - (s.ringHead b + 2 ^ 64 - s.ringTail b) % 2 ^ 64 < d.length) then none
          else if !s.bufOn b then some (((s.setCtx n { c with msg := [] }).rxFree l bufs).dropped (masterId 4 n))
          else some (((s.setCtx n { c with msg := [] }).ringPut b len (s.ringHead b) d).rxFree l bufs)
        | none => some ((s.setCtx n { c with msg := [] }).rxFree l bufs)
  | 4 =>
    let m := if p.first then p.payload else c.msg ++ p.payload
    some ((s.setCtx n (if p.last then { c with msg := [], dictIn := c.dictIn ++ [m] } else { c with msg := m })).rxFree l bufs)
  | _ => some (s.rxFree l bufs)

/-- ack passes a packet (R325): a message that ends with it completes; a ring's head moves; FIN closes the context. -/
def Device.ackPasses (s : Device) (n : Nat) (p : Packet) (len : Nat) : Device :=
  let c := s.ctx n
  let s : Device := s.setCtx n { c with rxAck := seqAdd c.rxAck 1, rx := c.rx.filter fun x => x.pkt.seq != c.rxAck }
  let s : Device := if p.last && p.type != 8 then s.bumpStat (O.ctxStats n) 6 else s
  let s : Device := if p.last && p.type == 3 && s.ctxDelivery n == 1 then match s.ringOf n with
      | some (b, _) => if s.bufOn b then (s.bufTouch b 0 8 true).bufPut b 0 (leBytes 8 ((s.ringHead b + len) % 2 ^ 64)) else s
      | none => s
    else s
  if p.type = 8 then (s.ctxDrop n .aborted).ctxClosed n else s

/-- Passes every packet that can be passed: at most the 256 that may be held. -/
def Device.drain (s : Device) (l n : Nat) : Device :=
  ((List.range 256).foldl (fun (a : Bool × Device) _ =>
    let s : Device := a.2
    let c := s.ctx n
    match (if a.1 then c.rx.find? fun x => x.pkt.seq == c.rxAck else none) with
    | none => (false, s)
    | some x =>
      let whole := if x.pkt.first then x.pkt.payload else c.msg ++ x.pkt.payload
      let len := (ringRecord 0 whole).length
      if x.applied then (true, s.ackPasses n x.pkt len)
      else match s.applyPacket l n x.pkt x.bufs with
        | some s => (true, (s.unstall (masterId 4 n)).ackPasses n x.pkt len)
        | none => (false, s.packetStalls x.pkt)) ((true, s) : Bool × Device)).2

/-- Packets held up by a lock or a full ring are tried again. -/
def Device.drainPort (s : Device) (l : Nat) : Device := (s.portCtxs l).foldl (fun (s : Device) n => if s.ctxSt n = 2 then s.drain l n else s) s

/-! ## Receiving -/

/-- Does a packet come from the peer that the context names (R338)? The sender's source UDP port follows from its context (R320). -/
def Device.fromPeer (s : Device) (n : Nat) (r : RxIn) : Bool :=
  r.ip == s.ctxIp n && r.pkt.src == s.ctxCfg n 32 2 && r.udpSrc == 0xC000 + s.ctxCfg n 32 2

/-- The check of context and generation of a packet other than NAK and SYNC: the NAK code that refuses it. -/
def Device.refusal (s : Device) (l n : Nat) (r : RxIn) : Option Nat :=
  if s.ctxSt n = 4 then some 7
  else if s.ctxSt n ≠ 2 || s.ctxDatagram n || s.ctxPort n ≠ l || !s.fromPeer n r then some 2
  else if (s.ctx n).peerGen ≠ some r.pkt.gen then some 8
  else none

/-- The context that answers a refusal: none where the packet names no context of this port. -/
def Device.answerer (s : Device) (l n : Nat) : Option Nat := if s.ctxSt n ≠ 0 && s.ctxPort n = l then some n else none

/-- The acknowledgement a receiver owes (R326). -/
def Device.ackPolicy (s : Device) (n : Nat) (now : Bool) : Device :=
  let c := s.ctx n
  if s.ctxSt n ≠ 2 then s
  else if now || 16 ≤ c.accepted then s.ackNow n
  else if c.ackDue.isNone && 0 < c.accepted then s.setCtx n { c with ackDue := some (s.uptime + us 5) }
  else s

/-- An accepted packet (R324 rule 4): WRITE is applied on arrival, the others in sequence order. -/
def Device.accept (s : Device) (l n : Nat) (r : RxIn) : Device :=
  let p := r.pkt
  let c := s.ctx n
  let gap := p.seq != c.rxAck
  let void := p.type == 3 && (s.ctxDelivery n == 0 || (s.ctxDelivery n == 1 && (s.ringOf n).isNone))
  let s : Device := if void then s.nak l (some n) r 9 else s
  let now := p.type == 1 || void
  let s : Device := if p.type == 1 then s.windowPut n p else s
  let s : Device := if now then s.rxFree l r.bufs else s
  let c := s.ctx n
  let x : RxPkt := { pkt := if void then { p with last := false } else p, applied := now, bufs := if now then 0 else r.bufs }
  let s : Device := s.setCtx n { c with rx := c.rx ++ [x], accepted := c.accepted + 1 }
  (s.drain l n).ackPolicy n (p.ackReq || gap)

/-- A packet of a context's peer is counted, and what it says of the link and of acknowledgements is taken (R326, R330). -/
def Device.packetSeen (s : Device) (r : RxIn) : Device :=
  let n := r.pkt.dst
  let s : Device := s.bumpStat (O.ctxStats n) 1
  let s : Device := if r.ce then s.setCtx n { s.ctx n with ce := true } else s
  s.peerInfo n r.pkt

/-- A data packet at the head of a port's received packets (R324, R332). -/
def Device.dataIn (s : Device) (l : Nat) (r : RxIn) : Device :=
  let p := r.pkt
  let n := p.dst
  match s.refusal l n r with
  | some code => (s.nak l (s.answerer l n) r code).rxFree l r.bufs
  | none =>
    let s : Device := s.packetSeen r
    let c := s.ctx n
    if s.ctxSt n ≠ 2 then s.rxFree l r.bufs
    else if before p.seq c.rxAck || c.rx.any (fun x => x.pkt.seq == p.seq) then
      ((s.bumpStat (O.ctxStats n) 3).rxFree l r.bufs).ackNow n
    else if !before p.seq c.sentLimit then (s.nak l (some n) r 4).rxFree l r.bufs
    else if !before p.seq (seqAdd c.rxAck 256) then (s.nak l (some n) r 3).rxFree l r.bufs
    else if (p.type == 1 || p.type == 2) && s.windowFails n p then (s.packetViolation l n r 0).rxFree l r.bufs
    else if s.packetUnmapped n p ≠ 0 then
      ((s.bump (O.mapViolations (l / 24))).packetViolation l n r (s.packetUnmapped n p)).rxFree l r.bufs
    else match s.packetInRegion n p with
      | some a => ((s.bump (O.txnUncachedViolations (s.homeDie a))).packetViolation l n r 0).rxFree l r.bufs
      | none => s.accept l n r

/-- Takes the packet at the head of a port's queue, if it is of a type; a WRITE whose lines are locked stays (Table 10.3). -/
def Device.rxHead (s : Device) (l type : Nat) : Option (RxIn × Device) :=
  match (s.port l).rxq with
  | r :: rest =>
    if r.pkt.type ≠ type || !s.portUp l then none
    else if type = 1 && (s.refusal l r.pkt.dst r).isNone && !s.windowFails r.pkt.dst r.pkt && s.windowWaits r.pkt.dst r.pkt then none
    else some (r, (s.unstall (masterId 4 r.pkt.dst)).setPort l { s.port l with rxq := rest })
  | [] => none

/-- The row of one type of data packet: held-up packets are tried again, then the head of the queue is taken. -/
def Device.rxData (s : Device) (l type : Nat) : Device :=
  let s : Device := if s.portUp l then (s.linkResumes l).drainPort l else s
  match s.rxHead l type, (s.port l).rxq.head? with
  | some (r, s), _ => s.dataIn l r
  | none, some r => if r.pkt.type = type && s.portUp l then s.packetStalls r.pkt else s
  | none, none => s

/-- BRODLU_ACK (row 138): a late acknowledgement of a context that has failed frees the packets it covers (R485). -/
def Device.ackIn (s : Device) (l : Nat) (r : RxIn) : Device :=
  let n := r.pkt.dst
  let s : Device := s.rxFree l r.bufs
  match s.refusal l n r with
  | none => s.packetSeen r
  | some code =>
    let s : Device := if s.ctxSt n = 3 && s.ctxPort n = l && s.fromPeer n r && (s.ctx n).peerGen = some r.pkt.gen then s.acked n r.pkt.ack else s
    s.nak l (s.answerer l n) r code
def execBrodluAck (l : Fin 96) (s : State) : Outc := s.run fun (s : Device) =>
  (match s.rxHead l.val 5 with
   | some (r, s) => s.ackIn l.val r
   | none => s)

/-- What a NAK makes the sender do (Table 13.8). -/
def Device.nakAct (s : Device) (n code seq : Nat) (p : Packet) : Device :=
  let c := s.ctx n
  let again (s : Device) (f : Unacked → Bool) (t : Nat) : Device :=
    let c := s.ctx n
    s.setCtx n { c with unacked := c.unacked.map fun u => if f u then { u with retryAt := some t } else u }
  if s.ctxSt n ≠ 2 then s
  else match code with
    | 2 => s.ctxFail n .aborted
    | 3 => let s : Device := s.peerInfo n p
           again s (fun _ => true) s.uptime
    | 4 => let s : Device := s.peerInfo n p
           again s (fun u => !before u.pkt.seq seq) s.uptime
    | 5 => again s (fun u => u.pkt.seq == seq) (s.uptime + us 5)
    | 6 => s.ctxFail n .access
    | 7 => s.ctxFail n .frozen
    | 8 => s.ctxFail n .aborted
    | 9 => match c.plan with
      | some id => s.planFail id .access
      | none => s
    | _ => s

/-- BRODLU_NAK (row 139): a NAK is never answered. -/
def execBrodluNak (l : Fin 96) (s : State) : Outc := s.run fun (s : Device) =>
  (match s.rxHead l.val 6 with
   | some (r, s) =>
     let n := r.pkt.dst
     let s : Device := s.rxFree l.val r.bufs
     if s.ctxSt n = 0 || s.ctxSt n = 4 || s.ctxPort n ≠ l.val || !s.fromPeer n r then s
     else (s.bumpStat (O.ctxStats n) 5).nakAct n (bits r.pkt.op 63 56) (bits r.pkt.op 31 0) r.pkt
   | none => s)

/-- A SYNC from the peer of a context that is SYNC_SENT or OPEN (R322). -/
def Device.syncIn (s : Device) (n : Nat) (p : Packet) : Device :=
  let c := s.ctx n
  if s.ctxSt n = 2 && c.peerGen ≠ some p.gen then s.ctxFail n .aborted
  else
    let limit := if before c.peerLimit p.credit then p.credit else c.peerLimit
    let c := if !p.ackReq then { c with answered := true, peerLimit := limit }
      else if c.peerGen = some p.gen then { c with peerLimit := limit }
      else { c with peerGen := some p.gen, rx := [], rxAck := 0, sentLimit := 0, peerLimit := p.credit, msg := [] }
    let s : Device := s.setCtx n c
    let s : Device := if p.ackReq then s.syncSend n false else s
    if s.ctxSt n = 1 && c.answered && c.peerGen.isSome then s.setNum (O.ctxState n) 2 else s

/-- BRODLU_SYNC (row 140). -/
def execBrodluSync (l : Fin 96) (s : State) : Outc := s.run fun (s : Device) =>
  (match s.rxHead l.val 7 with
   | some (r, s) =>
     let l := l.val
     let n := r.pkt.dst
     let s : Device := s.rxFree l r.bufs
     if s.ctxSt n = 4 then s.nak l (s.answerer l n) r 7
     else if (s.ctxSt n ≠ 1 && s.ctxSt n ≠ 2) || s.ctxDatagram n || s.ctxPort n ≠ l || !s.fromPeer n r then s.nak l (s.answerer l n) r 2
     else (s.bumpStat (O.ctxStats n) 1).syncIn n r.pkt
   | none => s)

/-! ## Sending (R327, R330) -/

/-- Packets are queued in a context, numbered in order after those queued. -/
def Device.ctxQueue (s : Device) (n : Nat) (l : List Packet) : Device :=
  let c := s.ctx n
  let at_ := seqAdd c.txSeq c.queue.length
  s.setCtx n { c with queue := c.queue ++ (l.zip (List.range l.length)).map fun p => { p.1 with seq := seqAdd at_ p.2 } }

/-- The largest payload of a packet of a context (R320). -/
def Device.maxPayload (s : Device) (n : Nat) : Nat :=
  min 8192 (s.num (O.ipMtu (s.ctxPort n)) - (if isV4 (s.ctxIp n) then 20 else 40) - 48)

/-- Uptime counts that a frame of n bytes takes at a rate in Mbit/s. -/
def sendCounts (n mbps : Nat) : Nat := if mbps = 0 then 0 else (200 * n + mbps - 1) / mbps

/-- A packet of a context that is due to be sent again, and that its credit allows. -/
def Device.dueAgain (s : Device) (n : Nat) : Option Unacked :=
  let c := s.ctx n
  c.unacked.find? fun u => (match u.retryAt with | some t => decide (t ≤ s.uptime) | none => false) && before u.pkt.seq c.peerLimit

/-- May a context send a new packet, its channel's buffer apart (R327, R330)? -/
def Device.mayTransmit (s : Device) (n : Nat) : Bool :=
  let c := s.ctx n
  match c.queue.head? with
  | some p => s.ctxSt n == 2 && decide (c.nextSend ≤ s.uptime) &&
      (s.ctxDatagram n || (before p.seq c.peerLimit && before p.seq (seqAdd c.peerAck 256)))
  | none => false

/-- Sends the head of a context's queue if its send channel grants the buffers; else it waits. -/
def Device.transmit (s : Device) (n : Nat) : Device :=
  let c := s.ctx n
  match c.queue, c.pool with
  | p :: rest, some ch =>
    let q := s.ctxPort n / 24
    let bufs := max 1 ((p.payload.length + 4095) / 4096)
    let len := s.frameLen (s.ctxPort n) (isV4 (s.ctxIp n)) ((if s.ctxDatagram n then 0 else 40) + p.payload.length)
    let next := max c.nextSend s.uptime + sendCounts len (beAt (s.bytes (O.ctxStats n)) 56 8)
    match s.poolTake q ch bufs with
    | (false, s) => s
    | (true, s) =>
      if s.ctxDatagram n then
        let s : Device := (s.setCtx n { c with queue := rest, nextSend := next }).ctxOut n p.payload
        ((s.poolRelease q ch bufs).bumpStat (O.ctxStats n) 0).closeIfDone n
      else
        let u : Unacked := { pkt := p, bufs := bufs, timerAt := s.uptime }
        let s : Device := s.setCtx n { c with queue := rest, nextSend := next, txSeq := seqAdd p.seq 1, unacked := c.unacked ++ [u] }
        s.ctxSend n p.type p.seq fun h => { p with gen := h.gen, dst := h.dst, src := h.src, ack := h.ack, sack := h.sack, credit := h.credit,
                                                   ceEcho := h.ceEcho }
  | _, _ => s

/-- The contexts of a port of one class in round-robin order after the last served. -/
def Device.roundOf (s : Device) (l cls last : Nat) : List Nat :=
  let all := (s.portCtxs l).filter fun n => s.ctxCfg n 3 1 == cls
  (all.filter fun n => decide (last < n)) ++ all.filter fun n => !decide (last < n)

/-- PACKET_TRANSMIT (row 142): one packet of a port: one that is due again before new ones, LC contexts before BE contexts. -/
def Device.portTransmit (s : Device) (l : Nat) : Device :=
  let p := s.port l
  let lc := s.roundOf l 1 p.lastLc
  let be := s.roundOf l 0 p.lastBe
  let again := (lc ++ be).find? fun n => s.ctxSt n == 2 && (s.dueAgain n).isSome
  match again with
  | some n => match s.dueAgain n with
    | some u => s.resend n u.pkt.seq
    | none => s
  | none => match lc.find? s.mayTransmit with
    | some n => (s.setPort l { p with lastLc := n }).transmit n
    | none => match be.find? s.mayTransmit with
      | some n => (s.setPort l { p with lastBe := n }).transmit n
      | none => s
def execPacketTransmit (l : Fin 96) (s : State) : Outc := s.run fun (s : Device) =>
  (let s : Device := if s.portUp l.val then (s.linkResumes l.val).portFlush l.val else s
   if s.portUp l.val && (s.port l.val).outq.isEmpty && s.maySend l.val 9216 then s.portTransmit l.val else s)

/-! ## Commands and timers -/

/-- CTX_OPEN (row 143), CTX_CLOSE (row 144) and CTX_THAW (row 145): writes of 5.00.(120+g)[e] and 5.00.(140+g)[e]. -/
def execCtxOpen (n : Fin 4096) (s : State) : Outc := s.run fun (s : Device) =>
  s.ownWrite (O.ctxControl n.val) fun s => s.ctxOpen n.val 0xFFFFFFFF
def execCtxClose (n : Fin 4096) (s : State) : Outc := s.run fun (s : Device) =>
  s.ownWrite (O.ctxControl n.val) fun s => s.ctxClose n.val
def execCtxThaw (n : Fin 4096) (s : State) : Outc := s.run fun (s : Device) =>
  s.ownWrite (O.ctxThaw n.val) fun s => (s.ctxThaw n.val).measured (O.ctxThaw n.val) [1]

/-- SYNC_INTERVAL (row 146): SYNC again every 100 µs while SYNC_SENT. -/
def execSyncInterval (n : Fin 4096) (s : State) : Outc := s.run fun (s : Device) =>
  (let c := s.ctx n.val
   if s.runs 2 && s.ctxSt n.val == 1 && decide (c.lastSync + us 100 ≤ s.uptime) then
     (s.setCtx n.val { c with lastSync := s.uptime }).syncSend n.val true
   else s)

/-- SYNC_TIMEOUT (row 147): the handshake has not completed within 5.00.014. -/
def execSyncTimeout (n : Fin 4096) (s : State) : Outc := s.run fun (s : Device) =>
  (if s.runs 2 && s.ctxSt n.val == 1 && decide ((s.ctx n.val).openedAt + ms (s.num O.syncTimeoutMs) ≤ s.uptime) then s.ctxFail n.val .timeout
   else s)

/-- ACK_DELAY_TIMER (row 148): 5 µs after the first unacknowledged accepted packet. -/
def execAckDelayTimer (n : Fin 4096) (s : State) : Outc := s.run fun (s : Device) =>
  (match (s.ctx n.val).ackDue with
   | some t => if s.runs 2 && s.ctxSt n.val == 2 && decide (t ≤ s.uptime) then s.ackNow n.val else s
   | none => s)

/-- The timeouts of Table 13.7, in turn, in µs. -/
def rtoUs (i : Nat) : Nat := [50, 100, 200, 400, 400, 400, 400].getD i 400

/-- RETRANSMIT_TIMEOUT (row 149): the oldest unacknowledged packet goes again; when the seventh timeout expires the context fails. Timers are
suspended during a link-level episode (R319, R484). -/
def execRetransmitTimeout (n : Fin 4096) (s : State) : Outc := s.run fun (s : Device) =>
  (let n := n.val
   let c := s.ctx n
   match c.unacked with
   | u :: rest =>
     if !s.runs 2 || s.ctxSt n != 2 || (s.port (s.ctxPort n)).episode.isSome || decide (s.uptime < u.timerAt + us (rtoUs u.tries)) then s
     else if 6 ≤ u.tries then s.ctxFail n .timeout
     else (s.setCtx n { c with unacked := { u with timerAt := u.timerAt + us (rtoUs u.tries), tries := u.tries + 1 } :: rest }).resend n u.pkt.seq
   | [] => s)

/-- NO_BUFFER_RETRY (row 150): a packet refused with NO_BUFFER goes again after 5 µs. -/
def execNoBufferRetry (n : Fin 4096) (s : State) : Outc := s.run fun (s : Device) =>
  (match s.dueAgain n.val with
   | some u => if s.runs 2 && s.ctxSt n.val == 2 then s.resend n.val u.pkt.seq else s
   | none => s)

/-- A finite value rounded to the nearest whole number, ties to even. -/
def Fp.roundNat : Fp → Nat
  | .fin _ m e =>
    if 0 ≤ e then m * 2 ^ e.toNat
    else
      let d := 2 ^ (-e).toNat
      let q := m / d
      let r := m % d
      if d < 2 * r || (2 * r == d && q % 2 == 1) then q + 1 else q
  | _ => 0

/-- The next rate of a context (R330). -/
def Device.rateNext (s : Device) (n : Nat) : Nat :=
  let r := beAt (s.bytes (O.ctxStats n)) 56 8
  if (s.ctx n).echoed then
    max (s.num O.rcMinMbps) (r - (Fp.mul (.fin false r 0) (F32.fp (BitVec.ofNat 32 (s.num O.rcDecrease)))).roundNat)
  else min (s.rateMax n) (r + s.num O.rcIncreaseMbps)

/-- RATE_CONTROL_PERIOD (row 151): every open reliable context adjusts its rate. -/
def execRateControlPeriod (s : State) : Outc := s.run fun (s : Device) =>
  (if s.runs 2 && decide (s.net.rcAt + us (s.num O.rcPeriodUs) ≤ s.uptime) then
     let s : Device := { s with net := { s.net with rcAt := s.uptime } }
     (s.net.ctxs.map fun c => c.1).foldl (fun (s : Device) n =>
       if s.ctxSt n = 2 && !s.ctxDatagram n then
         (s.setStat (O.ctxStats n) 7 (s.rateNext n)).setCtx n { s.ctx n with echoed := false }
       else s) s
   else s)

end Sys2Proof.Machine
end

