-- ==== Sys2Proof/Machine/Picture.lean ====
section
/-! DEFINITION. The arithmetic of the input pipeline: geometry (R349 to R351), colour and normalisation (R352), the audio front end (R353) and the
token order (R355). -/

namespace Sys2Proof.Machine

/-! ## The stream configuration (Table 14.1) -/

/-- A stream's configuration. -/
def Device.sCfg (s : Device) (k : Nat) : Bytes := s.bytes (O.streamConfig (k / 64) (k % 64))

/-- Fields of a configuration. -/
def cfgF (b : Bytes) (off : Nat) : F32 := BitVec.ofNat 32 (leAt b off 4)

/-! ## The parameter block (Table 14.4) -/

/-- Word i of a parameter block; a missing block reads as mode 0 without lens and border +0. -/
def parW (p : Bytes) (i : Nat) : Nat := leAt p (8 * i) 8
def parHi (p : Bytes) (i : Nat) : F32 := BitVec.ofNat 32 (bits (parW p i) 63 32)
def parLo (p : Bytes) (i : Nat) : F32 := BitVec.ofNat 32 (bits (parW p i) 31 0)
def parMode (p : Bytes) : Nat := bits (parW p 0) 63 60
def parLens (p : Bytes) : Bool := bit (parW p 0) 59
def parMesh (p : Bytes) : Nat := bits (parW p 0) 55 52
def parBorder (p : Bytes) : F32 := parLo p 0

/-- The output size: that of the block where it is not zero, else that of the configuration. -/
def outW (c p : Bytes) : Nat := if bits (parW p 1) 63 48 = 0 then leAt c 36 2 else bits (parW p 1) 63 48
def outH (c p : Bytes) : Nat := if bits (parW p 1) 47 32 = 0 then leAt c 38 2 else bits (parW p 1) 47 32

/-! ## Coordinates (R350, R351) -/

def f32Half : F32 := 0x3F000000
def f32Two : F32 := 0x40000000

/-- The floor of a finite number. -/
def ffloor (x : F32) : Int :=
  match x.fp with
  | .fin n m e => if 0 ≤ e then signedM n m * 2 ^ e.toNat else signedM n m / 2 ^ (-e).toNat
  | _ => 0

/-- An integer as FP32. -/
def fofInt (x : Int) : F32 := toF32 (.fin (decide (x < 0)) x.natAbs 0)

/-- A mesh: its size and its nodes. -/
structure Mesh where
  nx : Nat
  ny : Nat
  node : Nat → Nat → F32 × F32

/-- Bilinear interpolation of four values, in the order of R350. -/
def bilerp (fa fb p00 p01 p10 p11 : F32) : F32 :=
  let t0 := ffma fa (fsub p01 p00) p00
  let t1 := ffma fa (fsub p11 p10) p10
  ffma fb (fsub t1 t0) t0

/-- The source point of an output point under a mesh; a node that is not finite yields none. -/
def Mesh.point (g : Mesh) (wo ho : Nat) (x y : F32) : Option (F32 × F32) :=
  let u := fdiv (fmul x (fofNat (g.nx - 1))) (fofNat wo)
  let v := fdiv (fmul y (fofNat (g.ny - 1))) (fofNat ho)
  let a := min (ffloor u) (g.nx - 2 : Int)
  let b := min (ffloor v) (g.ny - 2 : Int)
  let f := fsub u (fofInt a)
  let h := fsub v (fofInt b)
  let n (i j : Nat) : F32 × F32 := g.node (a.toNat + i) (b.toNat + j)
  let all := [n 0 0, n 1 0, n 0 1, n 1 1]
  if all.all fun p => p.1.fp.finite && p.2.fp.finite then
    some (bilerp f h (n 0 0).1 (n 1 0).1 (n 0 1).1 (n 1 1).1, bilerp f h (n 0 0).2 (n 1 0).2 (n 0 1).2 (n 1 1).2)
  else none

/-- The lens model: undistorted to distorted coordinates. -/
def lensPoint (p : Bytes) (xs ys : F32) : F32 × F32 :=
  let fx := parHi p 2
  let fy := parLo p 2
  let cx := parHi p 3
  let cy := parLo p 3
  let k1 := parHi p 4
  let k2 := parLo p 4
  let k3 := parHi p 5
  let p1 := parLo p 5
  let p2 := parHi p 6
  let xn := fdiv (fsub xs cx) fx
  let yn := fdiv (fsub ys cy) fy
  let r2 := ffma xn xn (fmul yn yn)
  let rad := ffma r2 (ffma r2 (ffma r2 k3 k2) k1) f32One
  let xd := ffma xn rad (ffma (fmul f32Two p1) (fmul xn yn) (fmul p2 (ffma (fmul f32Two xn) xn r2)))
  let yd := ffma yn rad (ffma (fmul f32Two p2) (fmul xn yn) (fmul p1 (ffma (fmul f32Two yn) yn r2)))
  (ffma fx xd cx, ffma fy yd cy)

/-- The source point of output pixel (i, j); none is a point outside. -/
def sourcePoint (p : Bytes) (g : Mesh) (w h wo ho i j : Nat) : Option (F32 × F32) :=
  let x := fadd (fofNat i) f32Half
  let y := fadd (fofNat j) f32Half
  let at_ : Option (F32 × F32) := match parMode p with
    | 0 => some (fmul x (fdiv (fofNat w) (fofNat wo)), fmul y (fdiv (fofNat h) (fofNat ho)))
    | 1 =>
      let d := ffma (parHi p 10) x (ffma (parLo p 10) y (parHi p 11))
      if flt 0 d then
        some (fdiv (ffma (parHi p 7) x (ffma (parLo p 7) y (parHi p 8))) d, fdiv (ffma (parLo p 8) x (ffma (parHi p 9) y (parLo p 9))) d)
      else none
    | _ => g.point wo ho x y
  match at_ with
  | none => none
  | some q =>
    let q := if parLens p then lensPoint p q.1 q.2 else q
    let inside (a : F32) (n : Nat) : Bool := a.fp.finite && !flt a 0 && flt a (fofNat n)
    if inside q.1 w && inside q.2 h then some q else none

/-! ## Sampling and colour (R350, R352) -/

/-- Size of plane k, and samples of a frame before it. -/
def Decoded.planeW (d : Decoded) (k : Nat) : Nat := if k = 0 then d.width else (d.width + d.subX - 1) / d.subX
def Decoded.planeH (d : Decoded) (k : Nat) : Nat := if k = 0 then d.height else (d.height + d.subY - 1) / d.subY
def Decoded.before (d : Decoded) (k : Nat) : Nat := ((List.range k).map fun i => d.planeW i * d.planeH i).sum

/-- Component (x, y) of a plane of a frame, as FP32. -/
def Decoded.comp (d : Decoded) (f k x y : Nat) : F32 := fofNat (d.data.getD (f * d.before d.planes + d.before k + y * d.planeW k + x) 0)

/-- A plane sampled at a source point of the luma plane. -/
def Decoded.sample (d : Decoded) (nearest : Bool) (f k : Nat) (q : F32 × F32) : F32 :=
  let sx := if k = 0 then 1 else d.subX
  let sy := if k = 0 then 1 else d.subY
  let x := fdiv q.1 (fofNat sx)
  let y := fdiv q.2 (fofNat sy)
  let clampX (v : Int) : Nat := (max 0 (min v (d.planeW k - 1 : Int))).toNat
  let clampY (v : Int) : Nat := (max 0 (min v (d.planeH k - 1 : Int))).toNat
  if nearest then d.comp f k (clampX (ffloor x)) (clampY (ffloor y))
  else
    let a := fsub x f32Half
    let b := fsub y f32Half
    let ia := ffloor a
    let ib := ffloor b
    let p (u v : Int) : F32 := d.comp f k (clampX (ia + u)) (clampY (ib + v))
    bilerp (fsub a (fofInt ia)) (fsub b (fofInt ib)) (p 0 0) (p 1 0) (p 0 1) (p 1 1)

/-- The matrix code in force (byte 43): that of the configuration, else the signalled one, else BT.709 limited. -/
def Decoded.matrixOf (d : Decoded) (cfg : Nat) : Nat := if cfg ≠ 0 then cfg else if d.matrix = 0 then 3 else d.matrix

/-- Kr, Kb, 2(1 − Kr), 2(1 − Kb) and 1 − Kr − Kb of a matrix code, each rounded once. -/
def matrixConsts (m : Nat) : F32 × F32 × F32 × F32 × F32 :=
  if m ≤ 2 then (0x3E991687, 0x3DE978D5, 0x3FB374BC, 0x3FE2D0E5, 0x3F1645A2)
  else if m ≤ 4 then (0x3E59B3D0, 0x3D93DD98, 0x3FC9930C, 0x3FED844D, 0x3F371759)
  else (0x3E86809D, 0x3D72E48F, 0x3FBCBFB1, 0x3FF0D1B7, 0x3F2D9168)

/-- Is a matrix code limited-range? -/
def isLimited (m : Nat) : Bool := m == 1 || m == 3 || m == 5

/-- A component of a depth to FP32. -/
def mapFull (d : Nat) (c : F32) : F32 := fdiv c (fofNat (2 ^ d - 1))
def mapLuma (d : Nat) (c : F32) : F32 := let k := 2 ^ (d - 8); fdiv (fsub c (fofNat (16 * k))) (fofNat (219 * k))
def mapChroma (d : Nat) (c : F32) : F32 := let k := 2 ^ (d - 8); fdiv (fsub c (fofNat (128 * k))) (fofNat (224 * k))

/-- The three channels of a sampled pixel. -/
def Decoded.rgb (d : Decoded) (cfg : Nat) (c : Nat → F32) : List F32 :=
  let m := d.matrixOf cfg
  if d.planes = 1 then
    let v := if d.ycbcr && isLimited m then mapLuma d.depth (c 0) else mapFull d.depth (c 0)
    [v, v, v]
  else if !d.ycbcr then [mapFull d.depth (c 0), mapFull d.depth (c 1), mapFull d.depth (c 2)]
  else
    let lim := isLimited m
    let y := if lim then mapLuma d.depth (c 0) else mapFull d.depth (c 0)
    let cb := if lim then mapChroma d.depth (c 1) else mapFull d.depth (c 1)
    let cr := if lim then mapChroma d.depth (c 2) else mapFull d.depth (c 2)
    let k := matrixConsts m
    let r := fadd y (fmul k.2.2.1 cr)
    let b := fadd y (fmul k.2.2.2.1 cb)
    let g := fdiv (fsub (fsub y (fmul k.1 r)) (fmul k.2.1 b)) k.2.2.2.2
    [r, g, b]

/-- Normalisation of channel i. -/
def normalise (c : Bytes) (i : Nat) (v : F32) : F32 := fmul (fsub v (cfgF c (48 + 4 * i))) (cfgF c (60 + 4 * i))

/-- The channels of output pixel (i, j) of frame f. -/
def Decoded.pixel (d : Decoded) (c p : Bytes) (g : Mesh) (f i j : Nat) : List F32 :=
  let vals := match sourcePoint p g d.width d.height (outW c p) (outH c p) i j with
    | none => [parBorder p, parBorder p, parBorder p]
    | some q => d.rgb (leAt c 43 1) fun k => d.sample (leAt c 42 1 == 1) f k q
  (vals.zip [0, 1, 2]).map fun v => normalise c v.2 v.1

/-- The tokens of an image or a video sample, one after another (R355). -/
def Decoded.tokens (d : Decoded) (c p : Bytes) (g : Mesh) : List F32 :=
  let ps := leAt c 40 1
  let tb := leAt c 41 1
  (List.range (d.frames / tb)).flatMap fun u =>
    (List.range (outH c p / ps)).flatMap fun pr =>
      (List.range (outW c p / ps)).flatMap fun pc =>
        (List.range tb).flatMap fun t =>
          (List.range ps).flatMap fun py =>
            (List.range ps).flatMap fun px => d.pixel c p g (u * tb + t) (pc * ps + px) (pr * ps + py)

/-- A pre-decoded record as a decoder would have delivered it: interleaved RGB of 8 or 16 bits. -/
def rawDecoded (deep : Bool) (w h frames : Nat) (payload : Bytes) : Decoded :=
  let b := if deep then 2 else 1
  { unsupported := false, width := w, height := h, frames := frames, samples := 0, channels := 0, rate := 0, depth := 8 * b, float := false,
    planes := 3, subX := 1, subY := 1, ycbcr := false, matrix := 0,
    data := (List.range frames).flatMap fun f => (List.range 3).flatMap fun k => (List.range (w * h)).map fun i =>
      leAt payload (((f * w * h + i) * 3 + k) * b) b,
    damage := [] }

/-! ## The audio front end (R353) -/

/-- Sample i of a channel. -/
def Decoded.audio (d : Decoded) (ch i : Nat) : F32 :=
  let v := d.data.getD (i * d.channels + ch) 0
  if d.float then BitVec.ofNat 32 v else fdiv (fofInt (toSigned d.depth v)) (fofNat (2 ^ (d.depth - 1)))

/-- The mono signal. -/
def Decoded.mono (d : Decoded) : List F32 :=
  let k := fdiv f32One (fofNat d.channels)
  (List.range d.samples).map fun i => fmul (((List.range d.channels).map fun ch => d.audio ch i).foldl fadd 0) k

/-- The reduced resampling ratio. -/
def ratioOf (src dst : Nat) : Nat × Nat := (dst / Nat.gcd src dst, src / Nat.gcd src dst)

/-- Samples after resampling. -/
def resampled (n src dst : Nat) : Nat := if src = dst then n else n * (ratioOf src dst).1 / (ratioOf src dst).2

/-- The polyphase resampler. -/
def resample (x : List F32) (src dst : Nat) : List F32 :=
  if src = dst then x
  else
    let r := ratioOf src dst
    (List.range (resampled x.length src dst)).map fun i =>
      let at_ := i * r.2 / r.1
      (List.range 64).foldl (fun (a : F32) (t : Nat) =>
        let j : Int := ((at_ + t : Nat) : Int) - (Config.tapDelay : Int)
        ffma (Config.sincTap r.1 r.2 (i * r.2 % r.1) t) (if j < 0 then 0 else x.getD j.toNat 0) a) 0

/-- Frames of a signal. -/
def audioFrames (c : Bytes) (n : Nat) : Nat := if n < leAt c 78 2 then 1 else (n - leAt c 78 2) / leAt c 80 2 + 1

def f32Tiny : F32 := 0x2EDBE6FF

/-- The tokens of an audio sample, one after another: missing frames of the last token hold the log of 1.0 × 10^−10 (R355). -/
def Decoded.audioTokens (d : Decoded) (c : Bytes) : List F32 :=
  let sr := leAt c 72 4
  let win := leAt c 78 2
  let nfft := leAt c 76 2
  let mels := leAt c 82 2
  let per := leAt c 92 1
  let x := resample d.mono d.rate sr
  let n := audioFrames c x.length
  let frame (f : Nat) : List F32 :=
    let w := (List.range nfft).map fun i => if i < win then fmul (x.getD (f * leAt c 80 2 + i) 0) (Config.hann win i) else 0
    let bands := Config.melBands mels (cfgF c 84) (cfgF c 88) sr nfft (Config.power w)
    (List.range mels).map fun b => flog (fmax (bands.getD b 0) f32Tiny)
  (List.range ((n + per - 1) / per * per)).flatMap fun f =>
    (if f < n then frame f else List.replicate mels (flog f32Tiny)).map fun v => normalise c 0 v

end Sys2Proof.Machine
end

