-- ==== Sys2Proof/Machine/Damage.lean ====
section
/-! DEFINITION. Damaged input (R375 to R377): what the decoders detect, where they resume, what stands for the damaged units, and the rows of the
damage logs; film grain and the depth of decoded audio (R364). The entropy codes and syntax of the codecs are those of other standards: that a unit
is damaged, and which blocks it holds, enters as an operand. -/

namespace Sys2Proof.Machine

/-! ## Supported formats (Table 15.2) -/

/-- Are the depth, the sampling, the size and the rate of what was found those that the decoder of the codec supports? -/
def Decoded.formOk (d : Decoded) (codec : Nat) : Bool :=
  let two := d.subX == 2 && d.subY == 2
  let mono := d.planes == 1
  let side := decide (d.width ≤ 16384) && decide (d.height ≤ 16384)
  let area := decide (d.width * d.height ≤ 35651584)
  let chans := decide (1 ≤ d.channels) && decide (d.channels ≤ 8)
  let rate (hi : Nat) := decide (8000 ≤ d.rate) && decide (d.rate ≤ hi)
  match codec with
  | 1 => d.depth == 8 && (mono || d.planes == 3) && decide (1 ≤ d.subX) && decide (d.subX ≤ 2) && decide (1 ≤ d.subY) && decide (d.subY ≤ 2) && side
  | 2 => (d.depth == 8 || d.depth == 16) && side
  | 3 => d.depth == 8 && (mono || two) && decide ((d.width + 15) / 16 * ((d.height + 15) / 16) ≤ 36864)
  | 4 => (d.depth == 8 || d.depth == 10) && !mono && two && area && side
  | 5 => (d.depth == 8 || d.depth == 10) && (mono || two) && area && side && decide (d.height ≤ 8704)
  | 6 => (if d.float then d.depth == 32 else d.depth == 16 || d.depth == 24) && chans && rate 192000
  | 7 => (d.depth == 16 || d.depth == 24) && chans && rate 192000
  | 8 => chans
  | 9 => chans && rate 96000
  | _ => true

/-- Does a sample need a feature outside Table 15.2 (R363)? -/
def Decoded.outside (d : Decoded) (codec : Nat) : Bool := d.unsupported || !d.formOk codec

/-! ## Detection and resynchronisation (Table 15.5) -/

/-- The errors that the decoder of a codec detects, in the codes of Table 15.6: 1 syntax and entropy codes, 2 missing unit, 3 missing reference,
4 check failure, 5 data ended. -/
def codecErrors (codec : Nat) : List Nat :=
  match codec with
  | 1 => [1, 5]
  | 2 => [1, 4, 5]
  | 3 => [1, 2, 3]
  | 4 => [1, 2, 3]
  | 5 => [1, 2, 3, 4]
  | 7 => [1, 4]
  | 8 => [1, 4]
  | 9 => [1, 4]
  | _ => []

/-- The places of a payload, from a byte on, where a condition on the bytes from there holds: the first. -/
def firstAt (p : Bytes → Bool) : Bytes → Option Bytes
  | [] => none
  | b :: r => if p (b :: r) then some (b :: r) else firstAt p r

/-- Bytes from a place on as numbers. -/
def byteAt (b : Bytes) (i : Nat) : Nat := (b.getD i 0).toNat

/-- A JPEG marker other than a stuffed or a fill byte. -/
def isMarker (b : Bytes) : Bool := byteAt b 0 == 0xFF && byteAt b 1 != 0 && byteAt b 1 != 0xFF && decide (2 ≤ b.length)
def isRst (b : Bytes) : Bool := isMarker b && decide (0xD0 ≤ byteAt b 1) && decide (byteAt b 1 ≤ 0xD7)
def isSos (b : Bytes) : Bool := isMarker b && byteAt b 1 == 0xDA

/-- A start code with a slice of an AVC picture. -/
def isAvcSlice (b : Bytes) : Bool :=
  byteAt b 0 == 0 && byteAt b 1 == 0 && byteAt b 2 == 1 && (byteAt b 3 % 32 == 1 || byteAt b 3 % 32 == 5)

/-- A FLAC sync code, an Ogg page, an ADTS sync word. -/
def isSync (codec : Nat) (b : Bytes) : Bool :=
  match codec with
  | 7 => byteAt b 0 == 0xFF && byteAt b 1 / 2 == 0x7C
  | 8 => b.take 4 == [0x4F, 0x67, 0x67, 0x53]
  | _ => byteAt b 0 == 0xFF && byteAt b 1 / 16 == 0xF && byteAt b 1 / 2 % 4 == 0

/-- The resynchronisation point of a JPEG scan: the next RSTn of its restart intervals; at the end of the scan of a progressive image the next
SOS; else the end. -/
def jpegResync (restarts progressive : Bool) (b : Bytes) : Nat :=
  let rst := restarts && (match firstAt isMarker b with | some r => isRst r | none => false)
  if rst then 1 else if progressive && (firstAt isSos b).isSome then 2 else 0

/-- Where a decoder resumes after damage found at a byte of the payload, in the codes of Table 15.6. Independent slice segments, tiles and
sequence headers are told by the syntax of other standards: the operand names what comes next. -/
def Decoded.resync (d : Decoded) (codec : Nat) (payload : Bytes) (g : Found) : Nat :=
  let b := payload.drop (g.at_ + 1)
  match codec with
  | 1 => jpegResync d.restarts d.progressive b
  | 3 => if (firstAt isAvcSlice b).isSome then 3 else 0
  | 4 => if g.next = 3 || g.next = 4 then g.next else 0
  | 5 => if g.next = 4 || g.next = 5 then g.next else 0
  | 7 => if (firstAt (isSync 7) b).isSome then 6 else 0
  | 8 => if (firstAt (isSync 8) b).isSome then 6 else 0
  | 9 => if (firstAt (isSync 9) b).isSome then 6 else 0
  | _ => 0

/-- The damage a decoder of the codec can find, in a picture or frame of the sample. -/
def Decoded.found (d : Decoded) (codec : Nat) : List Found :=
  d.damage.filter fun g => (codecErrors codec).contains g.error && (decide (6 ≤ codec) || decide (g.frame < d.frames))

/-! ## Concealment (R376) -/

def Area.hits (a : Area) (x y : Nat) : Bool := decide (a.x ≤ x) && decide (x < a.x + a.w) && decide (a.y ≤ y) && decide (y < a.y + a.h)

/-- The first row that a PNG decoder could not decode, in luma rows. -/
def failRow (l : List Found) : Nat := ((l.flatMap fun g => g.areas.map fun a => a.y).min?).getD 0

/-- Is luma position (x, y) of a frame in a damaged unit? For PNG that is every position from the failing row on. -/
def lostAt (codec : Nat) (l : List Found) (f x y : Nat) : Bool :=
  let mine := l.filter fun g => g.frame == f
  if codec = 2 then !mine.isEmpty && decide (failRow mine ≤ y) else mine.any fun g => g.areas.any fun a => a.hits x y

/-- The samples of frame f as decoded, in the order of Decoded.data. -/
def Decoded.frameData (d : Decoded) (f : Nat) : List Nat :=
  let n := d.before d.planes
  (List.range n).map fun i => d.data.getD (f * n + i) 0

/-- What stands for a damaged sample of plane k: the co-located sample of the picture before (none has been decoded: the mid-value); the earlier scans
of a progressive JPEG, which the decoded data hold; the last decoded row of a PNG. -/
def Decoded.stands (d : Decoded) (codec : Nat) (l : List Found) (prev cur : List Nat) (i k x : Nat) : Nat :=
  let mid := 2 ^ (d.depth - 1)
  match codec with
  | 1 => if d.progressive then cur.getD i 0 else mid
  | 2 => if failRow l = 0 then mid else cur.getD (d.before k + (failRow l - 1) * d.planeW k + x) mid
  | _ => prev.getD i mid

/-- A frame with its damaged units concealed. -/
def Decoded.concealFrame (d : Decoded) (codec : Nat) (l : List Found) (f : Nat) (prev : List Nat) : List Nat :=
  let cur := d.frameData f
  (List.range d.planes).flatMap fun k => (List.range (d.planeH k)).flatMap fun y => (List.range (d.planeW k)).map fun x =>
    let i := d.before k + y * d.planeW k + x
    if lostAt codec l f (if k = 0 then x else x * d.subX) (if k = 0 then y else y * d.subY) then
      d.stands codec (l.filter fun g => g.frame == f) prev cur i k x
    else cur.getD i 0

/-- Frames f to f + n − 1, each concealed from the one before it in output order. -/
def Decoded.concealFrom (d : Decoded) (codec : Nat) (l : List Found) (prev : List Nat) (f : Nat) : Nat → List Nat
  | 0 => []
  | n + 1 => let p := d.concealFrame codec l f prev
             p ++ d.concealFrom codec l p (f + 1) n

/-- Lost audio frames are zero samples. -/
def Decoded.concealAudio (d : Decoded) (l : List Found) : List Nat :=
  (List.range (d.samples * d.channels)).map fun i =>
    if l.any fun g => g.areas.any fun a => decide (a.x ≤ i / d.channels) && decide (i / d.channels < a.x + a.w) then 0 else d.data.getD i 0

/-- AV1 film grain is added only while 6.00.111 is 1 (R364); samples stay in their range. -/
def Decoded.grained (d : Decoded) (on : Bool) : List Nat :=
  if on then (d.data.zip (List.range d.data.length)).map fun p => (max 0 (min (2 ^ d.depth - 1 : Int) (p.1 + d.grain.getD p.2 0))).toNat else d.data

/-- What a decoder delivers: damaged units concealed, film grain as 6.00.111 says, Opus and AAC-LC at 24 bits (R364, R376). -/
def Decoded.delivered (d : Decoded) (codec : Nat) (grain : Bool) : Decoded :=
  let l := d.found codec
  let d := if 6 ≤ codec then { d with data := if l.isEmpty then d.data else d.concealAudio l, depth := if codec = 8 || codec = 9 then 24 else d.depth }
    else { d with data := if l.isEmpty then d.data else d.concealFrom codec l [] 0 d.frames }
  { d with data := d.grained (grain && codec == 5) }

/-! ## Rows of the damage log (R377) -/

/-- Concealed luma pixels of a picture, or samples per channel of an audio frame. -/
def Decoded.concealedIn (d : Decoded) (codec : Nat) (l : List Found) (f : Nat) : Nat :=
  if 6 ≤ codec then
    let mine := l.filter fun g => g.frame == f
    ((List.range d.samples).filter fun i => mine.any fun g => g.areas.any fun a => decide (a.x ≤ i) && decide (i < a.x + a.w)).length
  else ((List.range d.height).map fun y => ((List.range d.width).filter fun x => lostAt codec l f x y).length).sum

/-- One row for each damaged picture, image or audio frame: error and resynchronisation of its first damaged unit, its concealed area summed. -/
def Decoded.reports (d : Decoded) (codec : Nat) (payload : Bytes) : List Damage :=
  let l := d.found codec
  (l.map fun g => g.frame).dedup.filterMap fun f => (l.find? fun g => g.frame == f).map fun g =>
    let n := d.concealedIn codec l f
    { frame := f, error := g.error, resync := d.resync codec payload g, concealed := n, area := if 6 ≤ codec then n else d.width * d.height }

end Sys2Proof.Machine
end

