-- ==== Sys2Proof/Machine/Input.lean ====
section
/-! DEFINITION. The input pipeline (14_input_pipeline.md, rows 157 to 171): streams, records, admission, dispatch to engines (R361 to R366), decode
results, Strands and the split ratio. -/

namespace Sys2Proof.Machine

/-! ## Streams -/

def Device.stream (s : Device) (k : Nat) : StreamSt := tgetD s.net.streams k {}
def Device.streamSt (s : Device) (k : Nat) : Nat := s.num (O.streamState (k / 64) (k % 64))

/-- The kind of a codec (Table 14.3): 0 image, 1 video, 2 audio, 3 text. -/
def codecKind (c : Nat) : Nat := [3, 0, 0, 1, 1, 1, 2, 2, 2, 2, 0, 1].getD c 3

/-- The engine kind of a codec: 0 video, 1 JPEG, 2 PNG, 3 audio; none bypasses the decoders (R347). -/
def codecEngine (c : Nat) : Option Nat :=
  if 3 ≤ c && c ≤ 5 then some 0 else if c = 1 then some 1 else if c = 2 then some 2 else if 6 ≤ c && c ≤ 9 then some 3 else none

/-- Elements of an engine kind (Table 15.1). -/
def engineElems (kind : Nat) : List Nat :=
  match kind with
  | 0 => List.range 8
  | 1 => [8, 9, 10, 11]
  | 2 => [12, 13]
  | _ => [16]

/-! ## Records (Tables 14.2 and 14.4) -/

def Sample.w (x : Sample) (i hi lo : Nat) : Nat := bits (leAt x.hdr (8 * i) 8) hi lo
def Sample.codec (x : Sample) : Nat := x.w 0 55 48
def Sample.deep (x : Sample) : Bool := x.w 0 41 41 == 1
def Sample.parWords (x : Sample) : Nat := x.w 0 39 32
def Sample.payloadBytes (x : Sample) : Nat := x.w 2 63 32
def Sample.params (x : Sample) : Bytes := x.body.take (8 * x.parWords)
def Sample.payload (x : Sample) : Bytes := (x.body.drop (8 * x.parWords)).take x.payloadBytes
def Sample.kind (x : Sample) : Nat := codecKind x.codec

/-- Component bytes b (Table 14.3). -/
def Sample.compBytes (x : Sample) : Nat :=
  match x.codec with
  | 2 => 2 | 4 => 2 | 5 => 2 | 10 => 1 + x.deep.toNat | 11 => 1 + x.deep.toNat | _ => 1

/-- The declared decoded size (R345). -/
def Sample.size (x : Sample) : Nat :=
  match x.kind with
  | 2 => x.w 2 31 0 * x.w 3 31 24 * 4
  | 3 => x.payloadBytes
  | _ => x.w 1 47 32 * x.w 1 31 16 * x.w 1 15 0 * 3 * x.compBytes

/-- Decode jobs of a kind queued or running in a complex (R359). -/
def Device.decodeJobs (s : Device) (m kind : Nat) : Nat :=
  ((s.net.streams.filter fun (t : Nat × StreamSt) => t.1 / 64 == m).map fun (t : Nat × StreamSt) => (t.2.records.filter fun (x : Sample) =>
    x.kind == kind && (codecEngine x.codec).isSome && (x.stage == SampStage.queued || x.stage == SampStage.decoding)).length).sum

/-- Carries the sums of decode jobs over time up to now. -/
def Device.noteOcc (s : Device) (m : Nat) : Device :=
  let o := tgetD s.net.occ m ([0, 0, 0], s.uptime)
  let sums := [0, 1, 2].map fun k => o.1.getD k 0 + s.decodeJobs m k * (s.uptime - o.2)
  { s with net := { s.net with occ := tput s.net.occ m (sums, s.uptime) } }

/-- Puts a stream. -/
def Device.setStream (s : Device) (k : Nat) (t : StreamSt) : Device :=
  let s : Device := s.noteOcc (k / 64)
  { s with net := { s.net with streams := tput s.net.streams k t } }

/-- Changes one record of a stream. -/
def Device.modSample (s : Device) (k seq : Nat) (f : Sample → Sample) : Device :=
  let t := s.stream k
  s.setStream k { t with records := t.records.map fun x => if x.seq == seq then f x else x }

def Device.sample? (s : Device) (k seq : Nat) : Option Sample := (s.stream k).records.find? fun x => x.seq == seq

/-- One of the counters of 6.(30+m).015[s]. -/
def Device.sStat (s : Device) (k i : Nat) (n : Nat := 1) : Device := if n = 0 then s else s.bumpStat (O.streamStats (k / 64) (k % 64)) i n

/-- IN buffers of a record returned. -/
def Device.freeBufs (s : Device) (k seq : Nat) : Device :=
  match s.sample? k seq with
  | some x => (s.poolRelease (k / 64) (s.stream k).pool x.bufs).modSample k seq fun x => { x with bufs := 0 }
  | none => s

/-! ## Engines and queues (R365) -/

/-- Is a stream live? -/
def Device.isLive (s : Device) (k : Nat) : Bool := leAt (s.sCfg k) 1 1 == 1

/-- The head of a queue of an engine kind: the sample that entered it first. -/
def Device.queueHead (s : Device) (m kind : Nat) (live : Bool) : Option (Nat × Sample) :=
  let all := (s.net.streams.filter fun (t : Nat × StreamSt) => t.1 / 64 == m && s.isLive t.1 == live && s.streamSt t.1 != 3).flatMap
    fun (t : Nat × StreamSt) => (t.2.records.filter fun (x : Sample) => x.stage == SampStage.queued && codecEngine x.codec == some kind).map
      fun (x : Sample) => (t.1, x)
  all.foldl (fun (b : Option (Nat × Sample)) p => match b with
    | none => some p
    | some q => if p.2.ticket < q.2.ticket then some p else some q) none

/-- A sample starts on an engine: its deadline follows from the stream's mean (R348). -/
def Device.dispatchSample (s : Device) (e k : Nat) (x : Sample) (aside : Option EngineJob) : Device :=
  let c := s.sCfg k
  let t := s.stream k
  let mult := leAt c 93 1
  let dl := if mult = 0 then none
    else if t.completed < 8 then some (s.uptime + us (leAt c 96 4))
    else some (s.uptime + max (us 100) (mult * t.mean / 40))
  let job : EngineJob := { stream := k, seq := x.seq, live := s.isLive k, start := s.uptime }
  let s : Device := s.setEngine (k / 64) e { now := some job, aside := aside }
  (s.modSample k x.seq fun y => { y with stage := .decoding, engine := some e, dispatchedAt := s.uptime, deadline := dl }).freeBufs k x.seq

/-- What a free engine takes: the head of the LC queue, else what it put aside, else the head of the BE queue; in a complex that takes only live
work (R436) nothing else. -/
def Device.engineNext (s : Device) (m kind e : Nat) : Device :=
  let x := s.engine m e
  match s.queueHead m kind true with
  | some p => s.dispatchSample e p.1 p.2 x.aside
  | none =>
    if s.power.beHold.contains m then s
    else match x.aside with
      | some j => s.setEngine m e { now := some { j with start := s.uptime }, aside := none }
      | none => match s.queueHead m kind false with
        | some p => s.dispatchSample e p.1 p.2 none
        | none => s

/-- An engine is free again; a job put aside resumes when no live job waits. -/
def Device.engineFree (s : Device) (m e : Nat) : Device :=
  let x := s.engine m e
  let s : Device := s.setEngine m e { x with now := none }
  let kind := if e < 8 then 0 else if e < 12 then 1 else if e < 14 then 2 else 3
  if x.aside.isSome && (s.queueHead m kind true).isNone then s.engineNext m kind e else s

/-- A sample leaves its engine, if it is on one. -/
def Device.leaveEngine (s : Device) (k seq : Nat) : Device :=
  match s.sample? k seq with
  | none => s
  | some x => match x.engine with
    | none => s
    | some e =>
      let s : Device := s.modSample k seq fun x => { x with engine := none }
      let g := s.engine (k / 64) e
      let mine (j : Option EngineJob) : Bool := match j with
        | some j => j.stream == k && j.seq == seq
        | none => false
      if mine g.now then s.engineFree (k / 64) e else if mine g.aside then s.setEngine (k / 64) e { g with aside := none } else s

/-- A record becomes a failed slot (R344, R346, R348, R363): its engine, work slot and buffers are free; it keeps its place. -/
def Device.sampleFail (s : Device) (k seq : Nat) (st : Status) (stage detail stat : Nat) : Device :=
  let s : Device := (s.leaveEngine k seq).freeBufs k seq
  let s : Device := s.modSample k seq fun x => { x with stage := .failed, status := st.code, slot := none, tokens := 0, data := [], ids := [] }
  (s.sStat k stat).rejectRow (k / 64) k st stage seq detail

/-! ## Opening (R340, R341) -/

/-- Step 2 of R341: every field in its range. -/
def streamCfgOk (c : Bytes) : Bool :=
  let u1 (o : Nat) := leAt c o 1
  let u2 (o : Nat) := leAt c o 2
  let u4 (o : Nat) := leAt c o 4
  let rng (v lo hi : Nat) : Bool := decide (lo ≤ v) && decide (v ≤ hi)
  let p := u1 40
  rng (u1 0) 0 3 && rng (u1 1) 0 1 && rng (u1 2) 0 31 && rng (u1 3) 1 64 && rng (u2 4) 0 4095 && rng (u2 6) 0 1024 && rng (u2 8) (max (u2 6) 3) 8192 &&
  rng (u2 10) 1 65535 && rng (u2 16) 1 16384 && rng (u2 18) 1 16384 && rng (u2 20) 1 8184 && decide (1 ≤ u4 24) &&
  rng (u4 32) 64 65536 && aligned (u4 32) 64 && rng p 1 32 && rng (u2 36) 1 65535 && aligned (u2 36) p && rng (u2 38) 1 65535 && aligned (u2 38) p &&
  rng (u1 41) 1 8 && (u1 0 != 0 || u1 41 == 1) && rng (u1 42) 0 1 && rng (u1 43) 0 6 && (u1 0 == 3 || numOk (u4 44)) &&
  rng (u4 72) 8000 192000 && isPow2In (u2 76) 16 2048 && rng (u2 78) 1 (u2 76) && rng (u2 80) 1 (u2 78) && rng (u2 82) 1 256 &&
  (cfgF c 84).fp.finite && !flt (cfgF c 84) 0 && (cfgF c 88).fp.finite && flt (cfgF c 84) (cfgF c 88) &&
  !flt (fdiv (fofNat (u4 72)) f32Two) (cfgF c 88) && rng (u1 92) 1 8 && rng (u4 96) 100 10000000 && (u4 100 == 0 || rng (u4 100) 10 10000000) &&
  aligned (leAt c 104 8) 4096 && rng (u4 112) 2 65536 && aligned (leAt c 120 8) 64 && aligned (leAt c 128 8) 4096

/-- The largest decoded size that R345 allows under a configuration. -/
def largestSize (c : Bytes) : Nat :=
  let kind := leAt c 0 1
  let codecs := (List.range 12).filter fun n => bit (leAt c 12 4) n && codecKind n == kind
  let pay := leAt c 24 4
  if codecs.isEmpty then 0
  else if kind = 3 then pay
  else if kind = 2 then min (leAt c 28 4 * 8 * 4) (leAt c 10 2 * pay)
  else
    let b := if codecs.any fun n => n != 1 && n != 3 then 2 else 1
    min (leAt c 16 2 * leAt c 18 2 * (if kind = 0 then 1 else leAt c 20 2) * 3 * b) (leAt c 10 2 * pay)

/-- Elements of a token (R354). -/
def tokenElems (c : Bytes) : Nat :=
  match leAt c 0 1 with
  | 2 => leAt c 82 2 * leAt c 92 1
  | 3 => 1
  | _ => leAt c 40 1 * leAt c 40 1 * 3 * leAt c 41 1

/-- Offsets of the parts of a Strand slot (Table 14.5): segment array, position array, token plane, scale array, and the slot's stride. -/
def strandRow (c : Bytes) : Nat := if leAt c 0 1 = 3 then 4 else roundUp (rowBytes (fmtBits (numFmt (leAt c 44 4))) (tokenElems c)) 64
def strandPos (c : Bytes) : Nat := roundUp (2112 + 2 * leAt c 32 4) 64
def strandPlane (c : Bytes) : Nat := roundUp (strandPos c + 4 * leAt c 32 4) 64
def strandScale (c : Bytes) : Nat := roundUp (strandPlane c + leAt c 32 4 * strandRow c) 64
def scaleBytes (c : Bytes) : Nat :=
  let b := numBlock (leAt c 44 4)
  if leAt c 0 1 = 3 || b = 0 then 0
  else
    let sh := blockShape b
    (leAt c 32 4 + sh.1 - 1) / sh.1 * roundUp ((tokenElems c + sh.2 - 1) / sh.2) 4
def strandStride (c : Bytes) : Nat := roundUp (strandScale c + scaleBytes c) 4096

/-- The address ranges of an extent of a job's HBM space. -/
def rangesOf : List (Nat × Nat) → Nat → Nat → List (Nat × Nat)
  | [], _, _ => []
  | (b, n) :: r, o, len => if len = 0 then [] else if o < n then (b + o, min len (n - o)) :: rangesOf r 0 (len - min len (n - o)) else rangesOf r (o - n) len

/-- Does an extent lie in the job's HBM space and outside every transactional region? -/
def Device.plainExtent (s : Device) (x : Job) (o n : Nat) : Bool :=
  x.inSpace o n && (rangesOf x.spaces o n).all fun r => !s.inRegion r.1 r.2

/-- STREAM_OPEN: the checks of R341 in order. -/
def Device.streamOpen (s : Device) (k sid : Nat) : Ans :=
  let m := k / 64
  let c := s.sCfg k
  let obj := O.streamControl m (k % 64)
  let n := leAt c 4 2
  let j := leAt c 2 1
  match (if s.resident j && s.streamSt k == 0 then s.job? j else none) with
  | none => s.deny .state obj
  | some x =>
    if !streamCfgOk c then s.deny .range obj
    else if s.ctxDelivery n ≠ 2 || s.ctxPort n / 24 ≠ m || s.ctxJob n ≠ j then s.deny .range obj
    else if leAt c 136 4 < largestSize c then s.deny .range obj
    else if !(s.plainExtent x (leAt c 104 8) (4096 + leAt c 112 4 * strandStride c) &&
              s.plainExtent x (leAt c 128 8) (leAt c 3 1 * leAt c 136 4) &&
              (leAt c 120 8 == 0 || s.plainExtent x (leAt c 120 8) (16 * 139264))) then s.deny .range obj
    else match s.claim [O.ctxState n, O.streamState m (k % 64)] obj sid with
      | (_, some h) => s.deny .held h.1
      | (t, none) => match t.poolOpen m 4 (leAt c 6 2) (leAt c 8 2) (leAt c 1 1) obj sid with
        | .inl lim => s.deny .limit lim
        | .inr (ch, t) =>
          ((((t.setStream k { pool := ch, ctx := n }).setNum (O.streamState m (k % 64)) 1).setNum (O.strandHead m (k % 64)) 0)).okay

/-- STREAM_OPEN (row 157): a write of 1 to 6.(30+m).011[s]. -/
def execStreamOpen (m : Fin 4) (n : Fin 64) (s : State) : Outc := s.run fun (s : Device) =>
  s.ownWrite (O.streamControl m.val n.val) fun s => s.streamOpen (64 * m.val + n.val) 0xFFFFFFFF

/-! ## Strands (R354 to R357) -/

/-- Closes the open Strand of a stream; one without entries stays. -/
def Device.closeStrand (s : Device) (k flag : Nat) : Device :=
  let t := s.stream k
  match t.openStrand with
  | some d =>
    if d.entries.isEmpty then s
    else
      let d := { d with flags := d.flags + flag }
      (s.setStream k { t with openStrand := none, closed := t.closed ++ [d] }).sStat k 9 (leAt (s.sCfg k) 32 4 - d.used)
  | none => s

/-- A FLUSH or a CLOSE whose samples have all been placed closes the open Strand. -/
def Device.flushView (s : Device) (k : Nat) : Device :=
  let t := s.stream k
  let due := match t.flushAt with
    | some q => t.records.all fun x => q == x.seq || !decide ((q + 2 ^ 32 - x.seq) % 2 ^ 32 ≤ 2 ^ 31)
    | none => false
  let s : Device := if due then (s.setStream k { t with flushAt := none }).closeStrand k 2 else s
  if (s.stream k).closing && (s.stream k).records.isEmpty then s.closeStrand k 2 else s

/-- CLOSE (R358). -/
def Device.streamClose (s : Device) (k : Nat) : Ans :=
  let obj := O.streamControl (k / 64) (k % 64)
  if s.streamSt k = 1 then
    (((s.setStream k { s.stream k with closing := true }).setNum (O.streamState (k / 64) (k % 64)) 2).flushView k).okay
  else s.deny .state obj

/-- STREAM_CLOSE (row 158). -/
def execStreamClose (m : Fin 4) (n : Fin 64) (s : State) : Outc := s.run fun (s : Device) =>
  s.ownWrite (O.streamControl m.val n.val) fun s => s.streamClose (64 * m.val + n.val)

/-- STREAM_CLOSE_COMPLETE (row 159): nothing of the stream is left to place or to write. -/
def execStreamCloseComplete (m : Fin 4) (n : Fin 64) (s : State) : Outc := s.run fun (s : Device) =>
  (let k := 64 * m.val + n.val
   let t := s.stream k
   if s.works (mediaDomain m.val) && s.streamSt k == 2 && t.records.isEmpty && t.openStrand.isNone && t.closed.isEmpty then s.streamGone k
   else s)

/-- FLUSH (R356). -/
def Device.streamFlush (s : Device) (k : Nat) : Ans :=
  let st := s.streamSt k
  if st = 1 || st = 2 then
    ((s.setStream k { s.stream k with flushAt := some (s.num (O.nextSampleSeq (k / 64) (k % 64))) }).flushView k).okay
  else s.deny .state (O.streamControl (k / 64) (k % 64))

/-- STREAM_FLUSH (row 160). -/
def execStreamFlush (m : Fin 4) (n : Fin 64) (s : State) : Outc := s.run fun (s : Device) =>
  s.ownWrite (O.streamControl m.val n.val) fun s => s.streamFlush (64 * m.val + n.val)

/-- STREAM_THAW (row 161). -/
def Device.streamThaw (s : Device) (k : Nat) : Ans :=
  if s.streamSt k = 3 then s.thaw (masterId 6 k) else s.deny .state (O.streamThaw (k / 64) (k % 64))
def execStreamThaw (m : Fin 4) (n : Fin 64) (s : State) : Outc := s.run fun (s : Device) =>
  s.ownWrite (O.streamThaw m.val n.val) fun s => (s.streamThaw (64 * m.val + n.val)).measured (O.streamThaw m.val n.val) [1]

/-! ## A decoded sample (R347, R350 to R355) -/

/-- The work slots of a stream in use. -/
def StreamSt.slots (t : StreamSt) : List Nat :=
  (t.records.filterMap fun x => x.slot) ++ ((t.openStrand.toList ++ t.closed).flatMap fun d => d.entries.filterMap fun e => e.slot)

/-- The place of a work slot in the job's HBM space. -/
def slotAt (c : Bytes) (slot : Nat) : Nat := leAt c 128 8 + slot * leAt c 136 4

/-- Mesh g of a stream (R351). -/
def Device.meshOf (s : Device) (x : Job) (c : Bytes) (g : Nat) : Mesh :=
  let a := leAt c 120 8 + g * 139264
  let nx := s.spaceLe x a 2
  { nx := nx, ny := s.spaceLe x (a + 2) 2,
    node := fun i j =>
      let o := a + 8 + 8 * (j * nx + i)
      (BitVec.ofNat 32 (s.spaceLe x o 4), BitVec.ofNat 32 (s.spaceLe x (o + 4) 4)) }

/-- Decoded planes stand in the work slot in an order that is not stated: their bytes are free. -/
def Device.fillSlot (s : Device) (x : Job) (o n : Nat) : Device :=
  ({ s with freeCtr := s.freeCtr + 1 } : Device).spacePut x o ((List.range n).map fun i => Config.headerByte s.freeCtr i)

/-- A sample is ready to be placed. -/
def Device.sampleReady (s : Device) (k seq : Nat) (data : List F32) (ids : List Nat) (n frames : Nat) : Device :=
  match s.sample? k seq with
  | none => s
  | some y =>
    let c := s.sCfg k
    let pic := y.kind ≤ 1
    let s : Device := s.modSample k seq fun x => { x with stage := .ready, data := data, ids := ids, tokens := n, frames := frames,
                                                          wo := if pic then outW c y.params else 0, ho := if pic then outH c y.params else 0 }
    let s : Device := if 10 ≤ y.codec then s.sStat k 6 else s
    if pic then s.bump (O.engineOutput (k / 64) 17) (outW c y.params * outH c y.params * frames) else s

/-- Geometry, colour and normalisation of decoded pictures. -/
def Device.pictureReady (s : Device) (k : Nat) (y : Sample) (d : Decoded) : Device :=
  let c := s.sCfg k
  match s.job? (leAt c 2 1) with
  | none => s
  | some x =>
    let at_ := leAt c 120 8 + parMesh y.params * 139264
    let g := s.meshOf x c (parMesh y.params)
    let meshed := y.parWords == 12 && parMode y.params == 2
    if meshed && s.spaceBlocked x at_ (8 + 8 * g.nx * g.ny) false then s.sampleFail k y.seq .uncorrected 2 0 4
    else if meshed && !(decide (2 ≤ g.nx) && decide (g.nx ≤ 129) && decide (2 ≤ g.ny) && decide (g.ny ≤ 129)) then s.sampleFail k y.seq .range 2 0 4
    else
      let data := d.tokens c y.params g
      s.sampleReady k y.seq data [] (data.length / tokenElems c) d.frames

/-- A bypassing sample whose payload has arrived is copied into its work slot (R347). -/
def Device.bypass (s : Device) (k seq : Nat) : Device :=
  match s.sample? k seq with
  | none => s
  | some y =>
    let c := s.sCfg k
    match y.slot, s.job? (leAt c 2 1) with
    | some slot, some x =>
      if !y.ended || y.stage != SampStage.queued || (codecEngine y.codec).isSome then s
      else
        let s : Device := (s.spacePut x (slotAt c slot) y.payload).freeBufs k seq
        if y.codec = 0 then
          let n := y.payload.length / 4
          s.sampleReady k seq [] ((List.range n).map fun i => leAt y.payload (4 * i) 4) n 0
        else s.pictureReady k y (rawDecoded y.deep (y.w 1 47 32) (y.w 1 31 16) (y.w 1 15 0) y.payload)
    | _, _ => s

/-! ## Records and admission (R342 to R346) -/

/-- The structural checks (R343): the failing one. -/
def Device.structural (s : Device) (k : Nat) (b : Bytes) : Option (Status × Nat) :=
  let w (i hi lo : Nat) : Nat := bits (leAt b (8 * i) 8) hi lo
  if s.streamSt k ≠ 1 || (32 ≤ b.length && w 1 63 48 ≠ k) then some (.state, 1)
  else if b.length < 32 || w 0 63 56 ≠ 1 || 11 < w 0 55 48 || (w 0 39 32 ≠ 0 && w 0 39 32 ≠ 12) ||
      w 0 47 42 ≠ 0 || w 3 23 0 ≠ 0 then some (.malformed, 2)
  else if w 0 31 0 ≠ s.num (O.nextSampleSeq (k / 64) (k % 64)) then some (.range, 3)
  else none

/-- Tokens of a sample as declared (R355). -/
def Sample.tokensOf (y : Sample) (c : Bytes) : Nat :=
  let p := leAt c 40 1
  match y.kind with
  | 3 => y.payloadBytes / 4
  | 2 => (audioFrames c (resampled (y.w 2 31 0) (y.w 3 63 32) (leAt c 72 4)) + leAt c 92 1 - 1) / leAt c 92 1
  | _ => y.w 1 15 0 / leAt c 41 1 * (outW c y.params / p) * (outH c y.params / p)

/-- The declared fields that a kind uses are in range, the others are 0 (R344 step 2). -/
def Sample.fieldsOk (y : Sample) : Bool :=
  let pic := y.w 1 47 32 != 0 && y.w 1 31 16 != 0 && y.w 1 15 0 != 0
  let noPic := y.w 1 47 32 == 0 && y.w 1 31 16 == 0 && y.w 1 15 0 == 0
  let noAudio := y.w 2 31 0 == 0 && y.w 3 63 32 == 0 && y.w 3 31 24 == 0
  let deepOk := !y.deep || decide (10 ≤ y.codec)
  deepOk && (match y.kind with
    | 0 => pic && noAudio && y.w 1 15 0 == 1
    | 1 => pic && noAudio && decide (y.w 1 15 0 ≤ 8184)
    | 2 => noPic && y.w 2 31 0 != 0 && decide (8000 ≤ y.w 3 63 32) && decide (y.w 3 63 32 ≤ 192000) &&
        decide (1 ≤ y.w 3 31 24) && decide (y.w 3 31 24 ≤ 8)
    | _ => noPic && noAudio)

/-- The geometry of R349 is consistent; an audio ratio is as R353 requires (R344 step 6). -/
def Sample.geometryOk (y : Sample) (c : Bytes) : Bool :=
  match y.kind with
  | 3 => true
  | 2 => let r := ratioOf (y.w 3 63 32) (leAt c 72 4)
         decide (r.1 ≤ 1024) && decide (r.2 ≤ 1024)
  | _ =>
    let p := leAt c 40 1
    let wo := outW c y.params
    let ho := outH c y.params
    decide (parMode y.params ≤ 2) && (parMode y.params != 2 || leAt c 120 8 != 0) && aligned wo p && aligned ho p && decide (wo ≤ leAt c 36 2) &&
      decide (ho ≤ leAt c 38 2) && aligned (y.w 1 15 0) (leAt c 41 1)

/-- The admission checks (R344): the failing one. -/
def Sample.admission (y : Sample) (c : Bytes) : Option (Status × Nat) :=
  if !bit (leAt c 12 4) y.codec || y.kind ≠ leAt c 0 1 then some (.range, 1)
  else if !y.fieldsOk then some (.range, 2)
  else if leAt c 16 2 < y.w 1 47 32 || leAt c 18 2 < y.w 1 31 16 || leAt c 20 2 < y.w 1 15 0 || leAt c 24 4 < y.payloadBytes || leAt c 28 4 < y.w 2 31 0 then
    some (.limit, 3)
  else if y.kind ≠ 3 && (y.payloadBytes = 0 || leAt c 10 2 * y.payloadBytes < y.size) then some (.limit, 4)
  else if (10 ≤ y.codec && y.payloadBytes ≠ y.size) || (y.codec = 0 && y.payloadBytes % 4 ≠ 0) then some (.length, 5)
  else if !y.geometryOk c then some (.range, 6)
  else if leAt c 32 4 < y.tokensOf c then some (.limit, 7)
  else none

/-- A record that has more bytes than before goes on: admission once its parameter block is there, its length once it has ended. -/
def Device.advanceRecord (s : Device) (k seq : Nat) : Device :=
  match s.sample? k seq with
  | none => s
  | some y =>
    let s : Device :=
      if y.stage != SampStage.receiving || y.body.length < 8 * y.parWords then s
      else match y.admission (s.sCfg k) with
        | some (st, n) => s.sampleFail k seq st 1 n 1
        | none => (s.sStat k 0).modSample k seq fun x => { x with stage := .waitSlot, waitSince := s.uptime }
    match s.sample? k seq with
    | none => s
    | some y =>
      if y.stage == SampStage.failed || y.stage == SampStage.ready || !y.ended then s
      else if y.body.length ≠ 8 * y.parWords + y.payloadBytes then s.sampleFail k seq .malformed 2 0 4
      else s.bypass k seq

/-- The first packet of a record ends the record before it, which has lost its end, and is checked: the record is discarded, or begins. -/
def Device.recordBegin (s : Device) (k : Nat) (p : Piece) : Device :=
  let q := k / 64
  let t := s.stream k
  let s : Device := match t.records.getLast? with
    | some y => if y.ended then s
        else
          let s : Device := if y.stage == SampStage.failed then s else s.sampleFail k y.seq .malformed 2 0 4
          s.modSample k y.seq fun x => { x with ended := true }
    | none => s
  match s.structural k p.data with
  | some (st, c) =>
    let s : Device := (s.poolRelease q t.pool p.bufs).setStream k { s.stream k with discarding := !p.last }
    (s.sStat k 2).rejectRow q (leAt p.data 14 2) st 0 (leAt p.data 0 4) c
  | none =>
    let o := O.nextSampleSeq q (k % 64)
    let seq := s.num o
    let y : Sample := { seq := seq, hdr := p.data.take 32, body := p.data.drop 32, bufs := p.bufs, ended := p.last }
    let s : Device := (s.setNum o ((seq + 1) % 2 ^ 32)).workArrives
    (s.setStream k { s.stream k with records := (s.stream k).records ++ [y], discarding := false }).advanceRecord k seq

/-- A later packet continues its record; one of a record that is discarded, or of none, returns its buffers. -/
def Device.recordMore (s : Device) (k : Nat) (p : Piece) : Device :=
  let q := k / 64
  let t := s.stream k
  if t.discarding then (s.poolRelease q t.pool p.bufs).setStream k { s.stream k with discarding := !p.last }
  else match t.records.getLast? with
    | none => s.poolRelease q t.pool p.bufs
    | some y =>
      if y.ended then s.poolRelease q t.pool p.bufs
      else
        let keep := y.stage == SampStage.receiving || y.stage == SampStage.waitSlot || y.stage == SampStage.queued
        let s : Device := if keep then s else s.poolRelease q t.pool p.bufs
        let s : Device := s.modSample k y.seq fun x => { x with body := x.body ++ p.data, ended := p.last, bufs := if keep then x.bufs + p.bufs else 0 }
        s.advanceRecord k y.seq

/-- A stream that is open, or closing, in a complex that works. -/
def Device.streamWorks (s : Device) (m k : Nat) : Bool := s.works (mediaDomain m) && (s.streamSt k == 1 || s.streamSt k == 2)

/-- RECORD_ARRIVAL (row 162): the next packet in a stream's IN channel. The first packet of a record is checked; a later one continues its
record. -/
def execRecordArrival (m : Fin 4) (n : Fin 64) (s : State) : Outc := s.run fun (s : Device) =>
  (let k := 64 * m.val + n.val
   match (s.stream k).inq with
   | [] => s
   | p :: rest =>
     if p.need ≠ 0 || !s.streamWorks m.val k then s
     else
       let s : Device := s.setStream k { s.stream k with inq := rest }
       if p.first then s.recordBegin k p else s.recordMore k p)

/-- A record takes a work slot and enters its queue. -/
def Device.takeSlot (s : Device) (k : Nat) (y : Sample) (i : Nat) : Device :=
  let s : Device := s.sStat k 11 (40 * (s.uptime - y.waitSince))
  let s : Device := s.modSample k y.seq fun x => { x with stage := .queued, slot := some i, waitSince := s.uptime, ticket := s.net.tickets }
  ({ s with net := { s.net with tickets := s.net.tickets + 1 } } : Device).bypass k y.seq

/-- The first record of a stream that waits for a work slot, and the lowest slot that is free. -/
def Device.slotWaiter (s : Device) (k : Nat) : Option Sample := (s.stream k).records.find? fun (x : Sample) => x.stage == SampStage.waitSlot
def Device.freeWorkSlot (s : Device) (k : Nat) : Option Nat :=
  (List.range (leAt (s.sCfg k) 3 1)).find? fun (i : Nat) => !(s.stream k).slots.contains i

/-- WORK_SLOT_GRANT (row 163): the first waiting record of a stream takes the lowest free work slot. -/
def execWorkSlotGrant (m : Fin 4) (n : Fin 64) (s : State) : Outc := s.run fun (s : Device) =>
  (let k := 64 * m.val + n.val
   match s.slotWaiter k, s.freeWorkSlot k with
   | some y, some i => if s.streamWorks m.val k then s.takeSlot k y i else s
   | _, _ => s)

/-! ## Dispatch and decode (R347, R348, R361 to R365, R375 to R377) -/

/-- The lowest free engine of a kind. -/
def Device.freeEngine (s : Device) (m kind : Nat) : Option Nat :=
  (engineElems kind).find? fun e => (s.engine m e).now.isNone && s.num (O.engineState m e) != 3

/-- DECODE_DISPATCH (row 164): the lowest free engine of a kind (0 video, 1 JPEG, 2 PNG, 3 audio) takes the next job. -/
def execDecodeDispatch (m : Fin 4) (kind : Fin 4) (s : State) : Outc := s.run fun (s : Device) =>
  (match s.freeEngine m.val kind.val with
   | some e => if s.works (mediaDomain m.val) then s.engineNext m.val kind.val e else s
   | none => s)

/-- Does what a decoder found differ from what the record declares (R346, R364)? -/
def Decoded.differs (d : Decoded) (y : Sample) : Bool :=
  if y.kind = 2 then d.samples != y.w 2 31 0 || d.channels != y.w 3 31 24 || d.rate != y.w 3 63 32
  else d.width != y.w 1 47 32 || d.height != y.w 1 31 16 || d.frames != y.w 1 15 0

/-- The declared area of a sample, in luma pixels or in samples per channel (R377). -/
def Sample.area (y : Sample) : Nat := if y.kind = 2 then y.w 2 31 0 else y.w 1 47 32 * y.w 1 31 16 * y.w 1 15 0

/-- The mean decode time after one more sample (R348). -/
def meanAfter (completed mean d : Nat) : Nat := if completed = 0 then d else ((mean : Int) + ((d : Int) - mean) / 16).toNat

/-- What follows the last plane of a sample on an engine. -/
def Device.decoded (s : Device) (k : Nat) (y : Sample) (e : Nat) (d : Decoded) (unc : Bool) : Device :=
  let m := k / 64
  let c := s.sCfg k
  let rows := d.reports y.codec y.payload
  let s : Device := if rows.isEmpty then s else
    ({ s with net := { s.net with damage := tput s.net.damage m (keepLast 256 (tgetD s.net.damage m [] ++ rows.map fun g =>
        ({ time := s.uptime, stream := k, seq := y.seq, codec := y.codec, d := g } : DamageRow))) } } : Device).bump (O.damageCount m) rows.length
  let area := min (2 ^ 32 - 1) (rows.map fun g => g.concealed).sum
  let d := d.delivered y.codec (s.flag O.av1FilmGrain)
  let s : Device := match y.slot, s.job? (leAt c 2 1) with
    | some slot, some x => s.fillSlot x (slotAt c slot) y.size
    | _, _ => s
  let s : Device := s.bump (O.engineOutput m e) (if y.kind = 2 then d.samples * d.channels else d.width * d.height * d.frames)
  if unc then s.sampleFail k y.seq .uncorrected 2 0 4
  else if d.outside y.codec then (s.sampleFail k y.seq .range 2 0 4).bump (O.unsupportedSamples m)
  else if d.differs y then s.sampleFail k y.seq .malformed 2 0 4
  else
    let t := s.stream k
    let ns := 40 * (s.uptime - y.dispatchedAt)
    let mean := meanAfter t.completed t.mean ns
    let s : Device := (s.setStream k { t with completed := t.completed + 1, mean := mean }).setNum (O.meanDecodeNs m (k % 64)) (min mean 0xFFFFFFFF)
    if s.num O.concealLimitPermille * y.area < 1000 * area then s.sampleFail k y.seq .malformed 2 0 4
    else
      let s : Device := s.leaveEngine k y.seq
      let s : Device := s.modSample k y.seq fun x => { x with concealed := area }
      let s : Device := if rows.isEmpty then s else s.sStat k 5
      if y.kind = 2 then
        let data := d.audioTokens c
        s.sampleReady k y.seq data [] (data.length / max 1 (tokenElems c)) 0
      else s.pictureReady k y d

/-- Is a sample within its deadline (R348)? -/
def Device.inTime (s : Device) (y : Sample) : Bool :=
  match y.deadline with
  | some t => decide (s.uptime ≤ t)
  | none => true

/-- DECODE_COMPLETE (row 165): the job on an engine is decoded. The operands are what the decoder found and whether it met an uncorrected error:
the decode processes are those of other standards. -/
def execDecodeComplete (m : Fin 4) (e : Fin 17) (d : Decoded) (unc : Bool) (s : State) : Outc := s.run fun (s : Device) =>
  (match (s.engine m.val e.val).now with
   | none => s
   | some j => match s.sample? j.stream j.seq with
     | none => s
     | some y =>
       if s.works (mediaDomain m.val) && s.streamSt j.stream != 3 && s.inTime y && (y.ended || d.outside y.codec || unc) then s.decoded j.stream y e.val d unc
       else s)

/-- DECODE_DEADLINE (row 166): a sample that is not finished at its deadline is aborted. -/
def execDecodeDeadline (m : Fin 4) (n : Fin 64) (seq : BitVec 32) (s : State) : Outc := s.run fun (s : Device) =>
  (let k := 64 * m.val + n.val
   match s.sample? k seq.toNat with
   | none => s
   | some y => match y.deadline with
     | some t =>
       if s.works (mediaDomain m.val) && y.stage == SampStage.decoding && decide (t ≤ s.uptime) then
         (s.modSample k y.seq fun x => { x with aborted := true }).sampleFail k y.seq .timeout 3 0 3
       else s
     | none => s)

/-- LC_SWITCH (row 167): at a switch point an engine puts its BE job aside for a waiting LC job. -/
def execLcSwitch (m : Fin 4) (e : Fin 17) (s : State) : Outc := s.run fun (s : Device) =>
  (let kind := if e.val < 8 then 0 else 3
   match (s.engine m.val e.val).now with
   | some j =>
     if (8 ≤ e.val && e.val < 16) || j.live || !s.works (mediaDomain m.val) then s
     else match s.queueHead m.val kind true with
       | some p =>
         let s : Device := s.bump (O.lcSwitchWaitNs m.val) (40 * (s.uptime - p.2.waitSince))
         s.dispatchSample e.val p.1 p.2 (some j)
       | none => s
   | none => s)

/-! ## Placement and writing (R354 to R357) -/

/-- Are the positions of a sample given as token indices (R354)? -/
def Sample.indexed (y : Sample) (c : Bytes) : Bool :=
  y.kind ≤ 1 && (decide (1024 < y.frames / leAt c 41 1) || decide (2048 < y.wo / leAt c 40 1) || decide (2048 < y.ho / leAt c 40 1))

/-- Places a sample or failed slot in a Strand. -/
def Strand.place (d : Strand) (y : Sample) (c : Bytes) (now : Nat) : Strand :=
  let ok := y.status == 0
  let e : StrandEntry :=
    { seq := y.seq, first := d.used, tokens := y.tokens, status := y.status,
      flags := (if ok && y.concealed != 0 then 1 else 0) + (if 10 ≤ y.codec then 2 else 0) +
          (if y.aborted then 4 else 0) + (if ok && y.indexed c then 8 else 0),
      wo := y.wo, ho := y.ho, frames := y.frames, concealed := y.concealed, data := y.data, ids := y.ids, slot := y.slot }
  { d with entries := d.entries ++ [e], used := d.used + y.tokens, firstAt := if d.entries.isEmpty then now else d.firstAt }

/-- Has the open Strand of a stream no room for a sample (R355)? -/
def Device.strandFull (s : Device) (k : Nat) (y : Sample) : Bool :=
  match (s.stream k).openStrand with
  | some d => d.entries.length == 64 || decide (leAt (s.sCfg k) 32 4 < d.used + y.tokens)
  | none => false

/-- A sample or failed slot is placed: into the open Strand, or into a new one after the open one has closed for want of room. -/
def Device.placeSample (s : Device) (k : Nat) (y : Sample) : Device :=
  let s : Device := if s.strandFull k y then s.closeStrand k 0 else s
  let t := s.stream k
  let fresh := t.openStrand.isNone
  let d := t.openStrand.getD { number := t.nextStrand }
  let left := t.records.filter fun (x : Sample) => x.seq != y.seq
  let s : Device := s.setStream k { t with records := left, openStrand := some (d.place y (s.sCfg k) s.uptime),
                                           nextStrand := if fresh then t.nextStrand + 1 else t.nextStrand,
                                           discarding := if y.ended then t.discarding else true }
  let s : Device := s.sStat k 8 y.tokens
  let s : Device := if y.w 0 40 40 = 1 then s.closeStrand k 2 else s
  s.flushView k

/-- SAMPLE_PLACE (row 168): the next item in sequence order. -/
def execSamplePlace (m : Fin 4) (n : Fin 64) (s : State) : Outc := s.run fun (s : Device) =>
  (let k := 64 * m.val + n.val
   match (s.stream k).records with
   | [] => s
   | y :: _ => if (y.stage == SampStage.ready || y.stage == SampStage.failed) && s.streamWorks m.val k then s.placeSample k y else s)

/-- PACK_TIMEOUT (row 169). -/
def execPackTimeout (m : Fin 4) (n : Fin 64) (s : State) : Outc := s.run fun (s : Device) =>
  (let k := 64 * m.val + n.val
   let limit := leAt (s.sCfg k) 100 4
   match (s.stream k).openStrand with
   | some d => if limit ≠ 0 && s.works (mediaDomain m.val) && s.streamSt k != 3 && d.firstAt + us limit ≤ s.uptime then s.closeStrand k 1 else s
   | none => s)

/-- An entry of the lengths table (Table 14.6). -/
def StrandEntry.encode (e : StrandEntry) (i : Nat) : Bytes :=
  leBytes 4 e.seq ++ leBytes 4 e.first ++ leBytes 4 e.tokens ++ leBytes 2 i ++ leBytes 1 e.status ++ leBytes 1 e.flags ++ leBytes 2 e.wo ++ leBytes 2 e.ho ++
    leBytes 2 e.frames ++ [0, 0] ++ leBytes 4 e.concealed ++ [0, 0, 0, 0]

/-- The position word of token i of an entry (Table 14.5). -/
def StrandEntry.position (e : StrandEntry) (c : Bytes) (i : Nat) : Nat :=
  let cols := e.wo / leAt c 40 1
  let rows := e.ho / leAt c 40 1
  if leAt c 0 1 ≤ 1 && !bit e.flags 3 then i / (rows * cols) * 2 ^ 22 + i / cols % rows * 2 ^ 11 + i % cols else i

/-- The bytes of a Strand's slot up to its scale array, and the encoded token plane (Table 14.5). -/
def Strand.head (d : Strand) (k : Nat) : Bytes :=
  padTo 64 (leBytes 8 d.number ++ leBytes 2 k ++ leBytes 1 d.entries.length ++ leBytes 1 d.flags ++ leBytes 4 d.used ++
    leBytes 4 (match d.entries with | e :: _ => e.seq | [] => 0))

def Strand.arrays (d : Strand) (c : Bytes) : Bytes × Bytes :=
  let l := leAt c 32 4
  let ents := d.entries.zip (List.range d.entries.length)
  let seg := ents.flatMap fun p => (List.range p.1.tokens).flatMap fun _ => leBytes 2 p.2
  let pos := ents.flatMap fun p => (List.range p.1.tokens).flatMap fun i => leBytes 4 (p.1.position c i)
  (seg ++ List.replicate (2 * (l - d.used)) 0xFF, pos ++ List.replicate (4 * (l - d.used)) 0xFF)

/-- Writes a Strand's token plane and scales (R354); Loupe counts the token rows. -/
def Device.strandPlanes (s : Device) (x : Job) (j : Nat) (c : Bytes) (a : Nat) (d : Strand) : Device :=
  if leAt c 0 1 = 3 then
    s.spacePut x (a + strandPlane c) (padTo (4 * leAt c 32 4) (d.entries.flatMap fun e => e.ids.flatMap fun v => leBytes 4 v))
  else
    let n := tokenElems c
    let num := leAt c 44 4
    let vals := d.entries.flatMap fun e => e.data
    let val (r q : Nat) : F32 := vals.getD (r * n + q) 0
    let e := encodeMatrix num (leAt c 32 4) n val
    let w := fmtBits (numFmt num)
    let plane : Bytes := (List.range (leAt c 32 4)).flatMap fun r => padTo (strandRow c) (packRow w ((e.codes.getD r []).take n))
    let scales : Bytes := e.scales.flatMap fun r => padTo (roundUp r.length 4) (r.map fun v => BitVec.ofNat 8 v)
    let s : Device := (s.spacePut x (a + strandPlane c) plane).spacePut x (a + strandScale c) scales
    (s.facetCount e).loupeCount (some j) num (encodeMatrix num d.used n val).elts

/-- A Strand into its slot of the ring, and head after it (R354, R357). -/
def Device.strandPut (s : Device) (k : Nat) (x : Job) (d : Strand) (rest : List Strand) (tail : Nat) : Device :=
  let c := s.sCfg k
  let ring := leAt c 104 8
  let head := d.number
  let a := ring + 4096 + head % leAt c 112 4 * strandStride c
  let ents := d.entries.zip (List.range d.entries.length)
  let table := padTo 2048 (ents.flatMap fun (p : StrandEntry × Nat) => p.1.encode p.2)
  let arr := d.arrays c
  let s : Device := (s.spacePut x a (d.head k)).spacePut x (a + 64) table
  let s : Device := (s.spacePut x (a + 2112) arr.1).spacePut x (a + strandPos c) arr.2
  let s : Device := s.strandPlanes x (leAt c 2 1) c a d
  let s : Device := s.spacePut x ring (leBytes 8 (head + 1))
  let s : Device := match d.waitFrom with
    | some f => s.sStat k 10 (40 * (s.uptime - f))
    | none => s
  let s : Device := (s.setStream k { s.stream k with closed := rest, lastTail := tail }).setNum (O.strandHead (k / 64) (k % 64)) (head + 1)
  s.sStat k 7

/-- STRAND_WRITE (row 170): the oldest closed Strand, when the ring has room. -/
def execStrandWrite (m : Fin 4) (n : Fin 64) (s : State) : Outc := s.run fun (s : Device) =>
  (let k := 64 * m.val + n.val
   let t := s.stream k
   let c := s.sCfg k
   match t.closed, s.job? (leAt c 2 1) with
   | d :: rest, some x =>
     if !s.streamWorks m.val k then s
     else
       let tail := s.spaceLe x (leAt c 104 8 + 8) 8
       if tail < t.lastTail || d.number < tail || leAt c 112 4 < d.number - tail then s.freezeMaster (masterId 6 k) 0
       else if leAt c 112 4 ≤ d.number - tail then
         (match d.waitFrom with
          | some _ => s.setStream k { t with lastTail := tail }
          | none => s.setStream k { t with lastTail := tail, closed := { d with waitFrom := some s.uptime } :: rest })
       else s.strandPut k x d rest tail
   | _, _ => s)

/-! ## The split ratio (R359) -/

/-- Engines of a kind: image, video, audio. -/
def kindEngines (kind : Nat) : Nat := [6, 8, 1].getD kind 1

/-- The ratios of a complex after a period (R359). -/
def Device.splitUpdate (s : Device) (m : Nat) : Device :=
  let began := tgetD s.net.splitAt m 0
  let s : Device := s.noteOcc m
  let sums := (tgetD s.net.occ m ([0, 0, 0], 0)).1
  let span := s.uptime - began
  let s : Device := [0, 1, 2].foldl (fun (s : Device) k =>
    let o := fdiv (fofNat (sums.getD k 0)) (fofNat (span * 4 * kindEngines k))
    let r := s.num (O.splitRatio m k)
    let step := s.num O.splitStep
    let r := if !flt o (BitVec.ofNat 32 (s.num O.splitHigh)) then min 1024 (r + step)
      else if !flt (BitVec.ofNat 32 (s.num O.splitLow)) o then r - step else r
    (s.setNum (O.splitRatio m k) r).setNum (O.decodeOccupancy m k) o.toNat) s
  { s with net := { s.net with occ := tput s.net.occ m ([0, 0, 0], s.uptime), splitAt := tput s.net.splitAt m s.uptime } }

/-- SPLIT_RATIO_UPDATE (row 171). -/
def execSplitRatioUpdate (m : Fin 4) (s : State) : Outc := s.run fun (s : Device) =>
  (if !s.works (mediaDomain m.val) || s.uptime < tgetD s.net.splitAt m.val 0 + us (s.num O.splitPeriodUs) then s else s.splitUpdate m.val)

end Sys2Proof.Machine
end

