-- ==== Sys2Proof/Machine/Motion.lean ====
section
/-! DEFINITION. The motion windows of the encoders (R371): coverage, edge extension, sliding, the vectors that may be chosen, and the search. Which
blocks a superblock has, and which candidate is best, is the encoders' own: free values (log entry 144). -/

namespace Sys2Proof.Machine

/-! ## Reference pictures -/

/-- A reference picture: its size and its planes (Y, Cb, Cr) of 2-byte samples, row by row. -/
structure RefPic where
  width : Nat
  height : Nat
  planes : List (List Nat)

/-- Size of a plane. -/
def RefPic.w (r : RefPic) (k : Nat) : Nat := if k = 0 then r.width else r.width / 2
def RefPic.h (r : RefPic) (k : Nat) : Nat := if k = 0 then r.height else r.height / 2

/-- A coordinate brought into 0 to n − 1: positions outside a picture hold its edge samples. -/
def clampTo (n : Nat) (x : Int) : Nat := (max 0 (min x ((n : Int) - 1))).toNat

/-- A sample of a plane, edge-extended. -/
def RefPic.at_ (r : RefPic) (k : Nat) (x y : Int) : Nat := (r.planes.getD k []).getD (clampTo (r.h k) y * r.w k + clampTo (r.w k) x) 0

/-- The reference pictures of a stream: the last refs frames encoded, as the codec reconstructs them (2-byte samples, plane by plane). -/
def refPics (c : Bytes) (history : List Bytes) : List RefPic :=
  let w := leAt c 4 2
  let h := leAt c 6 2
  (List.range (min (leAt c 3 1) history.length)).map fun i =>
    let b := Config.recon c (history.drop i)
    let plane (off n : Nat) : List Nat := (List.range n).map fun j => leAt b (2 * (off + j)) 2
    { width := w, height := h, planes := [plane 0 (w * h), plane (w * h) (w / 2 * (h / 2)), plane (w * h + w / 2 * (h / 2)) (w / 2 * (h / 2))] }

/-! ## Coverage and sliding -/

/-- Columns and rows of the window in plane k, its first column and row for superblock (cx, cy), and the columns loaded by a step. -/
def winW (k : Nat) : Nat := if k = 0 then 576 else 288
def winH (k : Nat) : Nat := if k = 0 then 320 else 160
def winX (k cx : Nat) : Int := if k = 0 then 64 * cx - 256 else 32 * cx - 128
def winY (k cy : Nat) : Int := if k = 0 then 64 * cy - 128 else 32 * cy - 64
def winStep (k : Nat) : Nat := if k = 0 then 64 else 32

/-- The columns a to a + n − 1 of the window's rows in plane k: column by column. -/
def RefPic.columns (r : RefPic) (k cx cy a n : Nat) : List (List Nat) :=
  (List.range n).map fun i => (List.range (winH k)).map fun j => r.at_ k (winX k cx + (a + i : Nat)) (winY k cy + (j : Nat))

/-- The whole window of a superblock is loaded: at the start of each row of superblocks. -/
def RefPic.load (r : RefPic) (cx cy : Nat) : MotionWin :=
  { cx := cx, cy := cy, planes := (List.range 3).map fun k => r.columns k cx cy 0 (winW k) }

/-- A step to the next superblock: the leftmost columns are discarded, and as many are loaded on the right. -/
def RefPic.slide (r : RefPic) (m : MotionWin) : MotionWin :=
  { cx := m.cx + 1, cy := m.cy,
    planes := (List.range 3).map fun k => (m.planes.getD k []).drop (winStep k) ++ r.columns k (m.cx + 1) m.cy (winW k - winStep k) (winStep k) }

/-- Superblocks of a row and of a column. -/
def sbCols (c : Bytes) : Nat := (leAt c 4 2 + 63) / 64
def sbRows (c : Bytes) : Nat := (leAt c 6 2 + 63) / 64

/-- The window after n steps along a row of superblocks. -/
def RefPic.along (r : RefPic) (cy : Nat) : Nat → MotionWin
  | 0 => r.load 0 cy
  | n + 1 => r.slide (r.along cy n)

/-- The windows as the last superblock of a frame leaves them. -/
def lastWindows (c : Bytes) (history : List Bytes) : List MotionWin :=
  (refPics c history).map fun r => r.along (sbRows c - 1) (sbCols c - 1)

/-- The windows at a frame's first superblock. -/
def firstWindows (c : Bytes) (history : List Bytes) : List MotionWin := (refPics c history).map fun r => r.load 0 0

/-! ## Vectors -/

/-- A prediction block: reference, luma position and size. -/
structure PredBlock where
  ref : Nat
  x : Nat
  y : Nat
  w : Nat
  h : Nat
deriving DecidableEq, Repr

/-- A motion vector in quarter samples. -/
abbrev MotionVec := Int × Int

/-- Does a block's prediction, widened by the interpolation taps (3 samples above and left, 4 below and right), lie in the window of superblock
(cx, cy)? -/
def inWindow (cx cy : Nat) (b : PredBlock) (v : MotionVec) : Bool :=
  let x := (b.x : Int) + v.1 / 4
  let y := (b.y : Int) + v.2 / 4
  decide (winX 0 cx ≤ x - 3) && decide (x + b.w + 3 ≤ winX 0 cx + 575) && decide (winY 0 cy ≤ y - 3) && decide (y + b.h + 3 ≤ winY 0 cy + 319)

/-- May a vector be chosen: the block in the window, and no component beyond 256 columns or 128 rows? -/
def vecOk (cx cy : Nat) (b : PredBlock) (v : MotionVec) : Bool :=
  inWindow cx cy b v && decide (v.1.natAbs ≤ 1024) && decide (v.2.natAbs ≤ 512)

/-- The integer vectors in the order of the search, and the quarter-sample vectors around one. -/
def wholeVecs : List MotionVec :=
  (List.range 257).flatMap fun (j : Nat) => (List.range 513).map fun (i : Nat) => (4 * ((i : Int) - 256), 4 * ((j : Int) - 128))
def quarterVecs (v : MotionVec) : List MotionVec :=
  (List.range 7).flatMap fun (j : Nat) => (List.range 7).map fun (i : Nat) => (v.1 + ((i : Int) - 3), v.2 + ((j : Int) - 3))

/-- A search step: one of the candidates that may be chosen. -/
def pickVec (cx cy : Nat) (b : PredBlock) (use : List Nat) (l : List MotionVec) : Option MotionVec :=
  let can := l.filter (vecOk cx cy b)
  can[Config.bestVector (use ++ [cx, cy, b.ref, b.x, b.y, b.w, b.h]) can % can.length]?

/-- The vector of a block: integer search, then quarter-sample search around its result (R371); none where no vector may be chosen. -/
def chooseVec (cx cy : Nat) (b : PredBlock) (use : List Nat) : Option MotionVec :=
  (pickVec cx cy b use wholeVecs).bind fun v => pickVec cx cy b use (quarterVecs v)

/-- The predicted blocks of superblock (cx, cy), as the encoder divides it: blocks of its 64 × 64 samples and of a reference that there is. -/
def predBlocks (c : Bytes) (history : List Bytes) (frame : Bytes) (cx cy : Nat) : List PredBlock :=
  ((Config.blocks c history frame cx cy).map fun b => ({ ref := b.1, x := b.2.1, y := b.2.2.1, w := b.2.2.2.1, h := b.2.2.2.2 } : PredBlock)).filter fun b =>
    decide (b.ref < min (leAt c 3 1) history.length) && decide (64 * cx ≤ b.x) && decide (b.x + b.w ≤ 64 * cx + 64) && decide (64 * cy ≤ b.y) &&
      decide (b.y + b.h ≤ 64 * cy + 64) && b.w != 0 && b.h != 0

/-- The blocks of a predicted frame with their vectors, superblock by superblock; a key frame has none. -/
def frameVectors (c : Bytes) (history : List Bytes) (frame : Bytes) (key : Bool) : List (PredBlock × MotionVec) :=
  if key then [] else
    (List.range (sbRows c)).flatMap fun cy => (List.range (sbCols c)).flatMap fun cx =>
      (predBlocks c history frame cx cy).filterMap fun b => (chooseVec cx cy b (frame.map fun v => v.toNat)).map fun v => (b, v)

/-- A frame's vectors as numbers, for its bitstream. -/
def vectorCode (l : List (PredBlock × MotionVec)) : List (List Int) :=
  l.map fun p => [(p.1.ref : Int), p.1.x, p.1.y, p.1.w, p.1.h, p.2.1, p.2.2]

end Sys2Proof.Machine
end

