-- ==== Sys2Proof/Machine/Media.lean ====
section
/-! DEFINITION. Encode streams (R366 to R374, rows 172 to 178): their source rings, the order of frames, repeat frames and output. The codecs' own
bitstreams are those of other standards. -/

namespace Sys2Proof.Machine

/-! ## Encode streams -/

def Device.enc (s : Device) (k : Nat) : EncSt := tgetD s.net.encs k {}
def Device.setEnc (s : Device) (k : Nat) (x : EncSt) : Device := { s with net := { s.net with encs := tput s.net.encs k x } }
def Device.eCfg (s : Device) (k : Nat) : Bytes := s.bytes (O.encodeConfig (k / 64) (k % 64))
def Device.encSt (s : Device) (k : Nat) : Nat := s.num (O.encodeState (k / 64) (k % 64))
def Device.eStat (s : Device) (k i : Nat) (n : Nat := 1) : Device := if n = 0 then s else s.bumpStat (O.encodeStats (k / 64) (k % 64)) i n

/-- Bytes of a source slot, and its stride (R369). -/
def encSlotBytes (c : Bytes) : Nat := 64 + leAt c 4 2 * leAt c 6 2 * 3 / 2 * (if leAt c 0 1 % 2 = 0 then 1 else 2)
def encStride (c : Bytes) : Nat := roundUp (encSlotBytes c) 4096
def encSlot (c : Bytes) (n : Nat) : Nat := leAt c 32 8 + 4096 + n % leAt c 40 4 * encStride c

def encLive (c : Bytes) : Bool := leAt c 1 1 == 1

/-- The deadline of a frame; none for BE and for frame_deadline_us 0 (R372). -/
def encDeadline (c : Bytes) (f : EncFrame) : Option Nat := if encLive c && leAt c 28 4 != 0 then some (f.arrivedAt + us (leAt c 28 4)) else none

/-- Step 2 of R368. -/
def encCfgOk (c : Bytes) : Bool :=
  let u1 (o : Nat) := leAt c o 1
  let u2 (o : Nat) := leAt c o 2
  let u4 (o : Nat) := leAt c o 4
  let rng (v lo hi : Nat) : Bool := decide (lo ≤ v) && decide (v ≤ hi)
  rng (u1 0) 0 3 && rng (u1 1) 0 1 && rng (u1 2) 0 31 && rng (u1 3) 1 2 && rng (u2 4) 128 4096 && aligned (u2 4) 8 && rng (u2 6) 128 2304 && aligned (u2 6) 8 &&
  rng (u4 8) 1 240000 && rng (u4 12) 1 10000 && decide (u4 8 ≤ 240 * u4 12) && rng (u2 16) 1 65535 && rng (u1 18) 0 1 &&
  rng (u1 19) 0 (if u1 0 ≤ 1 then 51 else 255) && rng (u4 20) 100 1000000 && rng (u4 24) 10 10000 && (u4 28 == 0 || rng (u4 28) 100 1000000) &&
  aligned (leAt c 32 8) 4096 && rng (u4 40) 2 256 && aligned (leAt c 48 8) 4096 && isPow2In (u4 56) 0x100000 0x40000000 && rng (u1 60) 0 1 && rng (u2 62) 0 4095

/-- ENCODE_OPEN: the checks of R368 in order. -/
def Device.encOpen (s : Device) (k sid : Nat) : Ans :=
  let m := k / 64
  let c := s.eCfg k
  let obj := O.encodeControl m (k % 64)
  let j := leAt c 2 1
  let n := leAt c 62 2
  match (if s.resident j && s.encSt k == 0 then s.job? j else none) with
  | none => s.deny .state obj
  | some x =>
    if !encCfgOk c then s.deny .range obj
    else if !bit (s.num O.encodeCodecs) (leAt c 0 1) ||
        (leAt c 60 1 = 1 && !(s.ctxDatagram n && s.ctxJob n == j && s.ctxPort n / 24 == m)) then s.deny .range obj
    else if !(s.plainExtent x (leAt c 32 8) (4096 + leAt c 40 4 * encStride c) && s.plainExtent x (leAt c 48 8) (leAt c 56 4 + 64)) then s.deny .range obj
    else match s.claim [O.streamState m (k % 64)] obj sid with
      | (_, some h) => s.deny .held h.1
      | (t, none) => ((t.setEnc k { srcWait := some s.uptime }).setNum (O.encodeState m (k % 64)) 1).okay

/-- ENCODE_OPEN (row 172): a write of 1 to 6.(30+m).101[s]. -/
def execEncodeOpen (m : Fin 4) (n : Fin 64) (s : State) : Outc := s.run fun (s : Device) =>
  s.ownWrite (O.encodeControl m.val n.val) fun s => s.encOpen (64 * m.val + n.val) 0xFFFFFFFF

/-- A closing stream with nothing left is CLOSED, and its number free (R374). -/
def Device.encCloseView (s : Device) (k : Nat) : Device :=
  let e := s.enc k
  if e.closing && s.encSt k == 2 && e.frames.isEmpty && e.encoding.isNone && e.ready.isNone then s.encGone k else s

/-- CLOSE (R374). -/
def Device.encClose (s : Device) (k : Nat) : Ans :=
  if s.encSt k = 1 then (((s.setEnc k { s.enc k with closing := true }).setNum (O.encodeState (k / 64) (k % 64)) 2).encCloseView k).okay
  else s.deny .state (O.encodeControl (k / 64) (k % 64))

/-- ENCODE_CLOSE (row 173). -/
def execEncodeClose (m : Fin 4) (n : Fin 64) (s : State) : Outc := s.run fun (s : Device) =>
  s.ownWrite (O.encodeControl m.val n.val) fun s => s.encClose (64 * m.val + n.val)

/-- ENCODE_THAW (row 174). -/
def Device.encThaw (s : Device) (k : Nat) : Ans :=
  if s.encSt k = 3 then s.thaw (masterId 6 k) else s.deny .state (O.encodeThaw (k / 64) (k % 64))
def execEncodeThaw (m : Fin 4) (n : Fin 64) (s : State) : Outc := s.run fun (s : Device) =>
  s.ownWrite (O.encodeThaw m.val n.val) fun s => (s.encThaw (64 * m.val + n.val)).measured (O.encodeThaw m.val n.val) [1]

/-- The frames up to head h arrive. -/
def Device.framesArrive (s : Device) (k h : Nat) : Device :=
  let e := s.enc k
  let new := (List.range (h - e.head)).map fun i => ({ number := e.head + i, arrivedAt := s.uptime } : EncFrame)
  let s : Device := match e.srcWait with
    | some t => s.eStat k 6 (40 * (s.uptime - t))
    | none => s
  (s.setEnc k { s.enc k with frames := e.frames ++ new, head := h, arrived := h, srcWait := none }).workArrives

/-- SOURCE_HEAD_POLL (row 175): frames up to the head arrive; a head that moves backwards or too far freezes the stream (R369). -/
def execSourceHeadPoll (m : Fin 4) (n : Fin 64) (s : State) : Outc := s.run fun (s : Device) =>
  (let k := 64 * m.val + n.val
   match s.job? (leAt (s.eCfg k) 2 1) with
   | none => s
   | some x =>
     if !s.works (mediaDomain m.val) || s.encSt k ≠ 1 then s
     else
       let h := s.spaceLe x (leAt (s.eCfg k) 32 8) 8
       if h < (s.enc k).head || leAt (s.eCfg k) 40 4 < h - (s.enc k).seen then s.freezeMaster (masterId 6 k) 0
       else if h = (s.enc k).head then s
       else s.framesArrive k h)

/-! ## Order of frames (R372) -/

/-- A stream that may take its next frame now: the frame. -/
def Device.encNext (s : Device) (k : Nat) : Option EncFrame :=
  let e := s.enc k
  if (s.encSt k != 1 && s.encSt k != 2) || e.encoding.isSome || e.ready.isSome then none else e.frames.head?

/-- Has a frame passed its deadline? -/
def Device.encLate (s : Device) (k : Nat) (f : EncFrame) : Bool :=
  match encDeadline (s.eCfg k) f with
  | some t => decide (t ≤ s.uptime)
  | none => false

/-- Encode streams of a complex with a frame to take. -/
def Device.encReady (s : Device) (m : Nat) (live : Bool) : List Nat :=
  ((s.net.encs.map fun (p : Nat × EncSt) => p.1).filter fun k => k / 64 == m && encLive (s.eCfg k) == live).filter fun k => match s.encNext k with
    | some f => !s.encLate k f
    | none => false

/-- The live stream whose frame has the earliest deadline, the lower number of several. -/
def Device.encEarliest (s : Device) (l : List Nat) : Option Nat :=
  let dl (k : Nat) : Nat := match s.encNext k with
    | some f => (encDeadline (s.eCfg k) f).getD (2 ^ 64)
    | none => 2 ^ 64
  l.foldl (fun (b : Option Nat) k => match b with
    | none => some k
    | some a => if dl k < dl a then some k else some a) none

/-- The frame header and content of a source slot; none where its number is wrong. -/
def Device.encRead (s : Device) (k : Nat) (f : EncFrame) : Option EncFrame :=
  let c := s.eCfg k
  match s.job? (leAt c 2 1) with
  | none => none
  | some x =>
    let a := encSlot c f.number
    if s.spaceLe x a 8 ≠ f.number then none
    else some { f with flags := s.spaceLe x (a + 8) 1, data := s.spaceGet x (a + 64) (encSlotBytes c - 64) }

/-- The device has read a slot: it writes tail (R369). -/
def Device.encTail (s : Device) (k n : Nat) : Device :=
  let c := s.eCfg k
  let s : Device := s.setEnc k { s.enc k with seen := n + 1 }
  match s.job? (leAt c 2 1) with
  | some x => s.spacePut x (leAt c 32 8 + 8) (leBytes 8 (n + 1))
  | none => s

/-- The stream whose frame is taken next: live ones by deadline, then batch streams in turn. -/
def Device.encPick (s : Device) (m : Nat) : Option Nat :=
  let last := tgetD s.net.lastEnc m 63
  let be := if s.power.beHold.contains m then [] else s.encReady m false
  let turn := (be.filter fun k => decide (last < k % 64)) ++ be.filter fun k => !decide (last < k % 64)
  match s.encEarliest (s.encReady m true) with
  | some k => some k
  | none => turn.head?

/-- A free encoder of a complex. -/
def Device.freeEncoder (s : Device) (m : Nat) : Option Nat :=
  [14, 15].find? fun (e : Nat) => (s.engine m e).now.isNone && s.num (O.engineState m e) != 3

/-- An encoder starts on a frame that has been read. -/
def Device.encBegin (s : Device) (m k e : Nat) (f : EncFrame) : Device :=
  let x := s.enc k
  let c := s.eCfg k
  let live := encLive c
  let f := { f with key := decide (f.number % leAt c 16 2 = 0) || bit f.flags 0 || x.keyDue }
  let s : Device := s.setEnc k { x with frames := x.frames.drop 1, encoding := some f, keyDue := false }
  let s : Device := s.setEngine m e { now := some { stream := k, seq := f.number, live := live, start := s.uptime },
                                      windows := if f.key then [] else firstWindows c x.history }
  if live then s else { s with net := { s.net with lastEnc := tput s.net.lastEnc m (k % 64) } }

/-- ENCODE_FRAME_START (row 176): a free encoder takes the next frame. -/
def execEncodeFrameStart (m : Fin 4) (s : State) : Outc := s.run fun (s : Device) =>
  (match s.encPick m.val, s.freeEncoder m.val with
   | some k, some e =>
     if !s.works (mediaDomain m.val) then s
     else match s.encNext k with
       | none => s
       | some f => match s.encRead k f with
         | none => s.freezeMaster (masterId 6 k) 0
         | some f => s.encBegin m.val k e f
   | _, _ => s)

/-! ## Output (R373) -/

/-- The header of a frame or fragment (Table 15.4). -/
def EncFrame.header (f : EncFrame) (len off : Nat) : Bytes :=
  leBytes 4 len ++ leBytes 4 f.number ++ leBytes 4 off ++
    leBytes 1 (f.key.toNat + 2 * f.rep.toNat + 4 * f.late.toNat + 8 * (bit f.flags 1).toNat) ++ [0, 0, 0] ++ leBytes 8 f.doneAt

/-- Bytes put into a ring of n bytes at a, wrapping at its end. -/
def Device.ringBytes (s : Device) (x : Job) (a n at_ : Nat) (b : Bytes) : Device :=
  (s.spacePut x (a + at_) (b.take (n - at_))).spacePut x a (b.drop (n - at_))

/-- After a frame has been emitted. -/
def Device.encEmitted (s : Device) (k len frags : Nat) : Device :=
  let e := s.enc k
  let s : Device := match e.outWait with
    | some t => s.eStat k 7 (40 * (s.uptime - t))
    | none => s
  let s : Device := (s.eStat k 4 len).eStat k 5 frags
  (s.setEnc k { e with ready := none, outWait := none, srcWait := if e.frames.isEmpty then some s.uptime else e.srcWait }).encCloseView k

/-- Emits the encoded frame of a stream, if its output has room; a tail that moves backwards or passes head freezes the stream. -/
def Device.encEmit (s : Device) (k : Nat) : Device :=
  let e := s.enc k
  let c := s.eCfg k
  match e.ready, s.job? (leAt c 2 1) with
  | some (f, b), some x =>
    if leAt c 60 1 = 1 then
      let n := leAt c 62 2
      let most := s.num (O.ipMtu (s.ctxPort n)) - (if isV4 (s.ctxIp n) then 52 else 72)
      let frags := chunks most (b.length + 1) b
      let packets := (frags.zip (List.range frags.length)).map fun (p : Bytes × Nat) =>
        let d := f.header b.length (most * p.2) ++ p.1
        ({ type := 3, first := true, last := true, payLen := d.length, payload := d } : Packet)
      let s : Device := if s.ctxSt n = 2 then s.ctxQueue n packets else s
      s.encEmitted k (24 * frags.length + b.length) (if s.ctxSt n = 2 then frags.length else 0)
    else
      let a := leAt c 48 8
      let size := leAt c 56 4
      let tail := s.spaceLe x (a + 8) 8
      let used (t : Nat) : Nat := (e.outHead + size - t) % size
      let d := f.header b.length 0 ++ b
      let d := d ++ List.replicate ((8 - d.length % 8) % 8) 0
      if size ≤ tail || used e.lastTail < used tail then s.freezeMaster (masterId 6 k) 0
      else if size ≤ used tail + d.length then s.setEnc k { e with lastTail := tail, outWait := some (e.outWait.getD s.uptime) }
      else
        let s : Device := s.ringBytes x (a + 64) size e.outHead d
        let head := (e.outHead + d.length) % size
        let s : Device := s.spacePut x a (leBytes 8 head)
        (s.setEnc k { s.enc k with outHead := head, lastTail := tail }).encEmitted k d.length 0
  | _, _ => s

/-- An encoder has finished a frame: its bytes wait to be emitted, and the encoder is free. -/
def Device.encFinish (s : Device) (k : Nat) (f : EncFrame) : Device :=
  let m := k / 64
  let x := s.enc k
  let c := s.eCfg k
  let b := Config.encode c x.history f.data f.key (vectorCode (frameVectors c x.history f.data f.key))
  let late := match encDeadline c f with | some t => decide (t < s.uptime) | none => false
  let s : Device := s.setEnc k { x with encoding := none, ready := some ({ f with late := late, doneAt := s.uptime }, b), history := f.data :: x.history }
  let s : Device := s.encTail k f.number
  let s : Device := ((s.eStat k 0).eStat k 1 f.key.toNat).eStat k 3 late.toNat
  match [14, 15].find? fun (e : Nat) => match (s.engine m e).now with | some j => j.stream == k | none => false with
  | some e => (s.setEngine m e { windows := if f.key then [] else lastWindows c x.history }).bump (O.engineOutput m e) (leAt c 4 2 * leAt c 6 2)
  | none => s

/-- ENCODE_FRAME_END (row 177): an encoder finishes a frame, and the frame is emitted once there is room. -/
def execEncodeFrameEnd (m : Fin 4) (n : Fin 64) (s : State) : Outc := s.run fun (s : Device) =>
  (let k := 64 * m.val + n.val
   if !s.works (mediaDomain m.val) || (s.encSt k != 1 && s.encSt k != 2) then s
   else match (s.enc k).encoding with
     | none => s.encEmit k
     | some f => (s.encFinish k f).encEmit k)

/-- A repeat frame stands for a frame that was late. -/
def Device.encRepeat (s : Device) (k : Nat) (f : EncFrame) : Device :=
  let x := s.enc k
  let c := s.eCfg k
  let sched := decide (f.number % leAt c 16 2 = 0) || bit f.flags 0
  let b := Config.repeatFrame c x.history
  let s : Device := s.setEnc k { x with frames := x.frames.drop 1, keyDue := x.keyDue || sched, history := [] :: x.history,
                                        ready := some ({ f with rep := true, doneAt := s.uptime, data := [] }, b) }
  ((s.encTail k f.number).eStat k 2).encEmit k

/-- FRAME_DEADLINE (row 178): a live frame whose turn comes after its deadline becomes a repeat frame. -/
def execFrameDeadline (m : Fin 4) (n : Fin 64) (s : State) : Outc := s.run fun (s : Device) =>
  (let k := 64 * m.val + n.val
   match s.encNext k with
   | none => s
   | some f =>
     if !s.works (mediaDomain m.val) || !s.encLate k f then s
     else match s.encRead k f with
       | none => s.freezeMaster (masterId 6 k) 0
       | some f => s.encRepeat k f)

end Sys2Proof.Machine
end

