-- ==== Sys2Proof/Machine/Plans.lean ====
section
/-! DEFINITION. The collective engine (R333 to R336): plans, their checks, their steps and their ends: rows 152 to 156. -/

namespace Sys2Proof.Machine

/-! ## Plan steps (Table 13.10) -/

/-- A plan step. -/
structure PlanStep where
  op : Nat
  element : Nat
  ctx : Nat
  dep : Nat
  src : Nat
  window : Nat
  srcOff : Nat
  dstOff : Nat
  length : Nat
deriving DecidableEq, Repr

def PlanStep.decode (b : Bytes) : PlanStep :=
  let w := leAt b 0 8
  { op := bits w 63 60, element := bits w 59 56, ctx := bits w 55 44, dep := bits w 43 32, src := bits w 31 24, window := bits w 23 16,
    srcOff := bits (leAt b 8 8) 63 16, dstOff := bits (leAt b 16 8) 63 16, length := bits (leAt b 24 8) 63 32 }

def PlanStep.isLocal (t : PlanStep) : Bool := t.ctx == 0xFFF && t.op != 3

/-- A step of a plan that runs. -/
def PlanRun.step (p : PlanRun) (i : Nat) : PlanStep := PlanStep.decode (p.steps.getD i [])

/-- The contexts that a plan's steps name. -/
def planCtxs (l : List Bytes) : List Nat := ((l.map fun b => (PlanStep.decode b)).filter fun t => t.ctx != 0xFFF).map fun t => t.ctx

/-- The number of plans a job's record names, and the place of one in the job's HBM space (R333). -/
def Job.planCount (x : Job) : Nat := x.at_ 80 2
def Device.planAt (s : Device) (x : Job) (number : Nat) : Nat := s.spaceLe x (x.at_ 72 8 + 8 * number) 8

/-- Step count and job slot of a plan's header. -/
def Device.planHeader (s : Device) (x : Job) (number : Nat) : Nat × Nat :=
  let w := s.spaceLe x (s.planAt x number) 8
  (bits w 63 48, bits w 47 43)

/-- The steps of a plan, if its header is in range and its bytes lie in the job's HBM space. -/
def Device.planSteps (s : Device) (x : Job) (j number : Nat) : Option (List Bytes) :=
  let h := s.planHeader x number
  let o := s.planAt x number + 16
  if h.1 = 0 || 4096 < h.1 || h.2 ≠ j || !x.inSpace o (32 * h.1) then none
  else some ((List.range h.1).map fun i => s.spaceGet x (o + 32 * i) 32)

/-! ## The checks of R334 -/

/-- Does a buffer serve as source or destination of a step? -/
def planBufOk (b : Buf) : Bool := b.valid && decide (1 ≤ b.space) && decide (b.space ≤ 3)

/-- Is every field of a step in range? -/
def PlanStep.fieldsOk (t : PlanStep) (x : Job) (count : Nat) : Bool :=
  decide (1 ≤ t.op) && decide (t.op ≤ 3) && (t.dep == 0xFFF || decide (t.dep < count)) &&
  (if t.op = 3 then t.ctx != 0xFFF
   else planBufOk (x.buf t.src) && decide (1 ≤ t.length) &&
     (if t.isLocal then planBufOk (x.buf t.window) else decide (t.window < 16)) &&
     (t.op == 1 || (decide (t.element ≤ 1) && aligned t.dstOff 128 && aligned t.length 128)))

/-- Do the source and local extents of a step lie in their buffers, with the rights they need? A GATHER plan names destinations in the job's
partitions only (R206). -/
def PlanStep.extentsOk (t : PlanStep) (x : Job) (gather : Bool) : Bool :=
  t.op == 3 ||
  (decide (t.srcOff + t.length ≤ (x.buf t.src).size) && (x.buf t.src).read &&
   (!t.isLocal || (decide (t.dstOff + t.length ≤ (x.buf t.window).size) && (x.buf t.window).write && (!gather || (x.buf t.window).space == 1))))

/-! ## Starting and ending -/

def Device.setPlans (s : Device) (l : List PlanRun) : Device := { s with net := { s.net with plans := l } }
def Device.plan? (s : Device) (id : Nat) : Option PlanRun := s.net.plans.find? fun p => p.id == id
def Device.putPlan (s : Device) (p : PlanRun) : Device := s.setPlans (s.net.plans.map fun x => if x.id == p.id then p else x)

/-- A plan leaves its contexts. -/
def Device.freeCtxs (s : Device) (id : Nat) : Device :=
  { s with net := { s.net with ctxs := s.net.ctxs.map fun (c : Nat × Ctx) => (c.1, if c.2.plan = some id then { c.2 with plan := none } else c.2) } }

/-- A plan ends (R335): its entry ends with its status. -/
def Device.planEnd (s : Device) (p : PlanRun) : Device :=
  let s : Device := (s.setPlans (s.net.plans.filter fun x => x.id != p.id)).freeCtxs p.id
  let s : Device := if p.status = 0 then s.bump (O.plansCompleted p.job)
    else (s.setNum (O.lastPlanStatus p.job) p.status).setNum (O.lastPlanNumber p.job) p.number
  match p.entry with
  | some e => s.modEntry p.job e fun x => { x with plan := none, status := if p.status = 0 then x.status else
      (match x.status with | some y => some y | none => some p.status) }
  | none => s

/-- A plan ends before any step runs. -/
def Device.planRefuse (s : Device) (p : PlanRun) (st : Status) : Device := s.planEnd { p with status := st.code }

/-- Tries to start a waiting plan: its checks, then its contexts are its own. -/
def Device.planTry (s : Device) (p : PlanRun) : Device :=
  match s.job? p.job with
  | none => s
  | some x =>
    match s.planSteps x p.job p.number with
    | none => s.planRefuse p .range
    | some l =>
      let ctxs := planCtxs l
      let steps := l.map PlanStep.decode
      if ctxs.any fun n => (s.ctx n).plan.isSome then s
      else if ctxs.any fun n => s.ctxSt n != 2 || s.ctxDatagram n || s.ctxJob n != p.job then s.planRefuse p .state
      else if steps.any fun t => !t.fieldsOk x l.length then s.planRefuse p .range
      else if steps.any fun t => !t.extentsOk x p.gather then
        (s.planRefuse p .access).violation (masterId 1 p.job) 0
      else
        let s : Device := ctxs.foldl (fun (s : Device) n => s.setCtx n { s.ctx n with plan := some p.id }) s
        s.putPlan { p with running := true, steps := l }

/-- Starts what may start: within a job, plans start in the order of their entries (R334), and one that waits holds up those behind it. -/
def Device.planNext (s : Device) (j : Nat) : Device :=
  s.net.plans.foldl (fun (s : Device) _ => match s.net.plans.find? fun p => p.job == j && !p.running with
    | some p => s.planTry p
    | none => s) s

/-- An entry names a plan (R333). -/
def Device.planStart (s : Device) (j number entry : Nat) (gather : Bool) : Device :=
  match s.job? j with
  | none => s
  | some x =>
    if x.planCount ≤ number then s.entryFail j entry .range
    else
      let p : PlanRun := { id := s.net.nextPlan, job := j, number := number, entry := some entry, gather := gather, steps := [] }
      let s : Device := { s with net := { s.net with plans := s.net.plans ++ [p], nextPlan := s.net.nextPlan + 1 } }
      (s.modEntry j entry fun e => { e with plan := some p.id }).planNext j

/-- A job's plans go with it. -/
def Device.plansDrop (s : Device) (j : Nat) : Device :=
  let l := s.net.plans.filter fun p => p.job == j
  l.foldl (fun (s : Device) p => (s.setPlans (s.net.plans.filter fun x => x.id != p.id)).freeCtxs p.id) s

/-! ## Steps -/

/-- May step `started` of a plan start as an operation of the row (R334)? -/
def Device.planReady (s : Device) (id : Nat) (f : PlanStep → Bool) : Option (PlanRun × Job × PlanStep) :=
  match s.plan? id with
  | none => none
  | some p =>
    let t := p.step p.started
    match s.job? p.job with
    | some x => if s.works 2 && p.running && p.status == 0 && decide (p.started < p.steps.length) && f t && (t.dep == 0xFFF || p.done.contains t.dep)
        then some (p, x, t) else none
    | none => none

/-- A step has started and waits. -/
def Device.stepStarted (s : Device) (p : PlanRun) (w : PlanWait) : Device :=
  s.putPlan { p with started := p.started + 1, waits := p.waits ++ [(p.started, w)] }

/-- A step ends at once with a status: the plan stops. -/
def Device.stepBroke (s : Device) (p : PlanRun) (st : Status) : Device :=
  (s.putPlan { p with started := p.started + 1, waits := p.waits ++ [(p.started, .nothing)] }).planFail p.id st

/-- Packets of a message: the pieces of a payload, with op from the window and the offset. -/
def messageOf (type window elt off n : Nat) (d : Bytes) : List Packet :=
  let l := chunks n d.length d
  (l.zip (List.range l.length)).map fun (x : Bytes × Nat) =>
    { type := type, first := x.2 == 0, last := x.2 + 1 == l.length, payLen := x.1.length,
      op := window * 2 ^ 56 + elt * 2 ^ 48 + (off + n * x.2) % 2 ^ 48, payload := x.1 }

/-- The message of a remote PUT or PUT_ADD, of WRITE or of REDUCE packets, is queued; the step waits until its last packet is acknowledged. -/
def Device.putMessage (s : Device) (p : PlanRun) (x : Job) (t : PlanStep) : Device :=
  let b := x.buf t.src
  let d := s.bufGet b t.srcOff t.length
  let s : Device := s.bufTouch b t.srcOff t.length false
  let n := if t.op = 1 then s.maxPayload t.ctx else s.maxPayload t.ctx / 128 * 128
  let s : Device := s.ctxQueue t.ctx (messageOf t.op t.window (if t.op = 1 then 0 else t.element) t.dstOff n d)
  let c := s.ctx t.ctx
  s.stepStarted p (.acked t.ctx (match c.queue.getLast? with | some q => q.seq | none => c.txSeq))

/-- A remote PUT or PUT_ADD: one message of WRITE or of REDUCE packets. -/
def Device.planSend (s : Device) (id op : Nat) : Device :=
  match s.planReady id fun t => t.op == op && !t.isLocal with
  | none => s
  | some (p, x, t) =>
    let b := x.buf t.src
    if s.bufWaits b t.srcOff t.length false then s
    else if !s.bufOn b then s.stepBroke p .domainOff
    else if s.bufBlocked b t.srcOff t.length false then s.stepBroke p .uncorrected
    else s.putMessage p x t

/-- PUT (row 152) and PUT_ADD (row 153). -/
def execPut (id : BitVec 32) (s : State) : Outc := s.run fun (s : Device) => (s.planSend id.toNat 1)
def execPutAdd (id : BitVec 32) (s : State) : Outc := s.run fun (s : Device) => (s.planSend id.toNat 2)

/-- LOCAL_STEP (row 154): copies, or adds line by line, in address order. -/
def execLocalStep (id : BitVec 32) (s : State) : Outc := s.run fun (s : Device) =>
  (match s.planReady id.toNat PlanStep.isLocal with
   | none => s
   | some (p, x, t) =>
     let a := x.buf t.src
     let b := x.buf t.window
     if s.bufWaits a t.srcOff t.length false || s.bufWaits b t.dstOff t.length true then s
     else if !s.bufOn a || !s.bufOn b then s.stepBroke p .domainOff
     else if s.bufBlocked a t.srcOff t.length false || s.bufBlocked b t.dstOff t.length true then s.stepBroke p .uncorrected
     else
       let d := s.bufGet a t.srcOff t.length
       let s : Device := s.bufTouch a t.srcOff t.length false
       let s : Device := if t.op = 1 then (s.bufTouch b t.dstOff t.length true).bufPut b t.dstOff d else s.addLines b t.dstOff t.element d
       let s : Device := if p.gather then s.bump (O.gatherBytes p.job) t.length else s
       s.stepStarted p .nothing)

/-- WAIT_IN (row 155). -/
def execWaitIn (id : BitVec 32) (s : State) : Outc := s.run fun (s : Device) =>
  (match s.planReady id.toNat fun t => t.op == 3 with
   | none => s
   | some (p, _, t) => s.stepStarted p (.count t.ctx t.length))

/-- Has what a step waits for come about? A step whose context no longer serves the plan has ended. -/
def Device.stepMet (s : Device) (id : Nat) (w : PlanWait) : Bool :=
  match w with
  | .nothing => true
  | .acked n q =>
    let c := s.ctx n
    s.ctxSt n != 2 || c.plan != some id || !((c.unacked.any fun u => !before q u.pkt.seq) || c.queue.any fun p => !before q p.seq)
  | .count n k =>
    let c := s.ctx n
    s.ctxSt n != 2 || c.plan != some id || decide (c.consumed + k ≤ beAt (s.bytes (O.ctxStats n)) 48 8)

/-- Step i of a plan has completed if what it waits for has come about: a count is consumed. -/
def Device.stepDone (s : Device) (p : PlanRun) (i : Nat) : Device :=
  match p.waits.find? fun (w : Nat × PlanWait) => w.1 == i with
  | some w =>
    if s.stepMet p.id w.2 then
      let s : Device := match w.2 with
        | .count n k => s.setCtx n { s.ctx n with consumed := if s.ctxSt n = 2 then (s.ctx n).consumed + k else (s.ctx n).consumed }
        | _ => s
      s.putPlan { p with done := p.done ++ [i], waits := p.waits.filter fun x => x.1 != i }
    else s
  | none => s

/-- Has a plan ended: every step has completed, or, once one has failed, every step that started? -/
def PlanRun.over (p : PlanRun) : Bool := p.done.length == p.steps.length || (p.status != 0 && p.done.length == p.started)

/-- A plan that has ended goes, and plans that waited for its contexts start. -/
def Device.planCheck (s : Device) (id : Nat) : Device :=
  match s.plan? id with
  | some p => if p.over then (List.range 32).foldl (fun (s : Device) j => s.planNext j) (s.planEnd p) else s
  | none => s

/-- PLAN_STEP_COMPLETE (row 156): a plan ends when every step has completed, or, once one has failed, every step that started (R335). -/
def execPlanStepComplete (id : BitVec 32) (i : Fin 4096) (s : State) : Outc := s.run fun (s : Device) =>
  (match s.plan? id.toNat with
   | none => s
   | some p => if !s.works 2 || !p.running then s else (s.stepDone p i.val).planCheck id.toNat)

end Sys2Proof.Machine
end

