-- ==== Sys2Proof/Machine/Occupy.lean ====
section
/-! DEFINITION. The occupancy of cores (R385, R386, R391 to R394): which job a core runs for, the request of a hand-over, its steps core by core,
and slices: rows 187 to 193 and what steps and ends of steps ask of the device manager. -/

namespace Sys2Proof.Machine

/-! ## Who holds the cores -/

/-- A job has a step pending or running. -/
def Job.stepping (x : Job) : Bool := x.cur.isSome || !x.pending.isEmpty

def Device.hand? (s : Device) (n : Nat) : Option Hand := tget? s.work.hands n
def Device.setHand (s : Device) (n : Nat) (h : Hand) : Device := { s with work := { s.work with hands := tput s.work.hands n h } }
def Device.delHand (s : Device) (n : Nat) : Device := { s with work := { s.work with hands := tdel s.work.hands n } }

/-- Every core of a job's set is occupied by it, or is being handed over to it (R385). -/
def Device.onCores (s : Device) (j : Nat) (x : Job) : Bool :=
  x.cores.all fun n => match s.hand? n with
    | some h => h.into == some j && h.out != some j
    | none => s.occupant n == some j

/-- Every core of a job's set is occupied by it. -/
def Device.holdsAll (s : Device) (j : Nat) (x : Job) : Bool := x.cores.all fun n => (s.hand? n).isNone && s.occupant n == some j

/-- A core of the job is being taken from it. -/
def Device.leavesCores (s : Device) (j : Nat) : Bool := s.work.hands.any fun (h : Nat × Hand) => h.2.out == some j

/-- The cores that a job occupies. -/
def Device.heldBy (s : Device) (j : Nat) : List Nat := (List.range 512).filter fun n => s.occupant n == some j

/-- The slots with a resident job. -/
def Device.residents (s : Device) : List Nat := (List.range 32).filter fun j => (s.job? j).isSome && s.resident j

/-- The condition of a core as its object shows it (3.(40+c).000[k]); a logical core that is not in service reads 5 whatever it holds. -/
def Device.coreView (s : Device) (n : Nat) : Device :=
  let obj := O.coreState (n / 16) (n % 16)
  let granted := s.residents.any fun j => match s.job? j with
    | some x => x.cores.contains n
    | none => false
  let st := match (s.core n).seq with
    | .idle => 1
    | .stopped => 3
    | _ => 2
  s.setNum obj (if granted then st else 0)

/-! ## Job states and clocks (Table 16.1, R385, R398) -/

/-- A job that gets all its cores for a step runs: its watchdog counts, and a BE job's slice goes on, or a new one begins, shorter by the
debt (R386). -/
def Device.beginRun (s : Device) (j : Nat) (x : Job) : Device :=
  let s : Device := s.setNum (O.jobState j) jsRunning
  let x : Job := { x with runSince := some s.uptime }
  if x.isLc || x.sliceLen ≠ 0 then s.setJob j x
  else
    let len := us (s.num (O.sliceUs j) - s.num (O.sliceDebtUs j))
    let s : Device := (s.setNum (O.sliceDebtUs j) 0).setJob j { x with sliceLen := max 1 len, sliceUsed := 0 }
    { s with work := { s.work with rrLast := j } }

/-- A job's state follows from its step and its cores. -/
def Device.jobView (s : Device) (j : Nat) : Device :=
  match s.job? j with
  | none => s
  | some x =>
    let code := s.jobCode j
    if !s.resident j || code == jsFrozen || !x.stepping then s
    else if s.holdsAll j x then (if code = jsRunning then s else s.beginRun j x)
    else
      let s : Device := if code = jsRunning then s.setJob j (x.pause s.uptime) else s
      let some_ := x.cores.any fun n => s.occupant n == some j
      s.setNum (O.jobState j) (
        if s.leavesCores j then (if x.cur.isSome then jsPreempting else jsWaiting)
        else if s.onCores j x then (if some_ then jsRestoring else jsWaiting)
        else if x.cur.isSome then jsPreempted else jsWaiting)

/-! ## Requests (R385, R391) -/

/-- Cores that a hand-over to a job would move: its own and those of every job it displaces. -/
def Device.movedBy (s : Device) (j : Nat) (x : Job) : List Nat :=
  let outs := (x.cores.filterMap s.occupant).filter fun a => a != j
  x.cores ++ outs.flatMap s.heldBy

/-- May a hand-over be requested: none of the cores it moves is in one already (R394)? -/
def Device.quietCores (s : Device) (j : Nat) (x : Job) : Bool := (s.movedBy j x).all fun n => (s.hand? n).isNone

/-- One job gives up all its cores; those of the incoming set go to it. -/
def Device.displace (s : Device) (a j : Nat) (x : Job) : Device :=
  let s : Device := (s.heldBy a).foldl (fun (s : Device) n =>
    s.setHand n { out := some a, into := if x.cores.contains n then some j else none, stage := .toCheap, since := s.uptime }) s
  s.modJob a fun y =>
    let y := y.pause s.uptime
    { y with debtFrom := if !y.isLc && y.stepping && y.sliceLen == 0 then some s.uptime else none }

/-- Requests the hand-over of a job's whole core set. -/
def Device.takeCores (s : Device) (j : Nat) (x : Job) : Device :=
  let outs := ((x.cores.filterMap s.occupant).filter fun a => a != j).dedup
  let s : Device := outs.foldl (fun (s : Device) a => s.displace a j x) s
  x.cores.foldl (fun (s : Device) n =>
    if (s.hand? n).isNone && (s.occupant n).isNone then s.setHand n { out := none, into := some j, stage := .restoring, since := s.uptime }
    else s) s

/-- Does a job wait for cores: a step, no hand-over to it, no core still leaving it? -/
def Device.wantsCores (s : Device) (j : Nat) (x : Job) : Bool :=
  s.resident j && s.jobCode j != jsFrozen && x.stepping && !s.onCores j x && !s.leavesCores j

/-- Do two jobs share a core? -/
def Job.shares (x y : Job) : Bool := x.cores.any y.cores.contains

/-- An LC job takes its cores at once, from jobs that are not being handed over (R385 rule 1, R394). -/
def Device.lcTurn (s : Device) (j : Nat) : Device :=
  match s.job? j with
  | some x => if x.isLc && s.wantsCores j x && s.quietCores j x then s.takeCores j x else s
  | none => s

/-- Does an LC job need any of a job's cores (R385 rule 2)? -/
def Device.lcNeeds (s : Device) (x : Job) : Bool :=
  s.residents.any fun j => match s.job? j with
    | some y => y.isLc && y.stepping && s.jobCode j != jsFrozen && x.shares y
    | none => false

/-- May a BE job take its cores now: each is free, its own, or held by a job that has no step or whose slice has ended? -/
def Device.beMay (s : Device) (j : Nat) (x : Job) : Bool :=
  !x.isLc && s.wantsCores j x && !s.lcNeeds x && s.quietCores j x &&
  x.cores.all fun n => match s.occupant n with
    | none => true
    | some a => a == j || (match s.job? a with
      | some y => !y.stepping || (!y.isLc && y.sliceLen == 0)
      | none => true)

/-- BE slots in the order of their turns (R385 rule 2). -/
def Device.turns (s : Device) : List Nat := (List.range 32).map fun i => (s.work.rrLast + 1 + i) % 32

/-- One BE job's turn. With a debt of a slice or more it gives up its turn (R386); where nobody else takes it, its turns pass at once. -/
def Device.beTurn (s : Device) (last : Bool) (j : Nat) : Device :=
  match s.job? j with
  | some x =>
    if !s.beMay j x then s
    else
      let debt := s.num (O.sliceDebtUs j)
      let slice := s.num (O.sliceUs j)
      if x.sliceLen = 0 && slice ≤ debt then
        if last then (s.setNum (O.sliceDebtUs j) (debt % max 1 slice)).takeCores j x else s.setNum (O.sliceDebtUs j) (debt - slice)
      else s.takeCores j x
  | none => s

/-- What the device manager does each time a step becomes pending, a step or a slice ends, or a hand-over completes (R385). -/
def Device.resched (s : Device) : Device :=
  let s : Device := s.residents.foldl Device.jobView s
  let s : Device := s.residents.foldl Device.lcTurn s
  let turns := s.turns
  let s : Device := turns.foldl (fun (s : Device) j => s.beTurn false j) s
  let s : Device := turns.foldl (fun (s : Device) j => s.beTurn true j) s
  s.residents.foldl Device.jobView s

/-- The slice of a running BE job is used up. -/
def Device.sliceOver (s : Device) (j : Nat) (x : Job) : Bool :=
  !x.isLc && s.jobCode j == jsRunning && x.sliceLen != 0 &&
    decide (x.sliceLen ≤ x.sliceUsed + (match x.runSince with | some t => s.uptime - t | none => 0)) && s.runs 1

/-- Does another BE job wait for any core of a job? -/
def Device.beWaits (s : Device) (j : Nat) (x : Job) : Bool :=
  s.residents.any fun k => match s.job? k with
    | some y => k != j && !y.isLc && y.shares x && s.wantsCores k y
    | none => false

/-- What follows the end of a slice where no LC job takes the cores (R385 rule 3). -/
def Device.sliceTurn (s : Device) (j : Nat) (x : Job) : Device :=
  let s : Device := s.modJob j fun x => { x with sliceLen := 0 }
  let s : Device := if s.beWaits j x then s.resched else s
  if s.leavesCores j then s
  else match s.job? j with
    | some x => s.beginRun j x
    | none => s

/-- SLICE_END (row 187): with another BE job waiting for any of its cores the job is pre-empted; otherwise a new slice begins (R385 rule 3). -/
def execSliceEnd (j : Fin 32) (s : State) : Outc := s.run fun (s : Device) =>
  match s.job? j with
  | some x =>
    if !s.sliceOver j x then s
    else
      let s : Device := s.residents.foldl Device.lcTurn s
      if s.leavesCores j then s else s.sliceTurn j x
  | none => s

/-! ## The hand-over of one core (Table 16.7) -/

/-- The core record of core n of a job: its place in the save area (R383). -/
def Device.recordAt (s : Device) (j : Nat) (x : Job) (n : Nat) : Nat := s.num (O.saveAreaBase j) + 4497408 * (x.cores.findIdx fun m => m == n)

/-- Ranges of core memory and tiles that are live where a core stands (R390): all of them at an END without a row, none before the job's
first list. -/
def Device.liveAt (s : Device) (n : Nat) (x : Job) : List (Nat × Nat) × List Nat :=
  let c := s.core n
  if !c.began then ([], [])
  else
    let pc := if c.seq == SeqState.idle then (c.pc + cmBytes - 16) % cmBytes else c.pc
    match s.cheapRow x n pc with
    | none => ([(0, cmBytes)], List.range 8)
    | some o =>
      let live := s.spaceLe x (o + 2) 1
      let first := s.spaceLe x (o + 12) 4
      let count := s.spaceLe x (o + 8) 2
      ((List.range count).map fun i =>
        let a := x.at_ 112 8 + 16 * x.at_ 84 2 + 8 * (first + i)
        (s.spaceLe x a 4, s.spaceLe x (a + 4) 4), (List.range 8).filter fun t => bit live t)

/-- Writes bytes to the save area. -/
def Device.savePut (s : Device) (a : Nat) (b : Bytes) : Device := (s.hbmPut a b).clearLost a b.length

/-- The bytes of a tile as a record holds it. -/
def tileBytes (t : Tile) : Bytes := (List.range 4096).flatMap fun i => leBytes 4 (t.getD i 0).toNat

/-- Bytes of a record whose layout Table 16.3 does not state. -/
def Device.saveFree (s : Device) (a n : Nat) : Device :=
  let s' : Device := { s with freeCtr := s.freeCtr + 1 }
  s'.savePut a ((List.range n).map fun i => Config.headerByte s.freeCtr i)

/-- Saves a core's state into its job's record (Table 16.7 step 4): the header, the live ranges and tiles, or the whole record; the job's gate
entries go with it (R392). The window buffer and the tap store are not saved (R148). -/
def Device.saveCore (s : Device) (j : Nat) (x : Job) (n : Nat) (full : Bool) : Device :=
  let c := s.core n
  let a := s.recordAt j x n
  let live := if full then ([(0, cmBytes)], List.range 8) else s.liveAt n x
  let mine := c.gates.filter fun g => g.job == j
  let keep := (List.range 8).filter fun t => live.2.contains t
  let image : CoreSt := { c with tregs := c.tregs.filter fun t => keep.contains t.1, gates := [], spans := [], taps := none }
  let s : Device := s.saveFree a 8192
  let s : Device := live.1.foldl (fun (s : Device) r => s.savePut (a + 8192 + r.1) (s.cmGet n r.1 r.2)) s
  let s : Device := if full then s.saveFree (a + 4202496) 163840 else s
  let s : Device := keep.foldl (fun (s : Device) t => s.savePut (a + 4366336 + 16384 * t) (tileBytes (tgetD c.tregs t []))) s
  let bytes := if full then 4497408 else 8192 + (live.1.map fun r => r.2).sum + 16384 * keep.length
  let rec_ : CoreRec := { core := image, full := full, ranges := live.1, gates := mine }
  let s : Device := (s.setCore n { c with gates := c.gates.filter fun g => g.job != j }).bump (O.liveSaveBytes j) bytes
  s.modJob j fun x => { x with recs := tput x.recs n rec_ }

/-- The units of a core rest: nothing runs and nothing is queued (R390). -/
def Device.coreRests (s : Device) (n : Nat) : Bool :=
  let c := s.core n
  c.arrayQ.isEmpty && c.queue.isEmpty && c.vq.isEmpty && c.vrun.isNone &&
    (List.range 4).all fun i => (s.chan n i).queue.isEmpty && (s.chan n i).active.isNone

/-- No bank of a core holds a tile (R117). -/
def CoreSt.banksFree (c : CoreSt) : Bool := c.banks.all fun b => b.st == BankState.free

/-- No command of a core runs. -/
def Device.coreStill (s : Device) (n : Nat) : Bool :=
  let c := s.core n
  (!c.arrayRuns || !s.arrayMay n) && c.vrun.isNone && (List.range 4).all fun i => (s.chan n i).active.isNone

/-- Is a job's record of a core still valid (R392)? -/
def Device.recordValid (s : Device) (a : Option Nat) (n : Nat) : Bool :=
  match a.bind s.job? with
  | some x => (match tget? x.recs n with
    | some r => r.valid
    | none => false)
  | none => false

/-- The gate entries of a job go from its core into the record that stands for it (R392). -/
def Device.gatesToRecord (s : Device) (a n : Nat) : Device :=
  let x := s.core n
  let mine := x.gates.filter fun (g : Gate) => g.job == a
  (s.setCore n { x with gates := x.gates.filter fun (g : Gate) => g.job != a }).modJob a fun y =>
    { y with recs := y.recs.map fun (r : Nat × CoreRec) => if r.1 == n then (n, { r.2 with gates := mine }) else r }

/-- Have the transactions of a job that its save must not cut ended (R257): those of its update runs and the copies of its
control cores? -/
def Device.jobTxnsOver (s : Device) (j : Nat) : Bool :=
  !(s.work.upd.any fun (u : Nat × List UpdRun) => u.2.any fun (r : UpdRun) => r.job == j && r.txn.isSome) &&
  !(s.work.cows.any fun (r : CowRun) => match tget? s.work.pools r.pool with
    | some p => p.job == j && masterClass r.master == 2
    | none => false)

/-- CHEAP_POINT_REACHED (row 188): the core stops; a record that is still valid makes the save unnecessary (R392). -/
def execCheapPointReached (c : Fin 32) (k : Fin 16) (s : State) : Outc := s.run fun (s : Device) =>
  let n := coreNo c k
  match s.hand? n with
  | some h => match h.out with
    | some a =>
      if h.stage == HandStage.toCheap && s.atCheap n && s.coreRests n && (s.core n).banksFree && s.jobTxnsOver a && s.runs 1 && s.runs (clusterDomain c) then
        if s.recordValid (some a) n then (s.gatesToRecord a n).setHand n { h with stage := .clearing } else s.setHand n { h with stage := .saving }
      else s
    | none => s
  | none => s

/-- CHEAP_POINT_TIMEOUT (row 189): the current command completes and the save is full. -/
def execCheapPointTimeout (c : Fin 32) (k : Fin 16) (s : State) : Outc := s.run fun (s : Device) =>
  let n := coreNo c k
  match s.hand? n with
  | some h => match h.out with
    | some a =>
      if h.stage == HandStage.toCheap && decide (h.since + us (s.num O.cheapPointWaitUs) ≤ s.uptime) && s.runs 1 then
        (s.setHand n { h with stage := .full, arrayDone := !(s.core n).arrayRuns }).bump (O.forcedSaves a)
      else s
    | none => s
  | none => s

/-- The save of the outgoing job's core, live or full. -/
def Device.saveHand (s : Device) (n : Nat) (h : Hand) : Device :=
  match h.out with
  | some a => (match s.job? a with
    | some x => s.saveCore a x n (h.forced || h.stage == HandStage.full)
    | none => s)
  | none => s

/-- CORE_SAVE_COMPLETE (row 190): a forced save waits for the command that runs. -/
def execCoreSaveComplete (c : Fin 32) (k : Fin 16) (s : State) : Outc := s.run fun (s : Device) =>
  let n := coreNo c k
  match s.hand? n with
  | some h =>
    if (h.stage == HandStage.saving || (h.stage == HandStage.full && s.coreStill n && (match h.out with | some a => s.jobTxnsOver a | none => true))) &&
        s.runs 1 && s.runs 3 then
      (s.saveHand n h).setHand n { h with stage := .clearing }
    else s
  | none => s

/-- A job has left its last core (R391, R386). -/
def Device.released (s : Device) (a since : Nat) : Device :=
  if s.leavesCores a then s
  else
    let s : Device := { s with power := { s.power with autoSince := s.uptime } }
    let ns := min (40 * (s.uptime - since)) 0xFFFFFFFF
    let s : Device := ((s.bump (O.preemptions a)).setNum (O.lastReleaseNs a) ns).setNum (O.maxReleaseNs a) (max (s.num (O.maxReleaseNs a)) ns)
    match s.job? a with
    | some x =>
      let s : Device := match x.debtFrom with
        | some t => s.setNum (O.sliceDebtUs a) (min (s.num (O.sliceDebtUs a) + (s.uptime - t) / 25) 0xFFFFFFFF)
        | none => s
      s.setJob a { x with debtFrom := none }
    | none => s

/-- Replaces bits [hi:lo] of a little-endian word. -/
def leField (b : Bytes) (hi lo v : Nat) : Bytes :=
  let w := leNat b
  leBytes b.length (w - bits w hi lo * 2 ^ lo + v % 2 ^ (hi + 1 - lo) * 2 ^ lo)

/-- A patch (Table 8.7): kind, cluster, core, address. -/
def patchOf (w : Nat) : Nat × Nat × Nat × Nat := (bits w 63 62, bits w 61 57, bits w 56 53, bits w 52 28)

/-- The patches of a selector entry. -/
def Device.patchesOf (s : Device) (x : Job) (e : SelEntry) : List (Nat × Nat × Nat × Nat) :=
  (List.range e.patchCount).map fun i => patchOf (s.spaceLe x (x.at_ 56 8 + 8 * (e.patchFirst + i)) 8)

/-- Writes a candidate byte, format and block mode, where a patch says. -/
def Device.patchOne (s : Device) (p : Nat × Nat × Nat × Nat) (cand : Nat) : Device :=
  let n := coreNo p.2.1 p.2.2.1
  let a := p.2.2.2
  match p.1 with
  | 0 => s.cmPut n a (leField (s.cmGet n a 4) 12 5 cand)
  | 1 => s.cmPut n a (leField (s.cmGet n a 8) 19 12 cand)
  | _ => s.clmPut p.2.1 a (leField (s.clmGet p.2.1 a 8) 13 6 cand)

/-- Applies an entry's patches of a selection for its present choice (R209). -/
def Device.patchEntry (s : Device) (x : Job) (e : SelEntry) (which : Nat × Nat × Nat × Nat → Bool) : Device :=
  ((s.patchesOf x e).filter which).foldl (fun (s : Device) p => s.patchOne p (e.cands.getD e.choice 0)) s

/-- The initial patches of a core that its job gets for the first time (R210). -/
def Device.freshPatches (s : Device) (j n : Nat) : Device :=
  match s.job? j with
  | some x =>
    if x.fresh.contains n then
      (x.sel.foldl (fun (s : Device) e => s.patchEntry x e fun p => p.1 ≤ 1 && coreNo p.2.1 p.2.2.1 == n) s).setJob j
        { x with fresh := x.fresh.filter fun m => m != n }
    else s
  | none => s

/-- A core goes to its incoming job: its record is restored where it is valid, and its gate entries return (R392). -/
def Device.giveCore (s : Device) (n j : Nat) : Device :=
  let s : Device := (s.delHand n).setOccupant n (some j)
  let s : Device := match s.job? j with
    | none => s
    | some x => match tget? x.recs n with
      | none => s
      | some r =>
        if !r.valid then s
        else
          let a := s.recordAt j x n
          let s : Device := r.ranges.foldl (fun (s : Device) p => s.cmPut n p.1 (s.hbmGet (a + 8192 + p.1) p.2)) s
          (s.setCore n { r.core with gates := r.gates ++ (s.core n).gates }).setJob j
            { x with recs := tput x.recs n { r with gates := [] } }
  (((s.freshPatches j n).coreView n).vectorView n).dmaView n

/-- A cleared core goes on: to nobody, to the restore of the incoming job's record, or to the incoming job (Table 16.7 step 6). -/
def Device.passCore (s : Device) (n : Nat) (h : Hand) : Device :=
  match h.into with
  | none => (s.delHand n).coreView n
  | some b =>
    if s.recordValid (some b) n then s.setHand n { out := none, into := some b, stage := .restoring, since := h.since } else s.giveCore n b

/-- Core memory and registers are zero and the core is occupied by nobody (Table 16.7 step 5). -/
def Device.coreCleared (s : Device) (n : Nat) : Device := ((s.setCore n { gates := (s.core n).gates }).cmClear n).setOccupant n none
  |>.vectorView n |>.dmaView n

/-- CORE_CLEAR_COMPLETE (row 191): core memory and registers are zero; the outgoing job has left the core (Table 16.7 steps 5 and 6). -/
def execCoreClearComplete (c : Fin 32) (k : Fin 16) (s : State) : Outc := s.run fun (s : Device) =>
  let n := coreNo c k
  match s.hand? n with
  | some h =>
    if h.stage == HandStage.clearing && s.runs 1 && s.runs (clusterDomain c) then
      let s : Device := (s.coreCleared n).passCore n h
      (match h.out with
       | some a => s.released a h.since
       | none => s).resched
    else s
  | none => s

/-- CORE_RESTORE_COMPLETE (row 192). -/
def execCoreRestoreComplete (c : Fin 32) (k : Fin 16) (s : State) : Outc := s.run fun (s : Device) =>
  (let n := coreNo c k
   match s.hand? n with
   | some h => match h.into with
     | some b => if h.stage == HandStage.restoring && s.runs 1 && s.runs 3 && s.runs (clusterDomain c) then (s.giveCore n b).resched else s
     | none => s
   | none => s)

/-! ## Commands that run too long (R395) -/

/-- The job of the command that runs on a unit, and its start. -/
def Device.running (s : Device) : RunUnit → Option (Nat × Nat)
  | .array c k =>
    let x := s.core (coreNo c k)
    if x.arrayRuns then (s.occupant (coreNo c k)).map fun j => (j, x.arrayAt) else none
  | .vector c k =>
    let x := s.core (coreNo c k)
    match x.vrun, s.occupant (coreNo c k) with
    | some t, some j => some (j, t)
    | _, _ => none
  | .dma c k ch =>
    match (s.chan (coreNo c k) ch).active, s.occupant (coreNo c k) with
    | some t, some j => some (j, t)
    | _, _ => none
  | .window c => match (s.clu c).winQ with
    | w :: _ => some (w.job, (s.clu c).winAt)
    | [] => none
  | .cameo c => match (s.clu c).camQ with
    | w :: _ => some (w.job, (s.clu c).camAt)
    | [] => none

/-- A unit whose command was cut: it goes on with the next or shows 2, and the cycles the command was in progress are counted; the spec gives the
model no number for them, so they are a free value (log entry 141). -/
def Device.cutUnit (s : Device) (stObj busyObj : Nat) (idle : Bool) : Device :=
  (({ s with freeCtr := s.freeCtr + 1 } : Device).bump busyObj (Config.fresh s.freeCtr).toNat).setNum stObj (if idle then 2 else 1)

/-- The command that runs on a unit stops where it is, after the rows it has written. -/
def Device.stopsUnit (s : Device) (j : Nat) (u : RunUnit) (rows : Nat) : Device :=
  match u with
  | .window c => (match (s.clu c).winQ with
    | w :: rest =>
      let done := rowsFrom w.rowFirst (min w.rowCount rows)
      let s : Device := done.foldl (fun (s : Device) oy => if w.op ≤ 2 then s.windowRow c w oy else s.windowRowBwd c w oy) s
      (s.setClu c { s.clu c with winQ := rest, winAt := s.uptime }).cutUnit (O.windowState c) (O.windowBusyCycles c) rest.isEmpty
    | [] => s)
  | .cameo c => (match (s.clu c).camQ with
    | w :: rest =>
      let s : Device := (rowsFrom w.rowFirst (min w.rowCount rows)).foldl (fun (s : Device) oy => s.cameoRow c w oy) s
      (s.setClu c { s.clu c with camQ := rest, camAt := s.uptime }).cutUnit (O.cameoState c) (O.cameoBusyCycles c) rest.isEmpty
    | [] => s)
  | .dma c k ch =>
    let n := coreNo c k
    let s : Device := match (s.chan n ch).queue.head?, s.job? j with
      | some raw, some x => s.dmaMove n ch j (Desc.decode raw) x (min rows (Desc.decode raw).rows)
      | _, _ => s
    (s.setChan n ch { s.chan n ch with queue := (s.chan n ch).queue.tail, active := none }).dmaView n
  | _ => s

/-- COMMAND_RUN_LIMIT (row 193): the job core group is frozen as a violator; the command stops where it is and is not counted. Time in which
the island was stopped and the rows already written are the operands (R29, R395). -/
def execCommandRunLimit (u : RunUnit) (stopped rows : BitVec 32) (s : State) : Outc := s.run fun (s : Device) =>
  match s.running u with
  | some (j, t) =>
    if t + us 200 + stopped.toNat ≤ s.uptime then
      let s : Device := ((s.stopsUnit j u rows.toNat).noteJob j (t + stopped.toNat)).violation (masterId 1 j) 0
      match u with
      | .window c => s.portGoes c
      | .cameo c => s.portGoes c
      | _ => s
    else s
  | none => s

end Sys2Proof.Machine
end

