-- ==== Sys2Proof/Machine/Update.lean ====
section
/-! DEFINITION. Update units (R219 to R234), update arithmetic, statistics passes, block transactions, and the Hallmark digests (R236 to R238):
what rows 75 and 82 to 86 do. -/

namespace Sys2Proof.Machine

/-! ## Group descriptors (Table 9.2) and placement (R205, R220) -/

/-- Bits [hi:lo] of word w of a descriptor. -/
def grp (d : Bytes) (w hi lo : Nat) : Nat := bits (leAt d (8 * w) 8) hi lo
def grpF (d : Bytes) (w hi : Nat) : F32 := BitVec.ofNat 32 (grp d w hi (hi - 31))

def grpRule (d : Bytes) : Nat := grp d 0 63 60
def grpDecay (d : Bytes) : Bool := grp d 0 59 59 == 1
def grpBias (d : Bytes) : Bool := grp d 0 58 58 == 1
def grpComp (d : Bytes) : Bool := grp d 0 56 56 == 1
def grpClip (d : Bytes) : Bool := grp d 0 55 55 == 1
def grpFormat (d : Bytes) : Nat := grp d 0 54 50
def grpN (d : Bytes) : Nat := grp d 0 31 0
def grpLr (d : Bytes) : F32 := grpF d 1 63
def grpB1 (d : Bytes) : F32 := grpF d 1 31
def grpB2 (d : Bytes) : F32 := grpF d 2 63
def grpEps (d : Bytes) : F32 := grpF d 2 31
def grpLambda (d : Bytes) : F32 := grpF d 3 63
def grpMu (d : Bytes) : F32 := grpF d 3 31
def grpEps1 (d : Bytes) : F32 := grpF d 4 63
def grpD (d : Bytes) : F32 := grpF d 4 31
def grpStat (d : Bytes) : Nat := leAt d 40 8

/-- Blocks of the local shard. -/
def grpBlocks (d : Bytes) : Nat := (grpN d + 8191) / 8192

/-- Finite and at least +0; finite and above 0; from 0 to below 1. -/
def atLeast0 (x : F32) : Bool := x.toNat < 0x7F800000
def above0 (x : F32) : Bool := x.toNat != 0 && x.toNat < 0x7F800000
def below1 (x : F32) : Bool := x.toNat < 0x3F800000

/-- The numbers B of blocks of a whole group for which the device with index i of n holds k blocks (R205). -/
def wholeSizes (i n k : Nat) : List Nat :=
  ((List.range (2 * n + 1)).map fun x => n * (k - 1) + x).filter fun b => (i + 1) * b / n == i * b / n + k

/-- Blocks of the whole group, B of R205. The device knows its own shard only: of the numbers that fit it, which one stands is free (log entry
133). -/
def Job.wholeBlocks (x : Job) (g : Nat) (d : Bytes) : Nat :=
  let l := wholeSizes (x.at_ 6 2) (x.at_ 4 2) (grpBlocks d)
  l.getD (Config.groupBlocks x.reg g % l.length) (x.at_ 4 2 * grpBlocks d)

/-- The group-wide index of the first block of the local shard (R205, R236). -/
def Job.firstBlock (x : Job) (g : Nat) (d : Bytes) : Nat :=
  if x.at_ 2 1 = 1 then 0 else x.at_ 6 2 * x.wholeBlocks g d / x.at_ 4 2

/-- A descriptor against Table 9.2; fields that the rule does not use are ignored. -/
def grpOk (d : Bytes) : Bool :=
  let r := grpRule d
  let adam := 2 ≤ r && r ≤ 4
  decide (r ≤ 6) && (grp d 0 57 57 == 0 || r == 1) && decide (1 ≤ grpFormat d) && decide (grpFormat d ≤ 4) && decide (1 ≤ grpN d) &&
  atLeast0 (grpLr d) && (r ≤ 1 || below1 (grpB1 d)) && (r ≤ 1 || below1 (grpB2 d)) && (!adam || above0 (grpEps d)) &&
  (!grpDecay d || atLeast0 (grpLambda d)) && (r != 1 || below1 (grpMu d)) && (r != 6 || (above0 (grpEps1 d) && above0 (grpD d))) &&
  aligned (grpStat d) 256

/-- Blocks of a run: the first, and how many. -/
def runOf (d : Bytes) (u : Nat) : Nat × Nat :=
  let b := grpBlocks d
  (u * b / 20, (u + 1) * b / 20 - u * b / 20)

/-- Addresses of a block's state, gradient and stamp; i is the block's place in its run. -/
def stateAt (x : Job) (d : Bytes) (u i : Nat) : Nat := (x.stateArea u).1 + 131072 * (grp d 6 63 32 + i)
def gradAt (x : Job) (d : Bytes) (u i : Nat) : Nat := (x.stateArea u).1 + 32768 * (grp d 6 31 0 + i)
def stampAt (x : Job) (d : Bytes) (u i : Nat) : Nat := (x.stateArea u).1 + 128 * grp d 7 63 32 + 4 * i

/-- Real parameters of block k of the shard (R222). -/
def realOf (d : Bytes) (k : Nat) : Nat := min 8192 (grpN d - 8192 * k)

/-- Do a group's ranges lie in the job's state areas and HBM space (R231 check 4)? -/
def Job.groupFits (x : Job) (d : Bytes) : Bool :=
  x.inSpace (grpStat d) 256 &&
  (List.range 20).all fun u =>
    let n := (runOf d u).2
    let a := x.stateArea u
    n == 0 || (decide (stateAt x d u n ≤ a.1 + a.2) && decide (gradAt x d u n ≤ a.1 + a.2) && decide (stampAt x d u n ≤ a.1 + a.2))

/-- A job's group table (R223). -/
def Device.groupAt (s : Device) (x : Job) (g : Nat) : Bytes := s.spaceGet x (x.at_ 64 8 + 64 * g) 64

/-- A field of a group's statistics record (Table 9.4). -/
def Device.statF (s : Device) (x : Job) (d : Bytes) (off : Nat) : F32 := BitVec.ofNat 32 (s.spaceLe x (grpStat d + off) 4)

/-- The home cache of a field of a group's statistics record, as a unit reads or writes it (R219, R18). -/
def Device.statTouch (s : Device) (x : Job) (d : Bytes) (off n : Nat) (write : Bool) : Device :=
  match spaceAddr x.spaces (grpStat d + off) with
  | some a => s.cacheTouch a n write
  | none => s

/-- The totals of a group as a unit reads them: through their home cache. -/
def Device.totalsTouch (s : Device) (x : Job) (d : Bytes) : Device := s.statTouch x d 160 8 false

/-! ## Update arithmetic (R224 to R226, R88) -/

/-- What a block's update reads. -/
structure BlockIn where
  rule : Nat
  d : Bytes
  clip : F32
  lr : F32
  t : Nat
  n : Nat
  state : Bytes
  grad : Bytes

def BlockIn.f (b : BlockIn) (off i : Nat) : F32 := BitVec.ofNat 32 (leAt b.state (off + 4 * i) 4)
def BlockIn.w (b : BlockIn) (i : Nat) : F32 := b.f 0 i
def BlockIn.m (b : BlockIn) (i : Nat) : F32 := b.f 0x8000 i
def BlockIn.v (b : BlockIn) (i : Nat) : F32 := b.f 0x10000 i
def BlockIn.c (b : BlockIn) (i : Nat) : Fp := if grpComp b.d then fmtBf16.decode (leAt b.state (0x1C000 + 2 * i) 2) else .fin false 0 0
def BlockIn.g0 (b : BlockIn) (i : Nat) : F32 := fmul (BitVec.ofNat 32 (leAt b.grad (4 * i) 4)) b.clip

/-- The gradient with coupled decay. -/
def BlockIn.g (b : BlockIn) (i : Nat) : F32 :=
  if grpDecay b.d && b.rule ≤ 2 then ffma (grpLambda b.d) (b.w i) (b.g0 i) else b.g0 i

/-- Bias correction of a decay rate: 1 − exp(tf · log β). -/
def BlockIn.bc (b : BlockIn) (beta : F32) : F32 :=
  if grpBias b.d && flt 0 beta then fsub f32One (fexp (fmul (fofNat b.t) (flog beta))) else f32One

/-- Sum from +0 in order. -/
def fsum (l : List F32) : F32 := l.foldl fadd 0

/-- Sign, with +0 for both zeros. -/
def fsign (x : F32) : F32 :=
  match x.fp with
  | .nan => f32Nan
  | .inf n => if n then fneg f32One else f32One
  | .fin n m _ => if m = 0 then 0 else if n then fneg f32One else f32One

/-- Adafactor's q, row and column statistics (R226). -/
def BlockIn.q (b : BlockIn) (i : Nat) : F32 := ffma (b.g0 i) (b.g0 i) (grpEps1 b.d)
def BlockIn.row (b : BlockIn) (r : Nat) : F32 :=
  let l := (List.range 128).filterMap fun c => if 128 * r + c < b.n then some (b.q (128 * r + c)) else none
  if l.isEmpty then 0 else ffma (grpB2 b.d) (b.f 0x10000 r) (fmul (fsub f32One (grpB2 b.d)) (fsum l))
def BlockIn.col (b : BlockIn) (c : Nat) : F32 :=
  let l := (List.range 64).filterMap fun r => if 128 * r + c < b.n then some (b.q (128 * r + c)) else none
  if l.isEmpty then 0 else ffma (grpB2 b.d) (b.f 0x10000 (64 + c)) (fmul (fsub f32One (grpB2 b.d)) (fsum l))

/-- Adafactor's u before its moment. -/
def BlockIn.factored (b : BlockIn) : List F32 :=
  let rows := (List.range 64).map b.row
  let cols := (List.range 128).map b.col
  let sR := fsum rows
  let u := (List.range b.n).map fun i => fdiv (b.g0 i) (fsqrt (fdiv (fmul (rows.getD (i / 128) 0) (cols.getD (i % 128) 0)) sR))
  let rms := fsqrt (fdiv (fsum (u.map fun x => fmul x x)) (fofNat b.n))
  let k := fmax f32One (fdiv rms (grpD b.d))
  u.map fun x => fdiv x k

/-- The new moments and the update direction of parameter i, before decoupled decay. -/
def BlockIn.dir (b : BlockIn) (ada : List F32) (i : Nat) : F32 × F32 × F32 :=
  let d := b.d
  let g := b.g i
  let omb1 := fsub f32One (grpB1 d)
  let omb2 := fsub f32One (grpB2 d)
  match b.rule with
  | 0 => (0, 0, g)
  | 1 =>
    let m := ffma (grpMu d) (b.m i) g
    (m, 0, if grp d 0 57 57 = 1 then ffma (grpMu d) m g else m)
  | 5 => (ffma (grpB2 d) (b.m i) (fmul omb2 g), 0, fsign (ffma (grpB1 d) (b.m i) (fmul omb1 g)))
  | 6 =>
    let u := ada.getD i 0
    if flt 0 (grpB1 d) then
      let m := ffma (grpB1 d) (b.m i) (fmul omb1 u)
      (m, 0, m)
    else (0, 0, u)
  | _ =>
    let m := ffma (grpB1 d) (b.m i) (fmul omb1 g)
    let v := ffma (grpB2 d) (b.v i) (fmul omb2 (fmul g g))
    (m, v, fdiv (fdiv m (b.bc (grpB1 d))) (fadd (fsqrt (fdiv v (b.bc (grpB2 d)))) (grpEps d)))

/-- The direction with decoupled decay (R225). -/
def BlockIn.u (b : BlockIn) (ada : List F32) (i : Nat) : F32 :=
  let u := (b.dir ada i).2.2
  if grpDecay b.d && 3 ≤ b.rule then ffma (grpLambda b.d) (b.w i) u else u

/-- The new master, compensation word and working copy (R225, R88). -/
def BlockIn.sum (b : BlockIn) (ada : List F32) (i : Nat) : F32 × Nat × Nat :=
  let w := b.w i
  let delta := fneg (fmul b.lr (b.u ada i))
  if grpComp b.d then
    let y := delta.fp.add (b.c i)
    let t := toF32 (w.fp.add y)
    let c := toBf16 (y.add (t.fp.add w.fp.neg).neg)
    (t, c, ((fmt! (grpFormat b.d)).narrow false (t.fp.add (fmtBf16.decode c))).1)
  else
    let t := fadd w delta
    (t, 0, ((fmt! (grpFormat b.d)).narrow false (t.fp.add (.fin false 0 0))).1)

/-- The 131,072 bytes of the block after the update (Table 9.1). -/
def BlockIn.out (b : BlockIn) : Bytes :=
  let ada := if b.rule = 6 then b.factored else []
  let all := (List.range b.n).map fun i => (b.dir ada i, b.sum ada i)
  let k := fmtBits (grpFormat b.d) / 8
  let f (l : List F32) : Bytes := padTo 32768 (l.flatMap fun x => leBytes 4 x.toNat)
  let v := if b.rule = 6 then (List.range 64).map b.row ++ (List.range 128).map b.col else all.map fun p => p.1.2.1
  f (all.map fun p => p.2.1) ++ f (all.map fun p => p.1.1) ++ f v ++ padTo 16384 (all.flatMap fun p => leBytes k p.2.2.2) ++
    padTo 16384 (all.flatMap fun p => leBytes 2 p.2.2.1)

/-! ## Starting an UPDATE entry (R227, R229, R231) -/

/-- The entries of a range list (Table 9.3): group, pass. -/
def Device.rangeList (s : Device) (x : Job) (o : Nat) : List (Nat × Nat) :=
  (List.range (bits (s.spaceLe x o 8) 63 32)).map fun i =>
    let w := s.spaceLe x (o + 8 + 8 * i) 8
    (bits w 63 48, bits w 47 46)

/-- The global norm over the clipping set (R229). -/
def Device.clipNorm (s : Device) (x : Job) : Bool × F32 :=
  let l := ((List.range (x.at_ 50 2)).map (s.groupAt x)).filter grpClip
  (!l.isEmpty, fsqrt (fsum (l.map fun d => s.statF x d 160)))

/-- The runs of one stack. -/
def Device.runs? (s : Device) (u : Nat) : List UpdRun := tgetD s.work.upd u []
def Device.setRuns (s : Device) (u : Nat) (l : List UpdRun) : Device :=
  ({ s with work := { s.work with upd := tset s.work.upd u l [] } } : Device).setNum (O.updateUnitState u)
    (if l.isEmpty then 0 else if l.any fun r => r.phase == UpdPhase.slotWait then 2 else 1)

/-- What an UPDATE entry reads as it starts: its range list, its descriptors, and the totals of the clipping set (R223, R227, R229). -/
def Device.updateReads (s : Device) (x : Job) (o : Nat) : List (Nat × Nat) :=
  let count := bits (s.spaceLe x o 8) 63 32
  if !x.inSpace o (8 + 8 * count) then [(o, 8)]
  else (o, 8 + 8 * count) :: (s.rangeList x o).flatMap (fun p => if p.1 < x.at_ 50 2 then [(x.at_ 64 8 + 64 * p.1, 64)] else []) ++
    ((List.range (x.at_ 50 2)).filter fun g => grpClip (s.groupAt x g)).map fun g => (grpStat (s.groupAt x g) + 160, 8)

/-- The checks of an UPDATE entry, in order (R231): the status of the first that fails, and its number where it is an access violation. -/
def Device.updateBad (s : Device) (x : Job) (o : Nat) : Option (Status × Option Nat) :=
  let count := bits (s.spaceLe x o 8) 63 32
  let l := s.rangeList x o
  let gs := l.map fun p => s.groupAt x p.1
  if !x.inSpace o (8 + 8 * count) then some (.access, some 1)
  else if count = 0 || 4096 < count then some (.range, none)
  else if l.any fun p => p.2 = 3 || x.at_ 50 2 ≤ p.1 || (p.2 = 2 && grpRule (s.groupAt x p.1) ≠ 4) then some (.range, none)
  else if gs.any fun d => !grpOk d then some (.range, none)
  else if gs.any fun d => !x.groupFits d then some (.access, some 4)
  else if l.any (fun p => p.2 != 1) && l.any (fun p => grpClip (s.groupAt x p.1)) && !(s.clipNorm x).2.fp.finite then some (.range, none)
  else none

/-- Starts the update units on a range list; the entry stands in the running list already. -/
def Device.updateStart (s : Device) (j : Nat) (x : Job) (r : StepRun) (entry o : Nat) : Device :=
  match s.updateBad x o with
  | some (_, some check) => s.entryViolation j entry check
  | some (st, none) => s.entryFail j entry st
  | none =>
    let l := s.rangeList x o
    let groups : Tbl Bytes := l.foldl (fun (m : Tbl Bytes) p => tput m p.1 (s.groupAt x p.1)) []
    let norm := s.clipNorm x
    let max_ : F32 := BitVec.ofNat 32 (s.num (O.clipMaxNorm j))
    let clip := if norm.1 && flt max_ norm.2 then fdiv max_ norm.2 else f32One
    let clips := ((List.range (x.at_ 50 2)).map (s.groupAt x)).filter grpClip
    let s : Device := if l.any fun p => p.2 != 1 then
      (List.range 20).foldl (fun (s : Device) _ => clips.foldl (fun (s : Device) d => s.totalsTouch x d) s) s else s
    let s : Device := if l.any fun p => p.2 != 1 then (s.setNum (O.globalNorm j) norm.2.toNat).setNum (O.clipFactor j) clip.toNat else s
    let out := (List.range 20).any fun u => bit (s.num O.updateUnitsOut) u && l.any fun p => (runOf (tgetD groups p.1 []) u).2 != 0
    if out then s.entryFail j entry .uncorrected
    else
      let run : UpdRun := { job := j, entry := entry, t := r.t, list := l, groups := groups, clip := clip,
                            digest := x.hallmark != 0 && r.t % x.hallmark == 0 }
      let s : Device := s.modEntry j entry fun e => { e with units := List.range 20 }
      (List.range 20).foldl (fun (s : Device) u => s.setRuns u (s.runs? u ++ [run])) s

/-! ## Runs -/

def UpdRun.desc (r : UpdRun) : Bytes := match r.list with
  | p :: _ => tgetD r.groups p.1 []
  | [] => []

/-- Replaces a run, by its job and entry. -/
def Device.putRun (s : Device) (u : Nat) (r : UpdRun) : Device :=
  s.setRuns u ((s.runs? u).map fun x => if x.job == r.job && x.entry == r.entry then r else x)

/-- A unit is through with an entry. -/
def Device.runOver (s : Device) (u : Nat) (r : UpdRun) : Device :=
  (s.setRuns u ((s.runs? u).filter fun x => !(x.job == r.job && x.entry == r.entry))).modEntry r.job r.entry fun e =>
    { e with units := e.units.filter fun v => v != u }

/-- A unit ends an entry with a status (R232, R233). -/
def Device.runFail (s : Device) (u : Nat) (r : UpdRun) (st : Status) : Device :=
  ((((s.entryFail r.job r.entry st).runOver u r).setNum (O.lastUpdateStatus u) st.code).setNum (O.updateUnitState u) 3)

/-- Writes this device's digest row of a group and stack (R237, Table 9.5). -/
def Device.digestRow (s : Device) (x : Job) (r : UpdRun) (g u : Nat) (present : Bool) : Device :=
  let at_ := x.at_ 88 8 + x.at_ 8 1 * (800 * x.at_ 50 2) + 40 * (20 * g + u)
  s.spacePut x at_ ((if present then sha3 r.hashes else List.replicate 32 0) ++ leBytes 4 r.t ++ leBytes 1 present.toNat ++ [0, 0, 0])

/-- A unit has finished the item at the head of its list. -/
def Device.itemOver (s : Device) (u : Nat) (r : UpdRun) : Device :=
  match r.list, s.job? r.job with
  | p :: rest, some x =>
    let s : Device := if p.2 = 0 && r.digest then s.digestRow x r p.1 u ((runOf r.desc u).2 != 0) else s
    let r := { r with list := rest, k := 0, hashes := [], phase := .idle, txn := none, tries := 0 }
    if rest.isEmpty then s.runOver u r else s.putRun u r
  | _, _ => s.runOver u r

/-- The run that a unit works on next: the first whose job is on its cores and whose entry has not failed; runs of failed entries end. -/
def Device.nextRun (s : Device) (u pass : Nat) : Option (UpdRun × Job × StepRun) :=
  let ok (r : UpdRun) : Bool := match s.job? r.job with
    | some x => (s.jobCode r.job == jsRunning || s.jobCode r.job == jsRestoring) && x.cur.isSome
    | none => false
  let busy := (s.runs? u).any fun r => r.phase != UpdPhase.idle
  match (if busy then (s.runs? u).find? fun r => r.phase != UpdPhase.idle else (s.runs? u).find? ok) with
  | none => none
  | some r => match s.job? r.job with
    | none => none
    | some x => match x.cur with
      | none => none
      | some c => if (r.list.head?.map fun p => p.2) == some pass then some (r, x, c) else none

/-- Has the entry of a run failed on another unit? -/
def entryFailed (c : StepRun) (r : UpdRun) : Bool := (c.entry? r.entry).any fun e => e.status.isSome

/-- Does unit u work? Not while it is under test (Table 20.3). -/
def Device.unitWorks (s : Device) (u : Nat) : Bool :=
  s.works 3 && !s.isFrozen (masterId 7 u) && !s.errs.running.any fun p => p.2.unit == 7 && p.2.node == 0x60 + u

/-! ## Statistics passes (R228) -/

/-- A block as TRUST and APPLY read it. -/
def Device.blockIn (s : Device) (r : UpdRun) (x : Job) (u i : Nat) : BlockIn :=
  let d := r.desc
  let k := (runOf d u).1 + i
  let n := realOf d k
  let ta := fsqrt (s.statF x d 160)
  let tb := fsqrt (s.statF x d 164)
  let pos (y : F32) : Bool := y.fp.finite && flt 0 y
  { rule := grpRule d, d := d, clip := if grpClip d then r.clip else f32One,
    lr := if grpRule d = 4 then fmul (grpLr d) (if pos ta && pos tb then fdiv ta tb else f32One) else grpLr d,
    t := r.t, n := n, state := s.hbmGet (stateAt x d u i) 131072, grad := s.hbmGet (gradAt x d u i) (4 * n) }

/-- Counts the non-finite gradients of a block. -/
def Device.countGrads (s : Device) (u : Nat) (b : BlockIn) : Device :=
  let k := ((List.range b.n).filter fun i => !(F32.fp (BitVec.ofNat 32 (leAt b.grad (4 * i) 4))).finite).length
  if k = 0 then s else s.bump (O.nonfiniteGradients u) k

/-- Errors that the reads of a run of blocks meet: uncorrected ones end the entry. -/
def Device.readErrs (s : Device) (u : Nat) (ranges : List (Nat × Nat)) (errs : List SymErr) : Bool × Device :=
  let met := ranges.flatMap fun r => errsIn r.1 r.2 errs
  let s : Device := met.foldl (fun (s : Device) e => s.symError (masterId 7 u) e) s
  (met.any SymErr.bad || ranges.any fun r => s.hbmBlocked r.1 r.2 false, s)

/-- Reads of a statistics pass: the gradients of the run, and its states in a TRUST pass. -/
def UpdRun.ranges (r : UpdRun) (x : Job) (u pass : Nat) : List (Nat × Nat) :=
  let d := r.desc
  (List.range (runOf d u).2).flatMap fun i => [(gradAt x d u i, 4 * realOf d ((runOf d u).1 + i))] ++
    (if pass = 2 then [(stateAt x d u i, 131072)] else [])

/-- Has a block of the run its update of this step (R230)? -/
def Device.stamped (s : Device) (u : Nat) (r : UpdRun) (x : Job) : Bool :=
  (List.range (runOf r.desc u).2).any fun i => leNat (s.hbmGet (stampAt x r.desc u i) 4) = r.t

/-- Writes the partial sums of a unit's run: part_a, and part_b for TRUST. -/
def Device.statSums (s : Device) (u pass : Nat) (r : UpdRun) (x : Job) : Device :=
  let blocks := (List.range (runOf r.desc u).2).map (s.blockIn r x u)
  let s : Device := blocks.foldl (fun (s : Device) b => s.countGrads u b) s
  let sq (l : List F32) : F32 := fsum (l.map fun y => fmul y y)
  let put (s : Device) (o : Nat) (l : List F32) : Device :=
    (s.statTouch x r.desc (o + 4 * u) 4 true).spacePut x (grpStat r.desc + o + 4 * u) (leBytes 4 (fsum l).toNat)
  let s : Device := if pass = 2 then s.totalsTouch x r.desc else s
  if pass = 1 then put s 0 (blocks.map fun b => sq ((List.range b.n).map fun i => BitVec.ofNat 32 (leAt b.grad (4 * i) 4)))
  else
    let s : Device := put s 0 (blocks.map fun b => sq ((List.range b.n).map b.w))
    put s 80 (blocks.map fun b => sq ((List.range b.n).map (b.u [])))

/-- Must a pass wait for a lock (Table 10.3)? Its blocks are read and its partial sums written; TRUST also reads the stamps and the totals. -/
def Device.statWaits (s : Device) (u pass : Nat) (r : UpdRun) (x : Job) : Bool :=
  ((r.ranges x u pass).any fun p => s.mustWait p.1 (.read p.2) none) ||
    s.spaceWaits x (grpStat r.desc + 4 * u) 4 true ||
    (pass == 2 && (s.spaceWaits x (grpStat r.desc + 80 + 4 * u) 4 true || s.spaceWaits x (grpStat r.desc + 160) 8 false ||
      (List.range (runOf r.desc u).2).any fun i => s.mustWait (stampAt x r.desc u i) (.read 4) none))

/-- A statistics pass over a unit's run. -/
def Device.statPass (s : Device) (u pass : Nat) (errs : List SymErr) : Device :=
  match (if s.unitWorks u then s.nextRun u pass else none) with
  | none => s
  | some (r, x, c) =>
    if entryFailed c r then s.runOver u r
    else if s.statWaits u pass r x then s.stall (masterId 7 u) (gradAt x r.desc u 0)
    else match (s.unstall (masterId 7 u)).readErrs u (r.ranges x u pass) errs with
      | (true, s) => s.runFail u r .uncorrected
      | (false, s) =>
        if pass = 2 && s.stamped u r x then (s.runFail u r .state).bump (O.stampRefusals r.job)
        else (s.statSums u pass r x).itemOver u r

/-- NORM_PASS (row 83) and TRUST_PASS (row 84): one item of the list, over the unit's whole run. -/
def execNormPass (u : Fin 20) (errs : List SymErr) (s : State) : Outc := s.run fun (s : Device) => (s.statPass u.val 1 errs)
def execTrustPass (u : Fin 20) (errs : List SymErr) (s : State) : Outc := s.run fun (s : Device) => (s.statPass u.val 2 errs)

/-! ## The block transaction (R232, R233) -/

/-- The block hash of R236. -/
def blockHash (x : Job) (r : UpdRun) (u i g : Nat) (b : Bytes) : Bytes :=
  let d := r.desc
  let k := (runOf d u).1 + i
  sha3 (leBytes 2 g ++ [0, 0] ++ leBytes 4 (x.firstBlock g d + k) ++ leBytes 4 r.t ++ b)

/-- A block is done: it is hashed in a digest step, and the run goes on. -/
def Device.blockOver (s : Device) (u : Nat) (r : UpdRun) (x : Job) : Device :=
  let d := r.desc
  let g := (r.list.head?.map fun p => p.1).getD 0
  let r := { r with hashes := if r.digest then r.hashes ++ blockHash x r u r.k g (s.hbmGet (stateAt x d u r.k) 131072) else r.hashes,
                    k := r.k + 1, phase := .idle, txn := none, tries := 0 }
  if (runOf d u).2 ≤ r.k then s.itemOver u r else s.putRun u r

/-- Why a transaction that is gone was aborted: the status still due to the unit, which is now delivered. -/
def Device.takeDue (s : Device) (m : Nat) : Nat × Device :=
  match s.mem.due.find? fun d => d.master == m with
  | some d => (d.reason, { s with mem := { s.mem with due := s.mem.due.filter fun x => x ≠ d } })
  | none => (13, s)

/-- The open transaction of a unit's block, or why it is gone (R249, R256). -/
def Device.blockTxn (s : Device) (u : Nat) (r : UpdRun) : (Nat × Txn) ⊕ (Nat × Device) :=
  match r.txn.bind fun key => (tget? s.mem.txns key).map fun t => (key, t) with
  | some (key, t) =>
    if t.master ≠ masterId 7 u then .inr (s.takeDue (masterId 7 u))
    else if t.state == TxnState.doomed then .inr (t.reason, s.abortTxn key t t.reason)
    else .inl (key, t)
  | none => .inr (s.takeDue (masterId 7 u))

/-- What follows the end of a block's transaction: the next block, a retry after a conflict, a wait for a slot, or the end of the entry. -/
def Device.blockAfter (s : Device) (u : Nat) (r : UpdRun) (x : Job) (why : Nat) : Device :=
  if why = 0 then (s.bump (O.blocksCommitted u)).blockOver u r x
  else if reasonStatus why = Status.conflict then
    if r.tries < 4 then (s.bump (O.conflictRetries u)).putRun u { r with phase := .idle, txn := none, tries := r.tries + 1 }
    else s.runFail u r .conflict
  else if why = 7 then s.putRun u { r with phase := .slotWait, txn := none, since := s.uptime }
  else s.runFail u r (reasonStatus why)

/-- What the stamp of a block decides (R233). -/
inductive StampVerdict where
  | skip | update | refuse
deriving DecidableEq, Repr

def stampVerdict (stamp t : Nat) : StampVerdict :=
  if stamp = t then .skip else if (stamp + 1) % 2 ^ 32 = t then .update else .refuse

/-- The ranges that a unit reads of a block whose stamp decides so: the stamp, and for an update the gradient and the state. A skipped block is read
in a digest step only (R236). -/
def UpdRun.blockRanges (r : UpdRun) (x : Job) (u : Nat) (v : StampVerdict) : List (Nat × Nat) :=
  let d := r.desc
  (stampAt x d u r.k, 4) :: match v with
  | .update => [(gradAt x d u r.k, 4 * realOf d ((runOf d u).1 + r.k)), (stateAt x d u r.k, 131072)]
  | .skip => if r.digest then [(stateAt x d u r.k, 131072)] else []
  | .refuse => []

/-- Tracked reads of ranges. -/
def Device.trackAll (s : Device) (key : Nat) (ranges : List (Nat × Nat)) : Device :=
  ranges.foldl (fun (s : Device) p => match tget? s.mem.txns key with
    | some t => (s.trackedRead key t p.1 p.2).2
    | none => s) s

/-- The tracked reads of a block have been made: its stamp decides. A block not updated writes nothing; its transaction is given up with ABORT (log
entry 134). -/
def Device.blockDecide (s : Device) (u : Nat) (r : UpdRun) (x : Job) (key : Nat) (v : StampVerdict) : Device :=
  let giveUp : Device := match tget? s.mem.txns key with
    | some t => s.abortTxn key t 10
    | none => s
  match v with
  | .skip => (giveUp.bump (O.blocksSkipped r.job)).blockOver u r x
  | .refuse => (giveUp.runFail u r .state).bump (O.stampRefusals r.job)
  | .update =>
    let s : Device := if grpRule r.desc = 4 && r.k = 0 then s.totalsTouch x r.desc else s
    (s.countGrads u (s.blockIn r x u r.k)).putRun u { r with phase := .read }

/-- The tracked reads of a block, once its transaction is open. They wait for locks (Table 10.3), and stand to the limits of R247. -/
def Device.blockRead (s : Device) (u : Nat) (r : UpdRun) (x : Job) (errs : List SymErr) : Device :=
  match s.blockTxn u r with
  | .inr (why, s) => s.blockAfter u r x why
  | .inl (key, t) =>
    let v := stampVerdict (leNat (s.cachedGet (stampAt x r.desc u r.k) 4)) r.t
    let ranges := r.blockRanges x u v
    if ranges.any (fun p => s.mustWait p.1 (.read p.2) (some key)) ||
        (v == StampVerdict.update && grpRule r.desc == 4 && s.spaceWaits x (grpStat r.desc + 160) 8 false) then
      s.stall (masterId 7 u) (stampAt x r.desc u r.k)
    else
      let s : Device := s.unstall (masterId 7 u)
      let lim := s.trackLimit t (ranges.flatMap fun p => linesOf p.1 p.2)
      if lim ≠ 0 then (s.abortTxn key t lim).blockAfter u r x lim
      else match s.readErrs u ranges errs with
        | (true, s) => (s.abortTxn key t 8).runFail u r .uncorrected
        | (false, s) => (s.trackAll key ranges).blockDecide u r x key v

/-- Opens a block's transaction; without a free slot the unit waits. -/
def Device.blockOpen (s : Device) (u : Nat) (r : UpdRun) (x : Job) (errs : List SymErr) : Device :=
  match s.txnOpenOp (masterId 7 u) with
  | (a, some key) =>
    let r := { r with phase := .opened, txn := some key }
    (a.s.putRun u r).blockRead u r x errs
  | (a, none) => if a.st = .busy then a.s.putRun u { r with phase := .slotWait, since := s.uptime } else a.s

/-- APPLY_PASS (row 82): the transaction of the next block opens, its lines are read, and its stamp decides (R232, R233). A unit whose reads wait
for locks takes them up again. -/
def execApplyPass (u : Fin 20) (errs : List SymErr) (s : State) : Outc := s.run fun (s : Device) =>
  (let u := u.val
   match (if s.unitWorks u then s.nextRun u 0 else none) with
   | none => s
   | some (r, x, c) =>
     match r.phase with
     | .opened => s.blockRead u r x errs
     | .idle =>
       if entryFailed c r then s.runOver u r
       else if (runOf r.desc u).2 ≤ r.k then s.itemOver u r
       else s.blockOpen u r x errs
     | _ => s)

/-- The commit of a block: the whole block and its stamp; why it failed, 0 for not. None while a prepare would have to wait. -/
def Device.blockWrite (s : Device) (u : Nat) (r : UpdRun) (x : Job) (key : Nat) (t : Txn) : Option (Nat × Device) :=
  let d := r.desc
  let a := stateAt x d u r.k
  let p := stampAt x d u r.k
  let bytes : List (Nat × Byte) := ((List.range 131072).zip (s.blockIn r x u r.k).out).map fun (q : Nat × Byte) => (a + q.1, q.2)
  let all : List (Nat × Byte) := bytes ++ ((List.range 4).zip (leBytes 4 r.t)).map fun (q : Nat × Byte) => (p + q.1, q.2)
  (s.setTxn key { t with written := linesOf a 131072 ++ linesOf p 4, buf := all.foldl (fun (m : Memory) (q : Nat × Byte) => memSet m q.1 q.2) [],
                         masks := all.map fun (q : Nat × Byte) => q.1 }).commitNow key

/-- UPDATE_BLOCK_COMMIT (row 85): the whole block and its stamp are written and the transaction commits; a conflict is retried up to 4
times. A commit whose prepare has to wait has not happened yet. -/
def execUpdateBlockCommit (u : Fin 20) (s : State) : Outc := s.run fun (s : Device) =>
  (let u := u.val
   match (if s.unitWorks u then s.nextRun u 0 else none) with
   | none => s
   | some (r, x, _) =>
     if r.phase != UpdPhase.read then s
     else match s.blockTxn u r with
       | .inr (why, s) => s.blockAfter u r x why
       | .inl (key, t) => match s.blockWrite u r x key t with
         | some (why, w) => (w.unstall (masterId 7 u)).blockAfter u r x why
         | none => s.stall (masterId 7 u) (stateAt x r.desc u r.k))

/-- SLOT_WAIT_RETRY (row 86): OPEN again every 1 µs, without limit. -/
def execSlotWaitRetry (u : Fin 20) (errs : List SymErr) (s : State) : Outc := s.run fun (s : Device) =>
  (let u := u.val
   match (if s.unitWorks u then s.nextRun u 0 else none) with
   | none => s
   | some (r, x, _) =>
     if r.phase == UpdPhase.slotWait && decide (r.since + us 1 ≤ s.uptime) then (s.bump (O.slotWaits u)).blockOpen u r x errs else s)

/-! ## Hallmark comparison (R237, R238) -/

/-- Row (group, stack) of replica p's digest table. -/
def Device.digestAt (s : Device) (x : Job) (p g u : Nat) : Bytes :=
  s.spaceGet x (x.at_ 88 8 + p * (800 * x.at_ 50 2) + 40 * (20 * g + u)) 40

/-- Compares one row of this device with those of the replicas. -/
def Device.compareRow (s : Device) (j : Nat) (x : Job) (t g u : Nat) : Device :=
  let me := x.at_ 8 1
  let own := s.digestAt x me g u
  let reps := List.range (x.at_ 3 1)
  let stale := reps.map fun p => leAt (s.digestAt x p g u) 32 4 != t
  let agree := reps.map fun p => p == me || (!(stale.getD p false) &&
    (s.digestAt x p g u).take 32 == own.take 32 && leAt (s.digestAt x p g u) 36 1 == leAt own 36 1)
  if leAt own 32 4 ≠ t || agree.all id then s
  else
    let d := s.groupAt x g
    let run := runOf d u
    let base := x.firstBlock g d
    let row : Mismatch := { step := t, job := j, stack := u, group := g, first := base + run.1, last := base + (run.1 + run.2 - 1),
                            agree := ofBits agree, stale := ofBits stale, digest := own.take 32, assay := 0, replicas := x.at_ 3 1 }
    let s : Device := { s with work := { s.work with mismatches := logPush 1024 s.work.mismatches row } }
    let s : Device := s.bump O.mismatchCount
    let s : Device := s.requestTest 0 7 (0x60 + u) 0 0 0
    let pcs := ((linesOf (stateAt x d u 0) (131072 * run.2)).map fun l => (s.finalOf (128 * l)).1).dedup
    pcs.foldl (fun (s : Device) p => s.requestTest 0 4 (0x60 + p / 32) (p % 32) 0 0) s

/-- A REDUCE entry of hallmark_plan has completed: every row of the last digest step is compared. -/
def Device.hallmark (s : Device) (j t : Nat) : Device :=
  match s.job? j with
  | none => s
  | some x =>
    if x.hallmark = 0 || t % x.hallmark ≠ 0 then s
    else
      let rows := (List.range (x.at_ 50 2)).flatMap fun g => (List.range 20).map fun u => (g, u)
      (rows.foldl (fun (s : Device) p => s.compareRow j x t p.1 p.2) s).setNum (O.hallmarkLastStep j) t

end Sys2Proof.Machine
end

