-- ==== Sys2Proof/Machine/Schedule.lean ====
section
/-! DEFINITION. The schedule of a step (R198 to R207), the step boundary with Loupe's banks and the format selector (R208 to R213), and the branch
dispatcher (R214 to R217): rows 71 to 81. -/

namespace Sys2Proof.Machine

/-! ## Entries (Table 8.3) -/

/-- Number of entries of a job's schedule, and the place of one. -/
def Job.entries (x : Job) : Nat := x.at_ 28 4
def Job.entryAt (x : Job) (i : Nat) : Nat := x.at_ 32 8 + 16 * i

/-- Has an earlier entry completed? -/
def StepRun.entryDone (r : StepRun) (i : Nat) : Bool := decide (i < r.next) && !(r.running.any fun e => e.idx == i)

/-- May entry r.next start (R199): the entries it names have completed, all earlier ones for a barrier? -/
def StepRun.depsMet (r : StepRun) (w : Nat) : Bool :=
  let dep (d : Nat) : Bool := d == 0 || decide (r.next < d) || r.entryDone (r.next - d)
  dep (bits w 39 32) && dep (bits w 31 24) && (!bit w 23 || r.running.isEmpty)

/-- The job's next entry, if it is of the kind and may start: the job is on its cores and nothing has stopped the step. -/
def Device.nextEntry (s : Device) (j kind : Nat) : Option (Job × StepRun × Nat) :=
  match s.job? j with
  | none => none
  | some x => match x.cur with
    | none => none
    | some r =>
      let w := s.spaceLe x (x.entryAt r.next) 8
      if s.works 1 && s.onCores j x && r.stop.isNone && r.boundary == 0 && decide (r.next < x.entries) && bits w 63 60 == kind && r.depsMet w
      then some (x, r, s.spaceLe x (x.entryAt r.next + 8) 8) else none

/-- The lowest entry not yet completed (8.00.105). -/
def Device.positionView (s : Device) (j : Nat) : Device :=
  match s.job? j with
  | some x => match x.cur with
    | some r => s.setNum (O.schedulePosition j) ((r.running.map fun e => e.idx).foldl min r.next)
    | none => s
  | none => s

/-- Entry r.next has started. -/
def Device.beginEntry (s : Device) (j : Nat) (x : Job) (r : StepRun) (kind : Nat) : Device :=
  (s.setJob j { x with cur := some { r with next := r.next + 1, running := r.running ++ [({ idx := r.next, kind := kind } : EntryRun)] } }).positionView j

/-- Entry r.next has started and completed at once. -/
def Device.passEntry (s : Device) (j : Nat) (x : Job) (r : StepRun) : Device :=
  (s.setJob j { x with cur := some { r with next := r.next + 1 } }).positionView j

/-- The state of a gather buffer (R206): 0 EMPTY, 1 FILLING, 2 FULL. -/
def Device.setGather (s : Device) (j n v : Nat) : Device :=
  let o := O.gatherBufferStates j
  s.setNum o (s.num o - bits (s.num o) (2 * n + 1) (2 * n) * 4 ^ n + v * 4 ^ n)

/-- GATHER (row 71). -/
def execGather (j : Fin 32) (s : State) : Outc := s.run fun (s : Device) =>
  (match s.nextEntry j 1 with
   | none => s
   | some (x, r, a) => ((s.beginEntry j x r 1).setGather j (bits a 63 61) 1).planStart j (bits a 60 45) r.next true)

/-- The lists of a start table: core, address. -/
def Device.startTable (s : Device) (x : Job) (o : Nat) : List (Nat × Nat) :=
  ((x.cores.zip (List.range x.cores.length)).map fun (p : Nat × Nat) => (p.1, s.spaceLe x (o + 8 * p.2) 8)).filter fun p => p.2 != 0

/-- Starts the command lists of an entry: they enter the gate queues of their cores, in the order of entries. With a gate queue full the
entry waits (R199, R171). -/
def Device.startLists (s : Device) (j kind : Nat) : Device :=
  match s.nextEntry j kind with
  | none => s
  | some (x, r, a) =>
    let o := bits a 47 0
    if !x.inSpace o (8 * x.cores.length) then (s.beginEntry j x r kind).entryViolation j r.next 0
    else
      let l := s.startTable x o
      if l.any fun p => 4 ≤ (s.core p.1).gates.length then s
      else
        let s : Device := l.foldl (fun (s : Device) p =>
          s.setCore p.1 { s.core p.1 with gates := (s.core p.1).gates ++ [({ job := j, list := p.2, conds := [], entry := some r.next } : Gate)] }) s
        (s.beginEntry j x r kind).modEntry j r.next fun e => { e with cores := l.map fun p => p.1 }

/-- FWD (row 72) and BWD (row 73). -/
def execFwd (j : Fin 32) (s : State) : Outc := s.run fun (s : Device) => (s.startLists j 2)
def execBwd (j : Fin 32) (s : State) : Outc := s.run fun (s : Device) => (s.startLists j 3)

/-- REDUCE (row 74). -/
def execReduce (j : Fin 32) (s : State) : Outc := s.run fun (s : Device) =>
  (match s.nextEntry j 4 with
   | none => s
   | some (x, r, a) => (s.beginEntry j x r 4).planStart j (bits a 60 45) r.next false)

/-- An UPDATE entry may start: what it reads is not write-locked, and none of it is lost (Table 10.3, R289). -/
def Device.updateEntry (s : Device) (j : Nat) (x : Job) (r : StepRun) (o : Nat) : Device :=
  let reads := s.updateReads x o
  if reads.any fun p => s.spaceWaits x p.1 p.2 false then s
  else if reads.any fun p => s.spaceBlocked x p.1 p.2 false then (s.beginEntry j x r 5).entryFail j r.next .uncorrected
  else (s.beginEntry j x r 5).updateStart j x r r.next o

/-- UPDATE (row 75). -/
def execUpdate (j : Fin 32) (s : State) : Outc := s.run fun (s : Device) =>
  (match s.nextEntry j 5 with
   | none => s
   | some (x, r, a) => s.updateEntry j x r (bits a 47 0))

/-- RELEASE (row 76). -/
def execRelease (j : Fin 32) (s : State) : Outc := s.run fun (s : Device) =>
  (match s.nextEntry j 6 with
   | none => s
   | some (x, r, a) => (s.passEntry j x r).setGather j (bits a 63 61) 0)

/-! ## The branch dispatcher (R214 to R217) -/

/-- A branch entry: cost, cap, queue offset. -/
structure Branch where
  cost : Nat
  cap : Nat
  queue : Nat

/-- The dispatch descriptor and the tables it names, as read. -/
structure DispatchIn where
  tokens : Nat
  routes : List (Nat × Nat)
  branches : List Branch
  record : Nat

/-- A placement: token, branch, and how: first choice, second choice, deferred. -/
structure Placed where
  token : Nat
  branch : Nat
  how : Nat

/-- Places the tokens in order (R216). -/
def DispatchIn.place (d : DispatchIn) : List Placed :=
  ((d.routes.zip (List.range d.tokens)).foldl (fun (a : Tbl Nat × List Placed) (p : (Nat × Nat) × Nat) =>
    let cap (b : Nat) : Nat := match d.branches[b]? with | some x => x.cap | none => 0
    let room (b : Nat) : Bool := decide (tgetD a.1 b 0 < cap b)
    if room p.1.1 then (tset a.1 p.1.1 (tgetD a.1 p.1.1 0 + 1) 0, { token := p.2, branch := p.1.1, how := 0 } :: a.2)
    else if room p.1.2 then (tset a.1 p.1.2 (tgetD a.1 p.1.2 0 + 1) 0, { token := p.2, branch := p.1.2, how := 1 } :: a.2)
    else (a.1, { token := p.2, branch := p.1.1, how := 2 } :: a.2)) ([], [])).2.reverse

/-- The queue of a branch: round-1 tokens in order, then deferred tokens in order. -/
def queueOf (l : List Placed) (b : Nat) : List Nat :=
  let mine := l.filter fun p => p.branch == b
  ((mine.filter fun p => p.how != 2) ++ mine.filter fun p => p.how == 2).map fun p => p.token

/-- The member of a list with the greatest key, the first of several. -/
def firstMax (key : Nat → Nat) (l : List Nat) : Nat := l.foldl (fun b x => if key b < key x then x else b) (l.headD 0)

/-- A list in decreasing order of a key, equal keys in the order they had. -/
def sortDown (key : Nat → Nat) : Nat → List Nat → List Nat
  | 0, _ => []
  | f + 1, l => if l.isEmpty then [] else
    let m := firstMax key l
    m :: sortDown key f (l.erase m)

/-- Cores per active branch where there are enough cores: branch, count. -/
def shareCores (g : Nat) (w : Nat → Nat) (act : List Nat) : List (Nat × Nat) :=
  let tot := (act.map w).sum
  let spare := g - act.length
  let left := spare - (act.map fun b => spare * w b / tot).sum
  let extra := (sortDown (fun b => spare * w b % tot) act.length act).take left
  act.map fun b => (b, 1 + spare * w b / tot + (if extra.contains b then 1 else 0))

/-- Each branch whole to the core with the least work: branches by core. -/
def packBranches (g : Nat) (w : Nat → Nat) (act : List Nat) : List (List Nat) :=
  ((sortDown w act.length act).foldl (fun (a : List (Nat × List Nat)) b =>
    let loads := a.map fun p => p.1
    let i := (List.range g).find? fun i => some (loads.getD i 0) == loads.min?
    match i with
    | some i => match a[i]? with
      | some p => a.set i (p.1 + w b, p.2 ++ [b])
      | none => a
    | none => a) (List.replicate g (0, []))).map fun p => p.2

/-- The cores' parts: branch, rank, c_b; where a core serves several branches, all of them. -/
def assignCores (g : Nat) (w : Nat → Nat) (act : List Nat) : List (List (Nat × Nat × Nat)) :=
  if act.length ≤ g then (shareCores g w act).flatMap fun p => (List.range p.2).map fun r => [(p.1, r, p.2)]
  else (packBranches g w act).map fun l => l.map fun b => (b, 0, 1)

/-- Reads the descriptor and its tables. -/
def Device.dispatchIn (s : Device) (x : Job) (o : Nat) : DispatchIn :=
  let t := bits (s.spaceLe x o 8) 31 0
  let route := s.spaceLe x (o + 8) 8
  let branch := s.spaceLe x (o + 16) 8
  { tokens := t,
    routes := (List.range t).map fun i =>
      let w := s.spaceLe x (route + 4 * i) 4
      (bits w 31 26, if bit w 19 then bits w 25 20 else bits w 31 26),
    branches := (List.range (bits (s.spaceLe x o 8) 63 56)).map fun i =>
      let a := branch + 16 * i
      { cost := s.spaceLe x a 4, cap := s.spaceLe x (a + 4) 4, queue := s.spaceLe x (a + 8) 8 },
    record := s.spaceLe x (o + 24) 8 }

/-- Every extent: the descriptor, the route table, the branch table, the record, each queue (R215). -/
def Device.dispatchExtents (s : Device) (x : Job) (o : Nat) : List (Nat × Nat) :=
  let t := bits (s.spaceLe x o 8) 31 0
  let b := bits (s.spaceLe x o 8) 63 56
  let fixed := [(o, 32), (s.spaceLe x (o + 8) 8, 4 * t), (s.spaceLe x (o + 16) 8, 16 * b), (s.spaceLe x (o + 24) 8, 16 * x.cores.length)]
  if fixed.all fun e => x.inSpace e.1 e.2 then
    fixed ++ (List.range b).map fun i => (s.spaceLe x (s.spaceLe x (o + 16) 8 + 16 * i + 8) 8, 4 * t)
  else fixed

/-- Route and branch entries in range. -/
def DispatchIn.ok (d : DispatchIn) : Bool :=
  let n := d.branches.length
  decide (1 ≤ n) && decide (n ≤ 64) && decide (1 ≤ d.tokens) && decide (d.tokens ≤ 1048576) &&
  d.routes.all (fun p => decide (p.1 < n) && decide (p.2 < n)) &&
  d.branches.all fun b => decide (1 ≤ b.cost) && decide (1 ≤ b.cap) && decide (b.cap ≤ 1048576)

/-- The rank of a core in its branch's byte of a record: a rank beyond the byte is not stated, so the byte is free (log entry 102). -/
def Device.recordRank (s : Device) (v : Nat) : Nat × Device :=
  if v < 256 then (v, s) else (Config.pick s.freeCtr % 256, { s with freeCtr := s.freeCtr + 1 })

/-- Writes the row of one core; of several branches on a core the record shows one, which one is not stated. -/
def Device.recordRow (s : Device) (x : Job) (d : DispatchIn) (q : Nat → List Nat) (i : Nat) (parts : List (Nat × Nat × Nat)) : Device :=
  let a := d.record + 16 * i
  match parts with
  | [] => s.spacePut x a (0xFF :: List.replicate 15 0)
  | first :: _ =>
    let c : Option Nat × Device := if parts.length = 1 then (some 0, s) else s.choose (List.range parts.length)
    let p := parts.getD (c.1.getD 0) first
    let rank := c.2.recordRank p.2.1
    let cnt := min 255 p.2.2
    let cap := match d.branches[p.1]? with | some b => b.cap | none => 0
    rank.2.spacePut x a (leBytes 1 p.1 ++ leBytes 1 rank.1 ++ leBytes 1 cnt ++ [0] ++ leBytes 4 (q p.1).length ++ leBytes 4 cap ++
      List.replicate 4 0)

/-- Places the tokens and writes the queues, the rows of the cores and the counters (R214 to R217). -/
def Device.dispatchDo (s : Device) (j : Nat) (x : Job) (d : DispatchIn) : Device :=
  let l := d.place
  let q (b : Nat) : List Nat := queueOf l b
  let all := List.range d.branches.length
  let act := all.filter fun b => !(q b).isEmpty
  let w (b : Nat) : Nat := (q b).length * (match d.branches[b]? with | some x => x.cost | none => 0)
  let s : Device := act.foldl (fun (s : Device) b => match d.branches[b]? with
    | some y => s.spacePut x y.queue ((q b).flatMap fun t => leBytes 4 t)
    | none => s) s
  let parts := assignCores x.cores.length w act
  let s : Device := (List.range x.cores.length).foldl (fun (s : Device) k => s.recordRow x d q k (parts.getD k [])) s
  let rounds := act.map fun b => match d.branches[b]? with | some y => ((q b).length + y.cap - 1) / y.cap | none => 0
  let s : Device := s.bump (O.dispatchSpills j) (l.filter fun p => p.how == 1).length
  let s : Device := s.bump (O.dispatchDeferred j) (l.filter fun p => p.how == 2).length
  let s : Device := s.bump (O.dispatchTokens j) d.tokens
  s.setNum (O.dispatchMaxRounds j) (min 255 (rounds.foldl max (s.num (O.dispatchMaxRounds j))))

/-- Runs the dispatcher for entry i, which has started. -/
def Device.dispatch (s : Device) (j : Nat) (x : Job) (i o : Nat) : Device :=
  let ext := s.dispatchExtents x o
  if ext.any fun e => !x.inSpace e.1 e.2 then s.entryViolation j i 0
  else if ext.any fun e => s.spaceBlocked x e.1 e.2 false then s.entryFail j i .uncorrected
  else if !(s.dispatchIn x o).ok then s.entryFail j i .range
  else s.dispatchDo j x (s.dispatchIn x o)

/-- DISPATCH (row 77). -/
def execDispatch (j : Fin 32) (s : State) : Outc := s.run fun (s : Device) =>
  (match s.nextEntry j 7 with
   | none => s
   | some (x, r, a) => (s.beginEntry j x r 7).dispatch j x r.next (bits a 47 0))

/-- SCHEDULE_END (row 78): END completes when every earlier entry has. -/
def execScheduleEnd (j : Fin 32) (s : State) : Outc := s.run fun (s : Device) =>
  (match s.nextEntry j 8 with
   | none => s
   | some (x, r, _) => if r.running.isEmpty then s.passEntry j x r else s)

/-! ## Completions (R199, R201, R389) -/

/-- The status with a code. -/
def statusOf (n : Nat) : Status :=
  ([.ok, .noObject, .noElement, .access, .type, .range, .state, .held, .busy, .domainOff, .auth, .conflict, .aborted, .limit, .frozen,
    .malformed, .timeout, .uncorrected, .length] : List Status).getD n .ok

/-- Does an UPDATE entry apply? -/
def Device.applies (s : Device) (x : Job) (i : Nat) : Bool :=
  bits (s.spaceLe x (x.entryAt i) 8) 63 60 == 5 &&
    (s.rangeList x (bits (s.spaceLe x (x.entryAt i + 8) 8) 47 0)).any fun p => p.2 == 0

/-- What the completion of an entry with OK does besides. -/
def Device.entryOk (s : Device) (j : Nat) (x : Job) (r : StepRun) (e : EntryRun) : Device :=
  let a := s.spaceLe x (x.entryAt e.idx + 8) 8
  match e.kind with
  | 1 => (s.setGather j (bits a 63 61) 2).bump (O.gathersCompleted j)
  | 4 => if bits a 60 45 = x.at_ 12 2 then s.hallmark j r.t else s
  | 5 =>
    let more := (List.range x.entries).any fun i => (decide (r.next ≤ i) || r.running.any fun f => f.idx == i && i != e.idx) && s.applies x i
    if s.applies x e.idx && !more && !r.applyFailed then s.setNum (O.lastAppliedStep j) r.t else s
  | _ => s

/-- A stopped step with nothing left running ends (R201). -/
def Device.stopView (s : Device) (j : Nat) : Device :=
  match s.job? j with
  | some x => match x.cur with
    | some r => match r.stop with
      | some (st, i) => if r.running.isEmpty then (s.stepEnd j (statusOf st) i).resched else s
      | none => s
    | none => s
  | none => s

/-- Entry e completes: with OK its effects follow, with another status the step stops. -/
def Device.entryOver (s : Device) (j : Nat) (x : Job) (r : StepRun) (e : EntryRun) : Device :=
  let r' := { r with running := r.running.filter fun f => f.idx != e.idx,
                     applyFailed := r.applyFailed || (e.status.isSome && e.kind == 5 && s.applies x e.idx),
                     stop := match r.stop, e.status with
                       | none, some st => some (st, e.idx)
                       | old, _ => old }
  let s : Device := if e.status.isNone then s.entryOk j x r e else s
  ((s.modJob j fun x => { x with cur := some r' }).positionView j).stopView j

/-- SCHEDULE_ENTRY_COMPLETE (row 79). -/
def execScheduleEntryComplete (j : Fin 32) (i : BitVec 16) (s : State) : Outc := s.run fun (s : Device) =>
  (match s.job? j.val with
   | none => s
   | some x => match x.cur with
     | none => s
     | some r => match r.entry? i.toNat with
       | none => s
       | some e => if !e.cores.isEmpty || !e.units.isEmpty || e.plan.isSome || !s.works 1 then s else s.entryOver j x r e)

/-! ## Loupe's banks (R90, R91, R95) -/

/-- The exponent of bin 31 for the new step, from the row just frozen. -/
def Device.newTop (s : Device) (r : LoupeRow) : Int :=
  let fixed := toSigned 8 (s.num O.loupeHistTopFixed)
  match r.maxMag.fp with
  | .fin _ m e => if m = 0 || s.num O.loupeHistTopMode = 1 then fixed else floorLog2 m e
  | _ => fixed

/-- The live bank of a job becomes the frozen one, and the new live bank starts cleared. -/
def Device.swapLoupe (s : Device) (j t : Nat) : Device :=
  let l := s.loupe
  let frozen := l.frozen.map fun f => if f.job == j then (l.live.find? fun r => r.job == j && r.tensor == f.tensor).getD f else f
  let live := l.live.map fun r => if r.job == j then ({ job := j, tensor := r.tensor, histTop := s.newTop r } : LoupeRow) else r
  let muted := if s.flag O.loupeEnable then l.muted.filter fun k => k != j else if l.muted.contains j then l.muted else j :: l.muted
  { s with loupe := { live := live, frozen := frozen, muted := muted } }.setNum (O.loupeFrozenStep j) t

/-! ## The selector (R211 to R213) -/

/-- emax and e_sub of a candidate format (Table 8.8). -/
def emaxOf (f : Nat) : Int := [0, 127, 15, 8, 15, 4, 2, 2].getD f 0
def esubOf (f : Nat) : Int := [0, -133, -24, -9, -16, -4, -3, -1].getD f 0

/-- Format and block mode of a candidate byte. -/
def candFmt (c : Nat) : Nat := bits c 7 3
def candBlock (c : Nat) : Nat := bits c 2 0

/-- Bins that saturate, and bins that underflow, under a candidate. -/
def satBin (c : Nat) (top : Int) (b : Nat) : Bool :=
  decide (emaxOf (candFmt c) + (if candBlock c = 0 then 0 else 127) < top - 31 + b)
def ufBin (c : Nat) (top : Int) (b : Nat) : Bool :=
  if candBlock c = 0 then decide (top - 31 + b ≤ esubOf (candFmt c) - 2)
  else decide ((b : Int) ≤ 29 - (emaxOf (candFmt c) - esubOf (candFmt c)))

/-- The share of the bins that a predicate names. -/
def binShare (h : List F32) (p : Nat → Bool) : F32 :=
  fdiv (fsum (((List.range 32).filter p).map fun b => h.getD b 0)) (fsum ((List.range 32).map fun b => h.getD b 0))

/-- The first candidate whose shares lie below the thresholds, else the last. -/
def selLoop (e : SelEntry) (top : Int) (tSat tUf : F32) : Nat :=
  ((List.range e.cands.length).find? fun i =>
    let c := e.cands.getD i 0
    i + 1 == e.cands.length || (flt (binShare e.h (satBin c top)) tSat && flt (binShare e.h (ufBin c top)) tUf)).getD 0

/-- Evaluates one entry: the entry after it, and its log row. -/
def Device.selEval (s : Device) (j t i : Nat) (e : SelEntry) : SelEntry × SelLog :=
  let mode := s.num (O.selectorMode j)
  let row := (s.loupe.frozen.find? fun r => r.job == j && r.tensor == e.tensor).getD { job := j, tensor := e.tensor }
  let tot := row.bins.sum
  let log : SelLog := { step := t, noData := false, held := mode != 0, job := j, previous := e.choice, chosen := e.choice, entry := i, sat := 0, uf := 0 }
  if tot = 0 then (e, { log with noData := true, held := false })
  else
    let beta : F32 := BitVec.ofNat 32 (s.num O.selectorBeta)
    let omb := fsub f32One beta
    let h := (List.range 32).map fun b =>
      let q := fdiv (fofNat (row.bins.getD b 0)) (fofNat tot)
      if e.seen then ffma beta (e.h.getD b 0) (fmul omb q) else q
    let e := { e with h := h, seen := true }
    let dflt (v : F32) (o : Nat) : F32 := if v = 0 then BitVec.ofNat 32 (s.num o) else v
    let i := selLoop e row.histTop (dflt e.tSat O.selectorSatThreshold) (dflt e.tUf O.selectorUfThreshold)
    let choice := if mode = 0 then i else if mode = 1 then e.choice else e.cands.length - 1
    let c := e.cands.getD choice 0
    ({ e with choice := choice }, { log with chosen := choice, sat := binShare h (satBin c row.histTop), uf := binShare h (ufBin c row.histTop) })

/-- The present choices (8.00.122). -/
def Device.choicesView (s : Device) (j : Nat) (l : List SelEntry) : Device := s.setBytes (O.selectorChoices j) (l.flatMap fun e => beBytes 1 e.choice)

/-- Evaluates every entry of a job's table, in table order: the entries changed (Table 8.5 steps 2 and 3). -/
def Device.selectAll (s : Device) (j t : Nat) (x : Job) : List Nat × Device :=
  let res := (x.sel.zip (List.range x.sel.length)).map fun (p : SelEntry × Nat) => s.selEval j t p.2 p.1
  let sel := res.map fun p => p.1
  let changed := (List.range sel.length).filter fun i => (sel.map fun e => e.choice).getD i 0 != (x.sel.map fun e => e.choice).getD i 0
  let s : Device := { s with work := { s.work with selLog := keepLast 65536 (s.work.selLog ++ res.map fun p => p.2) } }
  let s : Device := if res.isEmpty then s else s.bump O.selectorLogWritten res.length
  (changed, (s.modJob j fun x => { x with sel := sel }).choicesView j sel)

/-! ## The boundary (Table 8.5) -/

/-- The units of the job rest: nothing of the ending step is still to be written. -/
def Device.drainedJob (s : Device) (j : Nat) (x : Job) : Bool :=
  (x.cores.all fun n => s.occupant n != some j || s.coreRests n) &&
  (x.recs.all fun (p : Nat × CoreRec) => !p.2.valid || (p.2.core.arrayQ.isEmpty && p.2.core.queue.isEmpty && p.2.core.vq.isEmpty)) &&
  (List.range 32).all fun c => ((s.clu c).winQ.all fun w => w.job != j) && (s.clu c).camQ.all fun w => w.job != j

/-- The boundary of a step whose units rest: the banks swap, the selector decides, and the step ends unless patches are due. -/
def Device.boundary (s : Device) (j : Nat) (x : Job) (r : StepRun) : Device :=
  match (s.swapLoupe j r.t).selectAll j r.t x with
  | (changed, s) =>
    let s : Device := s.modJob j fun x => { x with hallmark := s.num (O.hallmarkInterval j) }
    let due := changed.filter fun i => match x.sel[i]? with | some (e : SelEntry) => e.patchCount != 0 | none => false
    if due.isEmpty then (s.stepEnd j .ok 0xFFFFFFFF).resched
    else s.modJob j fun x => { x with cur := some { r with boundary := 2, patches := due } }

/-- STEP_BOUNDARY (row 80). -/
def execStepBoundary (j : Fin 32) (s : State) : Outc := s.run fun (s : Device) =>
  (match s.job? j.val with
   | none => s
   | some x => match x.cur with
     | none => s
     | some r =>
       if !s.works 1 || r.next != x.entries || !r.running.isEmpty || r.stop.isSome || r.boundary != 0 || !s.drainedJob j x then s
       else s.boundary j x r)

/-- The patches due are applied and the step ends. -/
def Device.applyPatches (s : Device) (j : Nat) (x : Job) (r : StepRun) : Device :=
  ((r.patches.foldl (fun (s : Device) i => match x.sel[i]? with
    | some e => s.patchEntry x e fun _ => true
    | none => s) s).stepEnd j .ok 0xFFFFFFFF).resched

/-- PATCH_APPLY (row 81): the job is on its cores; the changed entries' patches are applied and the step ends. -/
def execPatchApply (j : Fin 32) (s : State) : Outc := s.run fun (s : Device) =>
  (match s.job? j.val with
   | none => s
   | some x => match x.cur with
     | none => s
     | some r => if r.boundary != 2 || !s.works 1 || !s.holdsAll j x then s else s.applyPatches j x r)

end Sys2Proof.Machine
end

