-- ==== Sys2Proof/Machine/Jobs.lean ====
section
/-! DEFINITION. Job slots, residency and steps (R379 to R388, R396, R398): rows 179 to 186 and 194. -/

namespace Sys2Proof.Machine

/-! ## Registration (R380, Table 16.2) -/

/-- The fields of a record in the order of Table 16.2: the offset of the first that is out of range. -/
def Job.badField (x : Job) (timeoutMs : Nat) : Option Nat :=
  let rng (v lo hi : Nat) : Bool := decide (lo ≤ v) && decide (v ≤ hi)
  let n := x.at_ 4 2
  let dog := x.at_ 20 4
  let fields : List (Nat × Bool) :=
    [(0, x.at_ 0 1 == 1), (1, rng (x.at_ 1 1) 0 1), (2, rng (x.at_ 2 1) 0 1), (3, rng (x.at_ 3 1) 1 64),
     (4, rng n (if x.at_ 2 1 = 0 then 2 else 1) 4096), (6, decide (x.at_ 6 2 < n)), (8, decide (x.at_ 8 1 < x.at_ 3 1)), (9, rng (x.at_ 9 1) 0 8),
     (10, rng (x.at_ 10 2) 1 256), (14, rng (x.at_ 14 2) 0 4096), (16, rng (x.at_ 16 4) 1000 100000),
     (20, dog == 0 || (rng dog 10 3600000 && decide (4 * timeoutMs ≤ dog))), (28, rng (x.at_ 28 4) 2 65536), (48, rng (x.at_ 48 2) 0 1024),
     (50, rng (x.at_ 50 2) 0 4096), (52, rng (x.at_ 52 4) 0 65536), (80, rng (x.at_ 80 2) 0 4096), (82, rng (x.at_ 82 2) 0 4096),
     (84, rng (x.at_ 84 2) 0 4096), (86, rng (x.at_ 86 2) 0 2048)] ++
    ((List.range 16).map fun i => (672 + 16 * i, aligned (x.space i).1 65536 && aligned (x.space i).2 65536)) ++
    [(32, x.inSpace (x.at_ 32 8) (16 * x.at_ 28 4))]
  (fields.find? fun f => !f.2).map fun f => f.1

/-- What the check of a schedule carries from entry to entry: a BWD entry has come; the buffers that are full; the micro-batch of the last
BWD entry of each layer. -/
structure SchedScan where
  bwd : Bool := false
  full : List Nat := []
  micro : Tbl Nat := []

/-- One entry of a schedule (R200): what is carried on, unless it fails. -/
def SchedScan.entry (c : SchedScan) (replica : Bool) (n i w a : Nat) : Option SchedScan :=
  let kind := bits w 63 60
  let layer := bits w 59 48
  let micro := bits w 47 40
  let buf := bits a 63 61
  if kind = 0 || 8 < kind || bits w 22 0 ≠ 0 || (kind = 1 && bits a 44 0 ≠ 0) || i < bits w 39 32 || i < bits w 31 24 then none
  else if (kind = 8) ≠ (i + 1 = n) then none
  else if kind = 2 && c.bwd then none
  else if replica && (kind = 1 || kind = 6) then none
  else if kind = 1 then (if c.full.contains buf then none else some { c with full := buf :: c.full })
  else if kind = 6 then (if c.full.contains buf then some { c with full := c.full.filter fun b => b != buf } else none)
  else if kind = 8 then (if c.full.isEmpty then some c else none)
  else if kind = 3 then
    match tget? c.micro layer with
    | some m => if m < micro then some { c with bwd := true, micro := tput c.micro layer micro } else none
    | none => some { c with bwd := true, micro := tput c.micro layer micro }
  else some c

/-- The first entry of a job's schedule that fails a check of R200. -/
def Device.scheduleBad (s : Device) (x : Job) : Option Nat :=
  let r := (List.range x.entries).foldl (fun (a : SchedScan × Option Nat) i =>
    if a.2.isSome then a
    else match a.1.entry (x.at_ 2 1 == 1) x.entries i (s.spaceLe x (x.entryAt i) 8) (s.spaceLe x (x.entryAt i + 8) 8) with
      | some c => (c, none)
      | none => (a.1, some i)) (({}, none) : SchedScan × Option Nat)
  r.2

/-- The objects of a slot that the record sets. -/
def Device.jobObjects (s : Device) (j : Nat) (x : Job) : Device :=
  let s : Device := ((s.setNum (O.jobClass j) (x.at_ 1 1)).setNum (O.sliceUs j) (x.at_ 16 4)).setNum (O.watchdogMs j)
    (if x.at_ 20 4 = 0 then s.num O.watchdogDefaultMs else x.at_ 20 4)
  let s : Device := ((s.setBytes (O.stepRecord j) (List.replicate 32 0)).setNum (O.stepsPending j) 0).setNum (O.sliceDebtUs j) 0
  let s : Device := ((s.setNum (O.parallelMode j) (x.at_ 2 1)).setNum (O.groupSize j) (x.at_ 4 2)).setNum (O.groupIndex j) (x.at_ 6 2)
  let s : Device := ((s.setNum (O.microBatches j) (x.at_ 10 2)).setNum (O.scheduleEntries j) (x.at_ 28 4)).setNum (O.schedulePosition j) 0
  let s : Device := ((s.setNum (O.gatherBufferStates j) 0).setNum (O.lastFailedEntry j) 0xFFFFFFFF).setNum (O.selectorEntryCount j) (x.at_ 48 2)
  let s : Device := ((s.setBytes (O.selectorChoices j) []).setNum (O.groupCount j) (x.at_ 50 2)).setNum (O.lastAppliedStep j) 0
  ((s.setNum (O.hallmarkReplicas j) (x.at_ 3 1)).setNum (O.hallmarkReplicaIndex j) (x.at_ 8 1)).setNum (O.hallmarkPlan j) (x.at_ 12 2)

/-- The job whose registration record stands at an address. -/
def Device.recordJob (s : Device) (a : Nat) : Job := { reg := s.hbmGet a 1024, recAddr := a, lastT := 0 }

/-- The slot becomes REGISTERED with the record's job (R380). -/
def Device.registered (s : Device) (j : Nat) (x : Job) : Device :=
  let x : Job := { x with lastT := (x.at_ 24 4 + 0xFFFFFFFF) % 0x100000000 }
  ((s.setJob j x).jobObjects j x).setNum (O.jobState j) jsRegistered

/-- REGISTER: a write of 5 to job_control (R380). -/
def Device.jobRegister (s : Device) (j : Nat) : Ans :=
  let a := s.num (O.registrationAddress j)
  if s.jobCode j ≠ jsFree then s.deny .state (O.jobState j)
  else if !s.domainOn 3 then s.deny .domainOff 3
  else if !s.hbmIn a 1024 then s.deny .range (O.registrationAddress j)
  else if s.hbmBlocked a 1024 false then s.deny .uncorrected
  else
    let x := s.recordJob a
    match x.badField (s.num O.commandTimeoutMs) with
    | some f => s.deny .range f
    | none =>
      if s.spaceBlocked x (x.at_ 32 8) (16 * x.entries) false then s.deny .uncorrected
      else match s.scheduleBad x with
        | some i => s.deny .malformed i
        | none => (s.registered j x).okay

/-! ## Admission: the checks of R382 -/

/-- Entry i of a list of n-byte elements. -/
def Device.listLe (s : Device) (x : Job) (off n i : Nat) : Nat := s.spaceLe x (x.at_ off 8 + n * i) n

/-- The Loupe tensors of a job (R92), its contexts, its buffer table. -/
def Device.tensorsOf (s : Device) (x : Job) : List Nat := ((List.range (x.at_ 14 2)).map fun i => s.listLe x 104 2 i).dedup
def Device.contextsOf (s : Device) (x : Job) : List Nat := (List.range (x.at_ 82 2)).map fun i => s.listLe x 120 2 i
def Device.buffersOf (s : Device) (x : Job) : List Buf :=
  (List.range 256).map fun i =>
    let b := Buf.decode (s.spaceGet x (x.at_ 96 8 + 16 * i) 16)
    if 3 < b.space then { b with valid := false } else b

/-- A halo row (R381): producer cluster and channel, consumer cluster and channel. -/
def Device.halosOf (s : Device) (x : Job) : List (Nat × Nat × Nat × Nat) :=
  (List.range (x.at_ 86 2)).map fun i =>
    let v := s.listLe x 128 8 i
    (bits v 7 0, bits v 15 8, bits v 23 16, bits v 31 24)

/-- A pool declaration (R381), with its root key. -/
def Device.poolsOf (s : Device) (j : Nat) (x : Job) : List (Pool × Nat) :=
  (List.range (x.at_ 9 1)).map fun i =>
    let b := s.spaceGet x (x.at_ 136 8 + 64 * i) 64
    ({ job := j, frames := leAt b 0 4, layers := leAt b 4 2, treeLog2 := leAt b 6 1, framesBuf := leAt b 7 1, ptBuf := leAt b 8 1,
       metaBase := leAt b 16 8, treeBase := leAt b 24 8 }, leAt b 32 8)

/-- Are a declaration's fields in range? -/
def Pool.ok (p : Pool) : Bool :=
  decide (1 ≤ p.frames) && decide (p.frames ≤ 16777215) && decide (1 ≤ p.layers) && decide (p.layers ≤ 256) &&
  decide (10 ≤ p.treeLog2) && decide (p.treeLog2 ≤ 24)

/-- Does a range lie in one segment, or in one narrow segment of a stack? -/
def Device.inNarrow (s : Device) (a n : Nat) (stack : Option Nat) : Bool :=
  s.hbmIn a n && (match s.segOf a with
    | some g => g.mode == 2 && (match stack with | some k => g.pcFirst / 32 == k | none => true)
    | none => false)

/-- Is a core in service (0.(40+c).030)? -/
def Device.coreServes (s : Device) (n : Nat) : Bool :=
  let m := tgetD s.errs.maps (n / 16) {}
  !m.off && decide (n % 16 < m.slots.length)

/-- The clusters a job uses. -/
def Job.clusters (x : Job) : List Nat :=
  (List.range 32).filter fun c => x.cores.any (fun n => n / 16 == c) || (x.part c).2 != 0

/-- The extents in the HBM space that the record names (R382 steps 4 and 5). -/
def Job.extents (x : Job) : List (Nat × Nat) :=
  [(x.at_ 40 8, 32 * x.at_ 48 2), (x.at_ 56 8, 8 * x.at_ 52 4), (x.at_ 64 8, 64 * x.at_ 50 2), (x.at_ 72 8, 8 * x.at_ 80 2),
   (x.at_ 88 8, x.at_ 3 1 * 800 * x.at_ 50 2), (x.at_ 96 8, 4096), (x.at_ 104 8, 2 * x.at_ 14 2), (x.at_ 112 8, 16 * x.at_ 84 2),
   (x.at_ 120 8, 2 * x.at_ 82 2), (x.at_ 128 8, 8 * x.at_ 86 2), (x.at_ 136 8, 64 * x.at_ 9 1)]

/-- Step 3: the first cluster whose partition cannot be had. -/
def Device.partBad (s : Device) (x : Job) : Option Nat :=
  (List.range 32).find? fun c =>
    let p := x.part c
    let others := tgetD s.work.parts c []
    p.2 != 0 && (decide (clmBytes < p.1 + p.2) || decide (8 ≤ others.length) ||
      others.any fun q => decide (q.base < p.1 + p.2) && decide (p.1 < q.base + q.size))

/-- Step 4: spaces, state areas, pools: the index of the first that is misplaced, state areas from 16 and pools from 36. -/
def Device.placeBad (s : Device) (j : Nat) (x : Job) : Option Nat :=
  let spaces := (List.range 16).find? fun i => (x.space i).2 != 0 && !s.hbmIn (x.space i).1 (x.space i).2
  let areas := (List.range 20).find? fun i =>
    let a := x.stateArea i
    a.2 != 0 && !(aligned a.1 65536 && aligned a.2 65536 && s.inNarrow a.1 a.2 (some i))
  let l := s.poolsOf j x
  let pools := (List.range l.length).find? fun i => match l[i]? with
    | some p => !(p.1.ok && s.inNarrow p.1.metaBase p.1.metaBytes none && s.inNarrow p.1.treeBase p.1.treeBytes none)
    | none => false
  match spaces, areas with
  | some i, _ => some i
  | none, some i => some (16 + i)
  | none, none =>
    if !x.inSpace (x.at_ 136 8) (64 * x.at_ 9 1) then some 36 else pools.map fun i => 36 + i

/-- Is a buffer-table entry acceptable (R123, R382 step 5)? -/
def Buf.okFor (b : Buf) (x : Job) : Bool :=
  !b.valid || (match b.space with
    | 0 => x.cores.contains (coreNo b.cluster b.core) && decide (b.base + b.size ≤ cmBytes)
    | 1 => decide ((x.part b.cluster).1 ≤ b.base) && decide (b.base + b.size ≤ (x.part b.cluster).1 + (x.part b.cluster).2)
    | _ => x.holdsAddr b.base b.size)

/-- Entry i of the selector table (Table 8.6). -/
def Device.selectorAt (s : Device) (x : Job) (i : Nat) : SelEntry :=
  let b := s.spaceGet x (x.at_ 40 8 + 32 * i) 32
  let w (k hi lo : Nat) : Nat := bits (leAt b (8 * k) 8) hi lo
  let n := w 0 47 44
  let f (v : Nat) : F32 := BitVec.ofNat 32 v
  { tensor := w 0 63 48, cands := (List.range (min n 8)).map fun k => w 1 (63 - 8 * k) (56 - 8 * k), patchCount := w 0 39 24,
    patchFirst := w 3 63 32, tSat := f (w 2 63 32), tUf := f (w 2 31 0), choice := min n 8 - 1 }

/-- Do the candidates widen? -/
def widening : List Nat → Bool
  | a :: b :: r => decide (fmtBits (candFmt a) ≤ fmtBits (candFmt b)) && widening (b :: r)
  | _ => true

/-- Is a patch in a core or partition of the job (R210)? -/
def patchOk (x : Job) (p : Nat × Nat × Nat × Nat) : Bool :=
  let a := p.2.2.2
  match p.1 with
  | 0 => x.cores.contains (coreNo p.2.1 p.2.2.1) && aligned a 4 && decide (a + 4 ≤ cmBytes)
  | 1 => x.cores.contains (coreNo p.2.1 p.2.2.1) && aligned a 8 && decide (a + 8 ≤ cmBytes)
  | 2 => aligned a 8 && decide ((x.part p.2.1).1 ≤ a) && decide (a + 8 ≤ (x.part p.2.1).1 + (x.part p.2.1).2)
  | _ => false

/-- Is a selector entry acceptable (R210)? -/
def Device.selectorOk (s : Device) (x : Job) (i : Nat) : Bool :=
  let e := s.selectorAt x i
  let n := bits (s.spaceLe x (x.at_ 40 8 + 32 * i) 8) 47 44
  let inArray := decide (e.patchCount ≤ 16384) && decide (e.patchFirst + e.patchCount ≤ x.at_ 52 4)
  decide (1 ≤ n) && decide (n ≤ 8) && inArray &&
  e.cands.all (fun c => decide (1 ≤ candFmt c) && decide (candFmt c ≤ 7) && pairOk (candFmt c) (candBlock c)) &&
  widening e.cands && (s.tensorsOf x).contains e.tensor &&
  (let l := s.patchesOf x e
   l.all (patchOk x) && (!(l.any fun p => p.1 == 2) || e.cands.all fun c => decide (candBlock c ≤ 4)))

/-- Is a cheap-point row acceptable (R390)? -/
def Device.cheapOk (s : Device) (x : Job) (i : Nat) : Bool :=
  let b := s.spaceGet x (x.at_ 112 8 + 16 * i) 16
  let n := leAt b 8 2
  let first := leAt b 12 4
  let ranges := x.at_ 112 8 + 16 * x.at_ 84 2
  x.cores.contains (coreNo (leAt b 0 1) (leAt b 1 1)) && decide (leAt b 1 1 < 16) && aligned (leAt b 4 4) 16 && decide (leAt b 4 4 < cmBytes) &&
  decide (n ≤ 256) && x.inSpace (ranges + 8 * first) (8 * n) &&
  (List.range n).all fun k =>
    let a := s.spaceLe x (ranges + 8 * (first + k)) 4
    let len := s.spaceLe x (ranges + 8 * (first + k) + 4) 4
    aligned a 64 && aligned len 64 && decide (a + len ≤ cmBytes)

/-- Step 5: the first table entry that fails, tables one after another; for an extent of the record, its index. -/
def Device.tablesBad (s : Device) (x : Job) : Option Nat :=
  let ext := (List.range x.extents.length).find? fun i => match x.extents[i]? with
    | some e => !x.inSpace e.1 e.2
    | none => false
  if ext.isSome then ext
  else
    let bufs := s.buffersOf x
    let rows : List (Nat × (Nat → Bool)) :=
      [(256, fun i => (bufs.getD i {}).okFor x), (x.at_ 48 2, s.selectorOk x), (x.at_ 84 2, s.cheapOk x),
       (x.planCount, fun i => x.inSpace (s.planAt x i) (16 + 32 * (s.planHeader x i).1))]
    rows.findSome? fun r => (List.range r.1).find? fun i => !r.2 i

/-- Is one end of a halo channel taken, by a job or by an earlier row? -/
def Device.haloTaken (s : Device) (c h : Nat) : Bool := (s.haloEnd c h).isSome

/-- Halo rows with both ends in range, and no end named twice. -/
def halosApart (l : List (Nat × Nat × Nat × Nat)) : Bool :=
  let ends := l.flatMap fun r => [(r.1, r.2.1), (r.2.2.1, r.2.2.2)]
  ends.all (fun e => decide (e.1 < 32) && decide (e.2 < 64)) && ends.dedup.length == ends.length

/-- Step 6: what the free counts refuse. -/
def Device.countsBad (s : Device) (j : Nat) (x : Job) : Option (Status × Nat) :=
  let halos := s.halosOf x
  let ctxs := s.contextsOf x
  if 4096 < s.loupe.live.length + (s.tensorsOf x).length then some (.limit, 4096)
  else if 8 < s.work.pools.length + x.at_ 9 1 then some (.limit, 8)
  else if !halosApart halos then some (.range, O.haloRole 0 0)
  else if halos.any fun r => s.haloTaken r.1 r.2.1 || s.haloTaken r.2.2.1 r.2.2.2 then some (.limit, 64)
  else if ctxs.any fun n => decide (4096 ≤ n) then some (.range, 4096)
  else match ctxs.find? fun n => s.ctxSt n != 0 || (s.ctxJob n != j && s.ctxJob n != 0xFF) with
    | some n => some (.held, O.ctxState n)
    | none => none

/-- Bytes of a job's save area (R383). -/
def Job.saveBytes (x : Job) : Nat := roundUp (x.cores.length * 4497408 + ((List.range 32).map fun c => (x.part c).2).sum) 65536

/-- The lowest place for n bytes in the save pool. -/
def Device.savePlace (s : Device) (n : Nat) : Option Nat :=
  let base := s.num O.savePoolBase
  let top := base + s.num O.savePoolBytes
  let used := s.work.saveAreas.map fun a => a.2
  let free (a : Nat) : Bool := decide (base ≤ a) && decide (a + n ≤ top) && used.all fun u => decide (a + n ≤ u.1) || decide (u.1 + u.2 ≤ a)
  ((base :: used.map fun u => u.1 + u.2).filter free).min?

/-- The free bytes of the save pool (7.00.014). -/
def Device.saveView (s : Device) : Device := s.setNum O.savePoolFreeBytes (s.num O.savePoolBytes - (s.work.saveAreas.map fun a => a.2.2).sum)

def Device.dropSaveArea (s : Device) (j : Nat) : Device :=
  let s : Device := { s with work := { s.work with saveAreas := s.work.saveAreas.filter fun a => a.1 != j } }
  ((s.setNum (O.saveAreaBase j) 0).setNum (O.saveAreaBytes j) 0).saveView

/-- The checks of R382 in order. -/
def Device.admitBad (s : Device) (j : Nat) (x : Job) : Option (Status × Nat) :=
  let off := x.clusters.find? fun c => !s.domainOn (clusterDomain c)
  let lc := x.cores.find? fun n => x.isLc && s.residents.any fun k => match s.job? k with
    | some y => y.isLc && y.cores.contains n
    | none => false
  if 8 ≤ s.residents.length then some (.limit, 8)
  else match x.cores.find? fun n => !s.coreServes n with
    | some n => some (.range, n)
    | none => match lc with
      | some n => some (.held, O.coreOccupant (n / 16) (n % 16))
      | none => match off with
        | some c => some (.domainOff, clusterDomain c)
        | none => match s.partBad x with
          | some c => some (.held, c)
          | none => match s.placeBad j x with
            | some i => some (.range, i)
            | none => match s.tablesBad x with
              | some i => some (.range, i)
              | none => match s.countsBad j x with
                | some e => some e
                | none => if s.jobCode j = jsSuspended || (s.savePlace x.saveBytes).isSome then none else some (.limit, x.saveBytes / 65536)

/-! ## Admission: what it grants -/

/-- The regions of a job (R241): state areas, pool metadata (R186: header, frame records and prefix tree), page-table buffers. -/
def Device.addRegions (s : Device) (j : Nat) (x : Job) (pools : List Pool) : Device :=
  let put (s : Device) (kind a n : Nat) : Device :=
    if n = 0 then s
    else
      let b := a / 65536 * 65536
      s.addRegion { base := b, size := (roundUp (a + n) 65536 - b) / 65536, kind := kind, job := j }
  let s : Device := (List.range 20).foldl (fun (s : Device) i => put s 0 (x.stateArea i).1 (x.stateArea i).2) s
  pools.foldl (fun (s : Device) p =>
    put (put (put s 1 p.metaBase p.metaBytes) 1 p.treeBase p.treeBytes) 1 (x.buf p.ptBuf).base (x.buf p.ptBuf).size) s

/-- Grants one pool (R186): a free one of the eight, its objects, its ledger; the metadata of a pool granted anew is set up. -/
def Device.grantPool (s : Device) (j : Nat) (p : Pool) (root free limbo nodes : Nat) (anew : Bool) : Device :=
  match s.choose ((List.range 8).filter fun i => (s.pool? i).isNone) with
  | (none, s) => s
  | (some i, s) =>
    let s : Device := if anew then s.poolInit p else s
    let s : Device := ((s.setNum (O.poolState i) 1).setNum (O.poolJobSlot i) j).setNum (O.poolFrames i) p.frames
    let s : Device := (((s.setNum (O.poolLayers i) p.layers).setNum (O.treeRootKey i) root).setNum (O.poolFreeFrames i) free).setNum (O.poolLimboFrames i) limbo
    let s : Device := { s with work := { s.work with pools := tput s.work.pools i p } }
    let s : Device := (s.setNum (O.treeNodes i) nodes).initLedger (ledgerId 7 i)
    let l := s.ledger (ledgerId 7 i)
    ({ s with mem := { s.mem with ledgers := tput s.mem.ledgers (ledgerId 7 i) { l with free := free, held := p.frames - free - limbo } } } : Device).ledgerView

/-- Grants the pools of a job: new ones, or those it had when it was suspended. -/
def Device.grantPools (s : Device) (j : Nat) (x : Job) : Device :=
  let l := s.poolsOf j x
  (List.range l.length).foldl (fun (s : Device) i => match l[i]?, x.pools[i]? with
    | some p, some k => s.grantPool j k.1 p.2 k.2.1 k.2.2.1 k.2.2.2 false
    | some p, none => s.grantPool j p.1 p.2 p.1.frames 0 0 true
    | none, _ => s) s

/-- Allocates the halo channels, every token HOME (R168). -/
def Device.grantHalos (s : Device) (j : Nat) (x : Job) : Device :=
  (s.halosOf x).foldl (fun (s : Device) r =>
    ((s.setHalo r.1 r.2.1 { job := j, cons := r.2.2.1, consCh := r.2.2.2 }).setNum (O.haloRole r.1 r.2.1) 1).setNum (O.haloRole r.2.2.1 r.2.2.2) 2) s

/-- Allocates the Loupe entries (R92), in both banks; with 8.00.010 = 0 nothing of the job is counted yet. -/
def Device.grantLoupe (s : Device) (j : Nat) (x : Job) : Device :=
  let rows : List LoupeRow := (s.tensorsOf x).map fun t => { job := j, tensor := t, histTop := toSigned 8 (s.num O.loupeHistTopFixed) }
  let s : Device := { s with loupe := { s.loupe with live := s.loupe.live ++ rows, frozen := s.loupe.frozen ++ rows } }
  let s : Device := if s.flag O.loupeEnable then s else { s with loupe := { s.loupe with muted := j :: s.loupe.muted } }
  s.setNum O.loupeEntriesUsed s.loupe.live.length

/-- Grants the partitions, cleared to 0, or restored from the save area of a suspended job (R382). -/
def Device.grantParts (s : Device) (j : Nat) (x : Job) (restore : Bool) : Device :=
  let at_ (c : Nat) : Nat := s.num (O.saveAreaBase j) + 4497408 * x.cores.length + ((List.range c).map fun i => (x.part i).2).sum
  (List.range 32).foldl (fun (s : Device) c =>
    let p := x.part c
    if p.2 = 0 then s
    else
      let part : Part := { job := j, base := p.1, size := p.2 }
      let l := (tgetD s.work.parts c []).filter (fun (q : Part) => decide (q.base < p.1)) ++ [part] ++
        (tgetD s.work.parts c []).filter fun (q : Part) => !decide (q.base < p.1)
      let s : Device := { s with work := { s.work with parts := tset s.work.parts c l [] } }
      let s : Device := s.clmClear c p.1 p.2
      if restore then s.clmPut c p.1 (s.hbmGet (at_ c) p.2) else s) s

/-- Grants the save area (R383). -/
def Device.grantSave (s : Device) (j : Nat) (x : Job) : Device :=
  match s.savePlace x.saveBytes with
  | none => s
  | some a =>
    let s : Device := { s with work := { s.work with saveAreas := s.work.saveAreas ++ [(j, a, x.saveBytes)] } }
    ((s.setNum (O.saveAreaBase j) a).setNum (O.saveAreaBytes j) x.saveBytes).saveView

/-- The selector table with each entry's initial choice, and the patches of cluster memory (R210). -/
def Device.initSelector (s : Device) (j : Nat) (x : Job) : Device :=
  let sel := (List.range (x.at_ 48 2)).map fun i => s.selectorAt x i
  let s : Device := (s.modJob j fun y => { y with sel := sel, fresh := x.cores }).choicesView j sel
  sel.foldl (fun (s : Device) e => s.patchEntry x e fun p => p.1 == 2) s

/-- What an ADMIT that passed its checks grants (R382); `back` for a suspended job. -/
def Device.grantJob (s : Device) (j : Nat) (x : Job) (back : Bool) : Device :=
  let y : Job := { x with bufs := s.buffersOf x, hallmark := s.num (O.hallmarkInterval j), pools := [],
                          lastT := if back then x.lastT else (x.at_ 24 4 + 0xFFFFFFFF) % 0x100000000 }
  let s : Device := s.setJob j y
  let s : Device := if back then s else s.grantSave j y
  let s : Device := (((s.grantPools j x).grantHalos j y).grantLoupe j y).grantParts j y back
  let s : Device := s.addRegions j y ((s.work.pools.filter fun (p : Nat × Pool) => p.2.job == j).map fun p => p.2)
  let s : Device := if back then s else s.initSelector j y
  let s : Device := s.setNum (O.jobState j) (if s.isFrozen (masterId 1 j) then jsFrozen else jsReady)
  let s : Device := y.cores.foldl Device.coreView s
  (s.setNum O.residentCount s.residents.length).resched

/-- ADMIT: a write of 1 to job_control (R382). -/
def Device.jobAdmit (s : Device) (j : Nat) : Ans :=
  let back := s.jobCode j == jsSuspended
  match (if s.jobCode j = jsRegistered || back then s.job? j else none) with
  | none => s.deny .state (O.jobState j)
  | some x =>
    if !s.domainOn 3 then s.deny .domainOff 3
    else match s.admitBad j x with
      | some e => s.deny e.1 e.2
      | none => (s.grantJob j x back).okay

/-! ## Leaving residency (R384) -/

/-- Streams, encode streams and contexts of a job close at once (R358, R374, R384); samples dropped are counted. A FROZEN one waits for its
thaw. -/
def Device.closeLinks (s : Device) (j : Nat) (x : Job) : Device :=
  let s : Device := (s.net.streams.map fun t => t.1).foldl (fun (s : Device) k =>
    if leAt (s.sCfg k) 2 1 = j && (s.streamSt k == 1 || s.streamSt k == 2) then
      let n := ((s.stream k).records.filter fun r => r.stage != SampStage.failed).length
      (s.sStat k 4 n).streamGone k
    else s) s
  let s : Device := (s.net.encs.map fun t => t.1).foldl (fun (s : Device) k =>
    if leAt (s.eCfg k) 2 1 = j && (s.encSt k == 1 || s.encSt k == 2) then s.encGone k else s) s
  (s.contextsOf x).foldl (fun (s : Device) n => if s.ctxSt n == 0 || s.ctxSt n == 4 then s else (s.ctxDrop n .aborted).ctxClosed n) s

/-- The transactions that use a job's regions, installs apart. -/
def Device.txnsIn (s : Device) (j : Nat) : List (Nat × Txn) :=
  let mine := s.mem.regions.filter fun r => r.job == j && decide (r.kind ≤ 1)
  s.mem.txns.filter fun t => t.2.state != TxnState.installing &&
    (t.2.tracked ++ t.2.written).any fun l => mine.any fun r => decide (r.base ≤ 128 * l) && decide (128 * l < r.last)

/-- The open transactions of a job end before its regions go (R241, R257): its update runs, and every transaction that uses its regions: page operations of
control cores and host queues, COWs among them. -/
def Device.endJobTxns (s : Device) (j : Nat) : Device :=
  let s : Device := s.updDrop j
  (s.txnsIn j).foldl (fun (s : Device) t => match tget? s.mem.txns t.1 with
    | some x => s.abortLater t.1 x 10
    | none => s) s

/-- A core leaves a job at once: cleared, and free, or given to the job it was on its way to. -/
def Device.vacate (s : Device) (j n : Nat) : Device :=
  let h := s.hand? n
  let mine := s.occupant n == some j && (match h with | some h => h.out == some j | none => true)
  let s : Device := match h with
    | some h => if h.into = some j then (if h.out.isNone then s.delHand n else s.setHand n { h with into := none }) else s
    | none => s
  let s : Device := s.endGates n fun g => g.job == j
  if mine then
    let into := (s.hand? n).bind fun (h : Hand) => h.into
    let s : Device := (s.delHand n).coreCleared n
    match into with
    | some b => s.setHand n { out := none, into := some b, stage := .restoring, since := s.uptime }
    | none => s.coreView n
  else s

/-- Window and Cameo commands and walks of a job are gone; control cores that waited for their queues go on. -/
def Device.dropUnits (s : Device) (j : Nat) : Device :=
  (List.range 32).foldl (fun (s : Device) c =>
    let gone := (s.walksOf c).filter fun w => w.job == j
    let s : Device := s.portGoes c
    let s : Device := gone.foldl (fun (s : Device) w => if w.paged then s.unpin c w.poolNo else s) s
    s.setWalks c ((s.walksOf c).filter fun w => w.job != j)) (s.dropUnitCmds j)

/-- A halo channel is free again: its tokens on the way are gone, and its ledger's counts are closed (R173). -/
def Device.haloGone (s : Device) (p h : Nat) (x : HaloCh) : Device :=
  let s : Device := ((s.setNum (O.haloRole p h) 0).setNum (O.haloTokenStates p h) 0).setNum (O.haloRole x.cons x.consCh) 0
  let s : Device := s.setNum (O.haloTokenStates x.cons x.consCh) 0
  let other (f : Nat × Nat × Nat) : Bool := !(f.1 == p && f.2.1 == h)
  let s : Device := s.setClu p { s.clu p with halo := tdel (s.clu p).halo h, flying := (s.clu p).flying.filter other }
  let s : Device := s.setClu x.cons { s.clu x.cons with flying := (s.clu x.cons).flying.filter other }
  let out := x.inState .toConsumer
  let home := out + x.inState .ready
  s.tokenCount p fun k => { k with received := k.received + out, returned := k.returned + home, back := k.back + home + x.inState .toProducer }

/-- Releases pools, halo channels, Loupe entries, partitions, regions. -/
def Device.dropGrants (s : Device) (j : Nat) : Device :=
  let s : Device := (s.work.pools.filter fun (p : Nat × Pool) => p.2.job == j).foldl (fun (s : Device) (p : Nat × Pool) =>
    let s : Device := (s.setNum (O.poolState p.1) 0).setNum (O.poolJobSlot p.1) 0xFF
    let s : Device := { s with work := { s.work with pools := tdel s.work.pools p.1, cows := s.work.cows.filter fun (w : CowRun) => w.pool != p.1 },
                               mem := { s.mem with ledgers := tdel s.mem.ledgers (ledgerId 7 p.1) } }
    s.ledgerView) s
  let s : Device := s.clusters.foldl (fun (s : Device) (c : Nat × ClusterSt) => c.2.halo.foldl (fun (s : Device) (h : Nat × HaloCh) =>
    if h.2.job = j then s.haloGone c.1 h.1 h.2 else s) s) s
  let other (r : LoupeRow) : Bool := r.job != j
  let s : Device := { s with loupe := { live := s.loupe.live.filter other, frozen := s.loupe.frozen.filter other,
                                        muted := s.loupe.muted.filter fun k => k != j } }
  let s : Device := s.setNum O.loupeEntriesUsed s.loupe.live.length
  let parts := (s.work.parts.map fun (p : Nat × List Part) => (p.1, p.2.filter fun (q : Part) => q.job != j)).filter fun (p : Nat × List Part) => !p.2.isEmpty
  ({ s with work := { s.work with parts := parts } } : Device).dropRegions j

/-- Saves a job's partitions and core images in full (R384). -/
def Device.saveImage (s : Device) (j : Nat) (x : Job) : Device :=
  let s : Device := (x.cores.filter fun n => s.occupant n == some j).foldl (fun (s : Device) n => match s.job? j with
    | some x => s.saveCore j x n true
    | none => s) s
  let a := s.num (O.saveAreaBase j) + 4497408 * x.cores.length
  (List.range 32).foldl (fun (s : Device) c =>
    let p := x.part c
    if p.2 = 0 then s else s.savePut (a + ((List.range c).map fun i => (x.part i).2).sum) (s.clmGet c p.1 p.2)) s

/-- The job leaves residency. -/
def Device.jobLeaves (s : Device) (j : Nat) (suspend : Bool) : Device :=
  match s.job? j with
  | none => s
  | some x =>
    let s : Device := if x.cur.isSome then s.stepEnd j .aborted 0xFFFFFFFF else s
    let s : Device := ((s.closeLinks j x).endJobTxns j).plansDrop j
    let s : Device := if suspend then s.saveImage j x else s
    let kept := (s.work.pools.filter fun (p : Nat × Pool) => p.2.job == j).map fun (p : Nat × Pool) =>
      ({ p.2 with job := j }, s.num (O.poolFreeFrames p.1), s.num (O.poolLimboFrames p.1), s.num (O.treeNodes p.1))
    let s : Device := ((List.range 512).foldl (fun (s : Device) n => s.vacate j n) s).dropUnits j
    let s : Device := s.dropGrants j
    let s : Device := s.modJob j fun y =>
      { y with bufs := [], pending := [], cur := none, sliceUsed := 0, sliceLen := 0, runSince := none, debtFrom := none,
               recs := if suspend then y.recs else [], sel := if suspend then y.sel else [], slots := if suspend then y.slots else [],
               pools := if suspend then kept else [], fresh := if suspend then y.fresh else [], failedT := if suspend then y.failedT else none }
    let s : Device := if suspend then s else s.dropSaveArea j
    let s : Device := (s.setNum (O.stepsPending j) 0).setNum (O.jobState j) (if suspend then jsSuspended else jsRegistered)
    let s : Device := x.cores.foldl Device.coreView s
    (s.setNum O.residentCount s.residents.length).resched

/-- LEAVE and SUSPEND: writes of 2 and 3 to job_control. -/
def Device.jobLeave (s : Device) (j : Nat) (suspend : Bool) : Ans :=
  if s.jobCode j = jsReady || s.jobCode j = jsStopped || s.jobCode j = jsFrozen then (s.jobLeaves j suspend).okay
  else s.deny .state (O.jobState j)

/-- The slot becomes FREE; its save area returns to the pool (R384). -/
def Device.jobFreed (s : Device) (j : Nat) : Device :=
  let s : Device := (s.dropSaveArea j).setNum (O.jobState j) jsFree
  let s : Device := (s.setNum (O.parallelMode j) 0xFF).setNum (O.selectorEntryCount j) 0
  { s with work := { s.work with jobs := tdel s.work.jobs j } }

/-- DEREGISTER: a write of 4 to job_control. -/
def Device.jobDeregister (s : Device) (j : Nat) : Ans :=
  if s.jobCode j = jsRegistered || s.jobCode j = jsSuspended then (s.jobFreed j).okay
  else s.deny .state (O.jobState j)

/-- A write of 1 to job_thaw (R396). -/
def Device.jobThaw (s : Device) (j : Nat) : Ans :=
  if s.jobCode j = jsFrozen then s.thaw (masterId 1 j) else s.deny .state (O.jobState j)

/-- A write of an object of a slot reaches the device manager only at READY. -/
def Device.jobRow (s : Device) (oid j : Nat) (f : Device → Ans) : Device :=
  s.ownWrite oid fun s => if s.startupCode = suReady then f s else s.deny .state (O.jobState j)

/-- Rows 179 to 184. -/
def execRegister (j : Fin 32) (s : State) : Outc := s.run fun (s : Device) => s.jobRow (O.jobControl j) j fun s => s.jobRegister j
def execJobAdmit (j : Fin 32) (s : State) : Outc := s.run fun (s : Device) => s.jobRow (O.jobControl j) j fun s => s.jobAdmit j
def execLeave (j : Fin 32) (s : State) : Outc := s.run fun (s : Device) => s.jobRow (O.jobControl j) j fun s => s.jobLeave j false
def execSuspend (j : Fin 32) (s : State) : Outc := s.run fun (s : Device) => s.jobRow (O.jobControl j) j fun s => s.jobLeave j true
def execDeregister (j : Fin 32) (s : State) : Outc := s.run fun (s : Device) => s.jobRow (O.jobControl j) j fun s => s.jobDeregister j
def execJobThaw (j : Fin 32) (s : State) : Outc := s.run fun (s : Device) => s.jobRow (O.jobThaw j) j fun s => (s.jobThaw j).measured (O.jobThaw j) [1]

/-! ## Steps (R387, R388) -/

/-- Fields of a descriptor (Table 16.5). -/
def stepSlot (d : Bytes) : Nat := bits (leAt d 0 8) 63 59
def stepRestart (d : Bytes) : Bool := bit (leAt d 0 8) 58
def stepT (d : Bytes) : Nat := bits (leAt d 0 8) 31 0
def stepFrom (d : Bytes) : Nat := if stepRestart d then bits (leAt d 8 8) 63 32 else 0
def stepSlots (d : Bytes) : Nat := bits (leAt d 8 8) 31 16

/-- Do counts and extents of a descriptor lie in the job's HBM space (R387 check 4)? -/
def Job.stepExtents (x : Job) (d : Bytes) : Bool :=
  let n := bits (leAt d 8 8) 15 0
  decide (n ≤ 4096) && decide (stepSlots d ≤ 4096) && x.inSpace (leAt d 16 8) (24 * n) && x.inSpace (leAt d 24 8) n &&
    x.inSpace (leAt d 32 8) (32 * stepSlots d)

/-- The descriptor waits in the job's queue (R387). -/
def Device.stepWaits (s : Device) (j : Nat) (x : Job) (d : Bytes) (queue : Option Nat) : Device :=
  let s : Device := s.setJob j { x with pending := x.pending ++ [({ desc := d, queue := queue } : StepWait)], lastT := stepT d }
  ((s.setNum (O.stepsPending j) (x.pending.length + 1)).resched).workArrives

/-- Is the descriptor the one the job expects: the next step number, or the restart of the step that failed (R387)? -/
def Job.expects (x : Job) (d : Bytes) : Bool :=
  if stepRestart d then x.failedT == some (stepT d) && decide (stepFrom d < x.entries) else stepT d == (x.lastT + 1) % 0x100000000

/-- A step descriptor arrives (R387): the job is the one of the descriptor; `queue` is the host queue and command that brought it. -/
def Device.stepSubmit (s : Device) (d : Bytes) (queue : Option Nat) : Ans :=
  let j := stepSlot d
  match (if s.resident j && s.jobCode j != jsFrozen then s.job? j else none) with
  | none => s.deny .state (O.jobState j)
  | some x =>
    if 4 ≤ x.pending.length then s.deny .busy (O.stepsPending j)
    else if !x.expects d then s.deny .state (O.stepSubmit j)
    else if !x.stepExtents d then
      { (s.violation (masterId 1 j) 4).okay with st := .access }
    else (s.stepWaits j x d queue).okay

/-- STEP_SUBMIT (row 185): a write of one descriptor to 7.00.122[j]. -/
def execStepSubmit (j : Fin 32) (d : Bytes) (s : State) : Outc := s.run fun (s : Device) =>
  s.jobRow (O.stepSubmit j) j fun s =>
    if d.length ≠ 64 then s.deny .length 64
    else if stepSlot d ≠ j then s.deny .range (O.stepSubmit j)
    else s.stepSubmit d none

/-- A slot-table entry (Table 16.6). -/
structure SlotEntry where
  slot : Nat
  action : Nat
  pool : Nat
  prompt : Nat
  pt : Nat
  tokens : Nat

def SlotEntry.decode (b : Bytes) : SlotEntry :=
  { slot := leAt b 0 2, action := leAt b 2 1, pool := leAt b 3 1, prompt := leAt b 4 4, pt := leAt b 8 8, tokens := leAt b 16 8 }

/-- Does an entry name a pool of the job and a page table in its buffer? -/
def Device.slotPool (s : Device) (j : Nat) (x : Job) (e : SlotEntry) (blocks : Nat) : Except Status Pool :=
  match s.pool? e.pool with
  | none => .error .state
  | some p => if p.job ≠ j then .error .access else if (p.pts x).size < e.pt + 8 * blocks then .error .access else .ok p

/-- LOOKUPs of a JOIN from block b on, at most n: the hits and the status; none where one must wait. -/
def Device.joinBlocks (s : Device) (m : Nat) (x : Job) (p : Pool) (e : SlotEntry) : Nat → Nat → List Nat → Option (Device × Nat × Status)
  | 0, b, _ => some (s, b, .ok)
  | n + 1, b, conf =>
    match s.pageOp1 e.pool m (conf.headD 0) [] p
        (txLookup e.pool (s.num (O.treeRootKey e.pool)) p x e.pt b (s.spaceGet x (e.tokens + 256 * b) 256)) with
    | none => none
    | some a =>
      if a.st ≠ .ok then some (a.s, b, a.st)
      else if a.detail = 1 then a.s.joinBlocks m x p e n (b + 1) (conf.drop 1)
      else some (a.s, b, .ok)

/-- One entry of the slot table, in the pass of its action; `seen` are the slots that had this action already. None where a transaction of it must
wait. -/
def Device.slotApply (s : Device) (j : Nat) (e : SlotEntry) (seen : List Nat) (conf : List Nat) : Option (Device × Option Nat × Status) :=
  match s.job? j with
  | none => some (s, none, .state)
  | some x =>
    let active := x.slots.contains e.slot
    let m := masterId 2 x.lowCluster
    let node := 0x40 + x.lowCluster
    let blocks := e.prompt / 64
    if 4096 ≤ e.slot || seen.contains e.slot then some (s, none, .range)
    else if e.action = 2 then
      if !active then some (s, none, .state)
      else match s.slotPool j x e 0 with
        | .error st => some (if st = .access then s.violation m 3 e.pt 4 node else s, none, st)
        | .ok p => (s.opRelease e.pool m p x e.pt 0 conf []).map fun a =>
          (if a.st = .ok then a.s.modJob j fun x => { x with slots := x.slots.filter fun n => n != e.slot } else a.s, none, a.st)
    else if active then some (s, none, .state)
    else if 2097152 < e.prompt then some (s, none, .limit)
    else if !x.inSpace e.tokens (4 * e.prompt) then some (s.violation m 3 e.tokens 4 node, none, .access)
    else match s.slotPool j x e blocks with
      | .error st => some (if st = .access then s.violation m 3 e.pt 4 node else s, none, st)
      | .ok p => ((s.setJob j { x with slots := x.slots ++ [e.slot] }).joinBlocks m x p e blocks 0 conf).map fun r => (r.1, some r.2.1, r.2.2)

/-- The bytes that a slot-table entry receives: a JOIN its hits, every entry its status. -/
def Device.slotAnswer (s : Device) (x : Job) (at_ : Nat) (hits : Option Nat) (st : Status) : Device :=
  let s : Device := match hits with
    | some n => s.spacePut x (at_ + 24) (leBytes 4 n)
    | none => s
  s.spacePut x (at_ + 28) (leBytes 1 st.code)

/-- One pass over the slot table: every entry of the action in table order; status and hits are written to the entries (R388). The operand
gives, entry by entry, the attempts of its transactions that other masters' commits abort. None where a transaction must wait. -/
def Device.slotPass (s : Device) (j : Nat) (d : Bytes) (action : Nat) (conf : List (List Nat)) : Option Device :=
  ((List.range (stepSlots d)).foldl (fun (a : Option (Device × List Nat)) i => a.bind fun a =>
    match a.1.job? j with
    | none => some a
    | some x =>
      let at_ := leAt d 32 8 + 32 * i
      let e := SlotEntry.decode (a.1.spaceGet x at_ 32)
      if e.action ≠ action then some a
      else (a.1.slotApply j e a.2 (conf.getD i [])).map fun r => (r.1.slotAnswer x at_ r.2.1 r.2.2, e.slot :: a.2)) (some (s, []))).map fun r => r.1

/-- Entries with an action that Table 16.6 does not define. -/
def Device.slotStray (s : Device) (x : Job) (d : Bytes) : Device :=
  (List.range (stepSlots d)).foldl (fun (s : Device) i =>
    let at_ := leAt d 32 8 + 32 * i
    if 2 < (SlotEntry.decode (s.spaceGet x at_ 32)).action then s.spacePut x (at_ + 28) (leBytes 1 (Status.code .range)) else s) s

/-- The watchdog's length in uptime counts: 7.00.103[j] as the step starts (R398). -/
def Device.dogCounts (s : Device) (j : Nat) : Nat := ms (s.num (O.watchdogMs j))

/-- The run of a step that starts. -/
def Device.stepRun (s : Device) (w : StepWait) : StepRun :=
  { desc := w.desc, t := stepT w.desc, startAt := s.uptime, next := stepFrom w.desc, split := s.num O.splitBlocks, fromQueue := w.queue }

/-- The pending step w becomes the running one (R388, R398). -/
def Device.stepBegin (s : Device) (j : Nat) (x : Job) (w : StepWait) (rest : List StepWait) : Device :=
  let y : Job := { x with pending := rest, cur := some (s.stepRun w), dogUsed := 0, dogLen := s.dogCounts j, dogPaused := 0, dogHold := none }
  let d : Device := ((s.setJob j y).setNum (O.stepsPending j) rest.length).setNum (O.dispatchMaxRounds j) 0
  let d : Device := d.modJob j fun y => { y with runSince := y.runSince.map fun t => max t s.uptime }
  ({ d with work := { d.work with done := d.work.done.filter fun p => p.1.job != j } } : Device).positionView j

/-- Cores of a job that stopped on a refusal or an error are idle again as its next step starts (R102, R171; log entry 142). -/
def Device.coresIdle (s : Device) (j : Nat) (x : Job) : Device :=
  let s : Device := (x.cores.filter fun n => s.occupant n == some j && (s.core n).seq == SeqState.stopped).foldl (fun (s : Device) n =>
    (s.setCore n { s.core n with seq := .idle }).coreView n) s
  s.modJob j fun y => { y with recs := y.recs.map fun (r : Nat × CoreRec) =>
    (r.1, if r.2.core.seq = .stopped then { r.2 with core := { r.2.core with seq := .idle } } else r.2) }

/-- Neither the lengths nor the slot table of a descriptor can be read. -/
def Device.stepBlocked (s : Device) (x : Job) (d : Bytes) : Bool :=
  s.spaceBlocked x (leAt d 16 8) (24 * bits (leAt d 8 8) 15 0) false || s.spaceBlocked x (leAt d 32 8) (32 * stepSlots d) false

/-- Must the start of a step wait for a lock on the lengths, the slot table or the statuses (Table 10.3)? -/
def Device.stepLocked (s : Device) (x : Job) (d : Bytes) : Bool :=
  s.spaceWaits x (leAt d 16 8) (24 * bits (leAt d 8 8) 15 0) false || s.spaceWaits x (leAt d 32 8) (32 * stepSlots d) true ||
    s.spaceWaits x (leAt d 24 8) (bits (leAt d 8 8) 15 0) true

/-- The status of every lengths entry is written (R388). -/
def Device.stepLengths (s : Device) (j : Nat) (x : Job) (r : StepRun) : Device :=
  let d := r.desc
  let n := bits (leAt d 8 8) 15 0
  match s.job? j with
  | none => s
  | some y =>
    let sts := (List.range n).map fun i => lenStatus y (s.lenEntry y r i)
    let s : Device := s.modJob j fun y => { y with cur := y.cur.map fun (r : StepRun) => { r with lenStatus := sts } }
    (s.spacePut x (leAt d 24 8) (sts.map fun v => BitVec.ofNat 8 v)).jobView j

/-- The slot table is worked through, releases before joins; then come the lengths (R388). None where a transaction must wait. -/
def Device.stepSlotsAndLengths (s : Device) (j : Nat) (x : Job) (r : StepRun) (conf : List (List Nat)) : Option Device :=
  ((s.slotPass j r.desc 2 conf).bind fun s => s.slotPass j r.desc 1 conf).map fun s => (s.slotStray x r.desc).stepLengths j x r

/-- May the first pending step of a job start: no step runs, its cores are its own or on their way to it? -/
def Device.stepMay (s : Device) (j : Nat) (x : Job) : Bool :=
  x.cur.isNone && s.works 1 && s.domainOn 3 && s.jobCode j != jsFrozen && s.resident j && s.onCores j x

/-- STEP_START (row 186). A start that has to wait for a lock or a transaction has not happened yet. -/
def execStepStart (j : Fin 32) (conflicts : List (List (BitVec 16))) (s : State) : Outc := s.run fun (s : Device) =>
  match s.job? j with
  | none => s
  | some x => match x.pending with
    | [] => s
    | w :: rest =>
      if !s.stepMay j x then s
      else
        let d := (s.stepBegin j x w rest).coresIdle j x
        let m := masterId 2 x.lowCluster
        let waits : Device := s.stall m ((spaceAddr x.spaces (leAt w.desc 16 8)).getD 0)
        if s.stepLocked x w.desc then waits
        else if d.stepBlocked x w.desc then (d.stepEnd j .uncorrected (stepFrom w.desc)).resched
        else match d.stepSlotsAndLengths j x (s.stepRun w) (conflicts.map fun (l : List (BitVec 16)) => l.map fun (v : BitVec 16) => v.toNat) with
          | some d => d.unstall m
          | none => waits

/-! ## The watchdog (R398, R484) -/

/-- Does a command or a plan of a job report retrying (Table 20.5): a context of a running plan past its first retransmission timeout, an
update unit waiting for a slot or retrying a conflict? -/
def Device.jobRetrying (s : Device) (j : Nat) : Bool :=
  (s.net.plans.any fun (p : PlanRun) => p.job == j && p.running &&
    s.net.ctxs.any fun (c : Nat × Ctx) => c.2.plan == some p.id && c.2.unacked.any fun (u : Unacked) => decide (1 ≤ u.tries)) ||
  s.work.upd.any fun (u : Nat × List UpdRun) => u.2.any fun (r : UpdRun) => r.job == j && (r.phase == UpdPhase.slotWait || decide (1 ≤ r.tries))

/-- A core stops after the command that runs: the others, and the DMA descriptors queued behind the running ones, are discarded. -/
def Device.haltCore (s : Device) (j n : Nat) : Device :=
  let s : Device := s.endGates n fun g => g.job == j
  let c := s.core n
  let dma := c.dma.map fun (d : Nat × DmaCh) => (d.1, { d.2 with queue := if d.2.active.isSome then d.2.queue.take 1 else [] })
  let s : Device := s.setCore n { c with seq := .stopped, entry := none, item := none, arrayQ := if c.arrayRuns then c.arrayQ.take 1 else [],
                                         vq := if c.vrun.isSome then c.vq.take 1 else [], dma := dma }
  s.setNum (O.coreState (n / 16) (n % 16)) 3

/-- The uptime counts in which a step ran, and those for which the pause has held. -/
def Device.dogCount (s : Device) (x : Job) : Nat := x.dogUsed + (match x.runSince with | some t => s.uptime - t | none => 0)
def Device.dogPause (s : Device) (x : Job) : Nat := match x.dogHold with | some t => s.uptime - t | none => 0

/-- The job with the pause closed: it lengthens the watchdog by at most the watchdog's own length (R484). -/
def Device.dogResumed (s : Device) (x : Job) : Job := { x with dogPaused := min x.dogLen (x.dogPaused + s.dogPause x), dogHold := none }

/-- The watchdog's action: the job's cores stop after their commands and the step ends with E_TIMEOUT (R398). -/
def Device.watchdogFires (s : Device) (j : Nat) (r : StepRun) : Device :=
  let s : Device := (s.heldBy j).foldl (fun (s : Device) n => s.haltCore j n) s
  let s : Device := (List.range 32).foldl (fun (s : Device) c => s.portGoes c) s
  let first := (r.running.map fun (e : EntryRun) => e.idx).min?.getD 0xFFFFFFFF
  ((s.bump (O.watchdogExpiries j)).stepEnd j .timeout first).resched

/-- JOB_WATCHDOG_EXPIRY (row 194). -/
def execJobWatchdogExpiry (j : Fin 32) (s : State) : Outc := s.run fun (s : Device) =>
  match s.job? j with
  | none => s
  | some x => match x.cur with
    | none => s
    | some r =>
      if !s.works 1 then s
      else if s.jobRetrying j && decide (x.dogPaused + s.dogPause x < x.dogLen) then
        (match x.dogHold with
         | some _ => s
         | none => (s.setJob j { x with dogHold := some s.uptime }).bump O.timerPauses)
      else
        let y := s.dogResumed x
        let d := s.setJob j y
        if s.dogCount x < y.dogLen + y.dogPaused || s.jobCode j ≠ jsRunning then d else d.watchdogFires j r

end Sys2Proof.Machine
end

