-- ==== Sys2Proof/Machine/Cross.lean ====
section
/-! DEFINITION. What the control plane asks of the other units: what keeps a domain or the device from switching off (R24, R441), what a
domain's units do when it switches on or off (R29, R305, R308, R417, R423, R424), what a reset or DEEP does to jobs and memory (R444, R468),
and what a retirement does to a core (R480). -/

namespace Sys2Proof.Machine

/-! ## Values that other units constrain -/

/-- The window of BAR2 lies in one segment (R415). -/
def Device.bar2Ok (s : Device) (base : Nat) : Bool :=
  aligned base 65536 && s.segTable.any fun g => decide (g.base ≤ base) && decide (base + 0x4000000 ≤ g.base + g.bytes)

/-- The job slots that are not FREE. -/
def Device.slotsUsed (s : Device) : List Nat := (List.range 32).filter fun j => s.jobCode j != jsFree

/-- The smallest watchdog of a registered job and of new jobs (R414). -/
def Device.minWatchdog (s : Device) : Nat := (s.slotsUsed.map fun j => s.num (O.watchdogMs j)).foldl min (s.num O.watchdogDefaultMs)

/-- The content of a written TABLE (R267). -/
def Device.tableOk (_s : Device) (oid : Nat) (v : Bytes) : Bool := oid != O.segmentTable || segTableOk v

/-! ## What blocks a switch (R24, R441) -/

/-- Streams and encode streams that are not CLOSED. -/
def Device.openStreams (s : Device) : List Nat := ((List.range 256).filter fun k => s.streamSt k != 0)
def Device.openEncoders (s : Device) : List Nat := ((List.range 256).filter fun k => s.encSt k != 0)

/-- The object that names what holds a stream: its job's state, or the stream's own for a stream of no job. -/
def Device.streamHolder (s : Device) (k : Nat) : Nat :=
  let j := leAt (s.sCfg k) 2 1
  if j < 32 then O.jobState j else O.streamState (k / 64) (k % 64)
def Device.encHolder (s : Device) (k : Nat) : Nat :=
  let j := leAt (s.eCfg k) 2 1
  if j < 32 then O.jobState j else O.encodeState (k / 64) (k % 64)

/-- The domain of a master's unit, for masters that live in a compute or media domain. -/
def masterDomain (m : Nat) : Option Nat :=
  let i := masterIndex m
  match masterClass m with
  | 2 => some (clusterDomain i)
  | 3 => some (clusterDomain (i / 64))
  | 6 => some (mediaDomain (i / 64))
  | _ => none

/-- Does a job hold a core or cluster memory in a compute domain? -/
def Job.holdsIn (x : Job) (d : Nat) : Bool :=
  x.cores.any (fun n => clusterDomain (n / 16) == d) || (List.range 32).any fun c => clusterDomain c == d && (x.part c).2 != 0

/-- The first item that keeps a compute or media domain from switching off, as an object id (R24). -/
def Device.domainBlocker (s : Device) (d : Nat) : Option Nat :=
  let jobs := s.residents.filter fun j => match s.job? j with
    | some x => x.holdsIn d
    | none => false
  let work := jobs.map (fun j => O.jobState j) ++ (s.openStreams.filter fun k => mediaDomain (k / 64) == d).map s.streamHolder ++
    (s.openEncoders.filter fun k => mediaDomain (k / 64) == d).map s.encHolder
  let txns := (s.mem.txns.filter fun (t : Nat × Txn) => masterDomain t.2.master == some d).map fun (t : Nat × Txn) =>
    O.txnSlotMaster (t.1 / 64) (t.1 % 64)
  let chans := (s.mem.pool.filter fun (c : Nat × PoolCh) =>
    ownerDomain (s.num (O.channelOwner (c.1 / 1024) (c.1 % 1024))) == some d && s.chHeld (c.1 / 1024) (c.1 % 1024) != 0).map
    fun (c : Nat × PoolCh) => O.channelHeld (c.1 / 1024) (c.1 % 1024)
  (work ++ txns ++ chans).head?

/-- The state objects of the contexts that are OPENING or OPEN, in order (Table 13.9). A context whose state is not listed is CLOSED. -/
def Device.ctxsOpen (s : Device) : List Nat :=
  (s.objs.filter fun (p : Nat × Val) => decide (O.ctxState 0 ≤ p.1) && decide (p.1 < O.ctxState 4096) && (p.2 == .num 1 || p.2 == .num 2)).map
    fun (p : Nat × Val) => p.1

/-- The first item that blocks SLEEP (R441). -/
def Device.sleepBlocker (s : Device) : Option Nat :=
  (s.residents.map (fun j => O.jobState j) ++ s.openStreams.map (fun k => O.streamState (k / 64) (k % 64)) ++
    s.openEncoders.map (fun k => O.encodeState (k / 64) (k % 64)) ++
    s.ctxsOpen).head?

/-- The first item that blocks DEEP (R441). -/
def Device.deepBlocker (s : Device) : Option Nat :=
  match s.sleepBlocker with
  | some o => some o
  | none => (((List.range 64).filter fun q => s.num (O.queueState q) != 0).map (fun q => O.queueState q) ++
      (if s.num O.notifyRingEntries = 0 then [] else [O.notifyRingEntries])).head?

/-! ## Work in progress (R442) -/

/-- Does a core work for a job or a command? -/
def Device.coreBusy (s : Device) (n : Nat) : Bool :=
  !s.coreRests n || (s.hand? n).isSome || !(s.core n).gates.isEmpty || (match s.occupant n with
    | some j => (match s.job? j with | some x => x.cur.isSome | none => false)
    | none => false)

/-- Has a compute or media island a command, a job or a stream to work on? -/
def Device.islandBusy (s : Device) (isl : Nat) : Bool :=
  if isl < 18 then !(s.openStreams ++ s.openEncoders).all fun k => k / 64 != isl - 14
  else
    let cs := [2 * (isl - 18), 2 * (isl - 18) + 1]
    cs.any fun c => (List.range 16).any (fun k => s.coreBusy (coreNo c k)) || !(s.clu c).winQ.isEmpty || !(s.clu c).camQ.isEmpty ||
      !(s.walksOf c).isEmpty

/-- A job in RUNNING, WAITING, PREEMPTING or RESTORING. -/
def Device.jobsBusy (s : Device) : Bool := (List.range 32).any fun j => [jsRunning, jsWaiting, jsPreempting, jsRestoring].contains (s.jobCode j)

/-- A media engine works. -/
def Device.mediaBusy (s : Device) : Bool := s.net.engines.any fun e => e.2.now.isSome

/-- A core has no command running and holds no bank (R478). -/
def Device.coreQuiet (s : Device) (c k : Nat) : Bool :=
  s.coreStill (coreNo c k) && (s.core (coreNo c k)).banks.all fun b => b.st == BankState.free

/-! ## Mailboxes of a receiver that goes (R417) -/

/-- The mailbox rows: sender, receiver, doorbell bit, enabled. -/
def Device.mbRow (s : Device) (n : Nat) : Nat × Nat × Nat × Bool :=
  (s.num (O.mbSender n), s.num (O.mbReceiver n), s.num (O.mbBit n), s.flag (O.mbEnable n))

def Device.box (s : Device) (n : Nat) : Mailbox := tgetD s.host.boxes n {}

def Device.setBox (s : Device) (n : Nat) (b : Mailbox) : Device :=
  { s with host := { s.host with boxes := tset s.host.boxes n b {} } }

/-- When a receiver's domain switches off its channels are emptied: a held word counts as dropped, no tag is accepted (R417). -/
def Device.emptyReceiver (s : Device) (r : Nat) : Device :=
  let s : Device := (List.range 256).foldl (fun (s : Device) n =>
    let x := s.mbRow n
    if x.2.2.2 && x.2.1 == r then
      let s : Device := if (s.box n).full then s.bumpStat (O.mbStats n) 3 else s
      s.setBox n {}
    else s) s
  { s with host := { s.host with shared := tdel s.host.shared r, bells := tdel s.host.bells r } }

/-! ## Domains that switch on and off -/

/-- The units of a domain start (Table 18.2, steps 3 and 4): its ledgers are initialised; with D3 the segment table takes effect (R267). -/
def Device.domainUnitsOn (s : Device) (d : Nat) : Device :=
  let s : Device := s.initLedgers d
  if d = 3 then { s with mem := { s.mem with segs := s.segTable } } else s

/-- A cluster's units lose their state. -/
def Device.clusterOff (s : Device) (c : Nat) : Device :=
  let s : Device := (List.range 16).foldl (fun (s : Device) k => (s.setCore (coreNo c k) {}).cmClear (coreNo c k)) s
  let s : Device := s.clmClear c 0 clmBytes
  ({ s with clusters := tdel s.clusters c,
            work := { s.work with walks := tdel s.work.walks c, parts := tdel s.work.parts c } } : Device).emptyReceiver (2 + c)

/-- A media complex loses its state. -/
def Device.complexOff (s : Device) (m : Nat) : Device :=
  let other {α : Type} (t : Tbl α) : Tbl α := t.filter fun p => p.1 / 64 != m
  { s with net := { s.net with streams := other s.net.streams, encs := other s.net.encs,
                               engines := s.net.engines.filter fun p => p.1 / 32 != m, rejects := tdel s.net.rejects m,
                               damage := tdel s.net.damage m, occ := tdel s.net.occ m, splitAt := tdel s.net.splitAt m,
                               lastEnc := tdel s.net.lastEnc m } }

/-- The units of a domain stop: their state is lost, and their ledgers are discarded (R308). -/
def Device.domainUnitsOff (s : Device) (d : Nat) : Device :=
  let s : Device := s.dropLedgers d
  if 8 ≤ d then (s.clusterOff (2 * (d - 8))).clusterOff (2 * (d - 8) + 1)
  else if 4 ≤ d then s.complexOff (d - 4)
  else if d = 3 then { s with mem := { s.mem with cache := [], waiting := [], stalls := [], sliceLast := [], txns := [], due := [],
                                                  segs := [], retrainQ := [], retrainNow := [],
                                                  regions := [], hot := [] } }
  else if d = 2 then { s with net := { s.net with ports := [], ctxs := [], plans := [] } }
  else s

/-! ## Resets and power states -/

/-- A job slot becomes FREE. -/
def Device.slotFreed (s : Device) (j : Nat) : Device :=
  let s : Device := (s.dropSaveArea j).setNum (O.jobState j) jsFree
  let s : Device := (s.setNum (O.parallelMode j) 0xFF).setNum (O.selectorEntryCount j) 0
  { s with work := { s.work with jobs := tdel s.work.jobs j } }

/-- Every job leaves residency and its slot becomes FREE (R444, R468). -/
def Device.jobsAllFree (s : Device) : Device :=
  s.slotsUsed.foldl (fun (s : Device) j => (if s.resident j then s.jobLeaves j false else s).slotFreed j) s

/-- The caches write back every dirty line. -/
def Device.cacheFlushAll (s : Device) : Device := s.cacheFlush false fun _ => true

/-- Transactions past their commit point hold a reset or a change of power state back (R255), unless the memory islands have stopped. -/
def Device.installsWait (s : Device) : Bool := !s.errs.fatalStop && s.mem.txns.any fun t => t.2.state == TxnState.installing

/-- What survives of the data plane when D1 to D23 have been off: HBM with its fences where its contents are kept. -/
def Device.planesOff (s : Device) (keepHbm : Bool) : Device :=
  let m : MemSys := if keepHbm then { hbm := s.mem.hbm, fences := s.mem.fences, dead := s.mem.dead, lostLines := s.mem.lostLines } else {}
  { s with cores := [], clusters := [], loupe := {}, mem := m, work := {}, net := {} }

/-- A queue's transaction ends with a reset of the port (R403). -/
def Device.abortQueueTxn (s : Device) (q : Nat) : Device := s.abortMaster (masterId 0 q) 13

/-! ## Retirement (R480) -/

/-- The occupant's record of a core is marked invalid, and the logical core starts cleared. -/
def Device.recordInvalid (s : Device) (c k : Nat) : Device :=
  let n := coreNo c k
  let s : Device := match s.occupant n with
    | some j => s.modJob j fun x => { x with recs := x.recs.map fun (r : Nat × CoreRec) => if r.1 == n then (n, { r.2 with valid := false }) else r }
    | none => s
  ((s.setCore n {}).cmClear n).coreView n

/-- Every resident job with a core in a cluster leaves residency as under LEAVE, and is recorded. -/
def Device.jobsLeaveCluster (s : Device) (c : Nat) : Device :=
  s.residents.foldl (fun (s : Device) j => match s.job? j with
    | some x =>
      if x.cores.any fun n => n / 16 == c then
        (s.jobLeaves j false).record { cls := 8, node := 0x40 + c, master := masterId 1 j, cause := s.errs.seq }
      else s
    | none => s) s

end Sys2Proof.Machine
end

