-- ==== Sys2Proof/Machine/Checks.lean ====
section
/-! DEFINITION. Checks 4, 5 and 9 of R50 on the value of an item: type, length and range. The ranges are those of the Meaning
columns of the object tables; a range that depends on other objects is written out here. -/

namespace Sys2Proof.Machine

/-- A bit pattern of a finite binary32 strictly above zero. -/
def f32Positive (n : Nat) : Bool := 0 < n && n < 0x7F800000

/-- A bit pattern of zero (either sign) or of a positive number at most 1. -/
def f32UnitInterval (n : Nat) : Bool := n ≤ 0x3F800000 || n == 0x80000000

/-- The size of the flash area of slots A and B (R459): slot B only where the flash holds 64 MiB. -/
def Device.flashLimit (s : Device) : Nat := if 0x4000000 ≤ s.num O.flashBytes then 0x4000000 else 0x2000000

/-- The re-arm level of the WAKE_AIN comparator, in units of 10 mV (R450), for a polarity, a threshold and a hysteresis. -/
def ainRearm (pol thr hys : Nat) : Int := if pol = 0 then 10 + thr - (hys : Int) else 10 + thr + (hys : Int)

/-- The re-arm level lies within 0.00 V to 1.20 V. -/
def ainOk (pol thr hys : Nat) : Bool := 0 ≤ ainRearm pol thr hys && ainRearm pol thr hys ≤ 120

/-- The ranges that depend on other objects, or are no interval. -/
def Device.specialRange (s : Device) (oid n : Nat) : Bool :=
  let a := oidArea oid
  let o := oidObj oid
  if a = 8 && o = 0x041 then n ≤ 127 || 130 ≤ n
  else if oid = O.selectorBeta then 0 < n && n < 0x3F800000
  else if oid = O.selectorSatThreshold || oid = O.selectorUfThreshold then f32UnitInterval n
  else if a = 8 && o = 0x210 then f32Positive n
  else if oid = O.rcDecrease then 0 < n && n < 0x3F000000
  else if oid = O.splitHigh then s.num O.splitLow < n && n ≤ 0x3F800000
  else if oid = O.splitLow then n < s.num O.splitHigh || n == 0x80000000
  else if oid = O.savePoolBase || oid = O.savePoolBytes then aligned n 65536
  else if oid = O.watchdogDefaultMs then 10 ≤ n && n ≤ 3600000 && 4 * s.num O.commandTimeoutMs ≤ n
  else if a = 7 && o = 0x103 then 10 ≤ n && n ≤ 3600000 && 4 * s.num O.commandTimeoutMs ≤ n
  else if oid = O.commandTimeoutMs then 8 ≤ n && n ≤ 10000 && 4 * n ≤ s.num O.watchdogDefaultMs && 4 * n ≤ s.minWatchdog
  else if oid = O.bar2Base then s.bar2Ok n
  else if a = 0xB && (o = 0x010 || o = 0x012) then aligned n 4096
  else if a = 0xB && (o = 0x011 || o = 0x013) then isPow2In n 16 65536
  else if oid = O.notifyRingEntries then n == 0 || isPow2In n 16 4096
  else if oid = O.notifyRingBase then aligned n 4096
  else if oid = O.flashOffset || oid = O.flashErase then n < s.flashLimit
  else if a = 0 && o = 0x251 then n ≤ 95
  else if a = 0xC && 0x108 ≤ o && o < 0x10C then
    max (s.num (oid - 0x400)) 1 ≤ n && n ≤ 8192
  else true

/-- Ranges of BITS objects with fixed bits: bits 7 and 8 of 2.00.011 may not be cleared (R448). -/
def Device.bitsRange (_s : Device) (oid n : Nat) : Bool := if oid = O.wakeEnable then bit n 7 && bit n 8 else true

/-- The WAKE_AIN objects keep the re-arm level within the input range (R450). -/
def Device.ainRange (s : Device) (oid n : Nat) : Bool :=
  let thr := if oid = O.wakeAinThreshold then n else s.num O.wakeAinThreshold
  let hys := if oid = O.wakeAinHysteresis then n else s.num O.wakeAinHysteresis
  let pol := if oid = O.wakeAinPolarity then n else s.num O.wakeAinPolarity
  if oid = O.wakeAinThreshold || oid = O.wakeAinHysteresis || oid = O.wakeAinPolarity then ainOk pol thr hys else true

/-- The lengths a BLOB allows (Meaning columns); 4,096 bytes at most in general (Table 2.4). -/
def blobLenOk (oid len : Nat) : Bool :=
  let a := oidArea oid
  let o := oidObj oid
  if a = 0xF && o = 0x030 then len == 1312
  else if a = 6 && o = 0x010 then len == 144
  else if a = 6 && o = 0x100 then len == 96
  else if a = 5 && 0x100 ≤ o && o < 0x110 then len == 64
  else if a = 5 && 0x110 ≤ o && o < 0x120 then len ≤ 4096
  else if a = 5 && o = 0x005 then len == 16
  else if oid = O.resetRequest then len == 8
  else if oid = O.flashData then 1 ≤ len && len ≤ 4096
  else if oid = O.attestNonce then len == 32
  else if oid = O.debugToken then len == 3860
  else if oid = O.wakeFramePassword then len == 0 || len == 6
  else if a = 7 && o = 0x122 then len == 64
  else len ≤ 4096

/-- Check 5 of R50: the value length fits the type. -/
def lengthOk (oid : Nat) (t : Ty) (len : Nat) : Bool :=
  match t.width with
  | some w => len == w
  | none => match t with
    | .str => len ≤ 64
    | .blob => blobLenOk oid len
    | _ => 4 ≤ len

/-- Check 9 of R50: the value is in range. -/
def Device.rangeOk (s : Device) (oid : Nat) (d : ObjDesc) (v : Bytes) : Bool :=
  let n := beNat v
  (match d.ty with
    | .bool => n ≤ 1
    | .str => utf8Ok v.length v
    | _ => true) &&
  (match d.rng with
    | .any => true
    | .iv lo hi => lo ≤ n && n ≤ hi
    | .oneOf l => l.contains n
    | .mask _ => s.bitsRange oid n
    | .special => s.specialRange oid n) && s.ainRange oid n && (d.ty != .table || s.tableOk oid v)

/-- The value an item stores: reserved bits of a bit field are dropped (R39). -/
def itemVal (d : ObjDesc) (v : Bytes) : Val :=
  match d.ty.width with
  | none => .bytes v
  | some _ => match d.rng with
    | .mask m => .num (andBits (beNat v) m 64)
    | _ => .num (beNat v)

/-- Checks 4, 5 and 9 together (R446, R461). -/
def Device.valueCheck (s : Device) (oid : Nat) (d : ObjDesc) (ty : Nat) (v : Bytes) : Status :=
  if ty != d.ty.code then .type
  else if !lengthOk oid d.ty v.length then .length
  else if !s.rangeOk oid d v then .range
  else .ok

end Sys2Proof.Machine
end

