-- ==== Sys2Proof/Machine/Power.lean ====
section
/-! DEFINITION. Power domains, clocks, operating points, thermal and power limits, power states, the Locket and the wake sources
(18_power_clocks.md). -/

namespace Sys2Proof.Machine

/-! ## Tables 18.2, 18.3 and 18.5 -/

/-- Frequency in kHz and voltage in mV of an operating point (Table 18.5). -/
def opKhz : Nat → Nat
  | 0 => 1900000 | 1 => 1700000 | 2 => 1550000 | 3 => 1400000 | 4 => 1200000 | 5 => 1000000 | 6 => 800000 | _ => 600000

def opMv : Nat → Nat
  | 0 => 800 | 1 => 750 | 2 => 710 | 3 => 660 | 4 => 620 | 5 => 580 | 6 => 550 | _ => 520

/-- Wordline underdrive and negative bitline codes (Table 18.5). -/
def opW : Nat → Nat
  | 0 => 2 | 1 => 2 | 2 => 1 | 3 => 1 | _ => 0

def opN : Nat → Nat
  | 0 => 0 | 1 => 0 | 2 => 0 | 3 => 1 | 4 => 1 | 5 => 2 | _ => 3

/-- The islands of a domain (Table 1.4). -/
def domainIslands (d : Nat) : List Nat :=
  if d = 0 then [0] else if d = 1 then [1, 2, 3, 4, 5] else if d = 2 then [10, 11, 12, 13]
  else if d = 3 then [6, 7, 8, 9] else [d + 10]

/-- The domain of an island. -/
def islandDomain (i : Nat) : Nat :=
  if i = 0 then 0 else if i ≤ 5 then 1 else if i ≤ 9 then 3 else if i ≤ 13 then 2 else i - 10

/-- The die of a domain (Table 1.4). -/
def domainDie (d : Nat) : Nat := if d < 4 then 0 else if d < 8 then d - 4 else (d - 8) / 4

/-- The frequency of an island in RUN (Table 18.3). -/
def runKhz (i : Nat) : Nat :=
  if i = 0 then 25000 else if i = 1 then 1200000 else if i ≤ 5 then 2000000 else if i ≤ 13 then 1600000
  else if i ≤ 17 then 1200000 else 600000

/-- The crossings of a domain's island (Table 1.6): compute 0 to 15, media 24 to 27, and the management sideband 32 + island; and the keys of
their directions that lead into the domain. -/
def domainCrossings (d : Nat) : List Nat :=
  if d < 4 then [] else if d < 8 then [24 + (d - 4), 32 + (d + 10)] else [d - 8, 32 + (d + 10)]
def crossingsInto (d : Nat) : List Nat := (domainCrossings d).map fun x => 2 * x + 1

/-- Sets what an island's objects read: source and frequency (element i + 2). -/
def Device.setIsland (s : Device) (i src khz : Nat) : Device :=
  (s.setNum (O.islandSource (i + 2)) src).setNum (O.islandFrequencyKhz (i + 2)) khz

/-- Switches an island to another source and counts the switch (R428). -/
def Device.switchIsland (s : Device) (i src khz : Nat) : Device :=
  (s.setIsland i src khz).bump (O.islandSwitches (i + 2))

/-! ## Operating points (R432 to R434) -/

def Device.opOf (s : Device) (d : Nat) : OpState := tgetD s.power.ops d {}

def Device.setOp (s : Device) (d : Nat) (o : OpState) : Device :=
  { s with power := { s.power with ops := tset s.power.ops d o {} } }

/-- The effective point of compute domain d: the slowest of the request, the die's thermal cap and the power cap (R432). -/
def Device.effective (s : Device) (d : Nat) : Nat :=
  max (s.num (O.opRequest (d - 8))) (max (s.num (O.thermalCapPoint (domainDie d))) (s.num O.powerCapPoint))

/-- Starts a move (R433): the codes take the larger values, the other PLL begins to lock, and a faster point begins to ramp. -/
def Device.startMove (s : Device) (d b : Nat) : Device :=
  let o := s.opOf d
  let a := o.point
  let m : OpMove := { src := a, dst := b, start := s.uptime, rampStart := if b < a then some s.uptime else none }
  (s.setOp d { o with move := some m, pendingChange := false, w := max (opW a) (opW b), n := max (opN a) (opN b) }).bump
    (O.opChanges (d - 8))

/-- A domain's effective point may have changed: report it, and start a move or keep the change for the end of the one in
progress (R432, R434). A domain that is off moves when it is switched on (Table 18.2). -/
def Device.reevaluate (s : Device) (d : Nat) : Device :=
  let e := s.effective d
  let s : Device := s.setNum (O.opEffective (d - 8)) e
  let o := s.opOf d
  if s.num (O.domainState d) != 2 then s
  else match o.move with
    | some m => s.setOp d { o with pendingChange := decide (e ≠ m.dst) }
    | none => if e = o.point then s else s.startMove d e

/-- Every compute domain of a list is evaluated again. -/
def Device.reevaluateAll (s : Device) (l : List Nat) : Device := l.foldl Device.reevaluate s

/-- The compute domains of a die. -/
def dieDomains (q : Nat) : List Nat := [8 + 4 * q, 9 + 4 * q, 10 + 4 * q, 11 + 4 * q]

/-- The island of a domain in a move switches to the PLL that has locked (R428, R433). -/
def Device.opSwitch (s : Device) (d : Nat) (o : OpState) (b : Nat) : Device :=
  (s.setOp d { o with pllB := !o.pllB }).switchIsland (d + 10) (if o.pllB then 1 else 2) (opKhz b)

/-! ## The Locket (R446, R447) -/

/-- The ids of the objects of an area's rows that pass a test, in table order. -/
def oidsOf (area : Nat) (p : ObjDesc → Bool) : List Nat :=
  (objRows area).flatMap fun d =>
    if p d then
      (List.range d.nodes).flatMap fun i => (List.range d.banks).flatMap fun g => (List.range d.elems).map fun e =>
        oidOf d.area (d.node0 + i) (d.obj0 + g) e
    else []

/-- A value can be written and read back. -/
def ObjDesc.writable (d : ObjDesc) : Bool := d.acc == .rw || d.acc == .rws || d.acc == .rwc || d.acc == .adm

/-- The cluster objects of region 2. -/
def scrubOids : List Nat := (List.range 32).flatMap fun c => [O.cmemScrubPeriodMs c, O.clmemScrubPeriodMs c]

/-- Action objects hold no value to keep: a thaw, a lock, a clear or a commit. -/
def actionObject (d : ObjDesc) : Bool :=
  d.name == "locket_clear" || d.name == "queue_thaw" || d.name == "master_thaw" || d.name == "frozen_masters" ||
    d.name == "job_thaw" || d.name == "registration_address"

/-- The objects of a Locket region (Table 18.10); region 0 is the header. -/
def locketOids : Nat → List Nat
  | 1 => oidsOf 2 fun d => d.writable && !actionObject d
  | 2 => ([3, 4, 5, 6, 7, 8, 0xA, 0xC, 0xD].flatMap fun a =>
           oidsOf a fun d => d.writable && d.node0 == 0 && !actionObject d && d.name != "segment_table" && d.banks == 1)
         ++ scrubOids
  | 3 => [O.foreriUdpPort, O.sessionIdleTimeoutS, O.txnIdleTimeoutMs] ++
         oidsOf 0xF fun d => d.obj0 == 0x030 || d.obj0 == 0x031 || d.obj0 == 0x032 || d.obj0 == 0x040 || d.obj0 == 0x041 ||
           d.obj0 == 0x042
  | 4 => oidsOf 5 fun d => d.node0 == 0xA0 && (d.obj0 ≤ 0x00F || d.obj0 == 0x012)
  | 5 => oidsOf 0xB fun d => d.node0 == 0 && 0x100 ≤ d.obj0 && d.obj0 ≤ 0x103
  | 6 => [O.segmentTable, O.linkRateCap, O.bar2Base, O.notifyRingBase, O.notifyRingEntries]
  | _ => []

/-- Saves a region and marks it valid (R446, R447). -/
def Device.saveRegion (s : Device) (r : Nat) : Device :=
  let vals := (locketOids r).map fun o => (o, s.val o)
  let s : Device := { s with power := { s.power with locket := tput s.power.locket r vals } }
  s.setNum O.locketValid (setBit (setBit (s.num O.locketValid) r) 0)

/-- Restores one saved value as a write of the device manager: a value refused under checks 4, 5, 8 or 9 is skipped and counted
(R446). -/
def Device.restoreOne (s : Device) (p : Nat × Val) : Device :=
  match lookup p.1 with
  | .found d =>
    if s.valueCheck p.1 d d.ty.code (valBytes d.ty p.2) = .ok || d.ty == .table then s.setVal p.1 p.2
    else s.bump O.locketErrors
  | _ => s

/-- Restores the objects of a valid region that pass a test. -/
def Device.restoreRegion (s : Device) (r : Nat) (p : Nat → Bool) : Device :=
  if bit (s.num O.locketValid) r then
    ((tgetD s.power.locket r []).filter fun x => p x.1).foldl Device.restoreOne s
  else s

/-- A region whose save or restore meets an uncorrected error is invalid (R447). -/
def Device.regionError (s : Device) (r off : Nat) : Device :=
  if bit (s.num O.locketValid) r then
    let s : Device := s.setNum O.locketValid (clrBit (s.num O.locketValid) r)
    (s.bump O.locketErrors).event { cls := 2, unit := 0x0B, node := 0x10, elem := r, addr := off, status := 0x11 }
  else s

/-- Region 2 at the end of a switch: its save or restore may have met an uncorrected error. -/
def Device.switchMet (s : Device) : Option (BitVec 16) → Device
  | some off => s.regionError 2 off.toNat
  | none => s

/-- Marks every region invalid (R447). -/
def Device.locketInvalidate (s : Device) : Device :=
  { s.setNum O.locketValid 0 with power := { s.power with locket := [] } }

/-! ## Domain switching (R423, R424) -/

/-- Resets every object of a domain's units to its default (R8, R446, R461): the values stored for objects that the domain
owns. -/
def Device.clearDomainObjs (s : Device) (d : Nat) : Device :=
  let keep := s.objs.filter fun p => ownerDomain p.1 != some d
  let dfl := s.startup.dflts.filter fun p => ownerDomain p.1 == some d
  dfl.foldl (fun (s : Device) p => s.setVal p.1 p.2) { s with objs := keep }

/-- Starts the switch-on of a domain (Table 18.2, steps 1 and 2). -/
def Device.beginOn (s : Device) (d : Nat) : Device :=
  let s : Device := s.setNum (O.domainState d) 1
  s.setNum (O.domainVoltageMv d) (if d < 8 then 750 else 520)

/-- Starts the switch-off of a domain (R424, step 1 and 2): its islands stop, the crossings into it are emptied (R29), its units
stop, and the region of the Locket is saved. -/
def Device.beginOff (s : Device) (d : Nat) : Device :=
  let s : Device := s.setNum (O.domainState d) 3
  let s : Device := (domainIslands d).foldl (fun (s : Device) i => s.setIsland i 4 0) s
  let s : Device := { s with xing := (crossingsInto d).foldl (fun x c => tdel x c) s.xing }
  let s : Device := s.saveRegion 2
  s.domainUnitsOff d

/-- Executes one domain request against the state it finds (R423, R424). -/
def Device.domainReq (s : Device) (d code : Nat) : Ans :=
  let st := s.num (O.domainState d)
  let moving := (s.opOf d).move.isSome && 8 ≤ d
  if st = 1 || st = 3 || (code = 2 && moving && st = 2) then
    { s := { s with power := { s.power with waitOn := tset s.power.waitOn d (tgetD s.power.waitOn d [] ++ [code]) [] } } }
  else if code = 1 then
    if st = 2 then s.okay else (s.beginOn d).okay
  else if st = 0 then s.okay
  else match s.domainBlocker d with
    | some o => s.deny .state o
    | none => (s.beginOff d).okay

/-- The checks before a domain request (R23, R423). -/
def Device.domainWrite (s : Device) (d code : Nat) : Ans :=
  let oid := O.domainControl d
  if d < 4 then s.deny .access oid
  else if s.power.trans ≠ .none then s.deny .busy
  else if 1 < s.num O.powerState || !(s.domainOn 1 && s.domainOn 2 && s.domainOn 3) then s.deny .state oid
  else s.domainReq d code

/-- The oldest waiting request of a domain is executed once a switch or a move has ended (R423). -/
def Device.nextDomainReq (s : Device) (d : Nat) : Device :=
  match tgetD s.power.waitOn d [] with
  | [] => s
  | c :: r =>
    let s : Device := { s with power := { s.power with waitOn := tset s.power.waitOn d r [] } }
    (s.domainReq d c).s

/-- A switch-on ends (Table 18.2, steps 3 to 5): the arrays read zero, the domain's objects take their defaults, the Locket
values of its clusters are restored, the ledgers are initialised, the islands run, and a compute domain moves to its
effective point. -/
def Device.finishOn (s : Device) (d : Nat) : Device :=
  let s : Device := s.clearDomainObjs d
  let s : Device := s.domainUnitsOn d
  let s : Device := s.restoreRegion 2 fun o => oidArea o == 3 && ownerDomain o == some d
  let s : Device := (domainIslands d).foldl (fun (s : Device) i => s.switchIsland i 1 (runKhz i)) s
  let s : Device := s.setNum (O.domainState d) 2
  let s : Device := if 8 ≤ d then (s.setOp d {}).reevaluate d else s
  s.nextDomainReq d

/-- DOMAIN_ON: a write of 1 to 2.(10+d).061 (R423). -/
def execDomainOn (d : Fin 24) (s : State) : Outc := s.run fun (s : Device) =>
  s.ownWrite (O.domainControl d.val) fun s => s.domainWrite d.val 1

/-- DOMAIN_ON_COMPLETE (R423, Table 18.2, R447). -/
def execDomainOnComplete (d : Switched) (s : State) : Outc := s.run fun (s : Device) =>
  (if 4 ≤ d.dom.val && s.num (O.domainState d.dom.val) == 1 then (s.switchMet d.bad).finishOn d.dom.val else s)

/-- DOMAIN_OFF: a write of 2 to 2.(10+d).061 (R424). -/
def execDomainOff (d : Fin 24) (s : State) : Outc := s.run fun (s : Device) =>
  s.ownWrite (O.domainControl d.val) fun s => s.domainWrite d.val 2

/-- Tests pending or running on a unit of a domain that switches off end with result 3 (R478). -/
def nodeDomain (n : Nat) : Nat :=
  if 0x40 ≤ n && n < 0x60 then 8 + (n - 0x40) / 2 else if 0xA0 ≤ n then 2
  else if 0x60 ≤ n && n < 0x74 then 3 else if 0x30 ≤ n && n < 0x34 then 4 + (n - 0x30) else 1

/-- A test ends with result 3, not run. -/
def Device.testNotRun (s : Device) (r : AssayReq) : Device :=
  (s.bump (O.assayResults 3)).record
    { cls := 7, unit := r.unit, node := r.node, elem := r.elem, addr := r.addr, result := 3, cause := r.cause }

/-- Every test that meets a condition ends with result 3. -/
def Device.dropTests (s : Device) (p : AssayReq → Bool) : Device :=
  let gone := (s.errs.running.map (·.2)).filter p ++ s.errs.pending.filter p
  let s : Device := { s with errs := { s.errs with
    running := s.errs.running.filter (fun x => !p x.2), pending := s.errs.pending.filter (fun x => !p x) } }
  let s : Device := s.setNum O.assayPending s.errs.pending.length
  gone.foldl Device.testNotRun s

/-- The power switch opens (R424 step 3): the tests of the domain's units end, its objects take their defaults, it reads off and 0 mV, and
the oldest waiting request is executed. -/
def Device.finishOff (s : Device) (d : Nat) : Device :=
  let s : Device := s.dropTests fun r => nodeDomain r.node == d
  let s : Device := s.clearDomainObjs d
  let s : Device := (s.setNum (O.domainState d) 0).setNum (O.domainVoltageMv d) 0
  let s : Device := (domainIslands d).foldl (fun (s : Device) i => s.setIsland i 4 0) s
  let s : Device := if 8 ≤ d then s.setOp d {} else s
  s.nextDomainReq d

/-- DOMAIN_OFF_COMPLETE (R424, R447). -/
def execDomainOffComplete (d : Switched) (s : State) : Outc := s.run fun (s : Device) =>
  (if 4 ≤ d.dom.val && s.num (O.domainState d.dom.val) == 3 then (s.switchMet d.bad).finishOff d.dom.val else s)

/-! ## Clock sources (R425 to R430) -/

/-- Records the entry to a start-up state (R455) and announces the change (Table 17.3, cause bit 4). -/
def Device.enterState (s : Device) (c : Nat) : Device :=
  let s : Device := s.setNum O.startupState c
  let s : Device := { s with startup := { s.startup with times := s.startup.times ++ [(c, s.uptime)] } }
  s.setCause 4

/-- CRYSTAL_STABLE: 65,536 crystal cycles counted; island 0 switches to the crystal and the uptime counter starts at 0 (R425). -/
def execCrystalStable (s : State) : Outc := s.run fun (s : Device) =>
  (if s.startupCode ≤ suXtal && s.startup.powered && s.num O.crystalStatus == 0 then
    let s : Device := if s.startupCode = suAonUp then s.enterState suXtal else s
    let s : Device := s.setNum O.crystalStatus 1
    let s : Device := s.switchIsland 0 3 25000
    { s with uptime := 0 }
  else s)

/-- CRYSTAL_ABSENT: the count has not completed after 20 ms (R425, R456). -/
def execCrystalAbsent (s : State) : Outc := s.run fun (s : Device) =>
  (if s.startupCode ≤ suXtal && s.startup.powered && s.num O.crystalStatus == 0 then
    let s : Device := if s.startupCode = suAonUp then s.enterState suXtal else s
    let s : Device := s.setNum O.crystalStatus 2
    s.setNum O.startupWarnings (setBit (s.num O.startupWarnings) 0)
  else s)

/-- The reference of the RC trim: 1 crystal, 2 PCIe REFCLK, 0 none (R426). -/
def Device.trimReference (s : Device) : Nat :=
  if s.num O.crystalStatus = 1 then 1 else if bit (s.num O.refclkPresent) 1 then 2 else 0

/-- round((16,384 - N) / 16.384), ties away from zero (log entry 9). -/
def trimSteps (n : Nat) : Int :=
  let x : Int := 1000 * (16384 - (n : Int))
  if 0 ≤ x then (2 * x + 16384) / 32768 else -((2 * (-x) + 16384) / 32768)

/-- Moves the trim code by a number of steps, within its U16. -/
def Device.moveTrim (s : Device) (k : Int) : Device :=
  s.setNum O.rcTrimCode (min 0xFFFF (max 0 ((s.num O.rcTrimCode : Int) + k)).toNat)

/-- RC_RETRIM: a measurement moves the code by at most one step (R426). -/
def execRcRetrim (n : BitVec 16) (s : State) : Outc := s.run fun (s : Device) =>
  (if s.trimReference = 0 || !s.domainOn 0 then s
   else (s.setNum O.rcTrimReference s.trimReference).moveTrim (max (-1) (min 1 (trimSteps n.toNat))))

/-- The bits of a clock's enables that may be written (Table 18.4). -/
def clockWritable (i : Nat) : Nat := if 12 ≤ i && i ≤ 15 then 1 else if i = 45 then 4 else 0

/-- A port of die q has port_mode other than 0. -/
def Device.anyPortOn (s : Device) (q : Nat) : Bool := (List.range 24).any fun l => s.num (O.portMode (24 * q + l)) != 0

/-- A write of 2.00.030[i] (R429): fixed bits may not change; a link-layer run enable may be cleared only with every port of the
die off. The SerDes PLL follows its island. -/
def Device.clockWrite (s : Device) (i v : Nat) : Ans :=
  let oid := O.clockEnables i
  let old := s.num oid
  let v := v % 8
  if (List.range 3).any (fun b => bit v b != bit old b && !bit (clockWritable i) b) then s.deny .range oid
  else if 12 ≤ i && i ≤ 15 && !bit v 0 && s.anyPortOn (i - 12) then s.deny .state oid
  else
    let s : Device := s.setNum oid v
    if 12 ≤ i && i ≤ 15 then
      let s : Device := s.setNum (O.clockEnables (36 + (i - 12))) (if bit v 0 then 1 else 0)
      if bit v 0 && !bit old 0 then (s.setIsland (i - 2) 1 (runKhz (i - 2))).okay
      else if !bit v 0 && bit old 0 then (s.setIsland (i - 2) 4 0).okay
      else s.okay
    else s.okay

/-- CLOCK_ENABLE_WRITE (R429). -/
def execClockEnableWrite (i : Fin 46) (v : BitVec 32) (s : State) : Outc := s.run fun (s : Device) =>
  s.ownWrite (O.clockEnables i.val) fun s => s.clockWrite i.val v.toNat

/-! ## Operating-point commands -/

/-- A write of 2.(10+d).062 (R432). -/
def Device.opWrite (s : Device) (d p : Nat) : Ans :=
  ((s.setNum (O.opRequest (d - 8)) p).reevaluate d).okay

/-- OP_REQUEST: the i-th compute domain, D(8 + i), is asked for a point (R432). -/
def execOpRequest (i : Fin 16) (p : Fin 8) (s : State) : Outc := s.run fun (s : Device) =>
  s.ownWrite (O.opRequest i.val) fun s => s.opWrite (8 + i.val) p.val

/-- A move ends (R433, R434): the codes take their values at b, a change kept during the move is applied as one move, and a
domain request that waited is executed. -/
def Device.endMove (s : Device) (d b : Nat) : Device :=
  let s : Device := s.setOp d { s.opOf d with point := b, move := none, w := opW b, n := opN b, pendingChange := false }
  let e := s.effective d
  if e = b then s.nextDomainReq d else s.startMove d e

/-- Counts a voltage ramp takes at 5 mV per microsecond (R433). -/
def rampTime (a b : Nat) : Nat := us ((max (opMv a) (opMv b) - min (opMv a) (opMv b)) / 5)

/-- OP_MOVE_LOCK_DONE: 500 uptime counts after the start the other PLL has locked (R433). A slower point switches the island now
and then ramps; a faster one switches once the ramp has ended too. -/
def execOpMoveLockDone (i : Fin 16) (s : State) : Outc := s.run fun (s : Device) =>
  (let d := 8 + i.val
   let o := s.opOf d
   match o.move with
   | some m =>
     if m.lockDone || s.uptime < m.start + 500 then s
     else if m.src < m.dst then
       let o' := { o with move := some { m with lockDone := true, rampStart := some s.uptime } }
       s.opSwitch d o' m.dst
     else if m.rampDone then
       let s : Device := s.opSwitch d { o with move := some { m with lockDone := true } } m.dst
       s.endMove d m.dst
     else s.setOp d { o with move := some { m with lockDone := true } }
   | none => s)

/-- OP_MOVE_RAMP_DONE: the voltage has reached b's (R433). -/
def execOpMoveRampDone (i : Fin 16) (s : State) : Outc := s.run fun (s : Device) =>
  (let d := 8 + i.val
   let o := s.opOf d
   match o.move with
   | some m =>
     match m.rampStart with
     | some t =>
       if m.rampDone || s.uptime < t + rampTime m.src m.dst then s
       else
         let s : Device := s.setNum (O.domainVoltageMv d) (opMv m.dst)
         if m.src < m.dst then s.endMove d m.dst
         else if m.lockDone then
           let s : Device := s.opSwitch d { o with move := some { m with rampDone := true } } m.dst
           s.endMove d m.dst
         else s.setOp d { o with move := some { m with rampDone := true } }
     | none => s
   | none => s)

/-! ## Thermal and power limits (R435 to R439) -/

/-- Sets a die's thermal cap and counts the change (R436). -/
def Device.setThermalCap (s : Device) (q c : Nat) : Device :=
  if s.num (O.thermalCapPoint q) = c then s
  else ((s.setNum (O.thermalCapPoint q) c).bump (O.throttleEvents q)).reevaluateAll (dieDomains q)

/-- One point slower, to at most P7; one point faster, where P1 becomes none. -/
def slower (c : Nat) : Nat := min (c + 1) 7
def faster (c : Nat) : Nat := c - 1

/-- The highest reading of a die. -/
def maxReading (l : List Int) : Int := l.foldl max (l.headD 0)

/-- One 100 µs evaluation of die q with the readings of its eight sensors in units of 0.25 °C (R435, R436). -/
def Device.thermalEval (s : Device) (q : Nat) (l : List Int) : Device :=
  let t := maxReading l
  let s : Device := s.setNum (O.dieTemperatureQc q) (ofSigned 16 t)
  let s : Device := { s with power := { s.power with
      sensors := (List.range 8).foldl (fun m k => tset m (8 * q + k) (l.getD k 0) 0) s.power.sensors } }
  let tt : Int := 4 * (s.num O.throttleC : Int)
  let cap := s.num (O.thermalCapPoint q)
  let since := tget? s.power.belowSince q
  let clr (s : Device) : Device := { s with power := { s.power with belowSince := tdel s.power.belowSince q } }
  let hold := t ≥ 420
  let s : Device := { s with power := { s.power with
      beHold := if hold then (if s.power.beHold.contains q then s.power.beHold else q :: s.power.beHold)
                else s.power.beHold.filter (· ≠ q) } }
  if hold then (clr s).setThermalCap q 7
  else if tt ≤ t then (clr s).setThermalCap q (slower cap)
  else if t < tt - 12 then
    match since with
    | none => { s with power := { s.power with belowSince := tput s.power.belowSince q s.uptime } }
    | some t0 =>
      if t0 + ms 1 ≤ s.uptime then
        let s : Device := { s with power := { s.power with belowSince := tput s.power.belowSince q s.uptime } }
        s.setThermalCap q (faster cap)
      else s
  else clr s

/-- THERMAL_EVALUATION (R436). -/
def execThermalEvaluation (q : Fin 4) (readings : List (BitVec 16)) (s : State) : Outc := s.run fun (s : Device) =>
  (if s.domainOn 0 then s.thermalEval q.val (readings.map fun b => b.toInt) else s)

/-- The record of a thermal trip (2.00.056). -/
def tripRecord (time die sensor temp : Nat) : Bytes :=
  beBytes 8 time ++ beBytes 1 die ++ beBytes 1 sensor ++ beBytes 2 temp ++ beBytes 4 0

/-- Every island but 0 stops. -/
def Device.stopIslands (s : Device) : Device := (List.range 33).foldl (fun (s : Device) i => s.setIsland (i + 1) 4 0) s

/-- THERMAL_TRIP: a sensor reads 110 °C or more (R437). THERM_TRIP_N is asserted and every island but 0 stops. -/
def execThermalTrip (q : Fin 4) (sensor : Fin 8) (reading : BitVec 16) (s : State) : Outc := s.run fun (s : Device) =>
  (if 440 ≤ reading.toInt && s.domainOn 0 && !s.power.trip then
    let s : Device := { s with power := { s.power with trip := true }, board := { s.board with thermTripN := true } }
    s.stopIslands.setBytes O.thermalTripRecord (tripRecord s.uptime q.val sensor.val reading.toNat)
  else s)

/-- Sets the power cap (R439). -/
def Device.setPowerCap (s : Device) (c : Nat) : Device :=
  if s.num O.powerCapPoint = c then s
  else (s.setNum O.powerCapPoint c).reevaluateAll ((List.range 16).map (· + 8))

/-- POWER_EVALUATION: the 1 ms mean in milliwatts (R439). -/
def execPowerEvaluation (mw : BitVec 32) (s : State) : Outc := s.run fun (s : Device) =>
  (let lim := 1000 * s.num O.powerLimitW
   let cap := s.num O.powerCapPoint
   let s : Device := s.setNum O.powerMw mw.toNat
   let cnt (s : Device) (n : Nat) : Device := { s with power := { s.power with below95 := n } }
   if lim ≤ mw.toNat then (cnt s 0).setPowerCap (slower cap)
   else if 100 * mw.toNat < 95 * lim then
     if s.power.below95 + 1 = 10 then (cnt s 0).setPowerCap (faster cap) else cnt s (s.power.below95 + 1)
   else cnt s 0)

/-! ## Power states (R440 to R445) -/

/-- The compute and media domains that are on. -/
def Device.domainsOn (s : Device) : List Nat := ((List.range 20).map (· + 4)).filter fun d => s.num (O.domainState d) == 2

/-- Begins the entry to SLEEP or DEEP (Table 18.7, steps 1 and 2): transactions end, tests end, domains begin to switch off. -/
def Device.beginSleep (s : Device) (target : Nat) : Device :=
  let s : Device := s.endAllTxns
  let s : Device := s.dropTests fun _ => true
  let on := s.domainsOn
  let s : Device := on.foldl Device.beginOff s
  let s : Device := s.setNum O.powerTransition 1
  { s with power := { s.power with trans := .entering target, recorded := on, pendingWakes := [], wakeHeld := false } }

/-- A write to 2.00.001 (R441). -/
def Device.powerRequest (s : Device) (target : Nat) : Ans :=
  let st := s.num O.powerState
  if s.power.trans ≠ .none then s.deny .busy
  else if s.startupCode != suReady then s.deny .state O.powerStateRequest
  else if target = st then s.okay
  else if target = 0 then
    if st = 1 then (s.leaveIdle 7).okay
    else
      let s : Device := s.wakeEvent 7
      { s := { s with power := { s.power with trans := .exiting 0 } }.setNum O.powerTransition 2 }
  else if target = 1 then
    if st = 0 then
      let s : Device := s.setNum O.powerState 1
      { s := { s with power := { s.power with pendingWakes := [], idleSince := [] } } }
    else
      let s : Device := s.wakeEvent 7
      { s := { s with power := { s.power with trans := .exiting 1 } }.setNum O.powerTransition 2 }
  else if target = 2 then
    match s.sleepBlocker with
    | some o => s.deny .state o
    | none => (s.beginSleep 2).okay
  else match s.deepBlocker with
    | some o => s.deny .state o
    | none => (s.beginSleep 3).okay

/-- REQUEST_RUN (R441). -/
def execRequestRun (s : State) : Outc := s.run fun (s : Device) =>
  s.ownWrite (O.powerStateRequest) fun s => s.powerRequest 0
/-- REQUEST_IDLE (R441). -/
def execRequestIdle (s : State) : Outc := s.run fun (s : Device) =>
  s.ownWrite (O.powerStateRequest) fun s => s.powerRequest 1
/-- REQUEST_SLEEP (R441, Table 18.7). -/
def execRequestSleep (s : State) : Outc := s.run fun (s : Device) =>
  s.ownWrite (O.powerStateRequest) fun s => s.powerRequest 2
/-- REQUEST_DEEP (R441, R444). -/
def execRequestDeep (s : State) : Outc := s.run fun (s : Device) =>
  s.ownWrite (O.powerStateRequest) fun s => s.powerRequest 3

/-- ISLAND_GATE: in IDLE a compute or media island with no work and empty crossings is gated after 2.00.003 µs (R442). The
interval runs from the first evaluation that finds it idle. -/
def execIslandGate (i : Fin 20) (s : State) : Outc := s.run fun (s : Device) =>
  (let isl := 14 + i.val
   let d := islandDomain isl
   let idle := s.num O.powerState == 1 && s.domainOn d && !s.islandBusy isl &&
     (domainCrossings d).all fun c => (tgetD s.xing (2 * c) {}).fifo.isEmpty && (tgetD s.xing (2 * c + 1) {}).fifo.isEmpty
   if !idle then { s with power := { s.power with idleSince := tdel s.power.idleSince isl } }
   else match tget? s.power.idleSince isl with
     | none => { s with power := { s.power with idleSince := tput s.power.idleSince isl s.uptime } }
     | some t =>
       if s.power.gated.contains isl || s.uptime < t + us (s.num O.idleGateUs) then s
       else { s with power := { s.power with gated := isl :: s.power.gated } })

/-- ISLAND_UNGATE: an item entering a crossing toward a gated island restarts it (R442). -/
def execIslandUngate (i : Fin 20) (s : State) : Outc := s.run fun (s : Device) =>
  (let isl := 14 + i.val
   { s with power := { s.power with gated := s.power.gated.filter (· ≠ isl), idleSince := tdel s.power.idleSince isl } })

/-- IDLE_AUTO_EXPIRY: no work for 2.00.004 ms (R442). -/
def execIdleAutoExpiry (s : State) : Outc := s.run fun (s : Device) =>
  (let t := s.num O.idleAutoMs
   if t = 0 || s.num O.powerState != 0 || s.power.trans ≠ .none || s.startupCode != suReady || s.jobsBusy || s.mediaBusy ||
      s.uptime < s.power.autoSince + ms t then s
   else (s.powerRequest 1).s)

/-- The islands after a SLEEP entry (Table 18.3): 1 to 9 on RC, the link layer stopped. -/
def Device.sleepIslands (s : Device) : Device :=
  let s : Device := ((List.range 9).map (· + 1)).foldl (fun (s : Device) i => s.switchIsland i 0 400000) s
  [10, 11, 12, 13].foldl (fun (s : Device) i => s.setIsland i 4 0) s

/-- A domain that was switching off is off. -/
def Device.endOff (s : Device) (d : Nat) : Device :=
  let s : Device := s.clearDomainObjs d
  let s : Device := (s.setNum (O.domainState d) 0).setNum (O.domainVoltageMv d) 0
  if 8 ≤ d then s.setOp d {} else s

/-- Table 18.7, steps 2 to 6: the domains are off, the caches written back, the stacks in self-refresh, the lanes idle, islands 1
to 9 on RC. -/
def Device.sleepSteps (s : Device) : Device :=
  let s : Device := s.power.recorded.foldl Device.endOff s
  let s : Device := s.cacheFlushAll
  let s : Device := (List.range 20).foldl (fun (s : Device) k => s.setNum (O.refreshMode k) 2) s
  let s : Device := { s with power := { s.power with selfRefresh := true, lanesIdle := true, retention := true } }
  s.sleepIslands

/-- The first wake held during an entry is recorded (R445). -/
def Device.recordHeld (s : Device) (left : Nat) : Device :=
  if s.power.wakeHeld then
    let w := lowest s.power.pendingWakes
    s.setBytes O.lastWake (wakeRecord w left (wakeMask w s.power.pendingWakes) s.uptime)
  else s

/-- SLEEP_ENTRY_COMPLETE (R443, Table 18.7). On the way to DEEP the entry continues with R444. -/
def execSleepEntryComplete (s : State) : Outc := s.run fun (s : Device) =>
  (match s.power.trans with
   | .entering 2 => if s.installsWait then s else
     let s : Device := s.sleepSteps
     let s : Device := (s.setNum O.powerState 2).setNum O.powerTransition 0
     let s : Device := { s with power := { s.power with trans := .none } }
     s.recordHeld 2
   | _ => s)

/-- SLEEP_EXIT: a recorded wake starts the exit toward RUN (R443, Table 18.8). -/
def execSleepExit (s : State) : Outc := s.run fun (s : Device) =>
  (if s.num O.powerState = 2 && s.power.trans = .none && s.power.wakeHeld then
    ({ s with power := { s.power with trans := .exiting 0 } }).setNum O.powerTransition 2
  else s)

/-- Enabled ports begin to train (Table 18.8, step 4); one with a failed lane stays down (Table 20.3). -/
def Device.trainPorts (s : Device) : Device :=
  (List.range 96).foldl (fun (s : Device) l => if s.num (O.portMode l) = 0 then s else
    let lanes := (List.range (s.num (O.portLanes l))).map fun i => l + i
    let st := if lanes.any s.laneFailed then 3 else 1
    (lanes.foldl (fun (s : Device) i => s.setNum (O.laneState i) st) s).setNum (O.portState l) st) s

/-- Table 18.8: islands back on their PLLs, HBM out of self-refresh, ports training, the recorded domains on. -/
def Device.sleepExitSteps (s : Device) : Device :=
  let s : Device := ((List.range 9).map (· + 1)).foldl (fun (s : Device) i => s.switchIsland i 1 (runKhz i)) s
  let s : Device := [10, 11, 12, 13].foldl (fun (s : Device) i =>
    if bit (s.num (O.clockEnables (i + 2))) 0 then s.setIsland i 1 (runKhz i) else s) s
  let s : Device := (List.range 20).foldl (fun (s : Device) k => s.setNum (O.refreshMode k) 0) s
  let s : Device := { s with power := { s.power with selfRefresh := false, lanesIdle := false, retention := false } }
  let s : Device := s.trainPorts
  s.power.recorded.foldl (fun (s : Device) d => (s.beginOn d).finishOn d) s

/-- SLEEP_EXIT_COMPLETE (R443): the requested state, or RUN. -/
def execSleepExitComplete (s : State) : Outc := s.run fun (s : Device) =>
  (match s.power.trans with
   | .exiting t =>
     if s.num O.powerState != 2 then s
     else
       let s : Device := s.sleepExitSteps
       let s : Device := (s.setNum O.powerState t).setNum O.powerTransition 0
       { s with power := { s.power with trans := .none, recorded := [], wakeHeld := false, pendingWakes := [],
                                        autoSince := s.uptime } }
   | _ => s)

/-- Every object returns to its table default, but those kept in D0 (R446, R468). -/
def keptInD0 (o : Nat) : Bool :=
  o == O.lastWake || o == O.thermalTripRecord || o == O.locketValid || o == O.locketErrors || o == O.lastResetNonce ||
    o == O.nextBootSlot || o == O.fatalRecord || o == O.hbmContentsLost || o == O.startupState || o == O.startupFailure ||
    o == O.crystalStatus || o == O.rcTrimCode || o == O.rcTrimReference || o == O.lastResetKind || oidArea o == 0 &&
      (oidObj o == 0x220 || oidObj o == 0x221 || oidObj o == 0x222 || oidObj o == 0x230 || oidObj o == 0x240 || oidObj o == 0x241) ||
    o == O.wakeEnable || o == O.wakeTimer || o == O.wakeFramePassword || o == O.wakeNAssert || oidArea o == 2 &&
      (0x020 ≤ oidObj o && oidObj o ≤ 0x025) || o == O.clockEnables 45 || oidArea o == 0xA && 0x046 ≤ oidObj o

/-- The level that the function of a GPIO drives (Table 22.7): none where the pad is high impedance or an input. -/
def Device.padFunction (s : Device) (n : Nat) : Option Bool :=
  match s.num (O.gpioFunction n) with
  | 2 => some (bit (s.num O.gpioOutput) n)
  | 3 => if bit (s.num O.gpioOutput) n then none else some false
  | 4 => if (List.range 4).any (fun q => s.num (O.thermalCapPoint q) != 0) || s.num O.powerCapPoint != 0 then some false else none
  | 5 => some (s.num (O.portState (s.num (O.gpioArg n))) == 2)
  | 7 => some s.board.railEnable
  | _ => none

/-- The steps of R444: Table 18.7 unless the device leaves SLEEP, then the D1 to D3 regions are saved, sessions end, the host port and the
management port stop, HBM is lost, D1 to D3 switch off, job slots become FREE, and GPIO levels are latched (R517). -/
def Device.deepSteps (s : Device) : Device :=
  let pads : List PadLatch := (List.range 16).map fun n => { drive := s.padFunction n, rail := s.num (O.gpioFunction n) == 7 }
  let s : Device := if s.num O.powerState = 2 then s else s.sleepSteps
  let s : Device := [1, 2, 3, 4, 5, 6].foldl Device.saveRegion s
  let s : Device := s.jobsAllFree
  let s : Device := s.hbmLose.planesOff false
  let s : Device := { s with fore := { imageSet := s.fore.imageSet, nextSid := s.fore.nextSid }, host := { perstN := s.host.perstN }, xing := [] }
  let kept : Tbl Val := s.objs.filter fun (p : Nat × Val) => keptInD0 p.1
  let s : Device := { s with objs := kept }
  let s : Device := [1, 2, 3].foldl (fun (s : Device) d => (s.setNum (O.domainState d) 0).setNum (O.domainVoltageMv d) 0) s
  let s : Device := ((List.range 33).map (· + 1)).foldl (fun (s : Device) i => s.setIsland i 4 0) s
  let s : Device := { s with board := { s.board with gpioRetain := some pads, railEnable := false } }
  let s : Device := ((s.setNum O.powerState 3).setNum O.powerTransition 0).setNum O.bezelState 2
  { s with power := { s.power with trans := .none, recorded := [], gated := [], ops := [], waitOn := [] } }

/-- DEEP_ENTRY_COMPLETE (R444). -/
def execDeepEntryComplete (s : State) : Outc := s.run fun (s : Device) =>
  (match s.power.trans with
   | .entering 3 => if s.installsWait then s else s.deepSteps.recordHeld 3
   | _ => s)

/-! ## Wake source commands -/

/-- V_t and the re-arm level of the comparator in units of 10 mV (R450). -/
def Device.ainThreshold (s : Device) : Int := 10 + (s.num O.wakeAinThreshold : Int)

/-- WAKE_AIN_TRIP: the input has stayed beyond V_t for the filter's cycles; its level in millivolts (R450). -/
def execWakeAinTrip (mv : BitVec 16) (s : State) : Outc := s.run fun (s : Device) =>
  (let v : Int := mv.toNat
   let beyond := if s.num O.wakeAinPolarity = 0 then 10 * s.ainThreshold < v else v < 10 * s.ainThreshold
   if s.domainOn 0 && s.power.ainArmed && beyond then
     let s : Device := (s.setBool O.wakeAinState true).bump O.wakeAinTrips
     let s : Device := { s with power := { s.power with ainArmed := false } }
     s.wakeEvent 1
   else s)

/-- WAKE_AIN_REARM: the input has passed the hysteresis level (R450). -/
def execWakeAinRearm (mv : BitVec 16) (s : State) : Outc := s.run fun (s : Device) =>
  (let v : Int := mv.toNat
   let lvl := 10 * ainRearm (s.num O.wakeAinPolarity) (s.num O.wakeAinThreshold) (s.num O.wakeAinHysteresis)
   let past := if s.num O.wakeAinPolarity = 0 then v < lvl else lvl < v
   if s.domainOn 0 && !s.power.ainArmed && past then
     { s.setBool O.wakeAinState false with power := { s.power with ainArmed := true } }
   else s)

/-- WAKE_N_LOW: another agent drives WAKE_N low; the device's own drive is excluded (R448, R516). -/
def execWakeNLow (s : State) : Outc := s.run fun (s : Device) => (if s.power.wakeNDriven then s else s.wakeEvent 2)

/-- The Wake-on-LAN pattern in a payload at some offset: six bytes 0xFF, sixteen copies of the MAC address, then the password
(R451). -/
def wolAt (mac pw p : Bytes) : Bool :=
  let pat := List.replicate 6 (0xFF : Byte) ++ (List.replicate 16 mac).flatten ++ pw
  (List.range (p.length + 1)).any fun i => slice p i pat.length == pat

/-- WAKE_FRAME: a frame to the management port's MAC address (R451). -/
def execWakeFrame (mac : BitVec 48) (etherType : BitVec 16) (udpPort : Option (BitVec 16)) (payload : Bytes) (fcsGood : Bool)
    (s : State) : Outc := s.run fun (s : Device) =>
  (let kind := etherType == 0x0842 || udpPort == some 9
   if fcsGood && kind && wolAt (beBytes 6 mac.toNat) (s.bytes O.wakeFramePassword) payload then s.wakeEvent 4 else s)

/-- WAKE_TIMER: the uptime counter reaches 2.00.012, once for each write of it (R448). -/
def execWakeTimer (s : State) : Outc := s.run fun (s : Device) =>
  (if s.power.timerArmed && s.num O.wakeTimer != 0 && s.num O.wakeTimer ≤ s.uptime then
    { s with power := { s.power with timerArmed := false } }.wakeEvent 5
  else s)

/-- LOCKET_CLEAR: a write of 1 to 2.00.071 (R447). -/
def execLocketClear (s : State) : Outc := s.run fun (s : Device) =>
  s.ownWrite (O.locketClear) fun s => s.locketInvalidate.okay.measured O.locketClear [1]

end Sys2Proof.Machine
end

