-- ==== Sys2Proof/Machine/Slots.lean ====
section
/-! DEFINITION. The mapping of logical cores to physical slots (R17, R458, R480), the inventory table (R34, R35, R536) and the
measurement registers (R492). -/

namespace Sys2Proof.Machine

/-- The status code of Table 1.11. -/
def SlotStatus.code : SlotStatus → Nat
  | .inService => 0 | .spare => 1 | .retired => 2 | .fusedOff => 3

def Device.mapOf (s : Device) (c : Nat) : ClusterMap := tgetD s.errs.maps c {}

/-- The place of a slot among the logical cores. -/
def ClusterMap.logicalOf (m : ClusterMap) (slot : Nat) : Option Nat := m.slots.findIdx? (· == slot)

/-- Takes a slot out of service with a status: the spare takes its logical number, or, with the spare in use, the logical cores
above move down one place (R17, R480). -/
def ClusterMap.takeOut (m : ClusterMap) (slot : Nat) (st : SlotStatus) : ClusterMap :=
  match m.logicalOf slot with
  | some k =>
    if m.spareFree then
      { m with slots := m.slots.set k 16, spareFree := false, status := (m.status.set slot st).set 16 .inService }
    else { m with slots := m.slots.eraseIdx k, status := m.status.set slot st }
  | none => if slot = 16 then { m with spareFree := false, status := m.status.set 16 st } else m

/-- A whole cluster out: every slot reads fused off (R458). -/
def ClusterMap.fuseOff (m : ClusterMap) : ClusterMap :=
  { m with slots := [], spareFree := false, status := List.replicate 17 .fusedOff, off := true }

/-- The manufacture mapping of a cluster from its 17 core_good bits (R458, steps 1 and 2). -/
def manufactureMap (good : List Bool) : ClusterMap :=
  let m : ClusterMap := { spareFree := good.getD 16 false }
  (List.range 17).foldl (fun m k => if good.getD k false then m else m.takeOut k .fusedOff) m

/-- A retirement word that is applied (R458, R482): cluster, and the slot, or none for a withdrawal. -/
def retirementOf (w : Nat) : Option (Nat × Option Nat) :=
  let kind := bits w 31 30
  if kind = 1 && bits w 24 20 ≤ 16 then some (bits w 29 25, some (bits w 24 20))
  else if kind = 2 then some (bits w 29 25, none)
  else none

/-- Applies a retirement word to the maps of the clusters (R458 step 3). A word that names a slot already out is ignored. -/
def applyRetirement (ms : Tbl ClusterMap) (w : Nat) : Tbl ClusterMap :=
  match retirementOf w with
  | some (c, some slot) =>
    let m := tgetD ms c {}
    if (m.logicalOf slot).isSome || (slot = 16 && m.spareFree) then tput ms c (m.takeOut slot .retired) else ms
  | some (c, none) => tput ms c (tgetD ms c {}).fuseOff
  | none => ms

/-- A cluster with fewer than 15 slots in service is fused off whole (R458 step 4). -/
def settleCluster (m : ClusterMap) : ClusterMap := if m.slots.length < 15 then m.fuseOff else m

/-- The maps that follow from the core_good words 64 to 80 and the retirement words in order (R458). -/
def fusedMaps (word : Nat → Nat) (retired : List Nat) : Tbl ClusterMap :=
  let good (c k : Nat) : Bool := bit (word (64 + (17 * c + k) / 32)) ((17 * c + k) % 32)
  let ms : Tbl ClusterMap := (List.range 32).map fun c => (c, manufactureMap ((List.range 17).map (good c)))
  let ms := retired.foldl applyRetirement ms
  ms.map fun p => (p.1, settleCluster p.2)

/-- The value of an object that mirrors the maps, as its default too (R35: the objects change only when a unit is retired). -/
def Device.setFused (s : Device) (oid : Nat) (v : Val) : Device :=
  let s : Device := { s with startup := { s.startup with dflts := tput s.startup.dflts oid v } }
  s.setVal oid v

/-- Publishes a cluster's map in 0.(40+c).030 to 0.(40+c).032. -/
def Device.publishMap (s : Device) (c : Nat) : Device :=
  let m := s.mapOf c
  let s : Device := (List.range 16).foldl (fun (s : Device) k =>
    s.setFused (O.corePhysicalSlot c k) (.num (m.slots.getD k 0xFF))) s
  let s : Device := s.setFused (O.clusterCoreCount c) (.num m.slots.length)
  s.setFused (O.clusterReduced c) (.num (if m.slots.length = 15 then 1 else 0))

/-- Publishes the device-wide counts 0.00.012 and 0.00.013. -/
def Device.publishCounts (s : Device) : Device :=
  let n := ((List.range 32).map fun c => (s.mapOf c).slots.length).foldl (· + ·) 0
  let f := ((List.range 32).filter fun c => (s.mapOf c).spareFree).length
  (s.setFused O.enabledCoreCount (.num n)).setFused O.spareCoreCount (.num f)

/-- Sets a cluster's map and publishes it. -/
def Device.setMap (s : Device) (c : Nat) (m : ClusterMap) : Device :=
  let s : Device := { s with errs := { s.errs with maps := tput s.errs.maps c m } }
  (s.publishMap c).publishCounts

/-- Is logical core k of cluster c in service? -/
def Device.coreInService (s : Device) (c k : Nat) : Bool := k < (s.mapOf c).slots.length

/-! ## Inventory (R34, R35, R536) -/

/-- An inventory entry (Table 1.11). -/
def invEntry (kind die cluster slot index domain island node status : Nat) : Nat :=
  kind * 2 ^ 56 + die * 2 ^ 54 + cluster * 2 ^ 49 + slot * 2 ^ 44 + index * 2 ^ 37 + domain * 2 ^ 32 + island * 2 ^ 26 +
    node * 2 ^ 18 + status * 2 ^ 16

/-- The entry of physical slot p of cluster c. -/
def Device.slotEntry (s : Device) (c p : Nat) : Nat :=
  let m := s.mapOf c
  let d := 8 + c / 2
  invEntry 1 (c / 8) c p ((m.logicalOf p).getD 0x7F) d (d + 10) (0x40 + c) ((m.status.getD p .fusedOff).code)

/-- A cluster-level entry: cluster, Cameo engine or control core; of a withdrawn cluster it is shown as fused off from the withdrawal on (DESIGN CHOICE,
log entry 29). -/
def Device.clusterEntry (s : Device) (kind c : Nat) : Nat :=
  let d := 8 + c / 2
  invEntry kind (c / 8) c 0 c d (d + 10) (0x40 + c) (if (s.mapOf c).off then 3 else 0)

def Device.updateUnitOut (s : Device) (u : Nat) : Bool := bit (s.num O.updateUnitsOut) u

/-- The 849 entries of inventory_table, in order of kind (R34, Table 1.12). A failed lane and an update unit out of service are shown as retired
(DESIGN CHOICE, log entry 29). -/
def Device.inventory (s : Device) : List Nat :=
  ((List.range 32).flatMap fun c => (List.range 17).map fun p => s.slotEntry c p) ++
  ((List.range 32).map fun c => s.clusterEntry 2 c) ++
  ((List.range 4).map fun q => invEntry 3 q 0 0 q 1 (2 + q) (0x08 + q) 0) ++
  ((List.range 20).map fun k => invEntry 4 (k / 5) 0 0 k 3 (6 + k / 5) (0x60 + k) 0) ++
  ((List.range 96).map fun l => invEntry 5 (l / 24) 0 0 l 2 (10 + l / 24) (0xA0 + l) (if s.laneFailed l then 2 else 0)) ++
  ((List.range 4).map fun m => invEntry 6 m 0 0 m (4 + m) (14 + m) (0x30 + m) 0) ++
  ((List.range 20).map fun k => invEntry 7 (k / 5) 0 0 k 3 (6 + k / 5) (0x60 + k) (if s.updateUnitOut k then 2 else 0)) ++
  ((List.range 32).map fun c => s.clusterEntry 8 c) ++
  ((List.range 32).map fun c => s.clusterEntry 9 c) ++
  [invEntry 0xA 0 0 0 0 1 1 0x11 0] ++
  ((List.range 4).flatMap fun q => (List.range 16).map fun k => invEntry 0xB q 0 0 k 3 (6 + q) (0x08 + q) 0)

/-! ## Measurement registers (R492) -/

/-- Locks debug (R497): scope and digest cleared, M3 extended by 32 bytes of 0xFF, a new challenge, halted cores resume. -/
def Device.newChallenge (s : Device) : Device :=
  if s.num O.entropyState = 1 then s
  else
    let b := padTo 32 (Config.entropy s.freeCtr)
    { s with freeCtr := s.freeCtr + 1 }.setBytes O.debugChallenge b

def Device.lockDebug (s : Device) : Device :=
  let s : Device := s.setNum O.debugScope 0
  let s : Device := s.setBytes O.debugTokenDigest (List.replicate 32 0)
  let s : Device := (s.setBytes O.debugToken []).setNum O.debugExpiry 0
  let s : Device := s.extendM 3 (List.replicate 32 0xFF)
  let s : Device := { s with signet := { s.signet with halted := [] }, board := { s.board with scanHeld := false } }
  (s.setBool O.boundaryScanActive false).newChallenge

end Sys2Proof.Machine
end

