-- ==== Sys2Proof/Machine/Startup.lean ====
section
/-! DEFINITION. Start-up, failure states, resets and the configuration flash (19_startup.md), and the rails that start-up waits for. -/

namespace Sys2Proof.Machine

/-! ## Resets: what is kept (Table 19.7) -/

/-- The pads, rails and clocks of the board, and the flash, which no reset of the device touches. -/
def Board.keepPins (b : Board) : Board :=
  { rails := b.rails, gpioPads := b.gpioPads, thermTripN := false }

/-- The objects that a reset at AON_UP keeps in D0: the nonce, the fatal record, the boot slot, the readings of rails and clocks,
the strapped address, and, for a cold reset, the Locket with its header. -/
def keptCold (o : Nat) : Bool :=
  o == O.lastResetNonce || o == O.fatalRecord || o == O.nextBootSlot || o == O.railStatus || oidArea o == 0 && oidObj o == 0x221 ||
    o == O.refclkPresent || o == O.locketValid || o == O.flashBytes

/-- The state from which a reset at AON_UP starts: every dictionary value at its default but those kept (R468, Table 19.7). -/
def Device.coldBase (s : Device) (kept : Tbl Val) : Device :=
  { Device.reset with
    objs := kept, out := s.out, freeCtr := s.freeCtr, 
    power := { sensors := s.power.sensors, locket := s.power.locket },
    startup := { powered := true, sysRstLow := s.startup.sysRstLow },
    board := s.board.keepPins,
    host := { perstN := s.host.perstN } }

/-- Start-up begins at AON_UP (R455): D0 on, island 0 on RC / 16, THERM_TRIP_N asserted again while a sensor reads 110 °C
(R516), M0 to M3 zero, a new debug challenge (R495), the static address from the straps (R511). -/
def Device.aonUp (s : Device) (kind : Nat) : Device :=
  let s : Device := (s.setNum O.lastResetKind kind).setNum (O.domainState 0) 2
  let s : Device := (s.setNum (O.domainVoltageMv 0) 750).setIsland 0 0 25000
  let s : Device := ((List.range 33).map (· + 1)).foldl (fun (s : Device) i => s.setIsland i 4 0) s
  let s : Device := s.setNum O.i3cStaticAddress (0x4C + 2 * (bit s.board.gpioPads 15).toNat + (bit s.board.gpioPads 14).toNat)
  let hot := s.power.sensors.any fun p => decide (440 ≤ p.2)
  let s : Device := { s with board := { s.board with thermTripN := hot } }
  let s : Device := { s.newChallenge with startup := { s.startup with powerOn := false } }
  s.enterState suAonUp

/-- VDD_AON_RISE: with SYS_RST_N high start-up begins; every Locket region is invalid (R447, R455, Table 19.7). The levels of
GPIO14 and GPIO15 are sampled at AON_UP. -/
def execVddAonRise (s : State) : Outc := s.run fun (s : Device) =>
  (if s.startup.powered then s
   else
     let s : Device := s.coldBase []
     let s : Device := { s with power := {}, startup := { s.startup with powerOn := true } }
     if s.startup.sysRstLow then s else s.aonUp 0)

/-- A cold reset (Table 19.7): the Locket is kept and not applied; the uptime counter starts at 0; HBM is lost. -/
def Device.coldReset (s : Device) : Device := s.coldBase (s.objs.filter fun (p : Nat × Val) => keptCold p.1)

/-- SYS_RST_N_RELEASE: start-up begins at AON_UP on its rise (R516). -/
def execSysRstNRelease (s : State) : Outc := s.run fun (s : Device) =>
  (if s.startup.sysRstLow then
    let s : Device := { s with startup := { s.startup with sysRstLow := false } }
    if s.startup.powered then s.aonUp (if s.startup.powerOn then 0 else 1) else s
  else s)

/-! ## Rails (R504, R505, R508) -/

/-- The recommended range of a rail in millivolts (Table 23.2). -/
def railRange (r : Nat) : Nat × Nat :=
  if r < 4 then (920, 980) else if r < 8 then (1067, 1133) else if r < 12 then (388, 412) else if r < 16 then (1746, 1854)
  else if r = 16 then (728, 772) else if r = 17 then (1140, 1260) else if r = 18 then (1710, 1890) else (728, 772)

def railIn (r mv : Nat) : Bool := (railRange r).1 ≤ mv && mv ≤ (railRange r).2

/-- Is a rail required in the present state (Table 22.4)? -/
def Device.railRequired (s : Device) (r : Nat) : Bool :=
  let deep := s.num O.powerState == 3
  let fromStep3 := suRcTrim ≤ s.startupCode && s.domainOn 1
  if 18 ≤ r then s.startup.powered
  else if r = 16 then (fromStep3 && !deep) || (deep && bit (s.num (O.clockEnables 45)) 2)
  else fromStep3 && !deep

/-- One reading of a rail: good after eleven readings in range; a required rail is out after three readings outside (R505). -/
def Device.railReading (s : Device) (r mv : Nat) : Device :=
  let old := tgetD s.board.rails r {}
  let h := (mv :: old.hist).take 11
  let good := h.length == 11 && h.all (railIn r)
  let outNow := 3 ≤ h.length && (h.take 3).all (fun v => !railIn r v)
  let outBefore := 3 ≤ old.hist.length && (old.hist.take 3).all (fun v => !railIn r v)
  let s : Device := { s with board := { s.board with rails := tput s.board.rails r { hist := h, good := good } } }
  let s : Device := s.setNum (O.railMv r) mv
  let st := s.num O.railStatus
  let s : Device := s.setNum O.railStatus (if good then setBit st r else clrBit st r)
  if outNow && !outBefore && s.railRequired r then
    (s.bump O.railFaults).event { cls := 3, addr := r, cause := mv, node := 0x10 }
  else s

/-- RAIL_SAMPLE: every 10 µs the sense pair of every rail is read; the readings in millivolts by rail code (R505). -/
def execRailSample (mv : List (BitVec 16)) (s : State) : Outc := s.run fun (s : Device) =>
  (if s.startup.powered then
    (List.range 20).foldl (fun (s : Device) r => s.railReading r (mv.getD r 0).toNat) s
  else s)

/-- A rail is good (R504). -/
def Device.railGood (s : Device) (r : Nat) : Bool := (tgetD s.board.rails r {}).good

/-- The rails of step 3 of Table 19.2: VIN_CORE of the four dies, VDDA and VDD_IO. -/
def Device.step3Rails (s : Device) : Bool := [0, 1, 2, 3, 17, 18].all s.railGood

/-! ## The sequence (R455) -/

/-- D1 switches on: islands 1 to 5 run on RC (Tables 1.4, 19.2). -/
def Device.d1On (s : Device) : Device :=
  let s : Device := (s.setNum (O.domainState 1) 2).setNum (O.domainVoltageMv 1) 750
  ([1, 2, 3, 4, 5].foldl (fun (s : Device) i => s.setIsland i 0 400000) s).domainUnitsOn 1

/-- The registers that every restart at RC_TRIM or IMAGE_LOAD sets to zero, and the debug lock (Table 21.1, R495). -/
def Device.restartSignet (s : Device) : Device :=
  let s : Device := ((s.zeroM 1).zeroM 2).zeroM 3
  let s : Device := (s.setNum O.debugScope 0).setBytes O.debugTokenDigest (List.replicate 32 0)
  let s : Device := (s.setBytes O.debugToken []).setNum O.debugExpiry 0
  { s with signet := { s.signet with halted := [] } }.newChallenge

/-- RAILS_GOOD: step 3 begins once the crystal count has ended and its rails are good: D1 switches on and the trim runs. On a DEEP
exit D1 switches on in RC_TRIM. -/
def execRailsGood (s : State) : Outc := s.run fun (s : Device) =>
  (if !s.step3Rails || !s.startup.powered || s.startup.sysRstLow then s
   else if s.startupCode = suXtal && s.num O.crystalStatus != 0 then (s.d1On.restartSignet).enterState suRcTrim
   else if s.startupCode = suRcTrim && !s.domainOn 1 then s.d1On
   else s)

/-- RC_TRIM_COMPLETE: the first measurement of N cycles moves the code by round((16,384 - N) / 16.384) steps (R426); FUSE_LOAD
starts. -/
def execRcTrimComplete (n : BitVec 16) (s : State) : Outc := s.run fun (s : Device) =>
  (if s.startupCode = suRcTrim && s.domainOn 1 then
    let s : Device := s.setNum O.rcTrimReference s.trimReference
    let s : Device := if s.trimReference = 0 then s else s.moveTrim (trimSteps n.toNat)
    s.enterState suFuseLoad
  else s)

/-- A fuse word of the shadow. -/
def Device.fuse (s : Device) (w : Nat) : Nat := tgetD s.startup.fuses w 0

/-- Bytes of a run of fuse words, four from each, big-endian (R457). -/
def Device.fuseBytes (s : Device) (w n : Nat) : Bytes := (List.range n).flatMap fun i => beBytes 4 (s.fuse (w + i))

/-- The failure word (R466). -/
def failureWord (state cause idx : Nat) : Nat := state * 0x1000000 + cause * 0x10000 + idx % 0x10000

/-- Enters a failure state: FAULT_N asserted, 0.00.101 set (R466). -/
def Device.fail (s : Device) (state cause idx : Nat) : Device :=
  let s : Device := s.setNum O.startupFailure (failureWord state cause idx)
  let s : Device := { s with errs := { s.errs with faultN := true } }
  s.enterState state

/-- The number of bits set in words 649 to 664. -/
def Device.rollbackCount (s : Device) : Nat :=
  ((List.range 512).filter fun i => bit (s.fuse (649 + i / 32)) (i % 32)).length

/-- The two hexadecimal characters of the stepping byte. -/
def hexByte (n : Nat) : Bytes :=
  let h (x : Nat) : Byte := BitVec.ofNat 8 (if x < 10 then 48 + x else 55 + x)
  [h (n / 16 % 16), h (n % 16)]

/-- Objects whose default is "fuse" take their value from the shadow (R457, Table 19.3). -/
def Device.fuseObjects (s : Device) : Device :=
  let f := s.fuse
  let s : Device := s.setFused O.stepping (.bytes (hexByte (bits (f 0) 15 8)))
  let s : Device := s.setFused O.fuseMapVersion (.num (bits (f 0) 31 16))
  let s : Device := s.setFused O.deviceSerial (.num (f 1 * 2 ^ 32 + f 2))
  let s : Device := (List.range 4).foldl (fun (s : Device) q =>
    s.setFused (O.dieSerial q) (.num (f (3 + 2 * q) * 2 ^ 32 + f (4 + 2 * q)))) s
  let s : Device := s.setFused O.pcieVendorId (.num (bits (f 11) 31 16))
  let s : Device := s.setFused O.opTable (.bytes (s.fuseBytes 12 16))
  let s : Device := if s.num O.rcTrimReference = 0 then
      s.setNum O.rcTrimCode (Config.fusedTrim ((List.range 36).map fun i => f (28 + i)) % 0x10000) else s
  let s : Device := s.setFused O.vendorKeyHash (.bytes (s.fuseBytes 632 8))
  let s : Device := s.setFused O.ownerKeyHash (.bytes (s.fuseBytes 640 8))
  let s : Device := s.setFused O.ownerKeyPresent (.num (bits (f 648) 0 0))
  let s : Device := s.setFused O.rollbackCounter (.num s.rollbackCount)
  let s : Device := s.setFused O.retirementWordsUsed (.num ((List.range 48).filter fun i => f (96 + i) != 0).length)
  let s : Device := s.setFused O.jtagIdcode (.num (0x10720001 + bits (f 11) 26 16 * 2))
  let pk := padTo 1312 (Config.identityKey ((List.range 8).map fun i => f (624 + i)))
  let s : Device := s.setFused O.identityPublicKey (.bytes pk)
  s.setFused O.identityKeyId (.bytes (sha3 pk))

/-- The maps of every cluster from the shadow, published (R458). Retirements whose burn failed or has not ended stay in effect until the next cold
reset (R482): on a DEEP exit they follow the burned ones. -/
def Device.fuseMaps (s : Device) : Device :=
  let words := ((List.range 48).map fun i => s.fuse (96 + i)) ++ s.errs.unburned ++ s.errs.burns
  let s : Device := { s with errs := { s.errs with maps := fusedMaps s.fuse words } }
  ((List.range 32).foldl Device.publishMap s).publishCounts

/-- M0 is extended with SHA3-256 of words 0 to 623 and 632 to 1,023 (Table 21.1). -/
def Device.measureFuses (s : Device) : Device :=
  (s.zeroM 0).extendM 0 (sha3 (s.fuseBytes 0 624 ++ s.fuseBytes 632 392))

/-- The slots to be tried, in order (R459); 1.00.010 is consumed. -/
def Device.enterImageLoad (s : Device) : Device :=
  let order := if s.num O.nextBootSlot = 1 then [1, 0] else [0, 1]
  let s : Device := s.setNum O.nextBootSlot 0xFF
  let s : Device := { s with startup := { s.startup with slotsLeft := order } }
  s.enterState suImageLoad

/-- The shadow takes the words; words that correction repaired are counted and raise a warning (R457). -/
def Device.fuseShadow (s : Device) (words : List FuseWord) : Device :=
  let n := (words.filter (·.corrected)).length
  let shadow : Tbl Nat := ((List.range 1024).zip words).map fun p => (p.1, p.2.value.toNat)
  let s : Device := { s with startup := { s.startup with fuses := shadow } }
  let s : Device := s.setNum O.fuseCorrectedWords n
  if n = 0 then s else s.setNum O.startupWarnings (setBit (s.num O.startupWarnings) 2)

/-- The objects and maps of the shadow are in force, it is measured, D1's islands run, and the image is looked for (R457 to R459). -/
def Device.fusesLoaded (s : Device) : Device :=
  let s : Device := (s.fuseObjects.fuseMaps).measureFuses
  let s : Device := [1, 2, 3, 4, 5].foldl (fun (s : Device) i => s.switchIsland i 1 (runKhz i)) s
  let s : Device := { s with host := { s.host with termination := s.host.perstN, training := s.host.perstN } }
  s.enterImageLoad

/-- D1 switches off: FUSE_FAIL has D0 alone (Table 19.1). -/
def Device.d1Off (s : Device) : Device :=
  let s : Device := ((s.setNum (O.domainState 1) 0).setNum (O.domainVoltageMv 1) 0).domainUnitsOff 1
  [1, 2, 3, 4, 5].foldl (fun (s : Device) i => s.setIsland i 4 0) s

/-- FUSE_LOAD_COMPLETE: the 1,024 words as read (R457). The first uncorrectable word, or a map_version of 0, ends start-up in
FUSE_FAIL, where D1 is off. -/
def execFuseLoadComplete (words : List FuseWord) (s : State) : Outc := s.run fun (s : Device) =>
  (if s.startupCode != suFuseLoad then s
   else match words.findIdx? (·.uncorrectable) with
     | some i => ((s.fuseShadow (words.take i)).d1Off).fail suFuseFail 0x01 i
     | none =>
       let s : Device := s.fuseShadow words
       if bits (s.fuse 0) 31 16 = 0 then s.d1Off.fail suFuseFail 0x02 0 else s.fusesLoaded)

/-! ## The configuration image (R459 to R461, R490) -/

/-- Fields of the header (Table 19.4), little-endian. -/
def imgMagic (b : Bytes) : Nat := leAt b 0 4
def imgVersionByte (b : Bytes) : Nat := leAt b 4 1
def imgSigner (b : Bytes) : Nat := leAt b 5 1
def imgAntiRollback (b : Bytes) : Nat := leAt b 6 2
def imgLength (b : Bytes) : Nat := leAt b 8 4
def imgFwOffset (b : Bytes) : Nat := leAt b 12 4
def imgFwLength (b : Bytes) : Nat := leAt b 16 4
def imgRecOffset (b : Bytes) : Nat := leAt b 20 4
def imgRecCount (b : Bytes) : Nat := leAt b 24 4
def imgRecBytes (b : Bytes) : Nat := leAt b 28 4
def imgKeyId (b : Bytes) : Bytes := slice b 32 32
def imgImageVersion (b : Bytes) : Nat := leAt b 64 8

/-- Records of a section (R461): items padded to a multiple of 4, and whether they fill the section exactly. -/
def parseRecords : Nat → Bytes → List Item × Bool
  | 0, b => ([], b.isEmpty)
  | f + 1, b =>
    if b.isEmpty then ([], true)
    else if b.length < 8 then ([], false)
    else
      let len := beAt b 6 2
      let tot := (8 + len + 3) / 4 * 4
      if b.length < tot then ([], false)
      else
        let i : Item := { oid := BitVec.ofNat 32 (beAt b 0 4), ty := b.getD 4 0, value := slice b 8 len }
        let r := parseRecords f (b.drop tot)
        (i :: r.1, r.2)

def imgRecords (b : Bytes) : List Item × Bool := parseRecords 65537 (slice b (imgRecOffset b) (imgRecBytes b))

/-- The key of a header's signer is accepted (check 3 of R490). -/
def Device.keyAccepted (s : Device) (signer : Nat) (keyId : Bytes) : Bool :=
  if signer = 0 then keyId == s.bytes O.vendorKeyHash
  else signer == 1 && s.flag O.ownerKeyPresent && keyId == s.bytes O.ownerKeyHash

/-- The flash byte at an offset; a byte that nothing has written reads 0xFF (log entry 8), a byte of an undefined sector is free. -/
def Flash.byte (f : Flash) (a : Nat) : Byte :=
  match tget? f.undef (a / 65536) with
  | some u => Config.flashByte u a
  | none => tgetD f.bytes a 0xFF

/-- What stands in an image slot of the flash (R459): its header, and behind it, where the magic is right, the bytes of its length. -/
def State.slotImage (s : State) (k : Nat) : Bytes :=
  let get (n : Nat) : Bytes := (List.range n).map fun i => s.flash.byte (0x2000000 * k + i)
  let hdr := get 128
  if imgMagic hdr = 0x32375450 then get (max 128 (min (imgLength hdr) 0x2000000)) else hdr

/-- A header's values are those of Table 19.4, and its sections lie within the image (check 2 of R459). -/
def headerFits (b : Bytes) : Bool :=
  let len := imgLength b
  imgFwOffset b + imgFwLength b ≤ len && imgRecOffset b + imgRecBytes b ≤ len && 4096 ≤ len && len ≤ 33554432 && len % 4 = 0 &&
    imgFwOffset b % 4096 = 0 && 1 ≤ imgFwLength b && imgFwLength b ≤ 8388608 && imgRecOffset b % 4 = 0 && imgRecCount b ≤ 65536 &&
    imgAntiRollback b ≤ 512

/-- The checks of a slot in order (R459, R490): 0 where it passes, else the code of the first failure. The bytes begin with the header;
`readOk` is whether the read ended without an xSPI error or timeout. A header value outside the range of Table 19.4 fails check 2
(DESIGN CHOICE, log entry 146). -/
def Device.slotCode (s : Device) (b : Bytes) (readOk : Bool) : Nat :=
  let len := imgLength b
  if imgMagic b != 0x32375450 || imgVersionByte b != 1 then 3
  else if !headerFits b then 4
  else if !readOk then 5
  else
    let first := (imgRecords b).1.head?
    let key := match first with
      | some i => if i.oid.toNat = O.imageSigningKey && i.value.length = 1312 then i.value else []
      | none => []
    if key.isEmpty || sha3 key != imgKeyId b || !s.keyAccepted (imgSigner b) (imgKeyId b) then 7
    else if !Config.dsaVerify key (sha3 (b.take (len - 2420))) (slice b (len - 2420) 2420) then 6
    else if imgAntiRollback b < s.num O.rollbackCounter then 8
    else 0

/-- What a header that passed check 1 reports (1.00.002, 1.00.003). -/
def Device.reportSlot (s : Device) (k : Nat) (b : Bytes) : Device :=
  (s.setNum (O.slotImageVersion k) (imgImageVersion b)).setNum (O.slotAntiRollback k) (imgAntiRollback b)

/-- The slot is used: its digest is published and extends M1 (R459, Table 21.1). -/
def Device.useSlot (s : Device) (k : Nat) (b : Bytes) : Device :=
  let s : Device := ((s.setNum (O.slotStatus k) 1).setNum O.imageSlotUsed k).setNum O.imageSigner (imgSigner b)
  let s : Device := s.setBytes O.imageDigest (sha3 b)
  let s : Device := s.extendM 1 (sha3 b)
  let s : Device := { s with startup := { s.startup with image := b, slotsLeft := s.startup.slotsLeft.filter (· ≠ k) } }
  s.enterState suConfigure

/-- A flash that fails every slot with code 5: it has no Profile 1.0 table, or is larger than 256 MiB (R510). -/
def FlashId.unsupported (f : FlashId) : Bool := !f.profile || decide (0x10000000 < f.bytes.toNat)

/-- The slot now tried has been read; flash size from its SFDP table (R459). The slot is used, the next one is tried, or IMAGE_FAIL is
entered. -/
def Device.slotChecked (s : Device) (k : Nat) (b : Bytes) (readOk : Bool) (flash : FlashId) : Device :=
  if s.startupCode != suImageLoad then s
  else
    let s : Device := s.setNum O.flashBytes flash.bytes.toNat
    let small := flash.bytes.toNat < 0x4000000
    let s : Device := if small then s.setNum (O.slotStatus 1) 9 else s
    let left := if small then s.startup.slotsLeft.filter (· ≠ 1) else s.startup.slotsLeft
    if left.head? != some k then { s with startup := { s.startup with slotsLeft := left } }
    else
      let code := if flash.unsupported then 5 else s.slotCode b readOk
      let s : Device := if code = 3 || flash.unsupported then s else s.reportSlot k b
      if code = 0 then s.useSlot k (b.take (imgLength b))
      else
        let s : Device := s.setNum (O.slotStatus k) code
        let s : Device := s.setNum O.startupWarnings (setBit (s.num O.startupWarnings) 1)
        let s : Device := { s with startup := { s.startup with slotsLeft := left.tail } }
        if left.tail.isEmpty then s.fail suImageFail 0x10 0 else s

/-- IMAGE_SLOT_CHECKED: the image read is what stands in the flash. -/
def execImageSlotChecked (k : Fin 2) (readOk : Bool) (flash : FlashId) (s : State) : Outc :=
  s.run fun (d : Device) => d.slotChecked k.val (s.slotImage k.val) readOk flash

/-- At READY a slot that IMAGE_LOAD did not reach is checked: 2 when it passes, or its failure code (R459). -/
def Device.slotBackground (s : Device) (k : Nat) (b : Bytes) (readOk : Bool) : Device :=
  if s.startupCode = suReady && s.startup.slotsLeft.contains k then
    let s : Device := { s with startup := { s.startup with slotsLeft := s.startup.slotsLeft.filter (· ≠ k) } }
    let code := s.slotCode b readOk
    let s : Device := if code = 3 then s else s.reportSlot k b
    s.setNum (O.slotStatus k) (if code = 0 then 2 else code)
  else s

/-- SLOT_BACKGROUND_CHECK. -/
def execSlotBackgroundCheck (k : Fin 2) (readOk : Bool) (s : State) : Outc :=
  s.run fun (d : Device) => d.slotBackground k.val (s.slotImage k.val) readOk

/-- The claim of a GPIO whose function a record sets (R66, R517): held by no session. -/
def Device.gpioOwner (s : Device) (oid f : Nat) : Device :=
  let s : Device := s.release oid
  if f = 0 then s else (s.claim [oid] oid 0).1

/-- One record (R461): its checks, and its value as the object's image default. None where it fails. No object of the dictionary names both a fuse
and an image record as its default, so no record is skipped (DEDUCED, log entry 146). -/
def Device.applyRecord (s : Device) (first : Bool) (i : Item) : Option Device :=
  let oid := i.oid.toNat
  match lookup oid with
  | .found d =>
    if d.src != .image || (oid == O.imageSigningKey && !first) then none
    else if s.valueCheck oid d i.ty.toNat i.value = .ok then
      let s : Device := s.setFused oid (itemVal d i.value)
      let s : Device := if oid = O.segmentTable then s.setFused O.segmentCount (.num (beAt i.value 0 2)) else s
      let s : Device := if oidArea oid = 0 && oidObj oid = 0x250 then s.gpioOwner oid (beNat i.value) else s
      some (({ s with fore := { s.fore with imageSet := oid :: s.fore.imageSet.filter (· ≠ oid) } }).bump O.recordsApplied)
    else none
  | _ => none

/-- The records in order; the index of the first that fails (R461). -/
def applyRecords : Device → Nat → List Item → Device × Option Nat
  | s, _, [] => (s, none)
  | s, n, i :: r =>
    match s.applyRecord (n = 0) i with
    | some s' => applyRecords s' (n + 1) r
    | none => (s, some n)

/-- Bezel releases the pins and the PCIe endpoint leaves retry status (R462 step 3, R502). -/
def Device.releasePins (s : Device) : Device :=
  { s.setNum O.bezelState 1 with board := { s.board with gpioRetain := none } }

/-- D2 and D3 switch off again, in SAFE (R454, R465). -/
def Device.enterSafe (s : Device) (cause idx : Nat) : Device :=
  let s : Device := [2, 3].foldl (fun (s : Device) d => ((s.setNum (O.domainState d) 0).setNum (O.domainVoltageMv d) 0).domainUnitsOff d) s
  let s : Device := ([6, 7, 8, 9, 10, 11, 12, 13]).foldl (fun (s : Device) i => s.setIsland i 4 0) s
  s.fail suSafe cause idx

/-- CONFIGURE ends its hold, or has none: TRAIN begins, or SAFE for a warm reset of kind 2 (R462, R468). -/
def Device.endConfigure (s : Device) : Device :=
  let s : Device := { s with startup := { s.startup with holding := false } }
  if s.startup.toSafe then s.enterSafe 0x23 0 else s.enterState suTrain

/-- Steps 2 to 5 of R462, with every record applied: on a DEEP exit the Locket is restored; D2 and D3 switch on; the pins are released;
the hold begins when 0.00.107 is 1. -/
def Device.configured (s : Device) : Device :=
  let s : Device := if s.num O.lastResetKind = 2 then
      [1, 2, 3, 4, 5, 6].foldl (fun (s : Device) r => s.restoreRegion r fun o => r != 2 || oidNode o == 0) s
    else s
  let s : Device := [2, 3].foldl (fun (s : Device) d => ((s.setNum (O.domainState d) 2).setNum (O.domainVoltageMv d) 750).domainUnitsOn d) s
  let s : Device := ((List.range 8).map (· + 6)).foldl (fun (s : Device) i =>
    if 10 ≤ i && !bit (s.num (O.clockEnables (i + 2))) 0 then s.setIsland i 4 0 else s.setIsland i 1 (runKhz i)) s
  let s : Device := s.releasePins
  if s.flag O.configureHold then { s with startup := { s.startup with holding := true } } else s.endConfigure

/-- CONFIGURE_COMPLETE: steps 1 to 5 of R462. A record that fails leads to SAFE, and so does a section whose length or count disagrees with its
records (R461). -/
def execConfigureComplete (s : State) : Outc := s.run fun (s : Device) =>
  (if s.startupCode != suConfigure || s.startup.holding then s
   else
     let recs := imgRecords s.startup.image
     let a := applyRecords s 0 recs.1
     match (match a.2 with | some n => some n | none => if recs.2 && recs.1.length = imgRecCount s.startup.image then none else some 0xFFFF) with
     | some n => a.1.releasePins.enterSafe 0x20 n
     | none => a.1.configured)

/-- A write of 1 to 0.00.108 (R462). -/
def Device.configureReleaseWrite (s : Device) (v : Nat) : Ans :=
  if !s.startup.holding then s.deny .state O.configureRelease
  else if v = 1 then s.endConfigure.okay else s.okay

/-- CONFIGURE_RELEASE (R462). -/
def execConfigureRelease (s : State) : Outc := s.run fun (s : Device) =>
  s.ownWrite (O.configureRelease) fun s => s.configureReleaseWrite 1

/-- READY: the domains of 0.00.109 begin to switch on, in parallel; the power state is RUN (R455 step 8). -/
def Device.enterReady (s : Device) : Device :=
  let s : Device := (s.enterState suReady).setNum O.powerState 0
  let s : Device := { s with power := { s.power with trans := .none, autoSince := s.uptime, wakeHeld := false } }
  ((List.range 20).map (· + 4)).foldl (fun (s : Device) d =>
    if bit (s.num O.readyDomains) d then s.beginOn d else s) s

/-- What the training of R464 leaves: the identity words read, memory lost on a cold start, the pseudo-channels DEAD or OK, refresh running. -/
def Device.trained (s : Device) (failed : List Nat) (ids : List (Option (BitVec 32))) : Device :=
  let s : Device := (List.range 20).foldl (fun (s : Device) k =>
    match ids.getD k none with
    | some w => s.setNum (O.stackDeviceId k) w.toNat
    | none => s) s
  let s : Device := if !s.startup.warmHbm then s.hbmLose else s
  let s : Device := s.trainMemory failed
  let s : Device := if failed.isEmpty then s else s.setNum O.startupWarnings (setBit (s.num O.startupWarnings) 3)
  let s : Device := (List.range 20).foldl (fun (s : Device) k => s.setNum (O.refreshMode k) 0) s
  { s with power := { s.power with selfRefresh := false } }

/-- TRAIN_COMPLETE (R464, R465): the pseudo-channels that failed training or self-test, a cache slice or Clasp buffer that failed
(die * 16 + slice), and the identity words read from the stacks. SAFE follows where a system segment lies on a DEAD
pseudo-channel or a cache failed, READY otherwise. -/
def execTrainComplete (failed : List (Fin 640)) (cacheFail : Option (Fin 64)) (ids : List (Option (BitVec 32))) (s : State) : Outc := s.run fun (s : Device) =>
  (if s.startupCode != suTrain then s
   else
     let s : Device := s.trained (failed.map (·.val)) ids
     match s.trainBlocked, cacheFail with
     | some p, _ => s.enterSafe 0x21 p
     | none, some x => s.enterSafe 0x22 x.val
     | none, none => s.trainPorts.enterReady)

/-! ## Warm resets (R468) -/

/-- A write to 0.00.104 (R468). -/
def Device.resetWrite (s : Device) (kind nonce : Nat) : Ans :=
  let oid := O.resetRequest
  let st := s.startupCode
  if nonce = 0 || kind < 1 || 3 < kind then s.deny .range oid
  else if !(st == suReady || st == suSafe || st == suImageFail) then s.deny .state oid
  else if s.power.trans ≠ .none then s.deny .busy
  else if nonce = s.num O.lastResetNonce then s.okay
  else { s := { s with startup := { s.startup with resetReq := some { kind := kind, nonce := nonce, at_ := s.uptime } } } }

/-- WARM_RESET_KIND_1 (R468). -/
def execWarmResetKind1 (nonce : BitVec 32) (s : State) : Outc := s.run fun (s : Device) =>
  s.ownWrite (O.resetRequest) fun s => s.resetWrite 1 nonce.toNat
/-- WARM_RESET_KIND_2 (R468). -/
def execWarmResetKind2 (nonce : BitVec 32) (s : State) : Outc := s.run fun (s : Device) =>
  s.ownWrite (O.resetRequest) fun s => s.resetWrite 2 nonce.toNat
/-- WARM_RESET_KIND_3 (R468). -/
def execWarmResetKind3 (nonce : BitVec 32) (s : State) : Outc := s.run fun (s : Device) =>
  s.ownWrite (O.resetRequest) fun s => s.resetWrite 3 nonce.toNat

/-- The objects kept by a warm reset of kind 1 or 2: those of a cold reset, those read from fuses, the error log's counters
(R472), HBM's fences and capacity (Table 19.7), the state of D0, D1 and island 0, and A.00.014 (R474). -/
def keptWarm (o : Nat) : Bool :=
  keptCold o || keptInD0 o || oidArea o == 2 && (oidNode o == 0x10 || oidNode o == 0x11) && oidObj o ≠ 0x061 ||
    oidArea o == 2 && (oidObj o == 0x031 || oidObj o == 0x032 || oidObj o == 0x033) && oidElem o ≤ 7 ||
    o == O.errorRecordsWritten || oidArea o == 0xA && oidObj o == 0x012 ||
    oidArea o == 4 && (o == O.hbmSpareBandsFree || o == O.hbmOutOfServiceBytes || o == O.hbmLostBytes || o == O.lostLineCount || o == O.deadPcs ||
      oidObj o == 0x100 || oidObj o == 0x107) ||
    o == O.stackDeviceId (oidNode o - 0x60) || oidArea o == 0xA && (0x045 ≤ oidObj o) ||
    oidArea o == 9 && (oidObj o == 0x020 || oidObj o == 0x021) && oidElem o == 0 ||
    o == O.linkRate || o == O.linkWidth || o == O.fuseCorrectedWords

/-- The state from which a warm reset restarts (R468, Table 19.7). -/
def Device.warmBase (s : Device) (kind : Nat) : Device :=
  let fused : Tbl Val := s.startup.dflts.filter fun (p : Nat × Val) =>
    match lookup p.1 with
    | .found d => d.src == .fuse || p.1 == O.jtagIdcode
    | _ => false
  let kept : Tbl Val := s.objs.filter fun (p : Nat × Val) => keptWarm p.1
  let b : Device := { s with
    objs := kept, xing := [],
    fore := { nextSid := s.fore.nextSid },
    errs := { log := s.errs.log, seq := s.errs.seq, srcs := s.errs.srcs, maps := s.errs.maps, burns := s.errs.burns,
              waysRetired := s.errs.waysRetired, unburned := s.errs.unburned, passes := s.errs.passes },
    host := { perstN := s.host.perstN, termination := s.host.termination, firstConfigDone := s.host.firstConfigDone },
    power := { locket := s.power.locket, sensors := s.power.sensors, selfRefresh := true, trip := s.power.trip },
    startup := { s.startup with image := [], holding := false, toSafe := kind == 2, warmHbm := true, resetReq := none,
                                dflts := fused },
    signet := {} }
  ((fused.foldl (fun (s : Device) p => s.setVal p.1 p.2) b).planesOff true).domainUnitsOn 1

/-- The shutdown and the restart of Table 19.7 (R468): transactions end, jobs leave and their slots become FREE, sessions end, the caches
write back, the stacks enter self-refresh, D2 to D23 switch off. -/
def Device.warmReset (s : Device) (r : ResetReq) : Device :=
  let s : Device := s.endAllTxns
  let s : Device := s.jobsAllFree
  let s : Device := s.cacheFlushAll
  let s : Device := s.dropTests fun _ => true
  let s : Device := s.setNum O.lastResetNonce r.nonce
  if r.kind = 3 then
    let s : Device := s.coldReset
    s.aonUp 5
  else
    let s : Device := ((List.range 20).map (· + 4)).foldl (fun (s : Device) d =>
      if s.domainOn d then s.domainUnitsOff d else s) s
    let s : Device := s.warmBase r.kind
    let s : Device := ((List.range 28).map (· + 6)).foldl (fun (s : Device) i => s.setIsland i 4 0) s
    let s : Device := s.setNum O.lastResetKind (if r.kind = 1 then 3 else 4)
    (s.restartSignet).enterImageLoad

/-- May the accepted reset take place: 1 ms after its answer (R468), and not while a boundary-scan instruction holds the pins (R515)? -/
def Device.resetDue (s : Device) : Option ResetReq :=
  s.startup.resetReq.filter fun r => decide (r.at_ + ms 1 ≤ s.uptime) && !s.board.scanHeld

/-- WARM_RESET_BEGIN. A commit that installs finishes first. -/
def Device.warmResetBegin (s : Device) : Device :=
  match s.resetDue with
  | none => s
  | some r => if s.endAllTxns.installsWait then s.endAllTxns else s.warmReset r

/-- Start-up goes on from RC_TRIM (R444, Table 19.7); WAKE_N is driven for sources other than 2 and 3 (R449). -/
def Device.leaveDeep (s : Device) : Device :=
  let src := beAt (s.bytes O.lastWake) 0 1
  let kept : Tbl Val := s.objs.filter fun (p : Nat × Val) => keptInD0 p.1
  let s : Device := { s with objs := kept, errs := { maps := s.errs.maps, waysRetired := s.errs.waysRetired, burns := s.errs.burns,
                                                       unburned := s.errs.unburned },
                             startup := { s.startup with warmHbm := false, toSafe := false, holding := false, dflts := [], times := [] },
                             board := { s.board with railEnable := true } }
  let s : Device := { s with power := { s.power with trans := .exiting 0,
                                                     wakeNDriven := s.flag O.wakeNAssert && src != 2 && src != 3 } }
  let s : Device := (s.setNum O.powerState 3).setNum O.powerTransition 2
  let s : Device := s.setNum O.lastResetKind 2
  (s.restartSignet.zeroM 0).enterState suRcTrim

/-- DEEP_EXIT: a recorded wake restarts start-up (R444). -/
def execDeepExit (s : State) : Outc := s.run fun (s : Device) =>
  (if s.num O.powerState = 3 && s.power.wakeHeld && s.power.trans = .none then s.leaveDeep else s)

/-! ## Flash (R467, R510) -/

/-- A read of 1.00.021 shows the 4,096 bytes at flash_offset (R467, Table 19.8). -/
def State.flashPage (s : State) : Bytes := (List.range 4096).map fun i => s.flash.byte (s.dev.num O.flashOffset + i)

/-- The bytes that the device holds of a read of the flash, for the length of one command. -/
def Device.holdPage (s : Device) (b : Bytes) : Device := { s with startup := { s.startup with flashRead := b } }

/-- A command that reads the objects `ids`: the flash is read where 1.00.021 is among them. -/
def State.runRead (s : State) (ids : List Nat) (f : Device → Device) : Outc :=
  s.run fun (d : Device) => if ids.contains O.flashData then (f (d.holdPage s.flashPage)).holdPage [] else f d

/-- The slot results that a write of a range makes stale (R467). -/
def Device.staleSlots (s : Device) (off len : Nat) : Device :=
  let s : Device := if off < 0x2000000 then s.setNum (O.slotStatus 0) 0 else s
  if 0x2000000 < off + len then s.setNum (O.slotStatus 1) 0 else s

/-- A write of 1.00.021 (R467). -/
def Device.flashWrite (s : Device) (data : Bytes) : Ans :=
  let off := s.num O.flashOffset
  if s.startupCode != suConfigure && !s.inSafe then s.deny .state O.flashData
  else if data.isEmpty || 4096 < data.length then s.deny .length O.flashData
  else if s.flashLimit < off + data.length then s.deny .range O.flashData
  else if s.startup.flashOp.isSome then s.deny .busy
  else
    let s : Device := { s with startup := { s.startup with flashOp := some (.program off data) } }
    let s : Device := (s.setNum O.flashState 1).staleSlots off data.length
    (s.setNum O.flashOffset (off + data.length)).okay

/-- A write of 1.00.022 (R467). -/
def Device.flashEraseWrite (s : Device) (off : Nat) : Ans :=
  if s.startupCode != suConfigure && !s.inSafe then s.deny .state O.flashErase
  else if s.flashLimit ≤ off then s.deny .range O.flashErase
  else if s.startup.flashOp.isSome then s.deny .busy
  else
    let sec := off / 65536 * 65536
    let s : Device := { s with startup := { s.startup with flashOp := some (.erase sec) } }
    ((s.setNum O.flashState 2).staleSlots sec 65536).okay

/-- FLASH_DATA_WRITE (R467). -/
def execFlashDataWrite (data : Bytes) (s : State) : Outc := s.run fun (s : Device) =>
  s.ownWrite (O.flashData) fun s => (s.flashWrite data).measured O.flashData data
/-- FLASH_ERASE (R467). -/
def execFlashErase (off : BitVec 32) (s : State) : Outc := s.run fun (s : Device) =>
  s.ownWrite (O.flashErase) fun s => (s.flashEraseWrite off.toNat).measured O.flashErase (beBytes 4 off.toNat)

/-- Stores bytes in the flash from an offset. -/
def flashPut : Tbl Byte → Nat → Bytes → Tbl Byte
  | m, _, [] => m
  | m, a, x :: r => flashPut (tset m a x 0xFF) (a + 1) r

/-- The flash after a program, or an erase of one sector of 65,536 bytes, whose bytes then read 0xFF (R467). Programmed bytes of an undefined
sector stay undefined until it is erased. -/
def FlashOp.apply : FlashOp → Flash → Flash
  | .program off d, f => { f with bytes := flashPut f.bytes off d }
  | .erase sec, f => { bytes := f.bytes.filter fun p => p.1 < sec || sec + 65536 ≤ p.1, undef := tdel f.undef (sec / 65536) }

/-- The end of the operation, as the device sees it. -/
def Device.flashDone (s : Device) (ok : Bool) : Device :=
  if s.startup.flashOp.isSome then { s with startup := { s.startup with flashOp := none } }.setNum O.flashState (if ok then 0 else 3) else s

/-- FLASH_OP_COMPLETE: a program or erase ends, or times out and sets flash_state to error (R510). -/
def execFlashOpComplete (ok : Bool) (s : State) : Outc :=
  .next { s with
    dev := s.dev.flashDone ok
    flash := match s.dev.startup.flashOp with
      | some op => if ok then op.apply s.flash else s.flash
      | none => s.flash }

/-! ## Resets while the flash is written (R510, R516) -/

def FlashOp.offset : FlashOp → Nat
  | .program off _ => off
  | .erase sec => sec

/-- A reset meets an operation: the content of its slot is undefined (R510). -/
def Flash.cut (f : Flash) (op : FlashOp) (use : Nat) : Flash :=
  let k := op.offset / 0x2000000
  { f with undef := (List.range 512).foldl (fun m i => tput m (512 * k + i) use) f.undef }

/-- The device starts over by f; an operation of the flash in progress is cut short. -/
def State.restart (s : State) (f : Device → Device) : Outc :=
  match s.dev.startup.flashOp with
  | some op => .next { s with dev := f { s.dev with freeCtr := s.dev.freeCtr + 1 }, flash := s.flash.cut op s.dev.freeCtr }
  | none => s.run f

/-- SYS_RST_N_ASSERT: held low for 1 µs, at any moment (R516). The device waits for its rise. -/
def Device.resetLow (s : Device) : Device :=
  let s : Device := { s with startup := { s.startup with sysRstLow := true } }
  if s.startup.powered then s.installsCut.coldReset else s
def execSysRstNAssert (s : State) : Outc := s.restart Device.resetLow

/-- VDD_AON_LOSS: OFF (R508). What the package does not hold stays: the flash, the pads and the waiting commands. -/
def Device.powerOff (s : Device) : Device :=
  { Device.reset with
    out := s.out, freeCtr := s.freeCtr,
    startup := { sysRstLow := s.startup.sysRstLow },
    board := { gpioPads := s.board.gpioPads },
    host := { perstN := s.host.perstN } }
def execVddAonLoss (s : State) : Outc := s.restart Device.powerOff

/-- WARM_RESET_BEGIN (R468). Kind 3 starts over at AON_UP, where XSPI_RST_N is low (R510): it cuts an operation of the flash short. -/
def execWarmResetBegin (s : State) : Outc :=
  if s.dev.resetDue.any (fun r => r.kind = 3) && !s.dev.endAllTxns.installsWait then s.restart Device.warmResetBegin
  else s.run Device.warmResetBegin

end Sys2Proof.Machine
end

