-- ==== Sys2Proof/Machine/HostPort.lean ====
section
/-! DEFINITION. The host port but for its queues: resets of the port, PCIe configuration and link, MSI-X, cause and doorbells,
mailboxes (17_host_port_mailboxes.md). -/

namespace Sys2Proof.Machine

/-- R25: a write dropped because the owning domain is off is logged with the issuing master (log entry 12: as a class 4 record
with status E_DOMAIN_OFF). -/
def Device.logDomainDrop (s : Device) (master node : Nat) : Device :=
  s.event { cls := 4, node := node, master := master, status := Status.domainOff.code }

/-! ## Resets of the host port (R403) -/

/-- A queue after a reset of the port: disabled without draining; commands executing go on, their completions to be counted as
late. -/
def Device.resetQueue (s : Device) (q : Nat) : Device :=
  let x := s.hq q
  let s : Device := s.abortQueueTxn q
  let run := (x.cmds.filter (·.started.isSome)).map fun c => { c with gone := true }
  let s : Device := s.setHq q { cmds := run }
  (s.setNum (O.queueState q) 0).setBool (O.queueEnable q) false

/-- Function Level Reset, hot reset and PERST_N act on the host port only (R403). -/
def Device.hostReset (s : Device) : Device :=
  let s : Device := (List.range 64).foldl Device.resetQueue s
  let s : Device := { s with fore := { s.fore with pcieAdmin := false, pcieHello := none,
                                                   engine := s.fore.engine.filter fun w => w.ch ≠ some .pcie,
                                                   chans := tmod s.fore.chans 16 {} fun c => { c with h := none, done := [] } } }
  let s : Device := (List.range 256).foldl (fun (s : Device) n =>
    let r := s.mbRow n
    if !r.2.2.2 then s
    else
      let b := s.box n
      let b : Mailbox := if r.2.1 = 0 then { b with full := false } else b
      let b : Mailbox := if masterClass r.1 = 8 then { b with overrun := false, lastTag := none } else b
      s.setBox n b) s
  let s : Device := { s with host := { s.host with
    shared := tmod s.host.shared 0 {} fun b => { b with full := false }, bells := tdel s.host.bells 0,
    cause := 0, causeMask := 0, msix := [], pba := [], slots := [] } }
  s.bump O.functionResets

/-- PERST_N_ASSERT (R403): the link goes down and retrains on the rise. -/
def execPerstNAssert (s : State) : Outc := s.run fun (s : Device) =>
  (let s : Device := if s.domainOn 1 then s.hostReset else s
   let s : Device := (s.setNum O.linkRate 0).setNum O.linkWidth 0
   { s with host := { s.host with perstN := false, termination := false, training := false, firstConfigDone := false } })

/-- FUSE_LOAD has ended (R463). -/
def Device.fuseLoadEnded (s : Device) : Bool := suImageLoad ≤ s.startupCode && s.startupCode != suFuseFail

/-- PERST_N_DEASSERT (R463): termination and training once FUSE_LOAD has ended; wake source 3 in DEEP (Table 18.9). -/
def execPerstNDeassert (s : State) : Outc := s.run fun (s : Device) =>
  (let on := s.fuseLoadEnded && s.domainOn 1
   let s : Device := { s with host := { s.host with perstN := true, termination := on, training := on } }
   if s.startup.powered then s.wakeEvent 3 else s)

/-- HOT_RESET (R403). -/
def execHotReset (s : State) : Outc := s.run fun (s : Device) => (if s.domainOn 1 then s.hostReset else s)

/-- FUNCTION_LEVEL_RESET (R403). -/
def execFunctionLevelReset (s : State) : Outc := s.run fun (s : Device) => (if s.domainOn 1 then s.hostReset else s)

/-- PCIE_LINK_UP: the rate code (1 to 6 of B.7F.002, at most the cap of B.7F.004) and the width reached (R400, R463). Without
PE_REFCLK the link does not train (Table 22.5). -/
def execPcieLinkUp (rate : Fin 6) (width : Fin 3) (s : State) : Outc := s.run fun (s : Device) =>
  (if s.host.training && bit (s.num O.refclkPresent) 1 then
    let s : Device := s.setNum O.linkRate (min (rate.val + 1) (s.num O.linkRateCap))
    let s : Device := s.setNum O.linkWidth (2 ^ width.val)
    { s with host := { s.host with training := false } }
  else s)

/-- PCIE_CONFIGURATION_REQUEST (R463): retry status until step 3 of R462, success after it; the first success ends the hold of
WAKE_N (R449). -/
def execPcieConfigurationRequest (s : State) : Outc := s.run fun (s : Device) =>
  (if s.num O.linkRate = 0 then s
   else if s.num O.bezelState = 1 || s.startupCode = suImageFail || s.host.firstConfigDone then
     let s : Device := { s with host := { s.host with firstConfigDone := true }, power := { s.power with wakeNDriven := false } }
     s.emit (.config true)
   else s.emit (.config false))

/-! ## MSI-X, cause and doorbells (R405) -/

/-- MSIX_TABLE_WRITE: unmasking a vector whose PBA bit is set sends its message (R405). -/
def execMsixTableWrite (v : Fin 64) (addr : BitVec 64) (data : BitVec 32) (masked : Bool) (s : State) : Outc := s.run fun (s : Device) =>
  (let e : Msix := { addr := addr.toNat, data := data.toNat, masked := masked }
   let s : Device := { s with host := { s.host with msix := tset s.host.msix v.val e {} } }
   if !masked && s.host.pba.contains v.val then
     let s : Device := { s with host := { s.host with pba := s.host.pba.filter (· ≠ v.val) } }
     s.sendMsix v.val
   else s)

/-- CAUSE_CLEAR: write 1 to clear (Table 17.3). -/
def execCauseClear (v : BitVec 32) (s : State) : Outc := s.run fun (s : Device) =>
  { s with host := { s.host with cause := w1c s.host.cause v.toNat 7 } }

/-- Does a mask gain a bit whose status is set? -/
def gainsPending (old new status width : Nat) : Bool :=
  (List.range width).any fun i => bit new i && !bit old i && bit status i

/-- CAUSE_MASK_WRITE (R405). -/
def execCauseMaskWrite (v : BitVec 32) (s : State) : Outc := s.run fun (s : Device) =>
  (let m := v.toNat % 128
   let old := s.host.causeMask
   let s : Device := { s with host := { s.host with causeMask := m } }
   if gainsPending old m s.host.cause 7 then s.sendMsix 0 else s)

def Device.bell (s : Device) (r : Nat) : Doorbell := tgetD s.host.bells r {}

def Device.setBell (s : Device) (r : Nat) (d : Doorbell) : Device :=
  { s with host := { s.host with bells := tset s.host.bells r d {} } }

/-- DOORBELL_STATUS_CLEAR (R405, R419). -/
def execDoorbellStatusClear (r : Fin 34) (v : BitVec 32) (s : State) : Outc := s.run fun (s : Device) =>
  (s.setBell r.val { s.bell r.val with status := w1c (s.bell r.val).status v.toNat 31 })

/-- DOORBELL_MASK_WRITE (R405, R419); bit 31 is reserved. -/
def execDoorbellMaskWrite (r : Fin 34) (v : BitVec 32) (s : State) : Outc := s.run fun (s : Device) =>
  (let d := s.bell r.val
   let m := v.toNat % 2 ^ 31
   let s : Device := s.setBell r.val { d with mask := m }
   if gainsPending d.mask m d.status 31 then s.raiseBell r.val else s)

/-- NOTIFY_HEAD_WRITE (R407). -/
def execNotifyHeadWrite (v : BitVec 32) (s : State) : Outc := s.run fun (s : Device) => { s with host := { s.host with notifyHead := v.toNat } }

/-! ## Mailboxes (R416 to R420) -/

/-- The domain a receiver lies in: the host and the device manager in D1, a control core in its compute domain. -/
def receiverDomain (r : Nat) : Nat := if r < 2 then 1 else clusterDomain (r - 2)

/-- The node that a receiver's records name. -/
def receiverNode (r : Nat) : Nat := if r < 2 then 0x11 else 0x40 + (r - 2)

/-- The enabled row of a sender and a receiver. -/
def Device.findRow (s : Device) (sender receiver : Nat) : Option Nat :=
  (List.range 256).find? fun n =>
    let r := s.mbRow n
    r.2.2.2 && r.1 == sender && r.2.1 == receiver

/-- The enabled row of a receiver's doorbell bit. -/
def Device.findSlot (s : Device) (receiver b : Nat) : Option Nat :=
  (List.range 256).find? fun n =>
    let r := s.mbRow n
    r.2.2.2 && r.2.1 == receiver && r.2.2.1 == b

/-- A word written to a send slot is settled by the first rule of R417 that applies. -/
def Device.mailboxSend (s : Device) (sender r word : Nat) : Device :=
  let row := s.findRow sender r
  if !s.domainOn (receiverDomain r) then
    let s : Device := match row with
      | some n => s.bumpStat (O.mbStats n) 3
      | none => s
    s.logDomainDrop sender (receiverNode r)
  else match row with
    | none => s.bump O.droppedWrites
    | some n =>
      let b := s.box n
      let tag := bits word 63 48
      if b.lastTag = some tag then s.bumpStat (O.mbStats n) 1
      else if b.full then
        let s : Device := s.setBox n { b with overrun := true }
        (s.bumpStat (O.mbStats n) 2).ring r 30
      else
        let s : Device := s.setBox n { b with word := word, full := true, lastTag := some tag }
        (s.bumpStat (O.mbStats n) 0).ring r (s.mbRow n).2.2.1

/-- MAILBOX_SEND (R417). -/
def execMailboxSend (sender : BitVec 16) (r : Fin 34) (word : BitVec 64) (s : State) : Outc := s.run fun (s : Device) =>
  (s.mailboxSend sender.toNat r.val word.toNat)

/-- SHARED_MAILBOX_SEND (R418): the word is always stored; a word already held sets the collision flag. A receiver whose domain is
off is not reached (R420). -/
def execSharedMailboxSend (writer : BitVec 16) (r : Fin 34) (word : BitVec 64) (s : State) : Outc := s.run fun (s : Device) =>
  (if !s.domainOn (receiverDomain r.val) then
    s.logDomainDrop writer.toNat (receiverNode r.val)
  else
    let b := tgetD s.host.shared r.val {}
    let was := b.full
    let b : SharedBox := { word := word.toNat, full := true, collision := b.collision || was, writer := writer.toNat }
    let s : Device := { s with host := { s.host with shared := tset s.host.shared r.val b {} } }
    let s : Device := s.ring r.val 28
    if was then (s.bump (O.sharedCollisions r.val)).ring r.val 29 else s)

/-- MAILBOX_CONSUME: the receiver consumes the word of a private slot, or of its shared mailbox (Table 17.9). -/
def execMailboxConsume (r : Fin 34) (slot : Option (Fin 28)) (s : State) : Outc := s.run fun (s : Device) =>
  (match slot with
   | some b =>
     match s.findSlot r.val b.val with
     | some n => s.setBox n { s.box n with full := false }
     | none => s
   | none =>
     { s with host := { s.host with shared := tmod s.host.shared r.val {} fun x => { x with full := false } } })

/-- MAILBOX_FLAG_CLEAR: a receive slot's overrun, or the shared mailbox's collision (Table 17.9). -/
def execMailboxFlagClear (r : Fin 34) (slot : Option (Fin 28)) (s : State) : Outc := s.run fun (s : Device) =>
  (match slot with
   | some b =>
     match s.findSlot r.val b.val with
     | some n => s.setBox n { s.box n with overrun := false }
     | none => s
   | none =>
     { s with host := { s.host with shared := tmod s.host.shared r.val {} fun x => { x with collision := false } } })

/-- SEND_STATUS_OVERRUN_CLEAR (Table 17.10): a write to the send status, which does not reach a receiver whose domain is off (R25, R420). -/
def execSendStatusOverrunClear (sender : BitVec 16) (r : Fin 34) (s : State) : Outc := s.run fun (s : Device) =>
  (if !s.domainOn (receiverDomain r.val) then s.logDomainDrop sender.toNat (receiverNode r.val)
   else match s.findRow sender.toNat r.val with
   | some n => s.setBox n { s.box n with overrun := false }
   | none => s)

/-- The send status of a channel (Table 17.10). -/
def Device.sendStatus (s : Device) (sender r : Nat) : Nat :=
  match s.findRow sender r with
  | none => 0
  | some n =>
    let b := s.box n
    (b.lastTag.getD 0) * 2 ^ 48 + (if b.lastTag.isSome then 8 else 0) + (if b.overrun then 4 else 0) + 2 +
      (if b.full then 1 else 0)

/-- Which address of the host is read (Table 17.2): a send slot or send status of a sender page, or a shared send slot. -/
def Device.sendRead (s : Device) (page r kind : Nat) : Device :=
  if !s.domainOn (receiverDomain r) then (s.bump O.completerAborts).emit (.hostRead none)
  else if kind = 1 then s.emit (.hostRead (some (leBytes 8 (s.sendStatus (masterId 8 page) r))))
  else
    let f := s.freeVal
    f.2.emit (.hostRead (some (leBytes 8 f.1.toNat)))

/-- SEND_STATUS_READ: a host read of the send slot (0), send status (1) or shared send slot (2) for a receiver (R420). What a send
slot reads as is not stated: a free value. -/
def execSendStatusRead (page : Fin 64) (r : Fin 34) (kind : Fin 3) (s : State) : Outc := s.run fun (s : Device) => (s.sendRead page.val r.val kind.val)

/-- The receiver that a sender is itself (R416). -/
def ownReceiver (sender : Nat) : Option Nat :=
  if sender = managerId then some 1
  else if masterClass sender = 8 then some 0
  else if masterClass sender = 2 then some (2 + masterIndex sender)
  else none

/-- A write of B.00.103[n] (R416): enabling claims the pair (sender, receiver) and the pair (receiver, bit) under R66. -/
def Device.mbEnableWrite (s : Device) (n : Nat) (on : Bool) (sid : Nat) : Ans :=
  let r := s.mbRow n
  let oid := O.mbEnable n
  if !on then
    if !r.2.2.2 then s.okay else ((s.release oid).setBool oid false).okay
  else if r.2.2.2 then s.okay
  else if 27 < r.2.2.1 || ownReceiver r.1 = some r.2.1 then s.deny .range oid
  else
    match (List.range 256).find? fun m => let x := s.mbRow m; x.2.2.2 && x.1 == r.1 && x.2.1 == r.2.1 with
    | some m => s.deny .held (O.mbSender m)
    | none =>
      match s.findSlot r.2.1 r.2.2.1 with
      | some m => s.deny .held (O.mbBit m)
      | none =>
        let c := s.claim [O.mbSender n, O.mbBit n] oid sid
        ((c.1.setBool oid true).setBox n {}).okay

/-- MB_ENABLE (R416). -/
def execMbEnable (n : Fin 256) (on : Bool) (s : State) : Outc := s.run fun (s : Device) =>
  s.ownWrite (O.mbEnable n.val) fun s => s.mbEnableWrite n.val on 0xFFFFFFFF

end Sys2Proof.Machine
end

