-- ==== Sys2Proof/Machine/Assay.lean ====
section
/-! DEFINITION. Targeted self-test, lasting actions and retirement, and the lockstep mismatch (20_errors_selftest.md). -/

namespace Sys2Proof.Machine

/-- A test of a core unit starts only when the core has no command running and holds no bank (R478), one of an update unit after its current block
(Table 20.3). -/
def Device.testMayStart (s : Device) (r : AssayReq) : Bool :=
  if r.unit = 1 || r.unit = 2 then s.coreQuiet (r.node - 0x40) r.elem
  else if r.unit = 7 then (tgetD s.work.upd (r.node - 0x60) []).all fun u => u.phase == .idle || u.phase == .slotWait
  else true

/-- ASSAY_TEST_START: the next requested test of a die starts, one at a time, in order of request (R478). -/
def execAssayTestStart (die : Fin 4) (s : State) : Outc := s.run fun (s : Device) =>
  (if !s.managerRuns || (tget? s.errs.running die.val).isSome then s
   else match s.errs.pending.find? (fun r => r.die == die.val) with
     | none => s
     | some r =>
       if !s.testMayStart r then s
       else
         let s : Device := { s with errs := { s.errs with
           pending := s.errs.pending.erase r, running := tput s.errs.running die.val r } }
         s.setNum O.assayPending s.errs.pending.length)

/-- Tests of a unit passed within the last 24 hours. -/
def Device.passesOf (s : Device) (r : AssayReq) : Nat :=
  (s.errs.passes.filter fun p => p.unit == r.unit && p.node == r.node && p.elem == r.elem &&
    decide (s.uptime < p.time + ms 86400000)).length

/-- Writes a class 8 record of a lasting action; its cause is the class 7 record (Table 20.7). -/
def Device.lasting (s : Device) (r : AssayReq) (result seq : Nat) : Device :=
  s.record { cls := 8, unit := r.unit, node := r.node, elem := r.elem, addr := r.addr, result := result, cause := seq }

/-- Asks for a retirement word to be burned (R482). -/
def Device.burn (s : Device) (w : Nat) : Device := { s with errs := { s.errs with burns := s.errs.burns ++ [w] } }

/-- A retirement word (R482). -/
def coreWord (c slot : Nat) : Nat := 2 ^ 30 + c * 2 ^ 25 + slot * 2 ^ 20
def withdrawWord (c : Nat) : Nat := 2 ^ 31 + c * 2 ^ 25

/-- Withdraws a cluster: no logical core is in service (R480). Its seventeen slots are shown as retired (DESIGN CHOICE, log entry 29). -/
def Device.withdraw (s : Device) (r : AssayReq) (c seq : Nat) : Device :=
  let m := s.mapOf c
  let s : Device := s.setMap c { m with slots := [], spareFree := false, status := List.replicate 17 .retired, off := true }
  let s : Device := s.lasting r 3 seq
  (s.burn (withdrawWord c)).jobsLeaveCluster c

/-- Retires the slot of logical core k of cluster c (R480): substitution, a reduced cluster, or withdrawal. -/
def Device.retireCore (s : Device) (r : AssayReq) (seq : Nat) : Device :=
  let c := r.node - 0x40
  let m := s.mapOf c
  match m.slots[r.elem]? with
  | none => s
  | some slot =>
    let s : Device := s.recordInvalid c r.elem
    if m.spareFree then
      let s : Device := s.setMap c (m.takeOut slot .retired)
      (s.lasting r 1 seq).burn (coreWord c slot)
    else if m.slots.length = 16 then
      let s : Device := s.setMap c (m.takeOut slot .retired)
      let s : Device := s.lasting r 2 seq
      (s.burn (coreWord c slot)).jobsLeaveCluster c
    else s.withdraw r c seq

/-- The lasting action of a unit (Table 20.3, R480, R481). `seq` is the class 7 record. -/
def Device.lastingAction (s : Device) (r : AssayReq) (seq : Nat) : Device :=
  if r.unit = 1 || r.unit = 2 then s.retireCore r seq
  else if r.unit = 3 then
    let c := r.node - 0x40
    if 64 ≤ s.num (O.clmemSpareLinesUsed c r.elem) then s.withdraw r c seq
    else (s.bump (O.clmemSpareLinesUsed c r.elem)).lasting r 8 seq
  else if r.unit = 4 then
    s.failPc (32 * (r.node - 0x60) + r.elem) r.addr seq
  else if r.unit = 5 then
    let l := r.node - 0xA0
    let b := s.bytes O.lanesFailed
    let s : Device := s.setBytes O.lanesFailed (b.set (l / 8) (BitVec.ofNat 8 (setBit ((b.getD (l / 8) 0).toNat) (l % 8))))
    (s.setNum (O.laneState l) 3).laneGoesDown l |>.lasting r 5 seq
  else if r.unit = 6 then
    let q := r.node - 0x08
    let key := (q * 16 + r.elem) * 2048 + cacheSet (r.addr / 128)
    let s : Device := { s with errs := { s.errs with waysRetired := (key, r.addr) :: s.errs.waysRetired } }
    let s : Device := s.trimSet key
    (s.bump (O.cacheWaysRetired q)).lasting r 6 seq
  else if r.unit = 7 then
    (s.setNum O.updateUnitsOut (setBit (s.num O.updateUnitsOut) (r.node - 0x60))).lasting r 7 seq
  else s.event { cls := 3, unit := r.unit, node := r.node, elem := r.elem, addr := r.addr, cause := seq }

/-- The result of a test is written into the Hallmark records of its stack that wait for one (R238): a lasting fault at once, a pass after the
last test of the stack's update unit and pseudo-channels. -/
def Device.hallmarkResult (s : Device) (r : AssayReq) (lasting : Bool) : Device :=
  let ofStack (x : AssayReq) : Bool := (x.unit == 4 || x.unit == 7) && x.node == r.node
  let more := s.errs.pending.any ofStack || s.errs.running.any fun p => ofStack p.2
  if !ofStack r || (more && !lasting) then s
  else
    { s with work := { s.work with mismatches := s.work.mismatches.map fun (m : Mismatch) =>
        if m.stack + 0x60 == r.node && m.assay == 0 then { m with assay := if lasting then 2 else 1 } else m } }

/-- ASSAY_TEST_END: the test running on a die passes or fails (R479). A unit that passes its A.00.043-th test within 24 hours is
judged lasting. -/
def execAssayTestEnd (die : Fin 4) (pass : Bool) (s : State) : Outc := s.run fun (s : Device) =>
  (match tget? s.errs.running die.val with
   | none => s
   | some r =>
     let s : Device := { s with errs := { s.errs with running := tdel s.errs.running die.val } }
     let s : Device := (s.bump O.assayTestsRun).bump (O.assayResults (if pass then 1 else 2))
     let s : Device := s.record { cls := 7, unit := r.unit, node := r.node, elem := r.elem, addr := r.addr,
                                  result := if pass then 1 else 2, cause := r.cause }
     let seq := s.errs.seq
     let s : Device := if pass then
         { s with errs := { s.errs with
             passes := { unit := r.unit, node := r.node, elem := r.elem, time := s.uptime } :: s.errs.passes } }
       else s
     let lasting := !pass || decide (s.num O.assayTransientLimit ≤ s.passesOf r)
     let s : Device := s.hallmarkResult r lasting
     if lasting then s.lastingAction r seq else s)

/-- A retirement that no fuse word holds: it is counted, and stays in effect until the next cold reset (R482). -/
def Device.unburned (s : Device) (w : Nat) : Device :=
  ({ s with errs := { s.errs with unburned := s.errs.unburned ++ [w] } } : Device).bump O.retirementsUnburned

/-- FUSE_BURN_COMPLETE: the oldest retirement burn ends, good or failing its read-back (R482). -/
def execFuseBurnComplete (ok : Bool) (s : State) : Outc := s.run fun (s : Device) =>
  (match s.errs.burns with
   | [] => s
   | w :: r =>
     let s : Device := { s with errs := { s.errs with burns := r } }
     match (List.range 48).find? (fun i => s.fuse (96 + i) == 0) with
     | some i =>
       if ok then
         let s : Device := { s with startup := { s.startup with fuses := tput s.startup.fuses (96 + i) w } }
         s.setFused O.retirementWordsUsed (.num (s.num O.retirementWordsUsed + 1))
       else s.unburned w
     | none => s.unburned w)

/-- LOCKSTEP_MISMATCH: uncorrected-fatal, and island 1 stops as well (R474). -/
def execLockstepMismatch (s : State) : Outc := s.run fun (s : Device) =>
  (if s.domainOn 1 then
    let s : Device := s.event { cls := 3, unit := 0x0A, node := 0x11 }
    { s with errs := { s.errs with island1Stop := true } }
  else s)

end Sys2Proof.Machine
end

