-- ==== Sys2Proof/Machine/Security.lean ====
section
/-! DEFINITION. Signet: attestation, the anti-rollback counter, debug unlock, the entropy source (21_security.md). -/

namespace Sys2Proof.Machine

/-- The session_id of a channel (Table 2.6). -/
def Device.chanSid (s : Device) : Chan → Nat
  | .session n => (tgetD s.fore.sessions n.val {}).sid
  | .pcie => 0xFFFFFFFF
  | .peer n => 0xFFFF0000 + n.val

/-- The key of a channel in the engine's table. -/
def chanKey : Chan → Nat
  | .session n => n.val
  | .pcie => 16
  | .peer n => 17 + n.val

def Device.chanSt (s : Device) (c : Chan) : ChanState := tgetD s.fore.chans (chanKey c) {}

def Device.setChanSt (s : Device) (c : Chan) (x : ChanState) : Device :=
  { s with fore := { s.fore with chans := tset s.fore.chans (chanKey c) x {} } }

/-- The image in use: its version and its anti_rollback; 0 when none is used. -/
def Device.imageVersion (s : Device) : Nat :=
  if s.num O.imageSlotUsed < 2 then s.num (O.slotImageVersion (s.num O.imageSlotUsed)) else 0
def Device.imageRollback (s : Device) : Nat :=
  if s.num O.imageSlotUsed < 2 then s.num (O.slotAntiRollback (s.num O.imageSlotUsed)) else 0

/-- Bytes 0 to 279 of an attestation report (Table 21.2). In IMAGE_FAIL M1, image_version and both anti-rollback fields read 0
(R493). -/
def Device.reportBody (s : Device) (ch : Chan) (nonce : Bytes) : Bytes :=
  let fail := s.startupCode == suImageFail
  let m (i : Nat) : Bytes := if fail && i == 1 then List.replicate 32 0 else padTo 32 (s.bytes (O.measurement i))
  beBytes 4 0x41545354 ++ [0x01] ++ beBytes 1 s.startupCode ++ beBytes 1 (if s.num O.debugScope = 0 then 0 else 1) ++
  beBytes 1 (s.num O.imageSigner) ++ beBytes 8 (s.num O.deviceSerial) ++ beBytes 8 s.uptime ++
  beBytes 8 (if fail then 0 else s.imageVersion) ++ beBytes 2 (if fail then 0 else s.num O.rollbackCounter) ++
  beBytes 2 (if fail then 0 else s.imageRollback) ++ beBytes 1 (s.num O.ownerKeyPresent) ++ beBytes 3 0 ++ padTo 32 nonce ++
  m 0 ++ m 1 ++ m 2 ++ m 3 ++ padTo 32 (s.bytes O.vendorKeyHash) ++
  (if s.flag O.ownerKeyPresent then padTo 32 (s.bytes O.ownerKeyHash) else List.replicate 32 0) ++
  beBytes 8 (s.num (O.measurementExtends 2)) ++ beBytes 4 (s.chanSid ch) ++ beBytes 4 0

/-- The identity key's signature over a digest (R487, R488): 2,420 bytes. -/
def Device.identitySign (s : Device) (digest : Bytes) : Bytes :=
  padTo 2420 (Config.dsaSign ((List.range 8).map fun i => s.fuse (624 + i)) digest)

/-- A write of a nonce to 9.00.030 (R493). -/
def Device.attest (s : Device) (ch : Chan) (nonce : Bytes) : Ans :=
  if nonce.length != 32 then s.deny .length O.attestNonce
  else
    let b := s.reportBody ch nonce
    let rep := b ++ s.identitySign (sha3 b)
    let s : Device := s.setChanSt ch { s.chanSt ch with report := some rep }
    (s.bump O.attestCount).okay

/-- ATTEST_REQUEST (R493). -/
def execAttestRequest (ch : Chan) (nonce : Bytes) (s : State) : Outc := s.run fun (s : Device) =>
  s.ownWrite (O.attestNonce) fun s => s.attest ch nonce

/-- Burns the lowest unburned bits of words 649 to 664 until the count is n (R491). -/
def Device.burnRollback (s : Device) (n : Nat) : Device :=
  let f := (List.range 512).foldl (fun (a : Tbl Nat × Nat) i =>
    let w := 649 + i / 32
    let v := tgetD a.1 w 0
    if bit v (i % 32) || n ≤ a.2 then a else (tput a.1 w (setBit v (i % 32)), a.2 + 1)) (s.startup.fuses, s.rollbackCount)
  let s : Device := { s with startup := { s.startup with fuses := f.1 } }
  s.setFused O.rollbackCounter (.num s.rollbackCount)

/-- A write of n to 9.00.007 (R491). `failAfter` is the number of bits burned when a bit fails its read-back, if one does. -/
def Device.rollbackWrite (s : Device) (n : Nat) (failAfter : Option Nat) : Ans :=
  let c := s.num O.rollbackCounter
  if n = c then ({ s with signet := { s.signet with rollbackBits := n } }).okay
  else if n < c || s.imageRollback < n then s.deny .range O.rollbackCommit
  else
    let s : Device := { s with signet := { s.signet with rollbackBits := n } }
    match failAfter with
    | some k =>
      if c + k < n then ((s.burnRollback (c + k)).bump O.rollbackBurnFailures).deny .uncorrected O.rollbackCommit
      else (s.burnRollback n).okay
    | none => (s.burnRollback n).okay

/-- ROLLBACK_COMMIT (R491). -/
def execRollbackCommit (n : BitVec 16) (failAfter : Option (BitVec 16)) (s : State) : Outc := s.run fun (s : Device) =>
  s.ownWrite (O.rollbackCommit) fun s => (s.rollbackWrite n.toNat (failAfter.map (·.toNat))).measured O.rollbackCommit (beBytes 2 n.toNat)

/-! ## Debug (R495 to R498) -/

/-- The reserved bytes of a token are zero. -/
def tokenReservedClear (t : Bytes) : Bool := beAt t 6 2 == 0 && (slice t 88 40).all (· == 0)

/-- The scopes a signer may grant (Table 21.4). -/
def scopeAllowed (signer scope : Nat) : Bool := if signer = 0 then scope < 64 else scope < 32

/-- The checks of a token in the order of R496; none where it is accepted, some (OK) for a resend. -/
def Device.tokenCheck (s : Device) (t : Bytes) : Option Status :=
  let dur := beAt t 84 4
  let key := slice t 128 1312
  if t.length != 3860 then some .length
  else if beAt t 0 4 != 0x44424754 || beAt t 4 1 != 1 || !tokenReservedClear t then some .malformed
  else if sha3 t == s.bytes O.debugTokenDigest && s.num O.debugScope != 0 then some .ok
  else if beAt t 8 8 != s.num O.deviceSerial || slice t 16 32 != s.bytes O.identityKeyId ||
      slice t 48 32 != s.bytes O.debugChallenge then some .auth
  else if !s.keyAccepted (beAt t 5 1) (sha3 key) then some .auth
  else if !scopeAllowed (beAt t 5 1) (beAt t 80 4) || 604800 < dur then some .range
  else if !Config.dsaVerify key (sha3 (t.take 1440)) (t.drop 1440) then some .auth
  else none

/-- An accepted token takes effect (R496). -/
def Device.tokenTaken (s : Device) (t : Bytes) : Device :=
  let dur := beAt t 84 4
  let s : Device := s.setNum O.debugScope (beAt t 80 4)
  let s : Device := (s.setBytes O.debugTokenDigest (sha3 t)).setBytes O.debugToken t
  let s : Device := s.setNum O.debugExpiry (if dur = 0 then 0 else s.uptime + ms (1000 * dur))
  let s : Device := (s.extendM 3 (sha3 t)).bump O.debugUnlocks
  s.newChallenge

/-- A write of E.00.001 (R496). -/
def Device.debugToken (s : Device) (t : Bytes) : Ans :=
  match s.tokenCheck t with
  | some .ok => s.okay
  | some st => (s.bump O.debugTokenRefusals).deny st O.debugToken
  | none => (s.tokenTaken t).okay

/-- DEBUG_TOKEN (R496). -/
def execDebugToken (t : Bytes) (s : State) : Outc := s.run fun (s : Device) =>
  s.ownWrite O.debugToken fun s =>
    let a := s.debugToken t
    if a.st = .ok && s.tokenCheck t = none then a.measured O.debugToken t else a

/-- DEBUG_LOCK: a write of 1 to E.00.003 (R497). -/
def execDebugLock (s : State) : Outc := s.run fun (s : Device) =>
  s.ownWrite (O.debugLock) fun s => s.lockDebug.okay.measured O.debugLock [1]

/-- DEBUG_EXPIRY: the uptime counter reaches E.00.004 (R497). -/
def execDebugExpiry (s : State) : Outc := s.run fun (s : Device) =>
  (if s.num O.debugExpiry != 0 && s.num O.debugExpiry ≤ s.uptime then s.lockDebug else s)

/-- ENTROPY_HEALTH_TEST: a failed test stops the source until 1,024 consecutive tests pass (R489). -/
def execEntropyHealthTest (pass : Bool) (s : State) : Outc := s.run fun (s : Device) =>
  (if !pass then
    ({ s with signet := { s.signet with healthyRun := 0 } }.setNum O.entropyState 1).bump O.entropyFailures
  else if s.num O.entropyState = 1 then
    let n := s.signet.healthyRun + 1
    let s : Device := { s with signet := { s.signet with healthyRun := n } }
    if 1024 ≤ n then s.setNum O.entropyState 0 else s
  else s)

end Sys2Proof.Machine
end

