-- ==== Sys2Proof/Machine/BoardOps.lean ====
section
/-! DEFINITION. I3C but for reads, JTAG, GPIO and the reference clocks (22_package_pins.md). -/

namespace Sys2Proof.Machine

/-! ## I3C (R511, R512) -/

/-- The target answers: D0 is powered, and no boundary-scan instruction holds the pins (R511, R515). -/
def Device.i3cUp (s : Device) : Bool := s.startup.powered && !s.board.scanHeld

/-- I3C_POINTER_WRITE: a private write of exactly four bytes (R512). -/
def execI3cPointerWrite (oid : BitVec 32) (s : State) : Outc := s.run fun (s : Device) =>
  (if s.i3cUp then { s with board := { s.board with pointer := oid.toNat } } else s)

/-- I3C_WAKE_COMMAND: the one byte 0x57; ignored while SYS_RST_N is low (R512, R513). -/
def execI3cWakeCommand (s : State) : Outc := s.run fun (s : Device) =>
  (if s.i3cUp && !s.startup.sysRstLow then s.wakeEvent 6 else s)

/-- I3C_IGNORED_WRITE: a private write of another length is ignored and counted (R512). -/
def execI3cIgnoredWrite (data : Bytes) (s : State) : Outc := s.run fun (s : Device) =>
  (if s.i3cUp && data.length != 4 && data != [0x57] then s.bump O.i3cIgnoredWrites else s)

/-- The provisional ID with BCR and DCR, as the target sends them in ENTDAA (R511). The serial number counts as 0 before FUSE_LOAD ends and in
FUSE_FAIL. -/
def Device.i3cIdentity (s : Device) : Bytes :=
  let serial := if s.fuseLoadEnded then s.num O.deviceSerial % 0x10000 else 0
  beBytes 6 (bits (s.num O.pcieVendorId) 15 1 * 2 ^ 33 + 0x0720 * 2 ^ 16 + serial) ++ [0x06, 0x00]

/-- I3C_DYNAMIC_ADDRESS: ENTDAA, in which the target sends its identity, or SETDASA (R511). -/
def execI3cDynamicAddress (a : I3cAssign) (s : State) : Outc := s.run fun (s : Device) =>
  (if s.i3cUp then
    let s : Device := match a with
      | .entdaa _ => s.emit (.i3c s.i3cIdentity)
      | .setdasa _ => s
    { s with board := { s.board with dynAddr := a.addr.toNat } }.setNum O.i3cDynamicAddress a.addr.toNat
  else s)

/-- The events since the last accepted IBI (R512): bit 0 A.00.011 changed, bit 1 0.00.100 changed. -/
def Device.ibiEvents (s : Device) : Nat :=
  (if s.num O.errorRecordsWritten != s.board.ibiSeenErr then 1 else 0) +
    (if s.startupCode != s.board.ibiSeenState then 2 else 0)

/-- I3C_IBI: raised when enabled, an address is held and an event waits, at most once per 1 ms (R512). -/
def execI3cIbi (s : State) : Outc := s.run fun (s : Device) =>
  (let m := s.ibiEvents
   let early := match s.board.lastIbi with
     | some t => decide (s.uptime < t + ms 1)
     | none => false
   if s.i3cUp && s.flag O.i3cIbiEnable && s.board.dynAddr != 0 && m != 0 && !early then
     let s : Device := { s with board := { s.board with
       lastIbi := some s.uptime, ibiSeenErr := s.num O.errorRecordsWritten, ibiSeenState := s.startupCode } }
     s.emit (.ibi m)
   else s)

/-! ## JTAG (R514, R515) -/

/-- The pins return to their behaviour (R515). -/
def Device.returnPins (s : Device) : Device :=
  { s with board := { s.board with scanHeld := false } }.setBool O.boundaryScanActive false

/-- An instruction in force, or BYPASS counted in E.00.103 when it is not available (R514). Pins that an earlier instruction held are
given back. -/
def Device.tapInstr (s : Device) (code : Nat) (ok : Bool) : Device :=
  let s : Device := s.returnPins
  if ok then s.setNum O.tapInstruction code
  else (s.setNum O.tapInstruction 0xFF).bump O.tapBypassed

/-- Boundary-scan instructions are available under debug scope 3, or in FUSE_FAIL with cause 0x02 (R497, R514). -/
def Device.scanAvailable (s : Device) : Bool :=
  bit (s.num O.debugScope) 3 || (s.startupCode == suFuseFail && bits (s.num O.startupFailure) 23 16 == 2)

/-- States in which an instruction may take the pins (R515). -/
def Device.pinsMayBeTaken (s : Device) : Bool :=
  s.startupCode == suFuseFail || s.startupCode == suImageFail || s.startupCode == suSafe

/-- An instruction that takes control of the pins (R515). -/
def Device.takePins (s : Device) (code : Nat) : Device :=
  let ok := s.scanAvailable && s.pinsMayBeTaken && !s.startup.sysRstLow
  let s : Device := s.tapInstr code ok
  if ok then { s with board := { s.board with scanHeld := true } }.setBool O.boundaryScanActive true else s

/-- The TAP is powered. -/
def Device.tap (s : Device) (f : Device → Device) : Device := if s.startup.powered then f s else s

/-- IDCODE: always available; the register shifted out (R514). -/
def execIdcode (s : State) : Outc := s.run fun (s : Device) =>
  (s.tap fun s => (s.tapInstr 0x01 true).emit (.tap 0x01 (s.num O.jtagIdcode)))
/-- BYPASS: always available (R514). -/
def execBypass (s : State) : Outc := s.run fun (s : Device) => (s.tap fun s => s.tapInstr 0xFF true)
/-- SAMPLE/PRELOAD: debug scope 3 (Table 22.6). -/
def execSamplePreload (s : State) : Outc := s.run fun (s : Device) => (s.tap fun s => s.tapInstr 0x02 s.scanAvailable)
/-- EXTEST (R515). -/
def execExtest (s : State) : Outc := s.run fun (s : Device) => (s.tap fun s => s.takePins 0x03)
/-- EXTEST_PULSE (R515). -/
def execExtestPulse (s : State) : Outc := s.run fun (s : Device) => (s.tap fun s => s.takePins 0x04)
/-- EXTEST_TRAIN (R515). -/
def execExtestTrain (s : State) : Outc := s.run fun (s : Device) => (s.tap fun s => s.takePins 0x05)
/-- HIGHZ (R515). -/
def execHighz (s : State) : Outc := s.run fun (s : Device) => (s.tap fun s => s.takePins 0x06)
/-- CLAMP (R515). -/
def execClamp (s : State) : Outc := s.run fun (s : Device) => (s.tap fun s => s.takePins 0x07)

/-- What the debug port is asked (Table 21.4): nothing yet, halt or resume of a control core (scope 0), a read of device HBM
(scope 2). A halted core counts as a stopped island (R498). -/
def Device.debugAccess (s : Device) (halt : Option (Nat × Bool)) (peek : Option Nat) : Device :=
  let sc := s.num O.debugScope
  let s : Device := s.tapInstr 0x10 (bit sc 0 || bit sc 2)
  let s : Device := match halt with
    | some (c, h) =>
      if bit sc 0 then
        let l := s.signet.halted.filter (· ≠ c)
        { s with signet := { s.signet with halted := if h then c :: l else l } }
      else s
    | none => s
  match peek with
  | some a => if bit sc 2 then s.emit (.tap 0x10 (leNat (s.hbmPeek a 8))) else s
  | none => s

/-- DEBUG_ACCESS (R498, R514). -/
def execDebugAccess (halt : Option (Fin 32 × Bool)) (peek : Option (BitVec 40)) (s : State) : Outc := s.run fun (s : Device) =>
  (s.tap fun s => s.debugAccess (halt.map fun p => (p.1.val, p.2)) (peek.map (·.toNat)))
/-- TRACE: scope 4 (Table 22.6). -/
def execTrace (s : State) : Outc := s.run fun (s : Device) => (s.tap fun s => s.tapInstr 0x11 (bit (s.num O.debugScope) 4))
/-- MFG_TEST: scope 5 (Table 22.6): the instruction in force; what the scan chains hold is not stated. -/
def execMfgTest (s : State) : Outc := s.run fun (s : Device) => (s.tap fun s => s.tapInstr 0x20 (bit (s.num O.debugScope) 5))
/-- TEST_LOGIC_RESET: the TAP only, and the pins return (R514, R515). -/
def execTestLogicReset (s : State) : Outc := s.run fun (s : Device) => (s.tap fun s => s.returnPins.setNum O.tapInstruction 0x01)

/-! ## GPIO and reference clocks (R509, R517) -/

/-- A write of 0.00.250[n] (R66, R517). -/
def Device.gpioWrite (s : Device) (n f sid : Nat) : Ans :=
  let oid := O.gpioFunction n
  let old := s.num oid
  if 7 < f then s.deny .range oid
  else if f = 0 then ((s.release oid).setNum oid 0).okay
  else if old != 0 then (s.setNum oid f).okay
  else
    let c := s.claim [oid] oid sid
    match c.2 with
    | some h => s.deny .held h.1
    | none => (c.1.setNum oid f).okay

/-- GPIO_FUNCTION_WRITE (R517). -/
def execGpioFunctionWrite (n : Fin 16) (f : Byte) (s : State) : Outc := s.run fun (s : Device) =>
  s.ownWrite (O.gpioFunction n.val) fun s => s.gpioWrite n.val f.toNat 0xFFFFFFFF

/-- GPIO_PULSE_EDGE: a rising edge held 1 µs on a function-6 pad (Table 22.7). The pad now reads high. -/
def execGpioPulseEdge (n : Fin 16) (s : State) : Outc := s.run fun (s : Device) =>
  (let s : Device := { s with board := { s.board with gpioPads := setBit s.board.gpioPads n.val } }
   if s.num (O.gpioFunction n.val) = 6 && s.managerRuns then s.bump (O.gpioPulseCount n.val) else s)

/-- The level that the device drives on a GPIO: none where the pad is high impedance. In DEEP and until Bezel releases the pins the latch holds the
last level, and D0 itself drives the rail enable (R517); before Bezel releases the pins, and while a boundary-scan instruction holds them, the device
drives nothing (R502, R515). -/
def Device.padDrive (s : Device) (n : Nat) : Option Bool :=
  if s.board.scanHeld then none
  else match s.board.gpioRetain with
    | some l => (l[n]?).bind fun p => if p.rail then some s.board.railEnable else p.drive
    | none => if s.num O.bezelState = 1 then s.padFunction n else none

/-- REFERENCE_CLOCK_PRESENCE_CHANGE (R509): ports of a die whose LREFCLK is absent stay in training; the PCIe link does not train
without PE_REFCLK. -/
def execReferenceClockPresenceChange (i : Fin 7) (present : Bool) (s : State) : Outc := s.run fun (s : Device) =>
  (let v := s.num O.refclkPresent
   let s : Device := s.setNum O.refclkPresent (if present then setBit v i.val else clrBit v i.val)
   if 2 ≤ i.val && i.val ≤ 5 && !present then
     (List.range 24).foldl (fun (s : Device) k =>
       let l := 24 * (i.val - 2) + k
       if s.num (O.portMode l) != 0 && s.num (O.portState l) = 2 then s.setNum (O.portState l) 1 else s) s
   else s)

/-! ## The pins in every state (R502, Table 22.3) -/

/-- The pins of Table 22.3. -/
inductive Pin where
  | laneTx (l : Fin 96) | laneRx (l : Fin 96) | mgTx | mgRx | pcie | refclk | xspi | i3c | tapIn | tdo | trace | ctrlIn
  | wakeN | thermTripN | faultN | gpio (n : Fin 16)
deriving DecidableEq, Repr

/-- How a pin behaves (Table 22.3). -/
inductive PinState where
  | undriven | idleNoCommonMode | idle | noTermination | terminated | active | highZ | driven | deselected | target | input | shiftOnly | released
  | low | level (b : Bool)
deriving DecidableEq, Repr

/-- The columns of Table 22.3. -/
inductive PinEra where
  | unpowered | reset | fuseFail | imageFail | released | sleep | deep
deriving DecidableEq, Repr

/-- The column that holds now (R502). -/
def Device.pinEra (s : Device) : PinEra :=
  if !(s.startup.powered && s.railGood 18 && s.railGood 19) then .unpowered
  else if s.startup.sysRstLow then .reset
  else if s.startupCode = suFuseFail then .fuseFail
  else if s.startupCode = suImageFail then .imageFail
  else if s.num O.bezelState = 2 then .deep
  else if s.num O.bezelState = 1 then (if s.num O.powerState = 2 then .sleep else .released)
  else .reset

/-- The pins of the lanes: driven per port once released. -/
def Device.lanePin (s : Device) (tx : Bool) (l : Nat) : PinState :=
  let on := (List.range 96).any fun p => s.portOn p && (s.portLanesOf p).contains l
  match s.pinEra with
  | .unpowered => if tx then .undriven else .noTermination
  | .deep => if tx then .undriven else .noTermination
  | .released => if on then (if tx then .active else .terminated) else if tx then .idleNoCommonMode else .noTermination
  | .sleep => if tx then .idle else if on then .terminated else .noTermination
  | _ => if tx then .idleNoCommonMode else .noTermination

/-- What drives an open-drain signal: low, or nothing. -/
def openDrain (low : Bool) : PinState := if low then .low else .released

/-- How a pin behaves in the present state (Table 22.3). -/
def Device.pinState (s : Device) (p : Pin) : PinState :=
  let e := s.pinEra
  match p with
  | .laneTx l => s.lanePin true l.val
  | .laneRx l => s.lanePin false l.val
  | .mgTx => match e with
    | .unpowered => .undriven
    | .deep => if bit (s.num (O.clockEnables 45)) 2 then .active else .undriven
    | .released | .sleep => .active
    | _ => .idleNoCommonMode
  | .mgRx => match e with
    | .released | .sleep => .terminated
    | _ => .noTermination
  | .pcie => match e with
    | .reset => if s.fuseLoadEnded && s.host.perstN then .active else .noTermination
    | .imageFail | .released | .sleep => .active
    | .unpowered | .fuseFail | .deep => .noTermination
  | .refclk => .highZ
  | .xspi => match e with
    | .reset => if s.fuseLoadEnded then .driven else .highZ
    | .imageFail | .released => .driven
    | .sleep => .deselected
    | .unpowered | .fuseFail | .deep => .highZ
  | .i3c => if e = .unpowered then .highZ else .target
  | .tapIn | .ctrlIn => if e = .unpowered then .highZ else .input
  | .tdo => if e = .unpowered then .highZ else .shiftOnly
  | .trace => if (e = .released || e = .sleep) && s.num O.tapInstruction = 0x11 then .active else .highZ
  | .wakeN => openDrain (e != .unpowered && s.power.wakeNDriven)
  | .thermTripN => openDrain (e != .unpowered && s.board.thermTripN)
  | .faultN => openDrain (e != .unpowered && s.errs.faultN)
  | .gpio n => match (if e = .unpowered then none else s.padDrive n.val) with
    | some b => .level b
    | none => if (e = .released || e = .sleep) && (s.num (O.gpioFunction n.val) = 1 || s.num (O.gpioFunction n.val) = 6) then .input else .highZ

end Sys2Proof.Machine
end

