-- ==== Sys2Proof/Machine/Crossing.lean ====
section
/-! DEFINITION. The crossings of Table 1.6 with their queues and credits (R20, R25, R28, R29, R293 to R298; row 0). Direction 1 leads from the die
fabric, or from the control island, to the other island; direction 0 leads back. On a ring edge direction 0 is the forward one. -/

namespace Sys2Proof.Machine

/-- The island at the end of a direction of a crossing. -/
def crossingDest (x dir : Nat) : Nat :=
  let pick (outer inner : Nat) : Nat := if dir = 1 then outer else inner
  if x < 16 then pick (18 + x) (2 + x / 4)
  else if x < 28 then pick (x - 10) (2 + x % 4)
  else if x < 32 then 2 + edgeFrom (x - 28) (1 - dir)
  else if x = 32 then pick 1 2
  else if x = 33 then pick 0 1
  else pick (x - 32) 1

/-- The island at its beginning. -/
def crossingSource (x dir : Nat) : Nat := crossingDest x (1 - dir)

/-- The ledger of a queue of a crossing: none for the management sideband and the crossing of AON, which Table 12.2 gives no credits. -/
def crossingLedger (x dir cls hop : Nat) : Option Nat :=
  if 28 ≤ x && x < 32 then some (ledgerId 3 (16 * (x - 28) + 8 * dir + 4 * hop + cls))
  else if x ≤ 32 then some (ledgerId 2 (8 * x + 4 * dir + cls))
  else none

/-- The queues of a direction: class and hop set. -/
def crossingQueues (x : Nat) : List (Nat × Nat) :=
  ((List.range (if 28 ≤ x && x < 32 then 2 else 1)).flatMap fun h => (List.range 4).map fun c => (c, h))

def Device.crossing (s : Device) (x dir : Nat) : Crossing := tgetD s.xing (2 * x + dir) {}
def Device.setCrossing (s : Device) (x dir : Nat) (c : Crossing) : Device := { s with xing := tset s.xing (2 * x + dir) c {} }

/-- Has the sender of a queue a credit (R294)? -/
def Device.hasCredit (s : Device) (id : Nat) : Bool := decide ((s.credit id).sent < s.ledgerTotal id + (s.credit id).back)

/-- The counts of credits returned that a flit of a direction carries, for the queues of the other direction. -/
def Device.returnsOf (s : Device) (x dir : Nat) : List Nat := (crossingQueues x).map fun q => match crossingLedger x (1 - dir) q.1 q.2 with
  | some id => (s.credit id).returned
  | none => 0

/-- Credits carried by a flit reach the sender of the other direction. -/
def Device.takeReturns (s : Device) (x dir : Nat) (rets : List Nat) : Device :=
  ((crossingQueues x).zip rets).foldl (fun (s : Device) (q : (Nat × Nat) × Nat) => match crossingLedger x (1 - dir) q.1.1 q.1.2 with
    | some id => s.setCredit id { s.credit id with back := max (s.credit id).back q.2 }
    | none => s) s

/-- A flit enters a queue by spending a credit; without one the source is held, and nothing is dropped (R28, R294). The time a sender on a die
waits is counted. -/
def Device.flitIn (s : Device) (x dir : Nat) (f : Flit) : Option Device :=
  let put (s : Device) : Device :=
    let c := s.crossing x dir
    s.setCrossing x dir { c with fifo := c.fifo ++ [{ f with rets := s.returnsOf x dir }] }
  match crossingLedger x dir f.cls f.hop with
  | none => some (put s)
  | some id =>
    let k := s.credit id
    if s.hasCredit id then
      let die := if 2 ≤ crossingSource x dir && crossingSource x dir < 6 then crossingSource x dir - 2 else crossingDie x
      let s : Device := match k.since with
        | some t => s.bump (O.creditWaitNs die) (40 * (s.uptime - t))
        | none => s
      some (put (s.setCredit id { k with sent := k.sent + 1, since := none }))
    else none

/-- A sender without a credit waits from now on. -/
def Device.creditWait (s : Device) (x dir cls hop : Nat) : Device :=
  match crossingLedger x dir cls hop with
  | some id => if (s.credit id).since.isSome then s else s.setCredit id { s.credit id with since := some s.uptime }
  | none => s

/-- The domain of an island. -/
def crossingTo (x dir : Nat) : Nat := islandDomain (crossingDest x dir)

/-- A flit for a domain that is off does not enter: a read is answered E_DOMAIN_OFF, a write is dropped and logged (R25, R29). -/
def Device.offFlit (s : Device) (x dir : Nat) (f : Flit) : Device :=
  if f.cls = 0 then s.emit (.data f.master .domainOff [])
  else s.logDomainDrop f.master (if dir = 1 && x < 16 then 0x40 + 2 * x else if dir = 1 && x < 28 then 0x30 + (x - 24) else 0x10)

/-- The master presents a flit. -/
def Device.presentFlit (s : Device) (x dir : Nat) (f : Flit) : Device :=
  if !s.runs (islandDomain (crossingSource x dir)) || s.islandStopped (crossingSource x dir) then s
  else if !s.domainOn (crossingTo x dir) then s.offFlit x dir f
  else match s.flitIn x dir f with
    | some s => s
    | none => s.creditWait x dir f.cls f.hop

/-- What an error of the link does on arrival (R276, R298): a correction is counted at the die; a payload that cannot be corrected is delivered, and
its master receives E_UNCORRECTED; a header that cannot be corrected is an uncorrected-fatal error of the edge. -/
def Device.flitError (s : Device) (x dir err : Nat) (f : Flit) : Device :=
  let ring := 28 ≤ x && x < 32
  let die := if ring then edgeFrom (x - 28) dir else crossingDie x
  let unit := if ring then 8 else 0
  let elem := if ring then dir else 0
  match err with
  | 0 => s
  | 1 => (s.bump (O.cacheCorrected die)).event { cls := 1, unit := unit, node := 0x08 + die, elem := elem, master := f.master }
  | 2 =>
    let s : Device := if ring then s.bump (O.d2dUncorrectedPayloads die) else s
    let s : Device := s.event { cls := 2, unit := unit, node := 0x08 + die, elem := elem, master := f.master, status := Status.uncorrected.code }
    let s : Device := match crossingLedger x dir f.cls f.hop with
      | some id => s.voidLedger id
      | none => s
    s.emit (.data f.master .uncorrected [])
  | _ =>
    let s : Device := match crossingLedger x dir f.cls f.hop with
      | some id => s.voidLedger id
      | none => s
    s.event { cls := 3, unit := unit, node := 0x08 + die, elem := elem, master := f.master }

/-- The first flit of a queue. -/
def headOf (l : List Flit) (cls hop : Nat) : Option Flit := l.find? fun f => f.cls == cls && f.hop == hop

/-- The head of a queue is delivered, unless an island at an end of the crossing is stopped (R28, R29). -/
def Device.deliverFlit (s : Device) (x dir cls hop err : Nat) : Device :=
  let c := s.crossing x dir
  match headOf c.fifo cls hop with
  | none => s
  | some f =>
    if !s.runs (crossingTo x dir) || s.islandStopped (crossingDest x dir) || s.islandStopped (crossingSource x dir) then s
    else
      let s : Device := s.setCrossing x dir { c with fifo := c.fifo.erase f, delivered := if err = 3 then c.delivered else c.delivered ++ [f] }
      let s : Device := match crossingLedger x dir cls hop with
        | some id => s.setCredit id { s.credit id with received := (s.credit id).received + 1 }
        | none => s
      (s.takeReturns x dir f.rets).flitError x dir err f

/-- An entry of the receiver is freed, and its credit returned. -/
def Device.freeEntry (s : Device) (x dir : Nat) (f : Flit) : Device :=
  let c := s.crossing x dir
  let s : Device := s.setCrossing x dir { c with delivered := c.delivered.erase f }
  match crossingLedger x dir f.cls f.hop with
  | some id => s.setCredit id { s.credit id with returned := (s.credit id).returned + 1 }
  | none => s

/-- The way of a response: back over the crossing, or, from the end of a diagonal route, forward over the next edge (R20). -/
def responseWay (x dir hop : Nat) : Nat × Nat := if 28 ≤ x && x < 32 && hop = 1 then (28 + (x - 27) % 4, 0) else (x, 1 - dir)

/-- The receiver frees the oldest entry of a queue: a REQ or WR entry only with the credit for its response (R294). -/
def Device.freeFlit (s : Device) (x dir cls hop : Nat) (rsp : Bytes) : Device :=
  match headOf (s.crossing x dir).delivered cls hop with
  | none => s
  | some f =>
    if cls = 0 || cls = 2 then
      let w := responseWay x dir hop
      match s.flitIn w.1 w.2 { cls := 1, hop := 0, master := f.master, data := rsp } with
      | some s => s.freeEntry x dir f
      | none => s.creditWait w.1 w.2 1 0
    else s.freeEntry x dir f

/-- A flit that has crossed the first edge of a diagonal route goes on, in hop set 1, over the next edge (R20, R295). -/
def Device.forwardFlit (s : Device) (x cls : Nat) : Device :=
  match headOf (s.crossing x 0).delivered cls 0 with
  | some f =>
    if 28 ≤ x && x < 32 then
      match s.flitIn (28 + (x - 27) % 4) 0 { f with hop := 1 } with
      | some s => s.freeEntry x 0 f
      | none => s.creditWait (28 + (x - 27) % 4) 0 cls 1
    else s
  | none => s

/-- CROSSING_DELIVERY (row 0). -/
def execCrossingDelivery (x : Fin 66) (dir : Fin 2) (op : XOp) (s : State) : Outc := s.run fun (s : Device) =>
  (match op with
   | .present cls hop m d => s.presentFlit x dir { cls := cls, hop := if 28 ≤ x.val && x.val < 32 then hop else 0, master := m.toNat, data := d.take 128 }
   | .deliver cls hop err => s.deliverFlit x dir cls hop err
   | .free cls hop rsp => s.freeFlit x dir cls hop (rsp.take 128)
   | .forward cls => s.forwardFlit x cls
   | .idle => if s.islandStopped (crossingDest x dir) || s.islandStopped (crossingSource x dir) then s else s.takeReturns x dir (s.returnsOf x dir))

end Sys2Proof.Machine
end

