-- ==== Sys2Proof/Machine/HostQueue.lean ====
section
/-! DEFINITION. The host queues and their commands, the completions, the command timeout, host memory errors, and BAR2 (R402, R408 to R415; rows
199, 200 and 214 to 231). Bytes read from host memory are operands. -/

namespace Sys2Proof.Machine

/-! ## Queues (R408, R409) -/

def Device.sqEntries (s : Device) (q : Nat) : Nat := s.num (O.sqEntries q)
def Device.cqEntries (s : Device) (q : Nat) : Nat := s.num (O.cqEntries q)

/-- The configuration that an enable checks again. -/
def Device.queueConfigOk (s : Device) (q : Nat) : Bool :=
  aligned (s.num (O.sqBase q)) 4096 && aligned (s.num (O.cqBase q)) 4096 && isPow2In (s.sqEntries q) 16 65536 &&
    isPow2In (s.cqEntries q) 16 65536 && decide (2 ≤ s.num (O.cqVector q)) && decide (s.num (O.cqVector q) ≤ 63)

/-- A queue whose commands have all posted their completions, those timed out included. -/
def HostQueue.drained (h : HostQueue) : Bool := h.posting.isEmpty && h.cmds.all fun c => c.timedOut || c.gone

/-- A DRAINING queue becomes disabled once every fetched command has posted its completion. -/
def Device.drainQueue (s : Device) (q : Nat) : Device :=
  if s.num (O.queueState q) = 2 && (s.hq q).drained then s.setNum (O.queueState q) 0 else s

/-- A write of B.7F.016 (R408). -/
def Device.queueEnableWrite (s : Device) (q : Nat) (on : Bool) : Ans :=
  let st := s.num (O.queueState q)
  if on then
    if st = 1 then s.okay
    else if st ≠ 0 then s.deny .state (O.queueState q)
    else if !s.queueConfigOk q then s.deny .range (O.queueEnable q)
    else
      let s : Device := s.setHq q { cmds := (s.hq q).cmds.filter fun c => c.gone }
      ((s.setNum (O.queueState q) 1).setBool (O.queueEnable q) true).okay
  else if st = 1 || st = 3 then (((s.setNum (O.queueState q) 2).setBool (O.queueEnable q) false).drainQueue q).okay
  else if st = 4 then s.deny .state (O.queueState q)
  else s.okay

/-- QUEUE_ENABLE (row 226). -/
def execQueueEnable (q : Fin 64) (s : State) : Outc := s.run fun (s : Device) =>
  s.ownWrite (O.queueEnable q.val) fun s => s.queueEnableWrite q true
/-- QUEUE_DISABLE (row 227). -/
def execQueueDisable (q : Fin 64) (s : State) : Outc := s.run fun (s : Device) =>
  s.ownWrite (O.queueEnable q.val) fun s => s.queueEnableWrite q false

/-- A write of 1 to B.7F.019 (R411, R476). -/
def Device.queueThaw (s : Device) (q : Nat) : Ans :=
  if s.num (O.queueState q) = 4 then s.thaw (masterId 0 q) else s.deny .state (O.queueThaw q)

/-- QUEUE_THAW (row 228). -/
def execQueueThaw (q : Fin 64) (s : State) : Outc := s.run fun (s : Device) =>
  s.ownWrite (O.queueThaw q.val) fun s => (s.queueThaw q).measured (O.queueThaw q) [1]

/-- A doorbell write that is refused: ignored, counted, cause bit 6. -/
def Device.doorbellRefused (s : Device) (q : Nat) : Device := (s.bumpStat (O.queueStats q) 5).setCause 6

/-- SQ_TAIL_DOORBELL (row 199). -/
def execSqTailDoorbell (q : Fin 64) (v : BitVec 32) (s : State) : Outc := s.run fun (s : Device) =>
  (if !s.domainOn 1 then s
   else if s.num (O.queueState q) = 0 || s.sqEntries q ≤ v.toNat then s.doorbellRefused q
   else s.setHq q { s.hq q with sqTail := v.toNat })

/-- CQ_HEAD_DOORBELL (row 200). -/
def execCqHeadDoorbell (q : Fin 64) (v : BitVec 32) (s : State) : Outc := s.run fun (s : Device) =>
  (if !s.domainOn 1 then s
   else if s.num (O.queueState q) = 0 || s.cqEntries q ≤ v.toNat then s.doorbellRefused q
   else s.setHq q { s.hq q with cqHead := v.toNat })

/-- Entries the driver has written and the device has not fetched. -/
def Device.sqWaiting (s : Device) (q : Nat) : Nat :=
  let h := s.hq q
  if s.sqEntries q = 0 then 0 else (h.sqTail + s.sqEntries q - h.sqHead) % s.sqEntries q

/-- May a queue take a fetch turn: enabled, with entries to fetch, and fewer than 256 commands executing? -/
def Device.mayFetch (s : Device) (q : Nat) : Bool := s.num (O.queueState q) == 1 && s.sqWaiting q != 0 && decide ((s.hq q).cmds.length < 256)

/-- The queue whose fetch turn it is: by priority, and round-robin by number within a priority (R409). -/
def Device.fetchTurn (s : Device) : Option Nat :=
  let l := (List.range 64).filter s.mayFetch
  let top := if l.any fun q => s.num (O.queuePriority q) == 1 then 1 else 0
  let last := tgetD s.host.fetchLast top 63
  ((List.range 64).map fun i => (last + 1 + i) % 64).find? fun q => l.contains q && s.num (O.queuePriority q) == top

/-! ## Entries and the duplicate window (Table 17.5, R412) -/

/-- Bytes of an entry that are zero. -/
def zeroFrom (b : Bytes) (off len : Nat) : Bool := (slice b off len).all (· == 0)

/-- Are the reserved bytes of an entry zero, and its opcode one of Table 17.7 (check 1 of R411)? -/
def entryFormOk (b : Bytes) : Bool :=
  bits (leAt b 5 1) 7 1 == 0 && zeroFrom b 6 2 && (match leAt b 4 1 with
    | 0x00 | 0x10 | 0x13 | 0x14 => zeroFrom b 8 56
    | 0x01 => zeroFrom b 56 8
    | 0x02 => decide (1 ≤ leAt b 8 1) && decide (leAt b 8 1 ≤ 7) && zeroFrom b 11 1 && zeroFrom b 28 4 && zeroFrom b 40 24
    | 0x03 => zeroFrom b 32 32
    | 0x11 => zeroFrom b 17 7 && zeroFrom b 32 32
    | 0x12 => zeroFrom b 18 6 && zeroFrom b 32 32
    | _ => false)

/-- The code that stands for an entry that fails check 1. -/
def opMalformed : Nat := 0x100

def decodeEntry (b : Bytes) (now : Nat) : HostCmd :=
  let b := padTo 64 b
  { id := leAt b 0 4, opcode := if entryFormOk b then leAt b 4 1 else opMalformed, fence := bit (leAt b 5 1) 0, args := b, fetched := now }

/-- Executes an id: it enters the window, whose highest id may move. -/
def Device.takeCmd (s : Device) (q : Nat) (c : HostCmd) (h' : Nat) : Device :=
  let h := s.hq q
  let done := ((c.id, none) :: h.done).filter fun p => decide ((h' + 2 ^ 32 - p.1) % 2 ^ 32 ≤ 4095)
  s.setHq q { h with cmds := h.cmds ++ [c], h := some h', done := done }

/-- One fetched entry (R412). -/
def Device.fetchOne (s : Device) (q : Nat) (c : HostCmd) : Device :=
  let s : Device := s.bumpStat (O.queueStats q) 0
  let h := s.hq q
  match h.h with
  | none => s.takeCmd q c c.id
  | some top =>
    let back := (top + 2 ^ 32 - c.id) % 2 ^ 32
    if 2 ^ 31 < back then s.takeCmd q c c.id
    else if back ≤ 4095 then
      match h.done.find? fun p => p.1 == c.id with
      | none => s.takeCmd q c top
      | some (_, some r) => (s.setHq q { h with posting := h.posting ++ [{ r with replay := true }] }).bumpStat (O.queueStats q) 2
      | some (_, none) => s.setHq q { h with dups := h.dups ++ [c.id] }
    else
      (s.setHq q { h with posting := h.posting ++ [({ id := c.id, status := .range, detail := 0xFFFFFFFF } : Compl)] }).bumpStat (O.queueStats q) 3

/-- SQ_FETCH (row 214): the queue whose turn it is fetches up to eight entries, whose bytes are read from host memory. -/
def execSqFetch (q : Fin 64) (entries : List Bytes) (s : State) : Outc := s.run fun (s : Device) =>
  (if !s.managerRuns || s.fetchTurn ≠ some q.val then s
   else
     let h := s.hq q
     let n := min (min 8 (s.sqWaiting q)) (min (256 - h.cmds.length) entries.length)
     let s : Device := { s with host := { s.host with fetchLast := tput s.host.fetchLast (s.num (O.queuePriority q)) q.val } }
     let s : Device := s.setHq q { h with sqHead := (h.sqHead + n) % s.sqEntries q }
     (entries.take n).foldl (fun (s : Device) b => s.fetchOne q (decodeEntry b s.uptime)) s)

/-! ## Starting a command (R409, R411) -/

/-- A TXN command. -/
def HostCmd.isTxn (c : HostCmd) : Bool := 0x10 ≤ c.opcode && c.opcode ≤ 0x14

/-- The command that starts next in a queue, if it may: commands start in the order of fetch; a fence waits for every earlier one, a TXN
command for the previous TXN command. -/
def HostQueue.next (h : HostQueue) : Option HostCmd :=
  let l := h.cmds.filter fun c => !c.gone
  match l.find? fun c => c.started.isNone with
  | none => none
  | some c =>
    let before := l.takeWhile fun x => x.id != c.id
    if (c.fence && !before.isEmpty) || (c.isTxn && before.any HostCmd.isTxn) then none else some c

/-- Marks a command as started. -/
def Device.startCmd (s : Device) (q : Nat) (c : HostCmd) : Device :=
  let h := s.hq q
  s.setHq q { h with cmds := h.cmds.map fun x => if x == c then { x with started := some s.uptime } else x }

/-- The next command of a queue, if it has one of an opcode. One that failed check 1 completes with E_MALFORMED, one of a frozen queue with
E_FROZEN; neither takes any effect. -/
def Device.hostRow (s : Device) (q opcode : Nat) (f : Device → HostCmd → Device) : Device :=
  (match (s.hq q).next with
   | none => s
   | some c =>
     if !s.managerRuns then s
     else if c.opcode = opMalformed then (s.startCmd q c).hostDone q c.id .malformed
     else if s.num (O.queueState q) = 4 then (s.startCmd q c).hostDone q c.id .frozen
     else if c.opcode ≠ opcode then s
     else f (s.startCmd q c) c)

/-- NOP (row 215). -/
def execNop (q : Fin 64) (s : State) : Outc := s.run fun (s : Device) => s.hostRow q 0x00 fun s c => s.hostDone q c.id .ok

/-- A failure at check 3 of R411: the queue is frozen. -/
def Device.hostViolation (s : Device) (q id a : Nat) : Device := (s.violation (masterId 0 q) 3 a 0 0x7F).hostDone q id .access

/-- STEP (row 216). -/
def execStep (q : Fin 64) (s : State) : Outc := s.run fun (s : Device) =>
  s.hostRow q 0x01 fun s c =>
    let d := padTo 64 (slice c.args 8 48)
    let j := stepSlot d
    match (if s.resident j then s.job? j else none) with
    | none => s.hostDone q c.id .state (O.jobState j)
    | some x =>
      if !x.stepExtents d then s.hostViolation q c.id 0
      else
        let a := s.stepSubmit d (some (q.val * 0x100000000 + c.id))
        a.s.hostDone q c.id a.st a.detail

/-- The job and the pool of a page command (check 2 of R411). -/
def Device.hostPool (s : Device) (slot pool : Nat) : Option (Job × Pool) :=
  match (if s.resident slot then s.job? slot else none), s.pool? pool with
  | some x, some p => if p.job = slot then some (x, p) else none
  | _, _ => none

/-- What stops a page command of R189 before it takes effect (checks 2 to 5 of R411), if anything does: an operand outside its job, the domain or
the units off, token ids on a lost line or a locked one, which makes it wait as if it had not started (w). -/
def Device.pageOpStop (s w : Device) (q : Nat) (c : HostCmd) (x : Job) (p : Pool) : Option Device :=
  let op := leAt c.args 8 1
  let b := leAt c.args 12 4
  let pt := leAt c.args 16 8
  let hash := leAt c.args 32 8
  let buf := x.bufs.getD p.ptBuf {}
  let one := op != 6 && op != 7 && !(op == 1 && decide (32768 ≤ b))
  let far := if op = 7 then false else if one then decide (buf.size < pt + 8 * (b + 1)) else decide (buf.size < pt)
  if far then some (s.hostViolation q c.id (buf.base + pt))
  else if op == 2 && !x.inSpace hash 256 then some (s.hostViolation q c.id hash)
  else if !s.domainOn 3 then some (s.hostDone q c.id .domainOff 3)
  else if !s.claspUp then some (s.hostDone q c.id .state)
  else if op == 2 && s.spaceWaits x hash 256 false then some w
  else if op == 2 && s.spaceBlocked x hash 256 false then some (s.hostDone q c.id .uncorrected)
  else none

/-- The answer of a page command but COW, the queue being the issuer; none where it must wait. The operands give, transaction by transaction, the attempts
that other masters' commits abort, the token ids of an INSERT, and the symbol errors met. -/
def Device.pageOpAns (s : Device) (q : Nat) (c : HostCmd) (x : Job) (pool : Pool) (lost : List Nat) (tokens : Bytes) (errs : List SymErr) : Option Ans :=
  let n := leAt c.args 10 1
  let b := leAt c.args 12 4
  let pt := leAt c.args 16 8
  let m := masterId 0 q
  let root := s.num (O.treeRootKey n)
  let one (f : Tx PageRes) : Option Ans := s.pageOp1 n m (lost.headD 0) errs pool f
  match leAt c.args 8 1 with
  | 1 => one (txAlloc n pool x pt b)
  | 2 => one (txLookup n root pool x pt b (s.spaceGet x (leAt c.args 32 8) 256))
  | 3 => one (txInsert n root pool x pt b (padTo 256 tokens))
  | 5 => one (txFill pool x pt b (leAt c.args 24 4))
  | 6 => s.opRelease n m pool x pt b lost errs
  | _ => one (txPrune n pool b)

/-- The completion of a page command: RELEASE reports how far it came also where its status is not OK (Table 17.7). -/
def Device.pageOpOver (q : Nat) (c : HostCmd) (a : Ans) : Device :=
  if a.st = .ok || leAt c.args 8 1 = 6 then a.s.hostDone q c.id a.st 0 a.detail else a.s.hostDone q c.id a.st a.detail

/-- The page command itself; w is the state in which it has not started. A COW that copies completes at COW_COPY_END. -/
def Device.pageOpDo (s w : Device) (q : Nat) (c : HostCmd) (x : Job) (p : Pool) (met : PageMet) : Device :=
  let waits : Device := w.stall (masterId 0 q) p.metaBase
  if leAt c.args 8 1 = 4 then
    match s.opCow (leAt c.args 10 1) (masterId 0 q) p x (leAt c.args 16 8) (leAt c.args 12 4) (some (q, c.id)) met.errs with
    | .wait => waits
    | .copies d => d
    | .answer a => Device.pageOpOver q c a
  else match s.pageOpAns q c x p (met.conflicts.map fun (k : BitVec 16) => k.toNat) met.tokens met.errs with
    | some a => Device.pageOpOver q c a
    | none => waits

/-- Is a COW of a queue still copying? A queue holds one transaction (R243), so its next page command waits for it. -/
def Device.queueCopies (s : Device) (q : Nat) : Bool := s.copying (masterId 0 q)

/-- PAGE_OP (row 217): the operations of R189 with the queue as issuer. -/
def execPageOp (q : Fin 64) (met : PageMet) (s : State) : Outc := s.run fun (s : Device) =>
  let w := s
  s.hostRow q 0x02 fun s c =>
    if w.queueCopies q then w
    else match s.hostPool (leAt c.args 9 1) (leAt c.args 10 1) with
    | none => s.hostDone q c.id .state (O.jobState (leAt c.args 9 1))
    | some (x, p) => match s.pageOpStop w q c x p with
      | some d => d
      | none => s.pageOpDo w q c x p met

/-! ## PT_EDIT -/

/-- Does an entry of PT_EDIT name a frame that it may not (R411)? -/
def txEditBad (p : Pool) (e : Pte) : Tx (Option Status) :=
  if !e.valid then Tx.ret none
  else if p.frames ≤ e.frame then Tx.ret (some .range)
  else (txFrame p e.frame).bind fun r => Tx.ret (if r.st != 1 then some .state else if 64 < e.fill then some .range else none)

/-- Writes one entry of PT_EDIT: the count of the new frame rises, that of the old one falls. The result is the entries changed and the frames moved to
LIMBO so far. -/
def txEditOne (p : Pool) (x : Job) (pt : Nat) (a : Nat × Nat) (w : Nat × Pte) : Tx (Nat × Nat) :=
  (txPte p x pt w.1).bind fun old =>
    if old == w.2 then Tx.ret a
    else (if w.2.valid then (txFrame p w.2.frame).bind fun r => txSetFrame p w.2.frame { r with count := r.count + 1 } else Tx.ret ()).andThen <|
      (txSetPte p x pt w.1 w.2).andThen <| (if old.valid then txUnref p old.frame else Tx.ret 0).bind fun k => Tx.ret (a.1 + 1, a.2 + k)

/-- PT_EDIT as one transaction: an entry that is refused refuses all. The detail is the number of entries changed. -/
def txEdit (n : Nat) (p : Pool) (x : Job) (pt : Nat) (l : List (Nat × Pte)) : Tx PageRes :=
  (Tx.forEach l none fun bad w => match bad with
    | some st => Tx.ret (some st)
    | none => txEditBad p w.2).bind fun bad => match bad with
      | some st => txRefuse st
      | none => (Tx.forEach l (0, 0) (txEditOne p x pt)).bind fun a => Tx.ret { detail := a.1, done := fun s => s.poolCounts n 0 0 a.2 }

/-- What stops a PT_EDIT before it takes effect (checks 2 to 5 of R411), if anything does; the new entries on a locked line make it wait as if it had not
started (w). -/
def Device.ptEditStop (s w : Device) (q : Nat) (c : HostCmd) (x : Job) (p : Pool) : Option Device :=
  let count := leAt c.args 10 2
  let first := leAt c.args 12 4
  let pt := leAt c.args 16 8
  let src := leAt c.args 24 8
  let buf := x.bufs.getD p.ptBuf {}
  if buf.size < pt + 8 * (first + count) then some (s.hostViolation q c.id (buf.base + pt))
  else if !x.inSpace src (8 * count) then some (s.hostViolation q c.id src)
  else if count < 1 || 256 < count then some (s.hostDone q c.id .range)
  else if !s.domainOn 3 then some (s.hostDone q c.id .domainOff 3)
  else if !s.claspUp then some (s.hostDone q c.id .state)
  else if w.queueCopies q || s.spaceWaits x src (8 * count) false then some w
  else if s.spaceBlocked x src (8 * count) false then some (s.hostDone q c.id .uncorrected)
  else none

/-- The entries that a PT_EDIT writes, each with its place. -/
def Device.ptEditList (s : Device) (c : HostCmd) (x : Job) : List (Nat × Pte) :=
  (List.range (leAt c.args 10 2)).map fun i => (leAt c.args 12 4 + i, Pte.decode (s.spaceLe x (leAt c.args 24 8 + 8 * i) 8))

/-- The PT_EDIT itself; w is the state in which it has not started. -/
def Device.ptEditDo (s w : Device) (q : Nat) (c : HostCmd) (x : Job) (p : Pool) (lost : Nat) (errs : List SymErr) : Device :=
  let n := leAt c.args 9 1
  match s.pageOp1 n (masterId 0 q) lost errs p (txEdit n p x (leAt c.args 16 8) (s.ptEditList c x)) with
  | none => w.stall (masterId 0 q) p.metaBase
  | some a => if a.st = .ok then a.s.hostDone q c.id .ok 0 a.detail else a.s.hostDone q c.id a.st a.detail

/-- PT_EDIT (row 218): one transaction. -/
def execPtEdit (q : Fin 64) (conflicts : Met (BitVec 16)) (s : State) : Outc := s.run fun (s : Device) =>
  let w := s
  s.hostRow q 0x03 fun s c =>
    match s.hostPool (leAt c.args 8 1) (leAt c.args 9 1) with
    | none => s.hostDone q c.id .state (O.jobState (leAt c.args 8 1))
    | some (x, p) => match s.ptEditStop w q c x p with
      | some d => d
      | none => s.ptEditDo w q c x p conflicts.val.toNat conflicts.errs

/-! ## TXN commands -/

/-- A TXN command meets the Clasp units only while their domain is on (R25). A queue holds at most one transaction (R243), so no slot is named. -/
def Device.hostTxn (s : Device) (q : Nat) (c : HostCmd) (f : Device → Device) : Device :=
  if s.domainOn 3 then f s else s.hostDone q c.id .domainOff 3

/-- TXN_OPEN (row 219). -/
def execTxnOpen (q : Fin 64) (s : State) : Outc := s.run fun (s : Device) =>
  s.hostRow q 0x10 fun s c => s.hostTxn q c fun s =>
    let r := s.txnOpenOp (masterId 0 q)
    r.1.s.hostDone q c.id r.1.st r.1.detail

/-- TXN_READ (row 220): the symbol errors that decoding meets are operands. A read of a locked line completes after the unlock. -/
def execTxnRead (q : Fin 64) (errs : List SymErr) (s : State) : Outc := s.run fun (s : Device) =>
  s.hostRow q 0x11 fun s c => s.hostTxn q c fun s =>
    let m := masterId 0 q
    let a := leAt c.args 8 8
    let n := leAt c.args 16 1
    let met := if (s.txnGate m 0).isRight && s.lineInRegion (a / 128) then errsIn a n errs else []
    let s : Device := met.foldl (fun (s : Device) e => s.symError m e) s
    match s.txnRead m 0 a n (met.any SymErr.bad) with
    | (r, b, waits) =>
      if waits then r.s
      else if r.st = .ok then r.s.hostReadDone q b
      else (r.regionChecked m a).s.hostDone q c.id r.st r.detail

/-- TXN_WRITE (row 221): the data read from host memory. -/
def execTxnWrite (q : Fin 64) (data : Bytes) (s : State) : Outc := s.run fun (s : Device) =>
  s.hostRow q 0x12 fun s c => s.hostTxn q c fun s =>
    let m := masterId 0 q
    let a := leAt c.args 8 8
    let n := leAt c.args 16 2
    if n < 1 || 128 < n || 128 < a % 128 + n then s.hostDone q c.id .range
    else
      let b := (List.range n).map fun i => (a + i, data.getD i 0)
      let r := s.txnWrite m 0 (a / 128) b
      (r.regionChecked m a).s.hostDone q c.id r.st r.detail

/-- TXN_COMMIT of a host queue (row 222): the completion follows the commit sequence. The symbol errors that the slot's write buffer shows are
operands. -/
def execHostTxnCommit (qc : Met (Fin 64)) (s : State) : Outc := s.run fun (s : Device) =>
  let q := qc.val
  s.hostRow q 0x13 fun s c => s.hostTxn q c fun s =>
    let r := s.txnCommitMet (masterId 0 q) 0 qc.errs
    if r.2 then r.1.s.hostDone q c.id r.1.st r.1.detail else r.1.s

/-- TXN_ABORT of a host queue (row 223). -/
def execHostTxnAbort (q : Fin 64) (s : State) : Outc := s.run fun (s : Device) =>
  s.hostRow q 0x14 fun s c => s.hostTxn q c fun s =>
    let r := s.txnAbortOp (masterId 0 q) 0
    r.s.hostDone q c.id r.st r.detail

/-! ## Completions, timeouts, errors -/

/-- A completion is written at CQ tail, and the queue's vector is sent. -/
def Device.postOne (s : Device) (q : Nat) (c : Compl) (r : List Compl) : Device :=
  let h := s.hq q
  let tail := (h.cqTail + 1) % s.cqEntries q
  let s : Device := s.emit (.completion q h.cqTail c h.sqHead h.phase)
  let s : Device := s.setHq q { h with posting := r, cqTail := tail, phase := if tail = 0 then !h.phase else h.phase }
  ((s.bumpStat (O.queueStats q) 1).sendMsix (s.num (O.cqVector q))).drainQueue q

/-- COMPLETION_POST (row 224): the oldest completion is written at CQ tail when there is room. -/
def execCompletionPost (q : Fin 64) (s : State) : Outc := s.run fun (s : Device) =>
  (match (s.hq q).posting with
   | [] => s
   | c :: r =>
     if !s.managerRuns || s.num (O.queueState q) = 0 || s.cqEntries q = 0 || ((s.hq q).cqTail + 1) % s.cqEntries q = (s.hq q).cqHead then s
     else s.postOne q c r)

/-- Does the layer beneath the command timeout report retrying for a command (Table 20.5): a copy-on-write tried again, or a transactional read
that waits? -/
def Device.cmdRetrying (s : Device) (q : Nat) (c : HostCmd) : Bool :=
  (s.work.cows.any fun (w : CowRun) => w.host == some (q, c.id) && decide (1 ≤ w.retries)) ||
    (c.started.isSome && c.isTxn && s.mem.waiting.any fun (w : Access) => w.master == masterId 0 q)

def Device.modCmd (s : Device) (q : Nat) (c : HostCmd) (f : HostCmd → HostCmd) : Device :=
  let h := s.hq q
  s.setHq q { h with cmds := h.cmds.map fun x => if x == c then f x else x }

/-- A command is reported timed out: it completes with E_TIMEOUT and goes on (R414, R485). -/
def Device.timeOutCmd (s : Device) (q : Nat) (c : HostCmd) : Device :=
  let r : Compl := { id := c.id, status := .timeout }
  let s : Device := s.modCmd q c fun (x : HostCmd) => { x with timedOut := true, hold := none }
  let h := s.hq q
  let reps := (h.dups.filter fun (d : Nat) => d == c.id).map fun _ => { r with replay := true }
  s.setHq q { h with posting := h.posting ++ [r] ++ reps, done := storeCompl h.done c.id r, dups := h.dups.filter fun (d : Nat) => d != c.id }

/-- A host command that has not completed within A.00.020 since it was fetched completes with E_TIMEOUT, the time its timer paused apart, and goes
on (R414, R484, R485). -/
def Device.queueTimeout (s : Device) (q id : Nat) : Device :=
  match (s.hq q).cmds.find? fun (c : HostCmd) => c.id == id && !c.gone && !c.timedOut with
  | none => s
  | some c =>
    let limit := ms (s.num O.commandTimeoutMs)
    let held := match c.hold with | some t => s.uptime - t | none => 0
    if s.cmdRetrying q c && decide (c.paused + held < limit) then
      (match c.hold with
       | some _ => s
       | none => (s.modCmd q c fun x => { x with hold := some s.uptime }).bump O.timerPauses)
    else
      let paused := min limit (c.paused + held)
      if s.uptime < c.fetched + limit + paused then s.modCmd q c fun x => { x with paused := paused, hold := none }
      else s.timeOutCmd q c

/-- A queue enters ERROR and stops fetching (R402, R411). -/
def Device.queueError (s : Device) (q : Nat) : Device :=
  let st := s.num (O.queueState q)
  if st = 1 || st = 2 then (s.setNum (O.queueState q) 3).setCause 3 else s

/-- HOST_MEMORY_ERROR (row 229): the read of a queue's entries or of the data of its next TXN_WRITE fails, or a poisoned write to BAR0 is dropped,
logged and counted (R402). -/
def execHostMemoryError (q : Fin 64) (f : HostFault) (s : State) : Outc := s.run fun (s : Device) =>
  (if !s.domainOn 1 then s
   else match f with
   | .entries => s.queueError q
   | .data => match (s.hq q).next with
     | some c => if c.opcode = 0x12 then ((s.startCmd q c).hostDone q c.id .uncorrected).queueError q else s
     | none => s
   | .poisonedWrite => (s.bump O.aerUncorrected).event { cls := 2, node := 0x7F, status := Status.uncorrected.code })

/-! ## BAR2 (R415) -/

/-- An access through BAR2 outside the map (R269): counted on Q0 and logged as the violation it is; the host cannot be frozen (R415). It ends as an access
that fails. -/
def Device.barViolation (s : Device) (writes : Bool) (check a : Nat) : Device :=
  let s : Device := ((s.bump (O.mapViolations 0)).bump O.completerAborts).event
    { cls := 5, node := 0x7F, status := Status.code .access, addr := a, cause := check }
  if writes then s else s.emit (.hostRead none)

/-- An access of the host through BAR2: a plain cached access of the bytes at an offset of the 64 MiB window. -/
def Device.barAccess (s : Device) (off : Nat) (op : MemOp) (errs : List SymErr) : Device :=
  let a := s.num O.bar2Base + off
  let n := op.len
  if !s.domainOn 1 || n = 0 then s
  else if !s.runs 3 || 0x4000000 < off + n then s.barDone op.writes .domainOff []
  else if s.mapCheck a n ≠ 0 then s.barViolation op.writes (s.mapCheck a n) a
  else if s.mustWait a op none || s.ownWaits barMaster a n then s.wait barMaster a op
  else
    let met := op.meets a errs
    let s : Device := met.foldl (fun (s : Device) e => s.symError 0xFFFF e) s
    if met.any SymErr.bad then s.barDone op.writes .uncorrected []
    else
      let r := s.perform a op
      r.2.2.barDone op.writes r.1 r.2.1

/-- BAR2_READ (row 230). -/
def execBar2Read (off : BitVec 26) (n : BitVec 13) (errs : List SymErr) (s : State) : Outc := s.run fun (s : Device) =>
  (s.barAccess off.toNat (.read n.toNat) errs)

/-- BAR2_WRITE (row 231): a poisoned write is dropped, logged and counted (R402). -/
def execBar2Write (off : BitVec 26) (data : Bytes) (poisoned : Bool) (errs : List SymErr) (s : State) : Outc := s.run fun (s : Device) =>
  (if poisoned then
    if s.domainOn 1 then (s.bump O.aerUncorrected).event { cls := 2, node := 0x7F, status := Status.uncorrected.code } else s
  else s.barAccess off.toNat (.write data) errs)

end Sys2Proof.Machine
end

