-- ==== Sys2Proof/Machine/Views.lean ====
section
/-! DEFINITION. What a read of an object returns: the pages of TABLE objects (R40), the rows that each table is read as, and the objects
that are computed when they are read. Reading an object never changes any state (R41). -/

namespace Sys2Proof.Machine

/-! ## The rows of each kind of table -/

/-- A row of the region table (Table 10.1). -/
def Region.row (r : Region) : Bytes := beBytes 8 r.base ++ beBytes 4 r.size ++ beBytes 1 r.kind ++ beBytes 1 r.job ++ beBytes 2 0

/-- A row of an abort log (Table 10.7). -/
def AbortRec.row (r : AbortRec) : Bytes :=
  beBytes 8 r.time ++ beBytes 2 r.master ++ beBytes 1 r.reason ++ beBytes 1 r.status ++ beBytes 1 (r.parts % 16) ++ beBytes 3 0

/-- A row of the lost-line table (4.00.021). -/
def lostRow (x : Nat × Nat × Nat) : Bytes := beBytes 2 x.1 ++ beBytes 4 x.2.1 ++ beBytes 1 x.2.2 ++ beBytes 1 0

/-- A row of the violation log (5.00.020). -/
def Violation.row (v : Violation) : Bytes :=
  beBytes 8 v.time ++ padTo 16 v.addr ++ beBytes 2 v.ctx ++ beBytes 2 v.src ++ beBytes 1 v.lane ++ beBytes 1 v.code ++ beBytes 2 0 ++
    beBytes 4 v.seq ++ beBytes 4 0

/-- A row of a reject log (6.(30+m).020). -/
def Reject.row (r : Reject) : Bytes :=
  beBytes 8 r.time ++ beBytes 2 r.stream ++ beBytes 1 r.status ++ beBytes 1 r.stage ++ beBytes 4 r.seq ++ beBytes 4 r.detail ++ beBytes 4 0

/-- A row of a damage log (Table 15.6). -/
def DamageRow.row (r : DamageRow) : Bytes :=
  beBytes 8 r.time ++ beBytes 2 r.stream ++ beBytes 2 r.d.frame ++ beBytes 4 r.seq ++ beBytes 1 r.codec ++ beBytes 1 r.d.error ++
    beBytes 1 r.d.resync ++ beBytes 1 0 ++ beBytes 4 r.d.concealed ++ beBytes 4 r.d.area ++ beBytes 4 0

/-- A row of a Loupe bank (Table 3.5). -/
def LoupeRow.row (r : LoupeRow) : Bytes :=
  beBytes 2 r.tensor ++ beBytes 1 (ofSigned 8 r.histTop) ++ beBytes 1 r.job ++ beBytes 4 r.maxMag.toNat ++ beBytes 8 r.zeros ++
    beBytes 8 r.sats ++ beBytes 8 r.nonfin ++ beBytes 8 r.elements ++ r.bins.flatMap (beBytes 8)

/-- The rows of a bank, ordered by job slot and then by tensor (R93). -/
def loupeRows (l : List LoupeRow) : List Bytes :=
  (l.foldl (fun (m : Tbl LoupeRow) r => tput m (65536 * r.job + r.tensor) r) []).map fun p => p.2.row

/-- A row of the selector log (Table 8.9). -/
def SelLog.row (r : SelLog) : Bytes :=
  beBytes 4 r.step ++ beBytes 1 (128 * r.noData.toNat + 64 * r.held.toNat + r.job) ++ beBytes 1 (16 * r.previous + r.chosen) ++
    beBytes 2 r.entry ++ beBytes 4 r.sat.toNat ++ beBytes 4 r.uf.toNat

/-- A mismatch record (Table 9.6). -/
def Mismatch.row (r : Mismatch) : Bytes :=
  beBytes 4 r.step ++ beBytes 1 r.job ++ beBytes 1 r.stack ++ beBytes 2 r.group ++ beBytes 4 r.first ++ beBytes 4 r.last ++
    beBytes 8 r.agree ++ beBytes 8 r.stale ++ padTo 32 r.digest ++ beBytes 1 r.assay ++ beBytes 1 r.replicas ++ beBytes 6 0

/-- A row of the table of frozen masters (A.00.031). -/
def FrozenRow.row (r : FrozenRow) : Bytes := beBytes 2 r.master ++ beBytes 2 0 ++ beBytes 4 r.seq ++ beBytes 8 r.time

/-- A row of the ledger-fault log (C.00.013). -/
def LedgerFault.row (r : LedgerFault) : Bytes :=
  beBytes 8 r.time ++ beBytes 2 r.id ++ beBytes 1 r.kind ++ beBytes 1 r.void.toNat ++ beBytes 4 r.total ++ beBytes 4 r.observed ++ beBytes 4 0

/-- A row of the partition table of a cluster (3.(40+c).240). -/
def Part.row (p : Part) : Bytes := beBytes 1 p.job ++ beBytes 3 0 ++ beBytes 4 p.base ++ beBytes 4 p.size ++ beBytes 4 0

/-- A row of the table of resource owners (F.00.050). -/
def ownerRow (r : Nat × Nat × Nat) : Bytes := beBytes 4 r.1 ++ beBytes 4 r.2.1 ++ beBytes 4 r.2.2 ++ beBytes 4 0

/-- A row of 0.00.102. -/
def timeRow (p : Nat × Nat) : Bytes := beBytes 1 p.1 ++ beBytes 7 0 ++ beBytes 8 p.2

/-- Row size and rows of a TABLE object. The table of fuses reads words 624 to 631 as 0 (0.00.112); the assignment of lands is
not stated (log entry 61). -/
def Device.tableView (s : Device) (oid : Nat) : Nat × List Bytes :=
  let a := oidArea oid
  let n := oidNode oid
  let o := oidObj oid
  if a = 0 then
    if o = 0x021 then (8, s.inventory.map (beBytes 8))
    else if o = 0x102 then (16, s.startup.times.map timeRow)
    else if o = 0x112 then (4, (List.range 1024).map fun i => beBytes 4 (if 624 ≤ i && i ≤ 631 then 0 else s.fuse i))
    else (4, (List.range 12544).map fun i => beBytes 4 (Config.landRow i).toNat)
  else if a = 2 then (8, chunks 8 64 (s.bytes O.opTable))
  else if a = 3 then (16, (tgetD s.work.parts (n - 0x40) []).map Part.row)
  else if a = 4 then
    if o = 0x205 then (16, s.mem.regions.map Region.row)
    else if o = 0x222 then (16, (tgetD s.mem.aborts (n - 0x08) []).map AbortRec.row)
    else if o = 0x010 then (32, s.segTable.map Seg.encode)
    else if o = 0x020 then (24, s.fenceRows)
    else (8, s.mem.lostLines.map lostRow)
  else if a = 5 then (40, s.net.violations.map Violation.row)
  else if a = 6 then
    if o = 0x020 then (24, (tgetD s.net.rejects (n - 0x30) []).map Reject.row)
    else (32, (tgetD s.net.damage (n - 0x30) []).map DamageRow.row)
  else if a = 8 then
    if o = 0x020 then (296, loupeRows s.loupe.live)
    else if o = 0x021 then (296, loupeRows s.loupe.frozen)
    else if o = 0x120 then (16, s.work.selLog.map SelLog.row)
    else (72, s.work.mismatches.map Mismatch.row)
  else if a = 0xA then
    if o = 0x010 then (32, s.errs.log.map ErrRec.encode) else (16, s.errs.frozen.map FrozenRow.row)
  else if a = 0xC then
    if o = 0x010 then (32, s.ledgerTableRows) else (24, s.mem.ledgerLog.map LedgerFault.row)
  else (16, s.fore.owners.map ownerRow)

/-- Page e of a table (R40): row count, row size, rows; none where a page other than the first begins beyond the last row. -/
def tablePage (size : Nat) (rows : List Bytes) (e : Nat) : Option Bytes :=
  let per := 4096 / size
  let page := (rows.drop (e * per)).take per
  if e ≠ 0 && page.isEmpty then none else some (beBytes 2 page.length ++ beBytes 2 size ++ page.flatten)

/-! ## Objects computed when they are read -/

/-- The level of a GPIO pad: what drives it, else what stands on the pad (Table 22.7). -/
def Device.padLevel (s : Device) (n : Nat) : Bool := (s.padDrive n).getD (bit s.board.gpioPads n)

/-- F.00.020 to F.00.023 of a session slot. -/
def Device.sessionView (s : Device) (o n : Nat) : Nat :=
  let x := tgetD s.fore.sessions n {}
  if o = 0x020 then (if x.phase = .free then 0 else x.sid)
  else if o = 0x021 then (if x.phase = .free then 0xFF else x.role)
  else if o = 0x022 then (if x.phase = .free then 0xFF else x.keySlot)
  else (tgetD s.fore.chans n {}).txn.isSome.toNat

/-- D.00.026, D.00.027 and D.(40+c).044, which stand in the headers of the pools. -/
def Device.poolHeaderView (s : Device) (node o e : Nat) : Nat :=
  if o = 0x026 then s.epoch e else if o = 0x027 then s.minPin e else s.pin (node - 0x40) e

/-- The value of an object that is no TABLE. -/
def Device.readVal (s : Device) (oid : Nat) : Val :=
  if oidArea oid = 0xD && (oidObj oid = 0x026 || oidObj oid = 0x027 || oidObj oid = 0x044) then
    .num (s.poolHeaderView (oidNode oid) (oidObj oid) (oidElem oid))
  else
  if oidArea oid = 0xF && 0x020 ≤ oidObj oid && oidObj oid ≤ 0x023 then .num (s.sessionView (oidObj oid) (oidElem oid))
  else if oidArea oid = 3 && oidObj oid = 0 && 0x40 ≤ oidNode oid && !s.coreInService (oidNode oid - 0x40) (oidElem oid) then .num 5
  else if oidArea oid = 5 && 0xA0 ≤ oidNode oid && oidObj oid = 0x020 && s.laneFailed (oidNode oid - 0xA0) then .num 3
  else if oid = O.flashData then .bytes s.startup.flashRead
  else if oid = O.gpioInput then .num (ofBits ((List.range 16).map s.padLevel))
  else s.val oid

/-- The port whose lanes take in lane l without beginning there (R312). -/
def Device.insidePort (s : Device) (l : Nat) : Bool :=
  (List.range (l % 8)).any fun i => let x := l - 1 - i
    s.num (O.portMode x) != 0 && decide (x / 24 = l / 24) && decide (l < x + s.num (O.portLanes x))

/-- Objects that read E_STATE: those of a FREE slot (R218, R239, R399), of a pool not granted (R194), port objects at a lane that is not its
port's first (R339), and units of an island that is stopped by its enables (R430). -/
def Device.readBlocked (s : Device) (oid : Nat) : Bool :=
  let a := oidArea oid
  let o := oidObj oid
  let e := oidElem oid
  (a == 7 && decide (0x100 ≤ o) && decide (o ≤ 0x123) && s.num (O.jobState e) == 0) ||
  (a == 8 && oidNode oid == 0 && (match lookup oid with | .found d => d.elems == 32 | _ => false) && decide (0x100 ≤ o) && s.num (O.jobState e) == 0) ||
  (a == 0xD && oidNode oid == 0 && decide (0x020 ≤ o) && s.num (O.poolState e) == 0) ||
  (a == 5 && decide (0xA0 ≤ oidNode oid) && decide (o < 0x020) && s.insidePort (oidNode oid - 0xA0)) ||
  (match linkIslandOf oid with
   | some i => !bit (s.num (O.clockEnables (i + 2))) 0
   | none => false)

end Sys2Proof.Machine
end

