-- ==== Sys2Proof/Machine/Writes.lean ====
section
/-! DEFINITION. Rights of channels (Table 2.7), the checks of a write in the order of R50, and what a committed write of each object does. -/

namespace Sys2Proof.Machine

/-! ## Rights (R43) -/

/-- What a channel may do: read, write RW, WO, RWS and RWC objects, read and write ADM objects, subscribe, open a dictionary transaction. -/
structure Rights where
  read : Bool := false
  write : Bool := false
  adm : Bool := false
  sub : Bool := false
  txn : Bool := false
deriving DecidableEq, Repr

/-- Does an enabled grant of F.00.040 to F.00.042 name peer context n (R61)? -/
def Device.granted (s : Device) (n : Nat) : Bool :=
  (List.range 64).any fun g => s.flag (O.peerGrantEnable g) && s.num (O.peerGrantContext g) == n

/-- Rights bit b of a peer context: that of any enabled grant that names it (log entry 123). -/
def Device.grantBit (s : Device) (n b : Nat) : Bool :=
  (List.range 64).any fun g => s.flag (O.peerGrantEnable g) && s.num (O.peerGrantContext g) == n && bit (s.num (O.peerGrantRights g)) b

/-- The rights of a channel (Table 2.7). In IMAGE_FAIL there are no administrator rights and no dictionary transactions (Table 19.5). -/
def Device.rights (s : Device) (ch : Chan) : Rights :=
  match ch with
  | .session n =>
    let x := tgetD s.fore.sessions n.val {}
    if x.phase ≠ .isOpen then {}
    else { read := true, write := decide (1 ≤ x.role), adm := decide (2 ≤ x.role), sub := true, txn := decide (1 ≤ x.role) }
  | .pcie =>
    { read := true, write := true, adm := s.fore.pcieAdmin && s.startupCode != suImageFail, sub := true,
      txn := s.startupCode != suImageFail }
  | .peer n => { read := s.grantBit n.val 0, write := s.grantBit n.val 2, sub := s.grantBit n.val 1, txn := s.grantBit n.val 2 }

/-- May a channel read an object (check 3 of R50)? -/
def Rights.mayRead (r : Rights) (a : Acc) : Bool :=
  match a with
  | .wo => false
  | .adm => r.read && r.adm
  | .ro | .rw | .rws | .rwc => r.read

/-- May a channel write an object (check 3 of R50)? 2.(10+d).061 of D0 to D3 never (R423). -/
def Rights.mayWrite (r : Rights) (a : Acc) (oid : Nat) : Bool :=
  (match a with
    | .ro => false
    | .adm => r.adm
    | .rw | .wo | .rws | .rwc => r.write) &&
  !(oidArea oid == 2 && oidObj oid == 0x061 && decide (oidNode oid < 0x14))

/-! ## Reading (R50) -/

/-- The page of a TABLE that an element reads; an object of another type has all its elements. None where the element does not exist (R36). -/
def Device.pageOf (s : Device) (oid : Nat) (d : ObjDesc) : Option Bytes :=
  if d.ty = .table then let v := s.tableView oid
    tablePage v.1 v.2 (oidElem oid) else some []

/-- The checks of a read: 1 to 3 and 6, then the objects that read E_STATE. The value where they pass: its type and its bytes. -/
def Device.readObj (s : Device) (r : Rights) (report : Option Bytes) (oid : Nat) : (Status × Nat) ⊕ (Ty × Bytes) :=
  match lookup oid with
  | .noObject => .inl (.noObject, oid)
  | .noElement => .inl (.noElement, oid)
  | .found d =>
    match s.pageOf oid d with
    | none => .inl (.noElement, oid)
    | some p =>
      if !r.mayRead d.acc then .inl (.access, oid)
      else match (match ownerDomain oid with | some x => if s.domainOn x then none else some x | none => none) with
        | some x => .inl (.domainOff, x)
        | none =>
          if s.readBlocked oid then .inl (.state, oid)
          else if oid = O.attestReport then match report with
            | some b => .inr (.blob, b)
            | none => .inl (.state, oid)
          else if d.ty = .table then .inr (.table, p)
          else .inr (d.ty, valBytes d.ty (s.readVal oid))

/-- The item of a read (R49). -/
def itemOf (oid : Nat) (v : Ty × Bytes) : Bytes :=
  itemBytes { oid := BitVec.ofNat 32 oid, ty := BitVec.ofNat 8 v.1.code, value := v.2 }

/-! ## Check 8: RWS and RWC objects -/

/-- Is the unit that owns an RWS object stopped? -/
def Device.unitStopped (s : Device) (oid : Nat) : Bool :=
  let a := oidArea oid
  let n := oidNode oid
  let o := oidObj oid
  let e := oidElem oid
  if a = 5 then (if 0xA0 ≤ n then s.num (O.portMode (n - 0xA0)) == 0 else s.ctxSt (256 * (o % 16) + e) == 0)
  else if a = 6 then (if o < 0x100 then s.streamSt (64 * (n - 0x30) + e) == 0 else s.encSt (64 * (n - 0x30) + e) == 0)
  else if a = 7 then s.num (O.jobState e) == 0
  else if a = 0xB then (if n = 0x7F then s.num (O.queueState e) == 0 else !s.flag (O.mbEnable e))
  else if a = 0xC then s.chStopped (n - 0x08) (256 * (o % 4) + e)
  else true

/-- Check 8 of R50: RWS and RWC state, the island's enables (R430), the notification ring's base while the ring is on (R407). -/
def Device.stateOk (s : Device) (oid : Nat) (a : Acc) : Bool :=
  (match a with
    | .rws => s.unitStopped oid
    | .rwc => s.startupCode == suConfigure || s.inSafe
    | .ro | .rw | .wo | .adm => true) &&
  (match linkIslandOf oid with
    | some i => bit (s.num (O.clockEnables (i + 2))) 0
    | none => true) &&
  (oid != O.notifyRingBase || s.num O.notifyRingEntries == 0)

/-! ## Check 9, where a value is judged by its fields -/

/-- The thresholds of PFC: xon < xoff ≤ the cap of the link-receive channel (R331). -/
def Device.pfcOk (s : Device) (l o n : Nat) : Bool :=
  let xoff := if o = 0x00B then n else s.num (O.pfcXoff l)
  let xon := if o = 0x00C then n else s.num (O.pfcXon l)
  decide (xon < xoff) && decide (xoff ≤ s.num (O.rxCap l))

/-- The save pool lies in one segment and overlaps no transactional region. -/
def Device.savePoolOk (s : Device) (b n : Nat) : Bool :=
  (s.segTable.any fun g => decide (g.base ≤ b) && decide (b + n ≤ g.base + g.bytes)) && !s.inRegion b n

def Device.fieldsOk (s : Device) (oid : Nat) (v : Bytes) : Bool :=
  let a := oidArea oid
  let o := oidObj oid
  if a = 5 then
    if 0xA0 ≤ oidNode oid then (o != 0x00B && o != 0x00C) || s.pfcOk (oidNode oid - 0xA0) o (beNat v)
    else if 0x100 ≤ o && o < 0x110 then ctxConfigOk v
    else if 0x110 ≤ o && o < 0x120 then s.windowsOk (256 * (o % 16) + oidElem oid) v
    else true
  else if oid = O.savePoolBase then s.savePoolOk (beNat v) (s.num O.savePoolBytes)
  else if oid = O.savePoolBytes then s.savePoolOk (s.num O.savePoolBase) (beNat v)
  else true

/-! ## What a committed write does -/

/-- Zeroes byte ranges of a value: the reserved fields of a record (R6). -/
def zeroAt (v : Bytes) (l : List (Nat × Nat)) : Bytes :=
  l.foldl (fun (b : Bytes) (x : Nat × Nat) => b.take x.1 ++ List.replicate x.2 0 ++ b.drop (x.1 + x.2)) v

/-- Keeps the bits of a mask in one byte of a value: the rest are reserved bits of a field (R6). -/
def keepAt (v : Bytes) (i mask : Nat) : Bytes := v.set i (v.getD i 0 &&& BitVec.ofNat 8 mask)

/-- The reserved fields and bits of a stream's configuration are zero (Tables 14.1 and 3.4). -/
def streamConfigClean (v : Bytes) : Bytes :=
  keepAt (keepAt (keepAt (zeroAt v [(14, 2), (22, 2), (94, 2), (116, 4), (140, 4)]) 13 0x0F) 44 0xF8) 45 0x1F

/-- A write that stores its value. -/
def Device.plainWrite (s : Device) (oid : Nat) (d : ObjDesc) (v : Bytes) : Ans := (s.setVal oid (itemVal d v)).okay

/-- A BOOL that acts when 1 is written. -/
def Device.whenOne (s : Device) (n : Nat) (f : Device → Ans) : Ans := if n = 1 then f s else s.okay

def Device.write0 (s : Device) (sid oid : Nat) (d : ObjDesc) (v : Bytes) : Ans :=
  let n := beNat v
  if oid = O.resetRequest then s.resetWrite (beAt v 0 1) (beAt v 4 4)
  else if oid = O.configureRelease then s.configureReleaseWrite n
  else if oidObj oid = 0x250 then s.gpioWrite (oidElem oid) n sid
  else s.plainWrite oid d v

def Device.write1 (s : Device) (oid : Nat) (d : ObjDesc) (v : Bytes) : Ans :=
  if oid = O.flashData then s.flashWrite v
  else if oid = O.flashErase then s.flashEraseWrite (beNat v)
  else s.plainWrite oid d v

def Device.write2 (s : Device) (oid : Nat) (d : ObjDesc) (v : Bytes) : Ans :=
  let n := beNat v
  let o := oidObj oid
  if o = 0x001 then s.powerRequest n
  else if o = 0x004 then ({ s.setNum oid n with power := { s.power with autoSince := s.uptime } } : Device).okay
  else if o = 0x012 then ({ s.setNum oid n with power := { s.power with timerArmed := true } } : Device).okay
  else if o = 0x030 then s.clockWrite (oidElem oid) n
  else if o = 0x061 then s.domainWrite (oidNode oid - 0x10) n
  else if o = 0x062 then s.opWrite (oidNode oid - 0x10) n
  else if o = 0x071 then s.whenOne n fun s => s.locketInvalidate.okay
  else s.plainWrite oid d v

def Device.write5 (s : Device) (sid oid : Nat) (d : ObjDesc) (v : Bytes) : Ans :=
  let n := beNat v
  let o := oidObj oid
  let c := 256 * (o % 16) + oidElem oid
  if 0xA0 ≤ oidNode oid then
    if o = 0x000 then s.portModeWrite (oidNode oid - 0xA0) n sid else s.plainWrite oid d v
  else if 0x100 ≤ o && o < 0x110 then (s.setBytes oid (ctxConfigClean v)).okay
  else if 0x110 ≤ o && o < 0x120 then (s.setBytes oid (windowsClean v)).okay
  else if 0x120 ≤ o && o < 0x130 then (if n = 1 then s.ctxOpen c sid else s.ctxClose c)
  else if 0x140 ≤ o && o < 0x150 then s.whenOne n fun s => s.ctxThaw c
  else s.plainWrite oid d v

def Device.write6 (s : Device) (sid oid : Nat) (d : ObjDesc) (v : Bytes) : Ans :=
  let n := beNat v
  let o := oidObj oid
  let k := 64 * (oidNode oid - 0x30) + oidElem oid
  if oidNode oid < 0x30 then s.plainWrite oid d v
  else if o = 0x010 then (s.setBytes oid (streamConfigClean v)).okay
  else if o = 0x011 then (if n = 1 then s.streamOpen k sid else if n = 2 then s.streamClose k else s.streamFlush k)
  else if o = 0x017 then s.whenOne n fun s => s.streamThaw k
  else if o = 0x100 then (s.setBytes oid (zeroAt v [(44, 4), (61, 1), (64, 32)])).okay
  else if o = 0x101 then (if n = 1 then s.encOpen k sid else s.encClose k)
  else if o = 0x104 then s.whenOne n fun s => s.encThaw k
  else s.plainWrite oid d v

/-- Job control reaches the device manager only at READY. -/
def Device.jobControlWrite (s : Device) (j n : Nat) : Ans :=
  if s.startupCode ≠ suReady then s.deny .state (O.jobState j)
  else match n with
    | 1 => s.jobAdmit j
    | 2 => s.jobLeave j false
    | 3 => s.jobLeave j true
    | 4 => s.jobDeregister j
    | _ => s.jobRegister j

def Device.write7 (s : Device) (oid : Nat) (d : ObjDesc) (v : Bytes) : Ans :=
  let n := beNat v
  let o := oidObj oid
  let j := oidElem oid
  if o = 0x010 || o = 0x011 then (s.setNum oid n).saveView.okay
  else if o = 0x120 then s.jobControlWrite j n
  else if o = 0x122 then
    (if s.startupCode ≠ suReady then s.deny .state (O.jobState j)
     else if stepSlot v ≠ j then s.deny .range oid
     else s.stepSubmit v none)
  else if o = 0x123 then s.whenOne n fun s => s.jobThaw j
  else s.plainWrite oid d v

def Device.write9 (s : Device) (ch : Chan) (oid : Nat) (d : ObjDesc) (v : Bytes) : Ans :=
  if oid = O.rollbackCommit then s.rollbackWrite (beNat v) none
  else if oid = O.attestNonce then s.attest ch v
  else s.plainWrite oid d v

def Device.writeB (s : Device) (sid oid : Nat) (d : ObjDesc) (v : Bytes) : Ans :=
  let n := beNat v
  let o := oidObj oid
  let e := oidElem oid
  if oidNode oid = 0x7F then
    if o = 0x016 then s.queueEnableWrite e (n == 1)
    else if o = 0x019 then s.whenOne n fun s => s.queueThaw e
    else if o = 0x021 then
      let s : Device := if s.num oid = 0 then { s with host := { s.host with notifyHead := 0, notifyTail := 0 } } else s
      (s.setNum oid n).okay
    else s.plainWrite oid d v
  else if o = 0x103 then s.mbEnableWrite e (n == 1) sid
  else s.plainWrite oid d v

def Device.writeC (s : Device) (oid : Nat) (d : ObjDesc) (v : Bytes) : Ans :=
  let n := beNat v
  let o := oidObj oid
  let q := oidNode oid - 0x08
  if o = 0x020 then s.urgentWrite q n
  else if 0x104 ≤ o && o < 0x108 then s.reserveWrite q (256 * (o % 4) + oidElem oid) n
  else if 0x108 ≤ o && o < 0x10C then s.capWrite q (256 * (o % 4) + oidElem oid) n
  else s.plainWrite oid d v

def Device.writeE (s : Device) (oid : Nat) (d : ObjDesc) (v : Bytes) : Ans :=
  if oid = O.debugToken then s.debugToken v
  else if oid = O.debugLock then s.whenOne (beNat v) fun s => s.lockDebug.okay
  else s.plainWrite oid d v

/-- Aborts the dictionary transactions that have had no request for longer than F.00.011 (R64): it applies at once. -/
def Device.dropIdleTxns (s : Device) : Device :=
  let overdue (c : ChanState) : Bool := match c.txn with
    | some t => decide (t.lastReq + ms (s.num O.txnIdleTimeoutMs) ≤ s.uptime)
    | none => false
  { s with fore := { s.fore with chans := s.fore.chans.map fun (p : Nat × ChanState) =>
      (if (overdue p.2) = true then (p.1, { p.2 with txn := none, txnLost := true }) else p) } }

/-- A change of the grants: a context that an enabled grant now names, and named none before, starts with no H (R52). -/
def Device.grantWrite (s : Device) (oid : Nat) (d : ObjDesc) (v : Bytes) : Ans :=
  let t : Device := s.setVal oid (itemVal d v)
  let n := t.num (O.peerGrantContext (oidElem oid))
  (if t.granted n && !s.granted n then
    { t with fore := { t.fore with chans := tmod t.fore.chans (17 + n) {} fun c => { c with h := none, done := [] } } }
   else t).okay

def Device.writeF (s : Device) (oid : Nat) (d : ObjDesc) (v : Bytes) : Ans :=
  if oid = O.txnIdleTimeoutMs then (s.setNum oid (beNat v)).dropIdleTxns.okay
  else if oidObj oid = 0x040 || oidObj oid = 0x041 then s.grantWrite oid d v
  else s.plainWrite oid d v

/-- The effect of a committed write, by area. -/
def Device.commit (s : Device) (ch : Chan) (oid : Nat) (d : ObjDesc) (v : Bytes) : Ans :=
  let sid := s.chanSid ch
  match oidArea oid with
  | 0 => s.write0 sid oid d v
  | 1 => s.write1 oid d v
  | 2 => s.write2 oid d v
  | 4 => if oid = O.segmentTable then s.segTableWrite v else s.plainWrite oid d v
  | 5 => s.write5 sid oid d v
  | 6 => s.write6 sid oid d v
  | 7 => s.write7 oid d v
  | 9 => s.write9 ch oid d v
  | 0xA => if oid = O.masterThaw then s.thaw (beNat v) else s.plainWrite oid d v
  | 0xB => s.writeB sid oid d v
  | 0xC => s.writeC oid d v
  | 0xE => s.writeE oid d v
  | 0xF => s.writeF oid d v
  | _ => s.plainWrite oid d v

/-- A resent debug token and a lock that locks nothing new are answered, and measured as any write; a resent token changes nothing (R496). -/
def Device.isResend (s : Device) (oid : Nat) (v : Bytes) : Bool := oid == O.debugToken && s.tokenCheck v == some .ok

/-- The write of a checked item: its effect, the measurement of RWC and ADM objects (Table 21.1), the write sequence (R261). -/
def Device.writeObj (s : Device) (ch : Chan) (oid : Nat) (d : ObjDesc) (v : Bytes) : Ans :=
  let a := (s.commit ch oid d v).wrote oid
  if (d.acc = .rwc || d.acc = .adm) && !s.isResend oid v then a.measured oid v else a

/-! ## The checks of a write, in the order of R50 -/

/-- Checks 1 to 3 of an item; for a staged item an object that may not be staged fails check 3 (R62). -/
def firstChecks (r : Rights) (staged : Bool) (oid : Nat) : (Status × Nat) ⊕ ObjDesc :=
  match lookup oid with
  | .noObject => .inl (.noObject, oid)
  | .noElement => .inl (.noElement, oid)
  | .found d =>
    if d.ty = .table && oidElem oid ≠ 0 then .inl (.noElement, oid)
    else if !r.mayWrite d.acc oid || (staged && !d.stageable oid) then .inl (.access, oid)
    else .inr d

/-- Checks 6 to 9; check 10 and the checks a unit makes itself are those of its write. -/
def Device.laterChecks (s : Device) (oid : Nat) (d : ObjDesc) (v : Bytes) : Option (Status × Nat) :=
  match s.ownerChecks oid with
  | some x => some x
  | none =>
    if !s.stateOk oid d.acc then some (.state, oid)
    else if !s.rangeOk oid d v || !s.fieldsOk oid v then some (.range, oid)
    else none

/-- The checks of an item (R50): its description where every one passes. Check 10 asks whether a write made now would find a resource held; a
staged item is not judged on it (R62). What else a unit tests when it is written is its own answer to the write. -/
def Device.checkItem (s : Device) (ch : Chan) (staged : Bool) (i : Item) : (Status × Nat) ⊕ ObjDesc :=
  let oid := i.oid.toNat
  match firstChecks (s.rights ch) staged oid with
  | .inl e => .inl e
  | .inr d =>
    if i.ty.toNat ≠ d.ty.code then .inl (.type, oid)
    else if !lengthOk oid d.ty i.value.length then .inl (.length, oid)
    else match s.laterChecks oid d i.value with
      | some e => .inl e
      | none =>
        let a := s.writeObj ch oid d i.value
        if !staged && a.st = .held then .inl (a.st, a.detail) else .inr d

/-- A write dropped because its domain is off is logged with its channel (R25, R50); the PCIe host channel, to which Table 0.3 gives no id of its
own, stands under the device manager's (log entry 124). -/
def Device.logRefusal (s : Device) (ch : Chan) (oid : Nat) (st : Status) : Device :=
  if st = .domainOff then
    s.logDomainDrop (match ch with | .session n => masterId 5 n.val | .pcie => managerId | .peer n => masterId 4 n.val) (oidNode oid)
  else s

end Sys2Proof.Machine
end

