-- ==== Sys2Proof/Machine/Engine.lean ====
section
/-! DEFINITION. The Foreri engine: channels, the duplicate window, the store of answers, the order of requests, notifications, sessions and
the requests themselves (R42 to R66, R261, R406, R407). -/

namespace Sys2Proof.Machine

/-! ## Channels -/

/-- The management port runs (R462, Table 19.5, R509): from the end of CONFIGURE on, in SAFE, and while MREFCLK is present. -/
def Device.mgmtUp (s : Device) : Bool :=
  s.managerRuns && !s.board.scanHeld && bit (s.num O.refclkPresent) 6 &&
  (s.startupCode == suTrain || s.startupCode == suReady || s.startupCode == suSafe || (s.startupCode == suConfigure && s.startup.holding))

/-- The PCIe host channel is reachable (R462, Table 19.5). -/
def Device.pcieUp (s : Device) : Bool := s.managerRuns && !s.board.scanHeld && (s.num O.bezelState == 1 || s.startupCode == suImageFail)

/-- A channel's interface runs. -/
def Device.chanUp (s : Device) (ch : Chan) : Bool :=
  match ch with
  | .session _ => s.mgmtUp
  | .pcie => s.pcieUp
  | .peer _ => s.managerRuns && s.runs 2

def Device.sess (s : Device) (n : Nat) : Session := tgetD s.fore.sessions n {}

def Device.setSess (s : Device) (n : Nat) (x : Session) : Device := { s with fore := { s.fore with sessions := tset s.fore.sessions n x {} } }

/-- Ends a session (R59): its transaction aborts, its subscriptions end, its duplicate window and its report are discarded, its slot and
its HELLO response are freed (R57), and its requests not yet executed are dropped. -/
def Device.endSession (s : Device) (n : Fin 16) : Device :=
  { s with fore := { s.fore with
      sessions := tdel s.fore.sessions n.val, chans := tdel s.fore.chans n.val,
      hellos := s.fore.hellos.filter fun h => h.slot != some n.val,
      engine := s.fore.engine.filter fun w => w.ch != some (.session n) } }

/-- Is a channel known (R48, R61): an occupied session slot, the PCIe host channel, a context with a grant? -/
def Device.known (s : Device) (ch : Chan) : Bool :=
  match ch with
  | .session n => (s.sess n.val).phase != .free
  | .pcie => true
  | .peer n => s.granted n.val

/-- A pending session whose 5,000 ms passed with no AUTH in the engine loses its slot, and is counted (R56 step 5, log entry 65). -/
def Device.expireAuth (s : Device) (n : Fin 16) : Device :=
  let x := s.sess n.val
  if x.phase == .pending && decide (x.since + ms 5000 < s.uptime) && !(s.fore.engine.any fun w => w.ch == some (.session n)) then
    (s.endSession n).bump O.authFailures
  else s

/-- A message for a channel finds it so (R56): a session whose AUTH is overdue has ended. -/
def Device.expireChan (s : Device) (ch : Option Chan) : Device :=
  match ch with
  | some (.session n) => s.expireAuth n
  | _ => s

/-- A message that is malformed, or that names no channel: counted, and a partner protocol violation (R48). -/
def Device.countMalformed (s : Device) (ch : Option Chan) : Device :=
  let m := match ch with
    | some (.session n) => masterId 5 n.val
    | some (.peer n) => masterId 4 n.val
    | some .pcie => 0xFFFF
    | none => 0xFFFF
  (s.bump O.malformedCount).event { cls := 4, node := 0x7E, master := m, status := Status.malformed.code }

/-! ## Messages out -/

/-- A header (Table 2.8): flags [31:24] of word 0, the fields, and the number of a segment among those of its message. -/
def headerBytes (op flags status sid rid len item detail : Nat) (seg : Nat := 0) (segs : Nat := 1) : Bytes :=
  beBytes 2 0x4652 ++ beBytes 1 1 ++ beBytes 1 op ++ beBytes 1 flags ++ beBytes 1 status ++ beBytes 1 seg ++ beBytes 1 segs ++ beBytes 4 sid ++
    beBytes 4 rid ++ beBytes 2 len ++ beBytes 2 item ++ beBytes 4 detail

/-- Segments of a body (R46). -/
def segsFor (len : Nat) : Nat := if len ≤ 1392 then 1 else (len + 1391) / 1392

/-- The tag of a message (R58): over the direction, 0 toward the device and 1 from it, the header with no segment fields, and the body. -/
def msgTag (dir : Byte) (key header body : Bytes) : Bytes :=
  kmac key ([dir] ++ header.take 6 ++ [0, 0] ++ (header.drop 8) ++ body) (strBytes "FORERI-TAG")

/-- The UDP payloads of a message of the device (R46): segments of 1,392 bytes of body, each with its header; the tag follows the last. -/
def datagramsOf (header : Nat → Nat → Bytes) (body tag : Bytes) : List Bytes :=
  let n := segsFor body.length
  (List.range n).map fun i => header i n ++ slice body (1392 * i) 1392 ++ (if i + 1 = n then tag else [])

/-- Flags [31:24] of a response (Table 2.8), its tagged flag apart. -/
def Resp.flags (r : Resp) : Nat := 128 + 64 * r.replay.toNat + 32 * r.evicted.toNat

/-- The message of an answer on a channel without tags. -/
def Resp.message (r : Resp) (sid rid : Nat) : Bytes :=
  headerBytes r.op r.flags r.status.code sid rid r.body.length r.itemIndex r.detail ++ r.body

/-- The payloads of an answer on the management port: tagged with the session's key (R58); the answer of HELLO carries session_id 0 and no tag
(R42, R56). -/
def Resp.datagrams (r : Resp) (x : Option Session) (rid : Nat) : List Bytes :=
  let h (tagged sid seg segs : Nat) : Bytes :=
    headerBytes r.op (r.flags + 16 * tagged) r.status.code sid rid r.body.length r.itemIndex r.detail seg segs
  match x with
  | some x => datagramsOf (h 1 x.sid) r.body (msgTag 1 x.key (h 1 x.sid 0 0) r.body)
  | none => datagramsOf (h 0 0) r.body []

/-- The payloads of a NOTIFY on the management port (R65), of an item. -/
def Session.notifyDatagrams (x : Session) (seq : Nat) (item : Bytes) : List Bytes :=
  let h (seg segs : Nat) : Bytes := headerBytes 0x22 16 0 x.sid seq item.length 0 0 seg segs
  datagramsOf h item (msgTag 1 x.key (h 0 0) item)

/-- Puts datagrams out on the management port, in order. -/
def Device.sendMgmt (s : Device) (l : List Bytes) : Device := l.foldl (fun (s : Device) b => s.emit (.mgmt b)) s

/-- Sends a message as DICT packets of a context (R337): one or two packets, numbered as SEND messages are. -/
def Device.dictSend (s : Device) (n : Nat) (m : Bytes) : Device :=
  let c := s.ctx n
  let parts := chunks (s.maxPayload n) (m.length + 1) m
  let p := (parts.zip (List.range parts.length)).map fun x =>
    ({ type := 4, first := x.2 == 0, last := x.2 + 1 == parts.length, payLen := x.1.length, op := c.msgNo * 2 ^ 32, payload := x.1,
       seq := 0 } : Packet)
  (s.setCtx n { c with msgNo := (c.msgNo + 1) % 2 ^ 32 }).ctxQueue n p

/-- Puts an answer out where its request came from: into its request slot, which becomes READY and sets cause bit 0 (R406); as a DICT
message of its context (R337); or on the management port. Replays and refusals with E_BUSY are counted (Table 2.13). -/
def Device.deliver (s : Device) (ch : Option Chan) (via : Option Nat) (rid : Nat) (r : Resp) : Device :=
  let s : Device := if r.replay then s.bump O.replaysServed else s
  let s : Device := if r.status = .busy then s.bump O.busyRefusals else s
  match via with
  | some k =>
    let x := tgetD s.host.slots k {}
    let s : Device := { s with host := { s.host with slots := tset s.host.slots k { x with st := .ready, resp := some r, rid := rid } {} } }
    s.setCause 0
  | none => match ch with
    | some (.peer n) => s.dictSend n.val (r.message (0xFFFF0000 + n.val) rid)
    | some (.session n) => s.sendMgmt (r.datagrams (some (s.sess n.val)) rid)
    | some .pcie => s
    | none => s.sendMgmt (r.datagrams none rid)

/-! ## The duplicate window (R52 to R55) -/

/-- x is ahead of h, by serial arithmetic modulo 2^32 (R52). -/
def idAhead (h x : Nat) : Bool := let d := (x + 2 ^ 32 - h) % 2 ^ 32
  decide (1 ≤ d) && decide (d ≤ 2 ^ 31 - 1)

/-- x is older than the window of h (R52). -/
def idStale (h x : Nat) : Bool := !idAhead h x && decide (1023 < (h + 2 ^ 32 - x) % 2 ^ 32)

/-- What the window says of an id: refused as stale, answered from the store, or executed. -/
inductive DupClass where
  | stale
  | replay (x : Stored)
  | fresh
deriving DecidableEq, Repr

def ChanState.classify (c : ChanState) (rid : Nat) : DupClass :=
  match c.h with
  | none => .fresh
  | some h =>
    if idAhead h rid then .fresh
    else if idStale h rid then .stale
    else match c.done.find? fun x => x.1 == rid with
      | some x => .replay x.2
      | none => .fresh

/-- Accepts an id: one ahead of H becomes the new H, and answers behind the window are forgotten. -/
def ChanState.acceptId (c : ChanState) (rid : Nat) : ChanState :=
  let h := match c.h with
    | none => rid
    | some h => if idAhead h rid then rid else h
  { c with h := some h, done := c.done.filter fun x => !idStale h x.1 }

/-- The answer to a duplicate (R52, R53). -/
def Stored.answer : Stored → Resp
  | .kept r => { r with replay := true }
  | .discarded op st => { op := op, status := st, replay := true, evicted := true }

/-- Is an answer one of the larger ones that share 64 KiB per channel (R53)? -/
def Stored.largeSize : Stored → Nat
  | .kept r => if 64 < r.body.length then r.body.length else 0
  | .discarded _ _ => 0

/-- Discards the oldest larger answers until those left fit in `room` bytes; the list is newest first. -/
def evictLarge : Nat → List (Nat × Stored) → List (Nat × Stored)
  | _, [] => []
  | room, (i, x) :: r =>
    let n := x.largeSize
    if n = 0 then (i, x) :: evictLarge room r
    else if n ≤ room then (i, x) :: evictLarge (room - n) r
    else (i, match x with | .kept a => .discarded a.op a.status | y => y) :: evictLarge 0 r

/-- Stores the answer of an executed id (R53); E_BUSY is never stored (R55). -/
def ChanState.store (c : ChanState) (rid : Nat) (r : Resp) : ChanState :=
  if r.status = .busy then c
  else { c with done := evictLarge 65536 ((rid, Stored.kept r) :: c.done.filter fun x => x.1 != rid) }

/-! ## The order of requests (R44) -/

/-- Rank of a channel among requests of one cycle: PCIe, sessions by slot, HELLO on the management port, peers by context. -/
def chanRank : Option Chan → Nat
  | some .pcie => 0
  | some (.session n) => 1 + n.val
  | none => 17
  | some (.peer n) => 18 + n.val

/-- a is executed before b. -/
def Waiting.before (a b : Waiting) : Bool := decide (a.since < b.since) || (a.since == b.since && decide (chanRank a.ch < chanRank b.ch))

/-- The request the engine executes next: the earliest; of those of one cycle the first in the order of R44. -/
def nextWaiting : List Waiting → Option Waiting
  | [] => none
  | w :: r => some (r.foldl (fun (b x : Waiting) => if x.before b then x else b) w)

/-- Is a request HELLO, which is kept by its nonce and not by its id (R57)? -/
def Req.isHello : Req → Bool
  | .hello _ _ _ _ => true
  | _ => false

/-- The operation code of a request (Table 2.9). -/
def Req.op : Req → Nat
  | .read _ => 0x01
  | .write _ _ => 0x02
  | .readMulti _ => 0x03
  | .writeMulti _ _ => 0x04
  | .describe _ => 0x05
  | .txnBegin => 0x10
  | .txnCommit => 0x11
  | .txnAbort => 0x12
  | .subscribe _ _ _ _ => 0x20
  | .unsubscribe _ => 0x21
  | .hello _ _ _ _ => 0x40
  | .auth _ _ => 0x42
  | .close => 0x43

/-- The object a request names, for the detail of E_TIMEOUT. -/
def Req.object : Req → Nat
  | .read o => o.toNat
  | .describe o => o.toNat
  | .write _ i => i.oid.toNat
  | .readMulti l => (l.head?.getD 0).toNat
  | .writeMulti _ l => match l.head? with
    | some i => i.oid.toNat
    | none => 0
  | .subscribe o _ _ _ => o.toNat
  | _ => 0

/-- An unanswered request waits in the engine for a channel and an id. -/
def Waiting.is (w : Waiting) (ch : Option Chan) (rid : Nat) : Bool := w.ch == ch && w.rid == rid && !w.timedOut

/-- A request that arrives whole on a channel: held when its original waits (R54), refused when stale or when eight wait (R44, R52), answered
from the store, else passed to the engine. -/
def Device.arrive (s : Device) (ch : Option Chan) (rid : Nat) (req : Req) (via : Option Nat) : Device :=
  let wait (s : Device) : Device :=
    { s with fore := { s.fore with engine := s.fore.engine ++ [({ ch := ch, rid := rid, req := req, since := s.uptime, via := via } : Waiting)] } }
  match ch with
  | none => wait s
  | some c =>
    if req.isHello then wait s
    else if s.fore.engine.any fun w => w.is ch rid && !w.req.isHello then
      { s with fore := { s.fore with engine := s.fore.engine.map fun (w : Waiting) =>
          (if (w.is ch rid && !w.req.isHello) = true then { w with held := w.held ++ [via] } else w) } }
    else
      let x := s.chanSt c
      match x.classify rid with
      | .stale => (s.bump O.staleIdRefusals).deliver ch via rid { op := req.op, status := .range, detail := 0xFFFFFFFF }
      | .replay st => s.deliver ch via rid st.answer
      | .fresh =>
        if 8 ≤ (s.fore.engine.filter fun w => w.ch == ch && !w.timedOut).length then s.deliver ch via rid { op := req.op, status := .busy }
        else wait (s.setChanSt c (x.acceptId rid))

/-- A valid request restarts the idle time of its session (R59). -/
def Device.touchSession (s : Device) (ch : Option Chan) : Device :=
  match ch with
  | some (.session n) => s.setSess n.val { s.sess n.val with lastReq := s.uptime }
  | _ => s

/-! ## READ, WRITE and DESCRIBE (R49 to R51) -/

/-- A refusal of a request, with its first failing item. -/
def failed (op : Nat) (st : Status) (detail : Nat := 0) (item : Nat := 0xFFFF) : Resp :=
  { op := op, status := st, detail := detail, itemIndex := item }

def Device.readFor (s : Device) (ch : Chan) (oid : Nat) : (Status × Nat) ⊕ Bytes :=
  match s.readObj (s.rights ch) (s.chanSt ch).report oid with
  | .inl e => .inl e
  | .inr v => .inr (itemOf oid v)

def Device.doRead (s : Device) (ch : Chan) (oid : Nat) : Resp :=
  match s.readFor ch oid with
  | .inl e => failed 0x01 e.1 e.2 0
  | .inr b => { op := 0x01, status := .ok, body := b }

/-- The statuses and items of a READ_MULTI response, within `room` bytes of items: one that no longer fits a body of 8,192 bytes answers E_LIMIT
alone (log entry 62). -/
def Device.multiItems (s : Device) (ch : Chan) : Nat → List (BitVec 32) → Bytes
  | _, [] => []
  | room, o :: r => match s.readFor ch o.toNat with
    | .inl e => beBytes 1 e.1.code ++ s.multiItems ch room r
    | .inr b => if b.length ≤ room then beBytes 1 0 ++ b ++ s.multiItems ch (room - b.length) r
      else beBytes 1 Status.limit.code ++ s.multiItems ch room r

/-- The body of a READ_MULTI response. -/
def Device.multiBody (s : Device) (ch : Chan) (l : List (BitVec 32)) : Bytes :=
  beBytes 2 l.length ++ beBytes 2 0 ++ s.multiItems ch (8188 - l.length) l

/-- READ_MULTI: a status and, where it is OK, the item of each object (R49, R51). -/
def Device.doReadMulti (s : Device) (ch : Chan) (l : List (BitVec 32)) : Resp :=
  if l.isEmpty then failed 0x03 .malformed 24
  else if 64 < l.length then failed 0x03 .limit 64
  else { op := 0x03, status := .ok, body := s.multiBody ch l }

/-- An object whose write claims resources (R66): flag bit 2 of DESCRIBE. -/
def claimsResource (oid : Nat) : Bool :=
  let a := oidArea oid
  let o := oidObj oid
  (a == 0 && o == 0x250) || (a == 5 && decide (0xA0 ≤ oidNode oid) && o == 0x000) ||
  (a == 5 && oidNode oid == 0 && decide (0x120 ≤ o) && decide (o < 0x130)) || (a == 6 && (o == 0x011 || o == 0x101)) ||
  (a == 0xB && oidNode oid == 0 && o == 0x103)

/-- The first source present of an object's default (R8): fuse, image record, reset value. -/
def Device.defaultSource (s : Device) (oid : Nat) (d : ObjDesc) : DefSrc :=
  match d.src with
  | .fuse => .fuse
  | _ => if s.fore.imageSet.contains oid then .image else .reset

/-- The body of a DESCRIBE response (Table 2.10). -/
def Device.describeBody (s : Device) (oid : Nat) (d : ObjDesc) : Bytes :=
  let name := strBytes d.name
  let flags := d.i3c.toNat + 2 * d.subs.toNat + 4 * (claimsResource oid).toNat + 8 * (d.stageable oid).toNat
  beBytes 1 d.ty.code ++ beBytes 1 d.acc.code ++ beBytes 1 (s.defaultSource oid d).code ++ beBytes 1 flags ++
    beBytes 2 d.elems ++ beBytes 1 name.length ++ name

/-- DESCRIBE (Table 2.10). -/
def Device.doDescribe (s : Device) (ch : Chan) (oid : Nat) : Resp :=
  match lookup oid with
  | .noObject => failed 0x05 .noObject oid 0
  | .noElement => failed 0x05 .noElement oid 0
  | .found d =>
    if (s.pageOf oid d).isNone then failed 0x05 .noElement oid 0
    else if !(s.rights ch).read then failed 0x05 .access oid 0
    else { op := 0x05, status := .ok, body := s.describeBody oid d }

/-- The held record of E_HELD (R66): the resource, its holder's enable object, the holder's session. -/
def Device.heldRecord (s : Device) (st : Status) (res : Nat) : Bytes :=
  if st = .held then match s.fore.owners.find? fun r => r.1 == res with
    | some r => beBytes 4 r.1 ++ beBytes 4 r.2.1 ++ beBytes 4 r.2.2
    | none => []
  else []

/-- A refused write: the answer, and the log of R25. -/
def Device.refuseWrite (s : Device) (ch : Chan) (op : Nat) (oid : Nat) (e : Status × Nat) (item : Nat) : Device × Resp :=
  (s.logRefusal ch oid e.1,
   { op := op, status := e.1, detail := e.2, itemIndex := item, body := s.heldRecord e.1 e.2 })

/-- The first item that fails its checks, with its index (R51). -/
def Device.firstBad (s : Device) (ch : Chan) (staged : Bool) : Nat → List Item → Option (Nat × Nat × Status × Nat)
  | _, [] => none
  | k, i :: r => match s.checkItem ch staged i with
    | .inl e => some (k, i.oid.toNat, e)
    | .inr _ => s.firstBad ch staged (k + 1) r

/-- Writes items in order, each under checks 6 to 9 as they stand when it is written and its unit's own; the first that fails ends it there, with
the refusal (log entry 63). -/
def Device.writeItems (s : Device) (ch : Chan) : Nat → List Item → Device × Option (Nat × Nat × Status × Nat)
  | _, [] => (s, none)
  | k, i :: r =>
    let oid := i.oid.toNat
    match lookup oid with
    | .found d => match s.laterChecks oid d i.value with
      | some e => (s, some (k, oid, e))
      | none =>
        let a := s.writeObj ch oid d i.value
        if a.st = .ok then a.s.writeItems ch (k + 1) r else (a.s, some (k, oid, a.st, a.detail))
    | .noObject => (s, some (k, oid, .noObject, oid))
    | .noElement => (s, some (k, oid, .noElement, oid))

/-- WRITE and WRITE_MULTI outside a transaction (R50, R51). -/
def Device.doWrite (s : Device) (ch : Chan) (op : Nat) (l : List Item) : Device × Resp :=
  match s.firstBad ch false 0 l with
  | some (k, o, e) => s.refuseWrite ch op o e k
  | none => match s.writeItems ch 0 l with
    | (t, none) => (t, { op := op, status := .ok })
    | (t, some (k, o, e)) => t.refuseWrite ch op o e k

/-! ## Dictionary transactions (R62 to R64, R261) -/

/-- Stages items (R62): all pass checks 1 to 9, or none is staged. -/
def Device.doStage (s : Device) (ch : Chan) (op : Nat) (l : List Item) : Device × Resp :=
  let x := s.chanSt ch
  let first := match l.head? with | some i => i.oid.toNat | none => 0
  if !(s.rights ch).txn then (s, failed op .access first)
  else match x.txn with
  | none => (s, failed op .state first)
  | some t =>
    let t : DictTxn := { t with lastReq := s.uptime }
    let s : Device := s.setChanSt ch { x with txn := some t }
    match s.firstBad ch true 0 l with
    | some (k, o, e) => s.refuseWrite ch op o e k
    | none =>
      let size (l : List Item) : Nat := (l.map fun i => i.value.length).sum
      if 256 < t.staged.length + l.length then (s, failed op .limit 256)
      else if 16384 < size (t.staged.map fun y => y.item) + size l then (s, failed op .limit 16384)
      else
        let new := l.map fun i => ({ item := i, seqAt := tgetD s.fore.writeSeq i.oid.toNat 0 } : Staged)
        (s.setChanSt ch { s.chanSt ch with txn := some { t with staged := t.staged ++ new } }, { op := op, status := .ok })

def Device.doTxnBegin (s : Device) (ch : Chan) : Device × Resp :=
  let x := s.chanSt ch
  if !(s.rights ch).txn then (s, failed 0x10 .access)
  else if x.txn.isSome || s.startupCode != suReady || !s.runs 3 then (s, failed 0x10 .state)
  else (s.setChanSt ch { x with txn := some { lastReq := s.uptime }, txnLost := false }, { op := 0x10, status := .ok })

def Device.doTxnAbort (s : Device) (ch : Chan) : Device × Resp :=
  let x := s.chanSt ch
  if !(s.rights ch).txn then (s, failed 0x12 .access)
  else if x.txn.isNone then (s, failed 0x12 .state)
  else (s.setChanSt ch { x with txn := none }, { op := 0x12, status := .ok })

/-- The first staged object written since it was staged (R63, R261). -/
def Device.staleItem (s : Device) : Nat → List Staged → Option (Nat × Nat)
  | _, [] => none
  | k, y :: r =>
    if tgetD s.fore.writeSeq y.item.oid.toNat 0 ≠ y.seqAt then some (k, y.item.oid.toNat) else s.staleItem (k + 1) r

/-- The shadow lines of the staged objects, in staging order. -/
def DictTxn.lines (t : DictTxn) : List Nat := (t.staged.flatMap fun y => shadowLines y.item.oid.toNat).dedup

/-- Why the tracked reads and the writes of the shadow lines abort the transaction, 0 where they do not (R247, R259). -/
def Device.shadowStop (s : Device) (ct : Txn) (lines : List Nat) : Nat :=
  let lim := s.trackLimit ct lines
  if lim ≠ 0 then lim else if 2048 < lines.length then 5 else if lines.any fun l => s.hbmBlocked (128 * l) 128 false then 8 else 0

/-- The commit in its hardware transaction, once a slot is taken: the shadow lines are read in staging order and written, then the units take every
value or none. None while a line that it reads is locked, or a prepare would have to wait. -/
def Device.commitIn (s : Device) (ch : Chan) (t : DictTxn) (key : Nat) : Option (Device × Resp) :=
  let ended (s : Device) : Device := (s.setChanSt ch { s.chanSt ch with txn := none }).unstall managerId
  let ct : Txn := tgetD s.mem.txns key { master := managerId, openedAt := s.uptime, limit := 0 }
  let lines := t.lines
  let why := s.shadowStop ct lines
  if lines.any fun l => s.wLocked l (some key) then none
  else if why ≠ 0 then some (ended (s.abortTxn key ct why), failed 0x11 (reasonStatus why))
  else
    let s : Device := lines.foldl (fun (s : Device) l => s.cacheTouch (128 * l) 128 false) s
    let ct : Txn := { ct with tracked := lines, written := lines }
    let s : Device := s.setTxn key ct
    match s.staleItem 0 t.staged with
    | some (k, o) => some (ended (s.abortTxn key ct 1), failed 0x11 .conflict o k)
    | none => match s.writeItems ch 0 (t.staged.map fun y => y.item) with
      | (_, some (k, o, e)) => some ((ended (s.abortTxn key ct 10)).refuseWrite ch 0x11 o e k)
      | (_, none) => (s.commitNow key).map fun v =>
        if v.1 ≠ 0 then (ended v.2, failed 0x11 (reasonStatus v.1))
        else (ended (v.2.writeItems ch 0 (t.staged.map fun y => y.item)).1, { op := 0x11, status := .ok })

/-- TXN_COMMIT (R63, R261): one hardware transaction of the device manager on Q0 reads the shadow lines of the staged objects, and the
units take every value or none. Where that transaction cannot open, its refusal is the answer and the dictionary transaction ends
(log entry 64). None where it has to wait. -/
def Device.doTxnCommit (s : Device) (ch : Chan) : Option (Device × Resp) :=
  let x := s.chanSt ch
  if !(s.rights ch).txn then some (s, failed 0x11 .access)
  else match x.txn with
    | none => some (s, failed 0x11 (if x.txnLost then .aborted else .state))
    | some t =>
      match s.txnOpenOp managerId with
      | (a, none) => some (a.s.setChanSt ch { a.s.chanSt ch with txn := none }, failed 0x11 a.st)
      | (a, some key) => a.s.commitIn ch t key

/-! ## Subscriptions and notifications (R65, R407) -/

/-- The lowest subscription number not in use. -/
def freeSub (l : List Sub) : Nat := ((List.range 64).find? fun n => !(l.any fun x => x.num == n)).getD 64

/-- The rights with which a subscription reads: its own right suffices for the value (log 66). -/
def Rights.reading (r : Rights) : Rights := { r with read := true }

/-- The value a notification of an object would carry: none where the channel cannot read it now. -/
def Device.subValue (s : Device) (ch : Chan) (oid : Nat) : Option (Ty × Bytes) :=
  if !(s.rights ch).sub then none
  else match s.readObj (s.rights ch).reading (s.chanSt ch).report oid with
    | .inr v => some v
    | .inl _ => none

/-- The lowest free number is taken for a subscription whose value reads v now, and answered. -/
def Device.subTaken (s : Device) (ch : Chan) (oid mode period minMs : Nat) (v : Ty × Bytes) : Device × Resp :=
  let x := s.chanSt ch
  let n := freeSub x.subs
  let y : Sub := { num := n, oid := oid, periodic := mode == 1, periodMs := period, minMs := minMs, lastSent := none,
                   lastVal := .bytes v.2, start := s.uptime }
  (s.setChanSt ch { x with subs := x.subs ++ [y] }, { op := 0x20, status := .ok, body := beBytes 1 n })

/-- SUBSCRIBE: the object must be readable; on change only where it may be (Table 2.10). -/
def Device.doSubscribe (s : Device) (ch : Chan) (oid : Nat) (mode period minMs : Nat) : Device × Resp :=
  let x := s.chanSt ch
  let bad (st : Status) (d : Nat) : Device × Resp := (s, failed 0x20 st d)
  if !(s.rights ch).sub then bad .access oid
  else match s.readObj (s.rights ch).reading x.report oid with
    | .inl e => bad e.1 e.2
    | .inr v =>
      let onChange := match lookup oid with
        | .found d => d.subs
        | _ => false
      if 1 < mode || 60000 < minMs || !(10 ≤ period && period ≤ 60000) then bad .range oid
      else if mode = 0 && !onChange then bad .access oid
      else if 64 ≤ x.subs.length then bad .limit 64
      else s.subTaken ch oid mode period minMs v

def Device.doUnsubscribe (s : Device) (ch : Chan) (num : Nat) : Device × Resp :=
  let x := s.chanSt ch
  if x.subs.any fun y => y.num == num then
    (s.setChanSt ch { x with subs := x.subs.filter fun y => y.num != num }, { op := 0x21, status := .ok })
  else (s, failed 0x21 .range)

/-- The next notification number of a channel, and the state with it consumed (R65); the largest is given again (R534, log entry 122). -/
def Device.takeSeq (s : Device) (ch : Chan) : Nat × Device :=
  let x := s.chanSt ch
  (x.notifySeq, s.setChanSt ch { x with notifySeq := min (x.notifySeq + 1) 0xFFFFFFFF })

/-- A NOTIFY of the PCIe host channel (R407): written to the ring, or dropped and counted when the ring is off or full. -/
def Device.ringNotify (s : Device) (seq oid : Nat) (v : Ty × Bytes) : Device :=
  let n := s.num O.notifyRingEntries
  let used := (s.host.notifyTail + 2 ^ 32 - s.host.notifyHead) % 2 ^ 32
  if n = 0 || n ≤ used then s.bump O.notifyDrops
  else
    let it := itemOf oid v
    let it := if 232 < it.length then itemOf oid (v.1, []) else it
    let e := headerBytes 0x22 0 0 0xFFFFFFFF seq it.length 0 0 ++ it
    let s : Device := s.emit (.hostWrite (s.num O.notifyRingBase + 256 * (s.host.notifyTail % n)) e)
    ({ s with host := { s.host with notifyTail := (s.host.notifyTail + 1) % 2 ^ 32 } } : Device).setCause 1

/-- Sends a NOTIFY with the latest value on a channel. -/
def Device.notify (s : Device) (ch : Chan) (oid : Nat) (v : Ty × Bytes) : Device :=
  let q := s.takeSeq ch
  match ch with
  | .pcie => q.2.ringNotify q.1 oid v
  | .peer n =>
    let it := itemOf oid v
    q.2.dictSend n.val (headerBytes 0x22 0 0 (0xFFFF0000 + n.val) q.1 it.length 0 0 ++ it)
  | .session n => q.2.sendMgmt ((q.2.sess n.val).notifyDatagrams q.1 (itemOf oid v))

/-- A subscription that is due sends its NOTIFY. -/
def Device.notifyDue (s : Device) (ch : Chan) (num : Nat) (periodic : Bool) : Device :=
  let x := s.chanSt ch
  match x.subs.find? fun y => y.num == num && y.periodic == periodic with
  | none => s
  | some y =>
    match s.subValue ch y.oid with
    | none => s
    | some v =>
      let due := if periodic then decide (y.lastSent.getD y.start + ms y.periodMs ≤ s.uptime)
        else y.lastVal != .bytes v.2 && (match y.lastSent with | some t => decide (t + ms y.minMs ≤ s.uptime) | none => true)
      if !s.chanUp ch || !due then s
      else
        let y' : Sub := { y with lastSent := some s.uptime, lastVal := .bytes v.2 }
        (s.setChanSt ch { x with subs := x.subs.map fun z => if z.num = num then y' else z }).notify ch y.oid v

/-! ## Sessions (R56 to R60) -/

/-- The operator key that a HELLO names: enabled, of that key_id, and of a role that permits the one requested (R56 step 2). -/
def Device.findKey (s : Device) (role : Nat) (keyId : Bytes) : Option Nat :=
  (List.range 16).find? fun k => s.flag (O.operatorKeyEnable k) && !(s.bytes (O.operatorKey k)).isEmpty &&
    sha3 (s.bytes (O.operatorKey k)) == keyId && decide (role ≤ s.num (O.operatorKeyRole k))

/-- The body of a HELLO (Table 2.11). -/
def helloBody (role : Byte) (keyId nonce ek : Bytes) : Bytes := [role, 0, 0, 0] ++ keyId ++ nonce ++ ek

/-- The answer of a HELLO that takes slot byte `slot` and session id `sid`, the digest T and the session key K_s. -/
def Device.helloAnswer (s : Device) (slot sid : Nat) (body nonceEk : Bytes) : Bytes × Bytes × Bytes × Device :=
  let challenge := padTo 32 (Config.entropy s.freeCtr)
  let rnd := padTo 32 (Config.entropy (s.freeCtr + 1))
  let head := beBytes 1 slot ++ beBytes 3 0 ++ beBytes 4 sid ++ challenge ++ padTo 1088 (Config.kemCipher nonceEk rnd)
  let resp := head ++ s.identitySign (sha3 (body ++ head))
  let t := sha3 (body ++ resp)
  (resp, t, kmac (padTo 32 (Config.kemSecret nonceEk rnd)) t (strBytes "FORERI-KS"), { s with freeCtr := s.freeCtr + 2 })

/-- A kept HELLO response (R57). -/
def Device.keptHello (s : Device) (nonce : Bytes) : Option HelloStore :=
  s.fore.hellos.find? fun h => h.nonce == nonce && decide (s.uptime < h.sentAt + ms 5000)

/-- Keeps a HELLO response by its nonce. -/
def Device.keepHello (s : Device) (nonce : Bytes) (slot : Option Nat) (r : Resp) : Device :=
  let h : HelloStore := { nonce := nonce, slot := slot, sentAt := s.uptime, resp := r }
  { s with fore := { s.fore with hellos := h :: (s.fore.hellos.filter fun (x : HelloStore) => x.nonce != nonce) } }

/-- A HELLO takes slot n: the session is open for an observer, pending for the others (R56). -/
def Device.helloTaken (s : Device) (n k : Nat) (role : Byte) (keyId nonce ek : Bytes) : Device × Resp :=
  let sid := s.fore.nextSid
  let a := s.helloAnswer n sid (helloBody role keyId nonce ek) ek
  let r : Resp := { op := 0x40, status := .ok, body := a.1 }
  let x : Session := { phase := if role = 0 then .isOpen else .pending, sid := sid, role := role.toNat, keySlot := k,
                       nonce := nonce, helloHash := a.2.1, key := a.2.2.1, since := s.uptime, lastReq := s.uptime }
  let s : Device := (a.2.2.2.setSess n x).keepHello nonce (some n) r
  ({ s with fore := { s.fore with nextSid := sid + 1 } }, r)

/-- The free session slots. -/
def Device.freeSessions (s : Device) : List Nat := (List.range 16).filter fun n => (s.sess n).phase == .free

/-- The open observer sessions. -/
def Device.observers (s : Device) : List Nat := (List.range 16).filter fun n => (s.sess n).phase == .isOpen && (s.sess n).role == 0

/-- HELLO (R56 steps 1 to 3, R57, R60, R489). Which free slot it takes the spec does not say (log entry 16); when every session id has been
assigned since the cold reset none can be given (R59, log entry 125). -/
def Device.doHello (s : Device) (pcie : Bool) (role : Byte) (keyId nonce ek : Bytes) : Device × Resp :=
  let busy : Device × Resp := (s, failed 0x40 .busy)
  let noAuth : Device × Resp := (s.bump O.authFailures, failed 0x40 .auth)
  match s.keptHello nonce with
  | some h => (s, { h.resp with replay := true })
  | none =>
    if 2 < role.toNat then (s.countMalformed none, failed 0x40 .malformed 24)
    else if s.num O.entropyState = 1 then busy
    else if pcie then
      (if role.toNat ≠ 2 then noAuth
       else match s.findKey 2 keyId with
        | none => noAuth
        | some k =>
          let f := s.freeVal
          let a := f.2.helloAnswer (f.1.toNat % 16) 0xFFFFFFFF (helloBody role keyId nonce ek) ek
          let r : Resp := { op := 0x40, status := .ok, body := a.1 }
          let s : Device := a.2.2.2.keepHello nonce none r
          ({ s with fore := { s.fore with pcieHello := some (a.2.1, k, s.uptime) } }, r))
    else if s.freeSessions.isEmpty || (role = 0 && 8 ≤ s.observers.length) || 0xFFFEFFFF < s.fore.nextSid then busy
    else match (if role = 0 then some 0xFF else s.findKey role.toNat keyId) with
      | none => noAuth
      | some k =>
        let f := s.choose s.freeSessions
        f.2.helloTaken (f.1.getD 0) k role keyId nonce ek

/-- The signature and the tag of an AUTH (R56 step 5). -/
def Device.authGood (s : Device) (k : Nat) (hash sig : Bytes) : Bool := Config.dsaVerify (s.bytes (O.operatorKey k)) hash sig

/-- The tag and the signature of an AUTH of a session are good. -/
def Device.authTagGood (s : Device) (n : Fin 16) (rid : Nat) (sig tag : Bytes) : Bool :=
  let x := s.sess n.val
  tag == msgTag 0 x.key (headerBytes 0x42 0x10 0 x.sid rid 2424 0 0) (sig ++ [0, 0, 0, 0]) && s.authGood x.keySlot x.helloHash sig

/-- AUTH (R56 steps 4 and 5, R60). The slot of a session that a bad AUTH frees is freed once the answer is out. -/
def Device.doAuth (s : Device) (ch : Chan) (rid : Nat) (sig tag : Bytes) : Device × Resp :=
  let refused (s : Device) : Device × Resp := (s.bump O.authFailures, failed 0x42 .auth)
  match ch with
  | .session n =>
    let x := s.sess n.val
    if x.phase ≠ .pending then (s, failed 0x42 .state)
    else
      if !s.authTagGood n rid sig tag then refused s
      else (s.setSess n.val { x with phase := .isOpen, lastReq := s.uptime }, { op := 0x42, status := .ok, body := beBytes 1 x.role })
  | .pcie =>
    match s.fore.pcieHello with
    | none => (s, failed 0x42 .state)
    | some (hash, k, t) =>
      let s : Device := { s with fore := { s.fore with pcieHello := none } }
      if decide (t + ms 5000 < s.uptime) || !s.authGood k hash sig then refused s
      else ({ s with fore := { s.fore with pcieAdmin := true } }, { op := 0x42, status := .ok, body := beBytes 1 2 })
  | .peer _ => (s, failed 0x42 .access)

/-- CLOSE (R59, R60): a session ends once its answer is out; the PCIe host channel returns to operator rights. -/
def Device.doClose (s : Device) (ch : Chan) : Device × Resp :=
  match ch with
  | .pcie => ({ s with fore := { s.fore with pcieAdmin := false, pcieHello := none } }, { op := 0x43, status := .ok })
  | .session _ => (s, { op := 0x43, status := .ok })
  | .peer _ => (s, failed 0x43 .state)

/-! ## Execution -/

/-- Executes a request of a channel. -/
def Device.performReq (s : Device) (ch : Chan) (rid : Nat) (req : Req) : Device × Resp :=
  match req with
  | .read o => (s, s.doRead ch o.toNat)
  | .readMulti l => (s, s.doReadMulti ch l)
  | .describe o => (s, s.doDescribe ch o.toNat)
  | .write t i => if t then s.doStage ch 0x02 [i] else s.doWrite ch 0x02 [i]
  | .writeMulti t l =>
    if l.isEmpty then (s, failed 0x04 .malformed 24)
    else if 64 < l.length then (s, failed 0x04 .limit 64)
    else if t then s.doStage ch 0x04 l else s.doWrite ch 0x04 l
  | .txnBegin => s.doTxnBegin ch
  | .txnCommit => (s.doTxnCommit ch).getD (s, failed 0x11 .busy)
  | .txnAbort => s.doTxnAbort ch
  | .subscribe o m p i => s.doSubscribe ch o.toNat m.toNat p.toNat i.toNat
  | .unsubscribe n => s.doUnsubscribe ch n.toNat
  | .hello r k n e => s.doHello true r k n e
  | .auth sig tag => s.doAuth ch rid sig tag
  | .close => s.doClose ch

/-- An answer goes out, and to the duplicates held for it (R54). -/
def Device.answerAll (s : Device) (w : Waiting) (r : Resp) : Device :=
  w.held.foldl (fun (s : Device) v => s.deliver w.ch v w.rid { r with replay := true }) (s.deliver w.ch w.via w.rid r)

/-- The result of a request is stored (R53), a channel without session apart; a session that CLOSE or a bad AUTH ends is over (R56, R59). -/
def Device.keepResult (s : Device) (w : Waiting) (r : Resp) : Device :=
  match w.ch with
  | none => s
  | some c =>
    if w.req.isHello || !s.known c then s
    else
      let s : Device := s.setChanSt c ((s.chanSt c).store w.rid r)
      match c with
      | .session n => if w.req.op = 0x43 || (w.req.op = 0x42 && r.status = .auth) then s.endSession n else s
      | _ => s

/-- A request is done: it is answered and its result kept. -/
def Device.finish (s : Device) (w : Waiting) (r : Resp) : Device := (s.answerAll w r).keepResult w r

/-- A request that the command timeout ends is answered E_TIMEOUT, which is stored as its answer (R483, R485). -/
def Device.reportTimeout (s : Device) (w : Waiting) : Device :=
  let r := failed w.req.op .timeout w.req.object
  let s : Device := s.answerAll w r
  match w.ch with
  | none => s
  | some c => if w.req.isHello then s else s.setChanSt c ((s.chanSt c).store w.rid r)

/-- COMMAND_TIMEOUT for a Foreri request (Table 2.12, R483): it has waited for A.00.020 and is not answered yet. It stays, to be executed. -/
def Device.timeOutReq (s : Device) (ch : Option Chan) (rid : Nat) : Device :=
  match s.fore.engine.find? fun w => w.is ch rid && decide (w.since + ms (s.num O.commandTimeoutMs) ≤ s.uptime) with
  | none => s
  | some w =>
    { s with fore := { s.fore with engine := s.fore.engine.map fun x => if x = w then { w with timedOut := true, held := [] } else x } }.reportTimeout w

/-- The engine executes one request (R44). The real result of one reported E_TIMEOUT, now or before, replaces the stored answer; it is not
delivered, and it is counted as late (R485). -/
def Device.runWaiting (s : Device) (w : Waiting) : Device :=
  let s : Device := { s with fore := { s.fore with engine := s.fore.engine.filter fun x => x != w } }
  let late := decide (w.since + ms (s.num O.commandTimeoutMs) < s.uptime)
  let s : Device := if late && !w.timedOut then s.reportTimeout w else s
  let p := match w.ch, w.req with
    | none, .hello r k n e => s.doHello false r k n e
    | none, q => (s, failed q.op .malformed)
    | some c, q => s.performReq c w.rid q
  if late || w.timedOut then (p.1.bump O.lateCompletions).keepResult w p.2 else p.1.finish w p.2

/-- Is a request a TXN_COMMIT whose transaction has to wait for a lock? It is not executed before it need not wait. -/
def Device.commitWaits (s : Device) (w : Waiting) : Bool :=
  match w.ch, w.req with
  | some c, .txnCommit => (s.doTxnCommit c).isNone
  | _, _ => false

/-- What a request finds before the engine sees it: its interface runs and its channel is known; otherwise it is dropped, or dropped and counted
(R48, R61). -/
def Device.gated (s : Device) (ch : Option Chan) (op : Nat) (f : Device → Device) : Device :=
  let s : Device := s.expireChan ch
  let up := match ch with
    | some c => s.chanUp c
    | none => s.mgmtUp
  let known := match ch with
    | some (.session n) => (s.sess n.val).phase == .isOpen || ((s.sess n.val).phase == .pending && op == 0x42)
    | some c => s.known c
    | none => true
  if !up then s
  else if !known then (match ch with
    | some (.peer _) => s.bump O.ungrantedPeerDrops
    | _ => s.countMalformed none)
  else f s

/-- The row of an operation: a request that is not waiting arrives; it is executed if it is next. -/
def Device.request (s : Device) (ch : Option Chan) (rid : Nat) (req : Req) : Device :=
  s.gated ch req.op fun (s : Device) =>
    let s : Device := if s.fore.engine.any fun w => w.ch == ch && w.rid == rid && w.req == req then s
      else (s.touchSession ch).arrive ch rid req none
    match nextWaiting s.fore.engine with
    | some w =>
      if !(w.ch == ch && w.rid == rid && w.req == req) then s
      else if s.commitWaits w then s.stall managerId (128 * shadowLine0)
      else s.runWaiting w
    | none => s

end Sys2Proof.Machine
end

