-- ==== Sys2Proof/Machine/Foreri.lean ====
section
/-! DEFINITION. Foreri messages (R45 to R48, R58): headers, bodies, segments and tags; the rows of the Foreri engine (rows 1 to 22), of the
request slots of the PCIe host channel (R406), of DICT messages (R337), and the I3C read (R512). -/

namespace Sys2Proof.Machine

/-! ## Parsing (R45, R48, R49) -/

/-- The first non-zero byte of a range, by its offset. -/
def firstNonzero (b : Bytes) (off len : Nat) : Option Nat :=
  ((List.range len).map fun i => off + i).find? fun i => (b.getD i 0) != 0

/-- The operations of Table 2.9 that travel toward the device. -/
def opKnown (op : Nat) : Bool :=
  [0x01, 0x02, 0x03, 0x04, 0x05, 0x10, 0x11, 0x12, 0x20, 0x21, 0x40, 0x42, 0x43].contains op

/-- The first faulty byte of a request's header (R46, R48): `whole` where the channel carries whole messages only. -/
def headerFault (b : Bytes) (whole : Bool) : Option Nat :=
  let at_ (i : Nat) : Nat := (b.getD i 0).toNat
  let len := beAt b 16 2
  let count := if whole then 1 else segsFor len
  if b.length < 24 then some b.length
  else if at_ 0 ≠ 0x46 then some 0
  else if at_ 1 ≠ 0x52 then some 1
  else if at_ 2 ≠ 1 then some 2
  else if !opKnown (at_ 3) then some 3
  else if bits (at_ 4) 7 5 ≠ 0 || bits (at_ 4) 2 0 ≠ 0 then some 4
  else if at_ 5 ≠ 0 then some 5
  else if at_ 7 = count && count ≤ at_ 6 then some 6
  else if at_ 7 ≠ count then some 7
  else if 8192 < len then some 16
  else firstNonzero b 18 6

/-- An item at the front of a body: the item and the rest, or the place of the first fault. -/
def parseItem (b : Bytes) (off : Nat) : Nat ⊕ (Item × Nat) :=
  if b.length < off + 8 then .inl b.length
  else if b.getD (off + 5) 0 ≠ 0 then .inl (off + 5)
  else
    let n := beAt b (off + 6) 2
    if b.length < off + 8 + n then .inl (off + 6)
    else .inr ({ oid := BitVec.ofNat 32 (beAt b off 4), ty := b.getD (off + 4) 0, value := slice b (off + 8) n }, off + 8 + n)

/-- n items one after another. -/
def parseItems (b : Bytes) : Nat → Nat → Nat ⊕ (List Item × Nat)
  | 0, off => .inr ([], off)
  | n + 1, off => match parseItem b off with
    | .inl f => .inl f
    | .inr (i, off) => match parseItems b n off with
      | .inl f => .inl f
      | .inr (l, off) => .inr (i :: l, off)

/-- A body of a fixed length, with reserved bytes. -/
def fixedBody (b : Bytes) (len resOff resLen : Nat) (q : Req) : Nat ⊕ Req :=
  if b.length ≠ len then .inl (min b.length len)
  else match firstNonzero b resOff resLen with
    | some i => .inl i
    | none => .inr q

/-- The count of a multi body, with its reserved bytes. -/
def parseCount (b : Bytes) : Nat ⊕ Nat :=
  if b.length < 4 then .inl b.length
  else if beAt b 0 2 = 0 then .inl 0
  else match firstNonzero b 2 2 with
    | some i => .inl i
    | none => .inr (beAt b 0 2)

/-- The request of a body (Tables 2.9 and 2.11), or the place of the body's first fault. -/
def parseBody (op : Nat) (inTxn : Bool) (b tag : Bytes) : Nat ⊕ Req :=
  let oid := BitVec.ofNat 32 (beAt b 0 4)
  match op with
  | 0x01 => fixedBody b 4 0 0 (.read oid)
  | 0x05 => fixedBody b 4 0 0 (.describe oid)
  | 0x10 => fixedBody b 0 0 0 .txnBegin
  | 0x11 => fixedBody b 0 0 0 .txnCommit
  | 0x12 => fixedBody b 0 0 0 .txnAbort
  | 0x43 => fixedBody b 0 0 0 .close
  | 0x20 => fixedBody b 10 5 1 (.subscribe oid (b.getD 4 0) (BitVec.ofNat 16 (beAt b 6 2)) (BitVec.ofNat 16 (beAt b 8 2)))
  | 0x21 => fixedBody b 1 0 0 (.unsubscribe (b.getD 0 0))
  | 0x40 =>
    if b.length = 1252 && 2 < (b.getD 0 0).toNat then .inl 0
    else fixedBody b 1252 1 3 (.hello (b.getD 0 0) (slice b 4 32) (slice b 36 32) (slice b 68 1184))
  | 0x42 => fixedBody b 2424 2420 4 (.auth (b.take 2420) tag)
  | 0x02 => match parseItem b 0 with
    | .inl f => .inl f
    | .inr (i, e) => if e = b.length then .inr (.write inTxn i) else .inl e
  | 0x03 => match parseCount b with
    | .inl f => .inl f
    | .inr n =>
      if b.length ≠ 4 + 4 * n then .inl (min b.length (4 + 4 * n))
      else .inr (.readMulti ((List.range n).map fun k => BitVec.ofNat 32 (beAt b (4 + 4 * k) 4)))
  | 0x04 => match parseCount b with
    | .inl f => .inl f
    | .inr n => match parseItems b n 4 with
      | .inl f => .inl f
      | .inr (l, e) => if e = b.length then .inr (.writeMulti inTxn l) else .inl e
  | _ => .inl 0

/-! ## Messages in (R46 to R48, R58, R61) -/

/-- The channel that a session_id names on the management port: HELLO's, a session, or none (R42). -/
def Device.sessionOf (s : Device) (sid : Nat) : Option Chan :=
  if sid = 0 then none
  else ((List.finRange 16).find? fun n => (s.sess n.val).phase != .free && (s.sess n.val).sid == sid).map Chan.session

/-- A malformed message: counted; answered on a known channel, never executed (R48). Its id is neither accepted into the window nor its answer
stored (log entry 126). -/
def Device.malformedMsg (s : Device) (ch : Option Chan) (via : Option Nat) (op rid detail : Nat) : Device :=
  let s : Device := s.countMalformed ch
  match ch with
  | none => s
  | some _ => s.deliver ch via rid (failed op .malformed detail)

/-- A whole message: its body is parsed, its tag checked (R58), and its request passed to the engine. One whose body does not parse is malformed
whatever its tag (log entry 127). -/
def Device.wholeMsg (s : Device) (ch : Option Chan) (via : Option Nat) (head body tag : Bytes) : Device :=
  let op := beAt head 3 1
  let rid := beAt head 12 4
  let flags := beAt head 4 1
  if ch.isNone && !(op == 0x40 && beAt head 8 4 == 0) then s.countMalformed none
  else match parseBody op (bit flags 3) body tag with
  | .inl f => s.malformedMsg ch via op rid (24 + f)
  | .inr q =>
    let sess := match ch with
      | some (.session n) => some (s.sess n.val)
      | _ => none
    let tagged := match sess with
      | some x => bit flags 4 && tag == msgTag 0 x.key head body
      | none => true
    let pending := match sess with
      | some x => x.phase == .pending
      | none => false
    if pending && op ≠ 0x42 then s.countMalformed none
    else if !tagged && !pending then s.bump O.tagFailures
    else if q.isHello && (match ch with | some .pcie => false | some _ => true | none => false) then s.malformedMsg ch via op rid 8
    else (s.touchSession ch).arrive ch rid q via

/-- A segment of a longer message (R47). -/
def Device.segmentIn (s : Device) (ch : Chan) (data : Bytes) : Device :=
  let op := beAt data 3 1
  let sid := beAt data 8 4
  let rid := beAt data 12 4
  let len := beAt data 16 2
  let i := beAt data 6 1
  let count := beAt data 7 1
  let part := slice data 24 (if i + 1 = count then len - 1392 * i else 1392)
  let rest := (data.drop 24).drop part.length
  let x := s.chanSt ch
  let drop (s : Device) : Device := s.setChanSt ch { s.chanSt ch with reasm := (s.chanSt ch).reasm.filter fun y => y.rid != rid }
  match x.reasm.find? fun y => y.rid == rid with
  | none =>
    if 4 ≤ x.reasm.length then s.bump O.reassemblyDrops
    else
      let y : Reasm := { op := op, rid := rid, bodyLen := len, segCount := count, sid := sid, firstAt := s.uptime, segs := [(i, part)],
                         tag := rest, flags := beAt data 4 1 }
      s.setChanSt ch { x with reasm := x.reasm ++ [y] }
  | some y =>
    if y.op ≠ op || y.sid ≠ sid || y.bodyLen ≠ len || y.segCount ≠ count then
      (drop s).malformedMsg (some ch) none op rid
        (if y.op ≠ op then 3 else if y.segCount ≠ count then 7 else if y.sid ≠ sid then 8 else 16)
    else if (tget? y.segs i).isSome then s
    else
      let y : Reasm := { y with segs := tput y.segs i part, tag := if i + 1 = count then rest else y.tag }
      if y.segs.length < count then s.setChanSt ch { x with reasm := x.reasm.map fun z => if z.rid = rid then y else z }
      else (drop s).wholeMsg (some ch) none (data.take 24) (y.segs.flatMap fun p => p.2) y.tag

/-- A datagram on the management port (R46, R48). -/
def Device.datagramIn (s : Device) (data : Bytes) : Device :=
  let sid := beAt data 8 4
  let s : Device := s.expireChan (s.sessionOf sid)
  let ch := s.sessionOf sid
  let op := beAt data 3 1
  let rid := beAt data 12 4
  let i := beAt data 6 1
  let count := beAt data 7 1
  let len := beAt data 16 2
  let size := if i + 1 = count then len - 1392 * i else 1392
  let tagLen := if i + 1 = count && bit (beAt data 4 1) 4 then 32 else 0
  if data.length < 24 then s.malformedMsg (if 16 ≤ data.length then ch else none) none op rid data.length
  else match headerFault data false with
    | some f => s.malformedMsg ch none op rid f
    | none =>
      if data.length ≠ 24 + size + tagLen && data.length ≠ 24 + size then s.malformedMsg ch none op rid 16
      else if count = 1 then s.wholeMsg ch none (data.take 24) (slice data 24 len) (data.drop (24 + len))
      else match ch with
        | none => s.countMalformed none
        | some c => s.segmentIn c data

/-- A whole message on a channel that carries no segments: a request slot, or an in-band context. -/
def Device.wholeIn (s : Device) (ch : Chan) (via : Option Nat) (data : Bytes) : Device :=
  let op := beAt data 3 1
  let rid := beAt data 12 4
  match headerFault data true with
  | some f => s.malformedMsg (some ch) via op rid f
  | none =>
    if beAt data 8 4 ≠ s.chanSid ch then s.malformedMsg (some ch) via op rid 8
    else if data.length ≠ 24 + beAt data 16 2 then s.malformedMsg (some ch) via op rid 16
    else s.wholeMsg (some ch) via (data.take 24) (data.drop 24) []

/-- A message from a peer context (R61, R337): dropped and counted without a grant. -/
def Device.peerMsg (s : Device) (n : Fin 4096) (data : Bytes) : Device :=
  if !s.managerRuns then s
  else if !s.granted n.val then s.bump O.ungrantedPeerDrops
  else s.wholeIn (.peer n) none data

/-- FORERI_SEGMENT (row 1): a datagram on the management port, or a whole message of a peer context. -/
def execForeriSegment (src : Option (Fin 4096)) (data : Bytes) (s : State) : Outc := s.run fun (s : Device) =>
  (match src with
   | some n => s.peerMsg n data
   | none => if s.mgmtUp then s.datagramIn data else s)

/-- REASSEMBLY_TIMEOUT (row 2): 50 ms after the first segment. -/
def execReassemblyTimeout (ch : Chan) (rid : BitVec 32) (s : State) : Outc := s.run fun (s : Device) =>
  (let x := s.chanSt ch
   if s.managerRuns && x.reasm.any fun y => y.rid == rid.toNat && decide (y.firstAt + ms 50 ≤ s.uptime) then
     (s.setChanSt ch { x with reasm := x.reasm.filter fun y => y.rid != rid.toNat }).bump O.reassemblyDrops
   else s)

/-! ## The operations (rows 3 to 12, 15, 16, 19) -/

/-- READ (row 3). -/
def execRead (ch : Chan) (rid oid : BitVec 32) (s : State) : Outc :=
  s.runRead [oid.toNat] fun (s : Device) => s.request (some ch) rid.toNat (.read oid)
/-- WRITE (row 4). -/
def execWrite (ch : Chan) (rid : BitVec 32) (inTxn : Bool) (i : Item) (s : State) : Outc := s.run fun (s : Device) =>
  (s.request (some ch) rid.toNat (.write inTxn i))
/-- READ_MULTI (row 5). -/
def execReadMulti (ch : Chan) (rid : BitVec 32) (ids : List (BitVec 32)) (s : State) : Outc :=
  s.runRead (ids.map (·.toNat)) fun (s : Device) => s.request (some ch) rid.toNat (.readMulti ids)
/-- WRITE_MULTI (row 6). -/
def execWriteMulti (ch : Chan) (rid : BitVec 32) (inTxn : Bool) (items : List Item) (s : State) : Outc := s.run fun (s : Device) =>
  (s.request (some ch) rid.toNat (.writeMulti inTxn items))
/-- DESCRIBE (row 7). -/
def execDescribe (ch : Chan) (rid oid : BitVec 32) (s : State) : Outc := s.run fun (s : Device) => (s.request (some ch) rid.toNat (.describe oid))
/-- TXN_BEGIN (row 8). -/
def execTxnBegin (ch : Chan) (rid : BitVec 32) (s : State) : Outc := s.run fun (s : Device) => (s.request (some ch) rid.toNat .txnBegin)
/-- TXN_COMMIT (row 9). -/
def execTxnCommit (ch : Chan) (rid : BitVec 32) (s : State) : Outc := s.run fun (s : Device) => (s.request (some ch) rid.toNat .txnCommit)
/-- TXN_ABORT (row 10). -/
def execTxnAbort (ch : Chan) (rid : BitVec 32) (s : State) : Outc := s.run fun (s : Device) => (s.request (some ch) rid.toNat .txnAbort)
/-- SUBSCRIBE (row 11). -/
def execSubscribe (ch : Chan) (rid oid : BitVec 32) (mode : Byte) (periodMs minMs : BitVec 16) (s : State) : Outc := s.run fun (s : Device) =>
  (s.request (some ch) rid.toNat (.subscribe oid mode periodMs minMs))
/-- UNSUBSCRIBE (row 12). -/
def execUnsubscribe (ch : Chan) (rid : BitVec 32) (num : Byte) (s : State) : Outc := s.run fun (s : Device) =>
  (s.request (some ch) rid.toNat (.unsubscribe num))

/-- NOTIFY_ON_CHANGE (row 13). -/
def execNotifyOnChange (ch : Chan) (num : Byte) (s : State) : Outc := s.run fun (s : Device) => (s.notifyDue ch num.toNat false)
/-- NOTIFY_PERIODIC (row 14). -/
def execNotifyPeriodic (ch : Chan) (num : Byte) (s : State) : Outc := s.run fun (s : Device) => (s.notifyDue ch num.toNat true)

/-- HELLO (row 15), on the management port or on the PCIe host channel. -/
def execHello (pcie : Bool) (rid : BitVec 32) (role : Byte) (keyId nonce ek : Bytes) (s : State) : Outc := s.run fun (s : Device) =>
  (s.request (if pcie then some .pcie else none) rid.toNat (.hello role keyId nonce ek))
/-- AUTH (row 16): the tag is empty on the PCIe host channel, which carries none (R60). -/
def execAuth (ch : Chan) (rid : BitVec 32) (sig tag : Bytes) (s : State) : Outc := s.run fun (s : Device) => (s.request (some ch) rid.toNat (.auth sig tag))

/-- AUTH_TIMEOUT (row 17): no AUTH within 5,000 ms, and none in the engine; the slot is freed, and the late AUTH counted (log entry 65). -/
def execAuthTimeout (n : Fin 16) (s : State) : Outc := s.run fun (s : Device) =>
  (if s.managerRuns && (s.sess n.val).phase == .pending && decide ((s.sess n.val).since + ms 5000 ≤ s.uptime) &&
      !(s.fore.engine.any fun w => w.ch == some (.session n)) then
     (s.endSession n).bump O.authFailures
   else s)

/-- HELLO_STORE_EXPIRY (row 18): 5,000 ms after the response was sent (R57). -/
def execHelloStoreExpiry (nonce : Bytes) (s : State) : Outc := s.run fun (s : Device) =>
  ({ s with fore := { s.fore with hellos := s.fore.hellos.filter fun (h : HelloStore) =>
      !(h.nonce == nonce && decide (h.sentAt + ms 5000 ≤ s.uptime)) } } : Device)

/-- CLOSE (row 19). -/
def execClose (ch : Chan) (rid : BitVec 32) (s : State) : Outc := s.run fun (s : Device) => (s.request (some ch) rid.toNat .close)

/-- SESSION_IDLE_TIMEOUT (row 20): F.00.010 seconds without a valid request (R59). -/
def execSessionIdleTimeout (n : Fin 16) (s : State) : Outc := s.run fun (s : Device) =>
  (if s.managerRuns && (s.sess n.val).phase == .isOpen &&
      decide ((s.sess n.val).lastReq + ms (1000 * s.num O.sessionIdleTimeoutS) ≤ s.uptime) then s.endSession n
   else s)

/-- TXN_IDLE_TIMEOUT (row 21): F.00.011 ms without a request (R64). -/
def execTxnIdleTimeout (ch : Chan) (s : State) : Outc := s.run fun (s : Device) =>
  (let x := s.chanSt ch
   match x.txn with
   | some t =>
     if s.managerRuns && decide (t.lastReq + ms (s.num O.txnIdleTimeoutMs) ≤ s.uptime) then
       s.setChanSt ch { x with txn := none, txnLost := true }
     else s
   | none => s)

/-- REGISTER_WRITE (row 22): a write to an object that has no row of its own: the checks of R50, and its effect. -/
def execRegisterWrite (ch : Chan) (i : Item) (s : State) : Outc := s.run fun (s : Device) =>
  s.gated (some ch) 0x02 fun (s : Device) =>
    match s.checkItem ch false i with
    | .inl e => ((s.logRefusal ch i.oid.toNat e.1).deny e.1 e.2).reply
    | .inr d => (s.writeObj ch i.oid.toNat d i.value).reply

/-- COMMAND_TIMEOUT (row 225): of a host command (R414), or of a Foreri request (R483). -/
def execCommandTimeout (who : Issuer) (id : BitVec 32) (s : State) : Outc := s.run fun (s : Device) =>
  if !s.managerRuns then s
  else match who with
  | .queue q => s.queueTimeout q.val id.toNat
  | .foreri ch => s.timeOutReq ch id.toNat

/-! ## Request slots (rows 206 and 207, R406) -/

/-- A write of a length to a slot's control word; the area is read once, at that moment. -/
def Device.slotSubmit (s : Device) (k len : Nat) (area : Bytes) : Device :=
  let x := tgetD s.host.slots k {}
  if x.st ≠ .idle then s.bump O.droppedWrites
  else
    let m := padTo len area
    let s : Device := { s with host := { s.host with slots := tset s.host.slots k { x with st := .busy, msg := m, resp := none } {} } }
    if len < 24 || 8216 < len then s.malformedMsg (some .pcie) (some k) (beAt m 3 1) (beAt m 12 4) (min len 16)
    else s.wholeIn .pcie (some k) m

/-- FORERI_SLOT_SUBMIT (row 206). -/
def execForeriSlotSubmit (k : Fin 8) (len : BitVec 16) (area : Bytes) (s : State) : Outc := s.run fun (s : Device) =>
  (if s.pcieUp && len ≠ 0 then s.slotSubmit k.val len.toNat area else s)

/-- FORERI_SLOT_FREE (row 207): 0 written to the control word of a READY slot. -/
def execForeriSlotFree (k : Fin 8) (s : State) : Outc := s.run fun (s : Device) =>
  (if s.pcieUp && (tgetD s.host.slots k.val {}).st == .ready then
     { s with host := { s.host with slots := tdel s.host.slots k.val } }
   else s)

/-! ## Received Brodlu data packets (rows 134 to 137 and 141) -/

/-- Passes the DICT messages that have completed on a port's contexts to the engine (R337). -/
def Device.passDict (s : Device) (l : Nat) : Device :=
  (List.finRange 4096).foldl (fun (s : Device) n =>
    if s.ctxPort n.val = l then
      let c := s.ctx n.val
      if c.dictIn.isEmpty then s
      else c.dictIn.foldl (fun (s : Device) m => s.peerMsg n m) (s.setCtx n.val { c with dictIn := [] })
    else s) s

/-- BRODLU_WRITE (row 134). -/
def execBrodluWrite (l : Fin 96) (s : State) : Outc := s.run fun (s : Device) => ((s.rxData l.val 1).passDict l.val)
/-- BRODLU_REDUCE (row 135). -/
def execBrodluReduce (l : Fin 96) (s : State) : Outc := s.run fun (s : Device) => ((s.rxData l.val 2).passDict l.val)
/-- BRODLU_SEND (row 136). -/
def execBrodluSend (l : Fin 96) (s : State) : Outc := s.run fun (s : Device) => ((s.rxData l.val 3).passDict l.val)
/-- BRODLU_DICT (row 137). -/
def execBrodluDict (l : Fin 96) (s : State) : Outc := s.run fun (s : Device) => ((s.rxData l.val 4).passDict l.val)
/-- BRODLU_FIN (row 141). -/
def execBrodluFin (l : Fin 96) (s : State) : Outc := s.run fun (s : Device) => ((s.rxData l.val 8).passDict l.val)

/-! ## I3C (row 297, R512) -/

/-- The objects that the responder in D0 answers while D1 is off (R513). -/
def d0Object (oid : Nat) : Bool :=
  let k := (oidArea oid, oidNode oid, oidObj oid)
  [(0, 0, 0x100), (0, 0, 0x101), (0, 0, 0x106), (0, 0, 0x220), (0, 0, 0x221), (2, 0, 0x024), (2, 0, 0x052), (2, 0, 0x056),
    (0xA, 0, 0x013), (0xA, 0, 0x014)].contains k

/-- The read of the pointed object: status, type, length, value; the first failure of R512 in its order. -/
def Device.i3cRead (s : Device) : Bytes :=
  let oid := s.board.pointer
  let bad (ty : Nat) (st : Status) : Bytes := [BitVec.ofNat 8 st.code, BitVec.ofNat 8 ty, 0]
  match lookup oid with
  | .noObject => bad 0 .noObject
  | .noElement => bad 0 .noElement
  | .found d =>
    match s.pageOf oid d with
    | none => bad d.ty.code .noElement
    | some p =>
      if !d.i3c then bad d.ty.code .access
      else if !s.domainOn 1 && !d0Object oid then bad d.ty.code .domainOff
      else if s.domainOn 1 && (match ownerDomain oid with | some x => !s.domainOn x | none => false) then bad d.ty.code .domainOff
      else
        let v := if d.ty = .table then p else valBytes d.ty (s.readVal oid)
        if 64 < v.length then bad d.ty.code .length
        else [0, BitVec.ofNat 8 d.ty.code, BitVec.ofNat 8 v.length] ++ v

/-- I3C_READ (row 297): the value is captured whole; in I2C mode (an address byte given) a PEC byte follows, the CRC-8 of R512, and only the
static address is answered (R511). FUSE_FAIL leaves only the
status read (Table 19.5). -/
def execI3cRead (i2c : Option Byte) (s : State) : Outc := s.run fun (s : Device) =>
  (if !s.i3cUp || i2c.any fun a => a.toNat != 2 * s.num O.i3cStaticAddress + 1 then s
   else
     let r := s.i3cRead
     s.emit (.i3c (match i2c with
       | some a => r ++ beBytes 1 (crc8 (a :: r))
       | none => r)))

end Sys2Proof.Machine
end

