-- ==== Sys2Proof/Machine/Dispatch.lean ====
section
/-! DEFINITION. The meaning of each command: one direct call per constructor. -/

namespace Sys2Proof.Machine

def exec (i : Instr) (s : State) : Host.Outcome State Fault Refusal :=
  match i with
  | .crossingDelivery x dir op => Sys2Proof.Machine.execCrossingDelivery x dir op s
  | .foreriSegment src data => Sys2Proof.Machine.execForeriSegment src data s
  | .reassemblyTimeout ch rid => Sys2Proof.Machine.execReassemblyTimeout ch rid s
  | .read ch rid oid => Sys2Proof.Machine.execRead ch rid oid s
  | .write ch rid inTxn ix => Sys2Proof.Machine.execWrite ch rid inTxn ix s
  | .readMulti ch rid ids => Sys2Proof.Machine.execReadMulti ch rid ids s
  | .writeMulti ch rid inTxn items => Sys2Proof.Machine.execWriteMulti ch rid inTxn items s
  | .describe ch rid oid => Sys2Proof.Machine.execDescribe ch rid oid s
  | .txnBegin ch rid => Sys2Proof.Machine.execTxnBegin ch rid s
  | .txnCommit ch rid => Sys2Proof.Machine.execTxnCommit ch rid s
  | .txnAbort ch rid => Sys2Proof.Machine.execTxnAbort ch rid s
  | .subscribe ch rid oid mode periodMs minMs => Sys2Proof.Machine.execSubscribe ch rid oid mode periodMs minMs s
  | .unsubscribe ch rid num => Sys2Proof.Machine.execUnsubscribe ch rid num s
  | .notifyOnChange ch num => Sys2Proof.Machine.execNotifyOnChange ch num s
  | .notifyPeriodic ch num => Sys2Proof.Machine.execNotifyPeriodic ch num s
  | .hello pcie rid role keyId nonce ek => Sys2Proof.Machine.execHello pcie rid role keyId nonce ek s
  | .auth ch rid sig tag => Sys2Proof.Machine.execAuth ch rid sig tag s
  | .authTimeout n => Sys2Proof.Machine.execAuthTimeout n s
  | .helloStoreExpiry nonce => Sys2Proof.Machine.execHelloStoreExpiry nonce s
  | .close ch rid => Sys2Proof.Machine.execClose ch rid s
  | .sessionIdleTimeout n => Sys2Proof.Machine.execSessionIdleTimeout n s
  | .txnIdleTimeout ch => Sys2Proof.Machine.execTxnIdleTimeout ch s
  | .registerWrite ch ix => Sys2Proof.Machine.execRegisterWrite ch ix s
  | .mma c k => Sys2Proof.Machine.execMma c k s
  | .arrayComputeEnd c k bankCycles stall hits => Sys2Proof.Machine.execArrayComputeEnd c k bankCycles stall hits s
  | .drainStart c k => Sys2Proof.Machine.execDrainStart c k s
  | .drainEnd c k hits => Sys2Proof.Machine.execDrainEnd c k hits s
  | .directStoreEnd c k hits => Sys2Proof.Machine.execDirectStoreEnd c k hits s
  | .fence c k => Sys2Proof.Machine.execFence c k s
  | .fenceRelease c k => Sys2Proof.Machine.execFenceRelease c k s
  | .dma c k => Sys2Proof.Machine.execDma c k s
  | .waitDma c k => Sys2Proof.Machine.execWaitDma c k s
  | .waitDmaRelease c k => Sys2Proof.Machine.execWaitDmaRelease c k s
  | .vector c k => Sys2Proof.Machine.execVector c k s
  | .listEnd c k => Sys2Proof.Machine.execEnd c k s
  | .dmaCopy c k j => Sys2Proof.Machine.execDmaCopy c k j s
  | .dmaConvert c k j => Sys2Proof.Machine.execDmaConvert c k j s
  | .dmaFill c k j => Sys2Proof.Machine.execDmaFill c k j s
  | .dmaDescriptorComplete c k j bad met => Sys2Proof.Machine.execDmaDescriptorComplete c k j bad met s
  | .cmemScrub c k hits => Sys2Proof.Machine.execCmemScrub c k hits s
  | .vectorPassStart c k => Sys2Proof.Machine.execVectorPassStart c k s
  | .vectorPassEnd c k wait overlap row hits => Sys2Proof.Machine.execVectorPassEnd c k wait overlap row hits s
  | .windowMax c b => Sys2Proof.Machine.execWindowMax c b s
  | .windowAvg c b => Sys2Proof.Machine.execWindowAvg c b s
  | .windowMaxIdx c b => Sys2Proof.Machine.execWindowMaxIdx c b s
  | .windowMaxBwd c b => Sys2Proof.Machine.execWindowMaxBwd c b s
  | .windowAvgBwd c b => Sys2Proof.Machine.execWindowAvgBwd c b s
  | .windowCommandEnd c wait bad hits => Sys2Proof.Machine.execWindowCommandEnd c wait bad hits s
  | .cameoStem c b => Sys2Proof.Machine.execCameoStem c b s
  | .cameoHead c b => Sys2Proof.Machine.execCameoHead c b s
  | .cameoStemWgrad c b => Sys2Proof.Machine.execCameoStemWgrad c b s
  | .cameoCommandEnd c wait bad hits => Sys2Proof.Machine.execCameoCommandEnd c wait bad hits s
  | .clmemScrub c hits => Sys2Proof.Machine.execClmemScrub c hits s
  | .haloReady c b => Sys2Proof.Machine.execHaloReady c b s
  | .haloReturn c b => Sys2Proof.Machine.execHaloReturn c b s
  | .haloGate c b => Sys2Proof.Machine.execHaloGate c b s
  | .haloTokenArrival c h slot => Sys2Proof.Machine.execHaloTokenArrival c h slot s
  | .gateStart c k waited => Sys2Proof.Machine.execGateStart c k waited s
  | .walkStart c b => Sys2Proof.Machine.execWalkStart c b s
  | .walkPinDone c k => Sys2Proof.Machine.execWalkPinDone c k s
  | .walkBlockStart c k => Sys2Proof.Machine.execWalkBlockStart c k s
  | .walkPinRelease c k => Sys2Proof.Machine.execWalkPinRelease c k s
  | .walkFinalStart c k => Sys2Proof.Machine.execWalkFinalStart c k s
  | .alloc c p pt b conflicts => Sys2Proof.Machine.execAlloc c p pt b conflicts s
  | .lookup c p pt b tokens conflicts => Sys2Proof.Machine.execLookup c p pt b tokens conflicts s
  | .insert c p pt b conflicts => Sys2Proof.Machine.execInsert c p pt b conflicts s
  | .cow c p pt b => Sys2Proof.Machine.execCow c p pt b s
  | .cowCopyEnd ix => Sys2Proof.Machine.execCowCopyEnd ix s
  | .fill c p pt b n conflicts => Sys2Proof.Machine.execFill c p pt b n conflicts s
  | .pageRelease c p pt b conflicts => Sys2Proof.Machine.execPageRelease c p pt b conflicts s
  | .prune c p frame conflicts => Sys2Proof.Machine.execPrune c p frame conflicts s
  | .gather j => Sys2Proof.Machine.execGather j s
  | .fwd j => Sys2Proof.Machine.execFwd j s
  | .bwd j => Sys2Proof.Machine.execBwd j s
  | .reduce j => Sys2Proof.Machine.execReduce j s
  | .update j => Sys2Proof.Machine.execUpdate j s
  | .release j => Sys2Proof.Machine.execRelease j s
  | .dispatch j => Sys2Proof.Machine.execDispatch j s
  | .scheduleEnd j => Sys2Proof.Machine.execScheduleEnd j s
  | .scheduleEntryComplete j ix => Sys2Proof.Machine.execScheduleEntryComplete j ix s
  | .stepBoundary j => Sys2Proof.Machine.execStepBoundary j s
  | .patchApply j => Sys2Proof.Machine.execPatchApply j s
  | .applyPass u errs => Sys2Proof.Machine.execApplyPass u errs s
  | .normPass u errs => Sys2Proof.Machine.execNormPass u errs s
  | .trustPass u errs => Sys2Proof.Machine.execTrustPass u errs s
  | .updateBlockCommit u => Sys2Proof.Machine.execUpdateBlockCommit u s
  | .slotWaitRetry u errs => Sys2Proof.Machine.execSlotWaitRetry u errs s
  | .claspOpen m => Sys2Proof.Machine.execClaspOpen m s
  | .claspRead m slot a whole errs => Sys2Proof.Machine.execClaspRead m slot a whole errs s
  | .claspWrite m slot line data mask => Sys2Proof.Machine.execClaspWrite m slot line data mask s
  | .claspCommit m slot => Sys2Proof.Machine.execClaspCommit m slot s
  | .claspAbort m slot => Sys2Proof.Machine.execClaspAbort m slot s
  | .prepare q n d => Sys2Proof.Machine.execPrepare q n d s
  | .prepareResume q n d => Sys2Proof.Machine.execPrepareResume q n d s
  | .vote q n d => Sys2Proof.Machine.execVote q n d s
  | .install q n d => Sys2Proof.Machine.execInstall q n d s
  | .installReport q n d => Sys2Proof.Machine.execInstallReport q n d s
  | .txnTimeLimit q n => Sys2Proof.Machine.execTxnTimeLimit q n s
  | .lockWaitLimit q n d => Sys2Proof.Machine.execLockWaitLimit q n d s
  | .cachedRead m a n errs => Sys2Proof.Machine.execCachedRead m a n errs s
  | .cachedWrite m a data errs => Sys2Proof.Machine.execCachedWrite m a data errs s
  | .uncachedAccess m a n write errs => Sys2Proof.Machine.execUncachedAccess m a n write errs s
  | .atomicFetchAdd m a wide v errs => Sys2Proof.Machine.execAtomicFetchAdd m a wide v errs s
  | .atomicCas m a wide cmp new errs => Sys2Proof.Machine.execAtomicCas m a wide cmp new errs s
  | .atomicFadd m a ty vals errs => Sys2Proof.Machine.execAtomicFadd m a ty vals errs s
  | .atomicMax m a ty vals errs => Sys2Proof.Machine.execAtomicMax m a ty vals errs s
  | .atomicMin m a ty vals errs => Sys2Proof.Machine.execAtomicMin m a ty vals errs s
  | .atomicCopy64 m dst src errs => Sys2Proof.Machine.execAtomicCopy64 m dst src errs s
  | .refresh k => Sys2Proof.Machine.execRefresh k s
  | .retrainPeriodExpiry p => Sys2Proof.Machine.execRetrainPeriodExpiry p s
  | .retrainTemperatureTrigger k temp => Sys2Proof.Machine.execRetrainTemperatureTrigger k temp s
  | .retrainErrorRateTrigger p rate => Sys2Proof.Machine.execRetrainErrorRateTrigger p rate s
  | .retrainStart q => Sys2Proof.Machine.execRetrainStart q s
  | .retrainSuccess q => Sys2Proof.Machine.execRetrainSuccess q s
  | .retrainTimeout q => Sys2Proof.Machine.execRetrainTimeout q s
  | .fenceCopyStart k => Sys2Proof.Machine.execFenceCopyStart k s
  | .fenceCopyEnd k lost => Sys2Proof.Machine.execFenceCopyEnd k lost s
  | .hbmScrub p u errs => Sys2Proof.Machine.execHbmScrub p u errs s
  | .segmentTableWrite v => Sys2Proof.Machine.execSegmentTableWrite v s
  | .stackThermalLimit k temp => Sys2Proof.Machine.execStackThermalLimit k temp s
  | .handoffRetry q a => Sys2Proof.Machine.execHandoffRetry q a s
  | .ledgerAudit kind inst => Sys2Proof.Machine.execLedgerAudit kind inst s
  | .auditMarkerArrival kind inst seen => Sys2Proof.Machine.execAuditMarkerArrival kind inst seen s
  | .auditReplyArrival kind inst back => Sys2Proof.Machine.execAuditReplyArrival kind inst back s
  | .auditStall kind inst => Sys2Proof.Machine.execAuditStall kind inst s
  | .portModeWrite l mode => Sys2Proof.Machine.execPortModeWrite l mode s
  | .portTrainingComplete l native => Sys2Proof.Machine.execPortTrainingComplete l native s
  | .portDown l => Sys2Proof.Machine.execPortDown l s
  | .frameReceive l f => Sys2Proof.Machine.execFrameReceive l f s
  | .pfcXoffRepeat l => Sys2Proof.Machine.execPfcXoffRepeat l s
  | .linkAck l seq => Sys2Proof.Machine.execLinkAck l seq s
  | .linkReplay l seq => Sys2Proof.Machine.execLinkReplay l seq s
  | .linkAckTimer l => Sys2Proof.Machine.execLinkAckTimer l s
  | .linkEpisodeTimeout l => Sys2Proof.Machine.execLinkEpisodeTimeout l s
  | .brodluWrite l => Sys2Proof.Machine.execBrodluWrite l s
  | .brodluReduce l => Sys2Proof.Machine.execBrodluReduce l s
  | .brodluSend l => Sys2Proof.Machine.execBrodluSend l s
  | .brodluDict l => Sys2Proof.Machine.execBrodluDict l s
  | .brodluAck l => Sys2Proof.Machine.execBrodluAck l s
  | .brodluNak l => Sys2Proof.Machine.execBrodluNak l s
  | .brodluSync l => Sys2Proof.Machine.execBrodluSync l s
  | .brodluFin l => Sys2Proof.Machine.execBrodluFin l s
  | .packetTransmit l => Sys2Proof.Machine.execPacketTransmit l s
  | .ctxOpen n => Sys2Proof.Machine.execCtxOpen n s
  | .ctxClose n => Sys2Proof.Machine.execCtxClose n s
  | .ctxThaw n => Sys2Proof.Machine.execCtxThaw n s
  | .syncInterval n => Sys2Proof.Machine.execSyncInterval n s
  | .syncTimeout n => Sys2Proof.Machine.execSyncTimeout n s
  | .ackDelayTimer n => Sys2Proof.Machine.execAckDelayTimer n s
  | .retransmitTimeout n => Sys2Proof.Machine.execRetransmitTimeout n s
  | .noBufferRetry n => Sys2Proof.Machine.execNoBufferRetry n s
  | .rateControlPeriod => Sys2Proof.Machine.execRateControlPeriod s
  | .put id => Sys2Proof.Machine.execPut id s
  | .putAdd id => Sys2Proof.Machine.execPutAdd id s
  | .localStep id => Sys2Proof.Machine.execLocalStep id s
  | .waitIn id => Sys2Proof.Machine.execWaitIn id s
  | .planStepComplete id ix => Sys2Proof.Machine.execPlanStepComplete id ix s
  | .streamOpen m n => Sys2Proof.Machine.execStreamOpen m n s
  | .streamClose m n => Sys2Proof.Machine.execStreamClose m n s
  | .streamCloseComplete m n => Sys2Proof.Machine.execStreamCloseComplete m n s
  | .streamFlush m n => Sys2Proof.Machine.execStreamFlush m n s
  | .streamThaw m n => Sys2Proof.Machine.execStreamThaw m n s
  | .recordArrival m n => Sys2Proof.Machine.execRecordArrival m n s
  | .workSlotGrant m n => Sys2Proof.Machine.execWorkSlotGrant m n s
  | .decodeDispatch m kind => Sys2Proof.Machine.execDecodeDispatch m kind s
  | .decodeComplete m e d unc => Sys2Proof.Machine.execDecodeComplete m e d unc s
  | .decodeDeadline m n seq => Sys2Proof.Machine.execDecodeDeadline m n seq s
  | .lcSwitch m e => Sys2Proof.Machine.execLcSwitch m e s
  | .samplePlace m n => Sys2Proof.Machine.execSamplePlace m n s
  | .packTimeout m n => Sys2Proof.Machine.execPackTimeout m n s
  | .strandWrite m n => Sys2Proof.Machine.execStrandWrite m n s
  | .splitRatioUpdate m => Sys2Proof.Machine.execSplitRatioUpdate m s
  | .encodeOpen m n => Sys2Proof.Machine.execEncodeOpen m n s
  | .encodeClose m n => Sys2Proof.Machine.execEncodeClose m n s
  | .encodeThaw m n => Sys2Proof.Machine.execEncodeThaw m n s
  | .sourceHeadPoll m n => Sys2Proof.Machine.execSourceHeadPoll m n s
  | .encodeFrameStart m => Sys2Proof.Machine.execEncodeFrameStart m s
  | .encodeFrameEnd m n => Sys2Proof.Machine.execEncodeFrameEnd m n s
  | .frameDeadline m n => Sys2Proof.Machine.execFrameDeadline m n s
  | .register j => Sys2Proof.Machine.execRegister j s
  | .jobAdmit j => Sys2Proof.Machine.execJobAdmit j s
  | .leave j => Sys2Proof.Machine.execLeave j s
  | .suspend j => Sys2Proof.Machine.execSuspend j s
  | .deregister j => Sys2Proof.Machine.execDeregister j s
  | .jobThaw j => Sys2Proof.Machine.execJobThaw j s
  | .stepSubmit j d => Sys2Proof.Machine.execStepSubmit j d s
  | .stepStart j conflicts => Sys2Proof.Machine.execStepStart j conflicts s
  | .sliceEnd j => Sys2Proof.Machine.execSliceEnd j s
  | .cheapPointReached c k => Sys2Proof.Machine.execCheapPointReached c k s
  | .cheapPointTimeout c k => Sys2Proof.Machine.execCheapPointTimeout c k s
  | .coreSaveComplete c k => Sys2Proof.Machine.execCoreSaveComplete c k s
  | .coreClearComplete c k => Sys2Proof.Machine.execCoreClearComplete c k s
  | .coreRestoreComplete c k => Sys2Proof.Machine.execCoreRestoreComplete c k s
  | .commandRunLimit u stopped rows => Sys2Proof.Machine.execCommandRunLimit u stopped rows s
  | .jobWatchdogExpiry j => Sys2Proof.Machine.execJobWatchdogExpiry j s
  | .perstNAssert => Sys2Proof.Machine.execPerstNAssert s
  | .perstNDeassert => Sys2Proof.Machine.execPerstNDeassert s
  | .hotReset => Sys2Proof.Machine.execHotReset s
  | .functionLevelReset => Sys2Proof.Machine.execFunctionLevelReset s
  | .sqTailDoorbell q v => Sys2Proof.Machine.execSqTailDoorbell q v s
  | .cqHeadDoorbell q v => Sys2Proof.Machine.execCqHeadDoorbell q v s
  | .causeClear v => Sys2Proof.Machine.execCauseClear v s
  | .causeMaskWrite v => Sys2Proof.Machine.execCauseMaskWrite v s
  | .doorbellStatusClear r v => Sys2Proof.Machine.execDoorbellStatusClear r v s
  | .doorbellMaskWrite r v => Sys2Proof.Machine.execDoorbellMaskWrite r v s
  | .notifyHeadWrite v => Sys2Proof.Machine.execNotifyHeadWrite v s
  | .foreriSlotSubmit k len area => Sys2Proof.Machine.execForeriSlotSubmit k len area s
  | .foreriSlotFree k => Sys2Proof.Machine.execForeriSlotFree k s
  | .mailboxSend sender r word => Sys2Proof.Machine.execMailboxSend sender r word s
  | .sharedMailboxSend writer r word => Sys2Proof.Machine.execSharedMailboxSend writer r word s
  | .mailboxConsume r slot => Sys2Proof.Machine.execMailboxConsume r slot s
  | .mailboxFlagClear r slot => Sys2Proof.Machine.execMailboxFlagClear r slot s
  | .sendStatusOverrunClear sender r => Sys2Proof.Machine.execSendStatusOverrunClear sender r s
  | .mbEnable n on => Sys2Proof.Machine.execMbEnable n on s
  | .sqFetch q entries => Sys2Proof.Machine.execSqFetch q entries s
  | .nop q => Sys2Proof.Machine.execNop q s
  | .step q => Sys2Proof.Machine.execStep q s
  | .pageOp q met => Sys2Proof.Machine.execPageOp q met s
  | .ptEdit q conflicts => Sys2Proof.Machine.execPtEdit q conflicts s
  | .txnOpen q => Sys2Proof.Machine.execTxnOpen q s
  | .txnRead q errs => Sys2Proof.Machine.execTxnRead q errs s
  | .txnWrite q data => Sys2Proof.Machine.execTxnWrite q data s
  | .hostTxnCommit q => Sys2Proof.Machine.execHostTxnCommit q s
  | .hostTxnAbort q => Sys2Proof.Machine.execHostTxnAbort q s
  | .completionPost q => Sys2Proof.Machine.execCompletionPost q s
  | .commandTimeout who id => Sys2Proof.Machine.execCommandTimeout who id s
  | .queueEnable q => Sys2Proof.Machine.execQueueEnable q s
  | .queueDisable q => Sys2Proof.Machine.execQueueDisable q s
  | .queueThaw q => Sys2Proof.Machine.execQueueThaw q s
  | .hostMemoryError q f => Sys2Proof.Machine.execHostMemoryError q f s
  | .bar2Read off n errs => Sys2Proof.Machine.execBar2Read off n errs s
  | .bar2Write off data poisoned errs => Sys2Proof.Machine.execBar2Write off data poisoned errs s
  | .domainOn d => Sys2Proof.Machine.execDomainOn d s
  | .domainOnComplete d => Sys2Proof.Machine.execDomainOnComplete d s
  | .domainOff d => Sys2Proof.Machine.execDomainOff d s
  | .domainOffComplete d => Sys2Proof.Machine.execDomainOffComplete d s
  | .crystalStable => Sys2Proof.Machine.execCrystalStable s
  | .crystalAbsent => Sys2Proof.Machine.execCrystalAbsent s
  | .rcRetrim n => Sys2Proof.Machine.execRcRetrim n s
  | .clockEnableWrite ix v => Sys2Proof.Machine.execClockEnableWrite ix v s
  | .opRequest ix p => Sys2Proof.Machine.execOpRequest ix p s
  | .opMoveLockDone ix => Sys2Proof.Machine.execOpMoveLockDone ix s
  | .opMoveRampDone ix => Sys2Proof.Machine.execOpMoveRampDone ix s
  | .thermalEvaluation q readings => Sys2Proof.Machine.execThermalEvaluation q readings s
  | .thermalTrip q sensor reading => Sys2Proof.Machine.execThermalTrip q sensor reading s
  | .powerEvaluation mw => Sys2Proof.Machine.execPowerEvaluation mw s
  | .requestRun => Sys2Proof.Machine.execRequestRun s
  | .requestIdle => Sys2Proof.Machine.execRequestIdle s
  | .requestSleep => Sys2Proof.Machine.execRequestSleep s
  | .requestDeep => Sys2Proof.Machine.execRequestDeep s
  | .islandGate ix => Sys2Proof.Machine.execIslandGate ix s
  | .islandUngate ix => Sys2Proof.Machine.execIslandUngate ix s
  | .idleAutoExpiry => Sys2Proof.Machine.execIdleAutoExpiry s
  | .sleepEntryComplete => Sys2Proof.Machine.execSleepEntryComplete s
  | .sleepExit => Sys2Proof.Machine.execSleepExit s
  | .sleepExitComplete => Sys2Proof.Machine.execSleepExitComplete s
  | .deepEntryComplete => Sys2Proof.Machine.execDeepEntryComplete s
  | .deepExit => Sys2Proof.Machine.execDeepExit s
  | .wakeAinTrip mv => Sys2Proof.Machine.execWakeAinTrip mv s
  | .wakeAinRearm mv => Sys2Proof.Machine.execWakeAinRearm mv s
  | .wakeNLow => Sys2Proof.Machine.execWakeNLow s
  | .wakeFrame mac etherType udpPort payload fcsGood => Sys2Proof.Machine.execWakeFrame mac etherType udpPort payload fcsGood s
  | .wakeTimer => Sys2Proof.Machine.execWakeTimer s
  | .locketClear => Sys2Proof.Machine.execLocketClear s
  | .vddAonRise => Sys2Proof.Machine.execVddAonRise s
  | .vddAonLoss => Sys2Proof.Machine.execVddAonLoss s
  | .sysRstNAssert => Sys2Proof.Machine.execSysRstNAssert s
  | .sysRstNRelease => Sys2Proof.Machine.execSysRstNRelease s
  | .railsGood => Sys2Proof.Machine.execRailsGood s
  | .rcTrimComplete n => Sys2Proof.Machine.execRcTrimComplete n s
  | .fuseLoadComplete words => Sys2Proof.Machine.execFuseLoadComplete words s
  | .imageSlotChecked k readOk flashBytes => Sys2Proof.Machine.execImageSlotChecked k readOk flashBytes s
  | .configureComplete => Sys2Proof.Machine.execConfigureComplete s
  | .configureRelease => Sys2Proof.Machine.execConfigureRelease s
  | .trainComplete failed cacheFail ids => Sys2Proof.Machine.execTrainComplete failed cacheFail ids s
  | .slotBackgroundCheck k readOk => Sys2Proof.Machine.execSlotBackgroundCheck k readOk s
  | .warmResetKind1 nonce => Sys2Proof.Machine.execWarmResetKind1 nonce s
  | .warmResetKind2 nonce => Sys2Proof.Machine.execWarmResetKind2 nonce s
  | .warmResetKind3 nonce => Sys2Proof.Machine.execWarmResetKind3 nonce s
  | .warmResetBegin => Sys2Proof.Machine.execWarmResetBegin s
  | .flashDataWrite data => Sys2Proof.Machine.execFlashDataWrite data s
  | .flashErase off => Sys2Proof.Machine.execFlashErase off s
  | .flashOpComplete ok => Sys2Proof.Machine.execFlashOpComplete ok s
  | .assayTestStart die => Sys2Proof.Machine.execAssayTestStart die s
  | .assayTestEnd die pass => Sys2Proof.Machine.execAssayTestEnd die pass s
  | .fuseBurnComplete ok => Sys2Proof.Machine.execFuseBurnComplete ok s
  | .lockstepMismatch => Sys2Proof.Machine.execLockstepMismatch s
  | .masterThaw m => Sys2Proof.Machine.execMasterThaw m s
  | .attestRequest ch nonce => Sys2Proof.Machine.execAttestRequest ch nonce s
  | .rollbackCommit n failAfter => Sys2Proof.Machine.execRollbackCommit n failAfter s
  | .debugToken t => Sys2Proof.Machine.execDebugToken t s
  | .debugLock => Sys2Proof.Machine.execDebugLock s
  | .debugExpiry => Sys2Proof.Machine.execDebugExpiry s
  | .entropyHealthTest pass => Sys2Proof.Machine.execEntropyHealthTest pass s
  | .i3cPointerWrite oid => Sys2Proof.Machine.execI3cPointerWrite oid s
  | .i3cWakeCommand => Sys2Proof.Machine.execI3cWakeCommand s
  | .i3cIgnoredWrite data => Sys2Proof.Machine.execI3cIgnoredWrite data s
  | .i3cRead i2c => Sys2Proof.Machine.execI3cRead i2c s
  | .i3cIbi => Sys2Proof.Machine.execI3cIbi s
  | .i3cDynamicAddress a => Sys2Proof.Machine.execI3cDynamicAddress a s
  | .idcode => Sys2Proof.Machine.execIdcode s
  | .bypass => Sys2Proof.Machine.execBypass s
  | .samplePreload => Sys2Proof.Machine.execSamplePreload s
  | .extest => Sys2Proof.Machine.execExtest s
  | .extestPulse => Sys2Proof.Machine.execExtestPulse s
  | .extestTrain => Sys2Proof.Machine.execExtestTrain s
  | .highz => Sys2Proof.Machine.execHighz s
  | .clamp => Sys2Proof.Machine.execClamp s
  | .debugAccess halt peek => Sys2Proof.Machine.execDebugAccess halt peek s
  | .trace => Sys2Proof.Machine.execTrace s
  | .mfgTest => Sys2Proof.Machine.execMfgTest s
  | .testLogicReset => Sys2Proof.Machine.execTestLogicReset s
  | .railSample mv => Sys2Proof.Machine.execRailSample mv s
  | .gpioFunctionWrite n f => Sys2Proof.Machine.execGpioFunctionWrite n f s
  | .gpioPulseEdge n => Sys2Proof.Machine.execGpioPulseEdge n s
  | .pfcPauseExpiry l prio => Sys2Proof.Machine.execPfcPauseExpiry l prio s
  | .pcieConfigurationRequest => Sys2Proof.Machine.execPcieConfigurationRequest s
  | .pcieLinkUp rate width => Sys2Proof.Machine.execPcieLinkUp rate width s
  | .msixTableWrite v addr data masked => Sys2Proof.Machine.execMsixTableWrite v addr data masked s
  | .referenceClockPresenceChange ix present => Sys2Proof.Machine.execReferenceClockPresenceChange ix present s
  | .sendStatusRead page r kind => Sys2Proof.Machine.execSendStatusRead page r kind s

end Sys2Proof.Machine
end

