-- ==== Sys2Proof/WellFormed.lean ====
section
/-! DEFINITION. Which commands are well formed: what a command carries has the lengths its interface gives it. A command whose content
alone is refused (E_LENGTH, E_RANGE and so on) is well formed; the unit answers it. -/

namespace Sys2Proof
open Machine

/-- The value of an item has a 16-bit length (R49). -/
def Machine.Item.wf (i : Item) : Bool := i.value.length < 65536

/-- The bytes of a list of items in a body, 8 beside each value (R49). -/
def itemsBytes (l : List Item) : Nat := (l.map fun i => 8 + i.value.length).sum

/-- Errors met in a memory lie in its addresses. -/
def hitsIn (size : Nat) (l : List EccHit) : Bool := l.all fun h => h.1.toNat < size

/-- At least one symbol is wrong, none is named twice, and every difference is nonzero. -/
def Machine.SymErr.wf (e : SymErr) : Bool := !e.errs.isEmpty && decide (e.errs.map fun p => p.1).Nodup && e.errs.all fun p => p.2 != 0

/-- Symbol errors met by a command's accesses. -/
def symsOk (l : List SymErr) : Bool := l.all SymErr.wf

/-- The type codes of FADD: FP32 and BF16 (Table 11.7). -/
def floatTy (ty : Nat) : Bool := 4 ≤ ty

/-- The bytes of an element of a type code: 0 U32, 1 U64, 2 I32, 3 I64, 4 FP32, 5 BF16. -/
def elementBytes (ty : Nat) : Nat := if ty = 1 || ty = 3 then 8 else if ty = 5 then 2 else 4

/-- One to a line of elements (Table 11.7). -/
def elements (ty : Nat) (l : List (BitVec 64)) : Bool := !l.isEmpty && l.length * elementBytes ty ≤ 128

/-- A decoded picture has its samples, plane by plane, and subsampling of at least 1. -/
def Machine.Decoded.wf (d : Decoded) : Bool := 0 < d.subX && 0 < d.subY

/-- The checks of each command. -/
def wellFormed : Instr → Bool
  | .crossingDelivery _ _ _ => true
  | .foreriSegment _ data => data.length ≤ 8272
  | .reassemblyTimeout _ _ => true
  | .read _ _ _ => true
  | .write _ _ _ i => i.wf
  | .readMulti _ _ ids => ids.length ≤ 2047
  | .writeMulti _ _ _ items => itemsBytes items ≤ 8188 && items.all Item.wf
  | .describe _ _ _ => true
  | .txnBegin _ _ => true
  | .txnCommit _ _ => true
  | .txnAbort _ _ => true
  | .subscribe _ _ _ _ _ _ => true
  | .unsubscribe _ _ _ => true
  | .notifyOnChange _ _ => true
  | .notifyPeriodic _ _ => true
  | .hello _ _ _ keyId nonce ek => keyId.length == 32 && nonce.length == 32 && ek.length == 1184
  | .auth _ _ sig tag => sig.length == 2420 && (tag.length == 32 || tag.isEmpty)
  | .authTimeout _ => true
  | .helloStoreExpiry nonce => nonce.length == 32
  | .close _ _ => true
  | .sessionIdleTimeout _ => true
  | .txnIdleTimeout _ => true
  | .registerWrite _ i => i.wf
  | .mma _ _ => true
  | .arrayComputeEnd _ _ _ _ hits => hitsIn 0x400000 hits
  | .drainStart _ _ => true
  | .drainEnd _ _ hits => hitsIn 0x400000 hits
  | .directStoreEnd _ _ hits => hitsIn 0x400000 hits
  | .fence _ _ => true
  | .fenceRelease _ _ => true
  | .dma _ _ => true
  | .waitDma _ _ => true
  | .waitDmaRelease _ _ => true
  | .vector _ _ => true
  | .listEnd _ _ => true
  | .dmaCopy _ _ _ => true
  | .dmaConvert _ _ _ => true
  | .dmaFill _ _ _ => true
  | .dmaDescriptorComplete _ _ _ _ met => hitsIn 0x400000 met.core && hitsIn 0x1800000 met.cluster && symsOk met.hbm
  | .cmemScrub _ _ hits => hitsIn 0x400000 hits
  | .vectorPassStart _ _ => true
  | .vectorPassEnd _ _ _ _ _ hits => hitsIn 0x400000 hits
  | .windowMax _ b => b.length == 64
  | .windowAvg _ b => b.length == 64
  | .windowMaxIdx _ b => b.length == 64
  | .windowMaxBwd _ b => b.length == 64
  | .windowAvgBwd _ b => b.length == 64
  | .windowCommandEnd _ _ _ hits => hitsIn 0x1800000 hits
  | .cameoStem _ b => b.length == 96
  | .cameoHead _ b => b.length == 96
  | .cameoStemWgrad _ b => b.length == 96
  | .cameoCommandEnd _ _ _ hits => hitsIn 0x1800000 hits
  | .clmemScrub _ hits => hitsIn 0x1800000 hits
  | .haloReady _ b => b.length == 16
  | .haloReturn _ b => b.length == 16
  | .haloGate _ b => b.length == 16
  | .haloTokenArrival _ _ _ => true
  | .gateStart _ _ _ => true
  | .walkStart _ b => b.length == 64
  | .walkPinDone _ _ => true
  | .walkBlockStart _ _ => true
  | .walkPinRelease _ _ => true
  | .walkFinalStart _ _ => true
  | .alloc _ _ _ _ met => symsOk met.errs
  | .lookup _ _ _ _ tokens met => tokens.length == 256 && symsOk met.errs
  | .insert _ _ _ b met => b.tokens.length == 256 && symsOk met.errs
  | .cow _ _ _ met => symsOk met.errs
  | .cowCopyEnd _ => true
  | .fill _ _ _ _ _ met => symsOk met.errs
  | .pageRelease _ _ _ _ met => symsOk met.errs
  | .prune _ _ _ met => symsOk met.errs
  | .gather _ => true
  | .fwd _ => true
  | .bwd _ => true
  | .reduce _ => true
  | .update _ => true
  | .release _ => true
  | .dispatch _ => true
  | .scheduleEnd _ => true
  | .scheduleEntryComplete _ _ => true
  | .stepBoundary _ => true
  | .patchApply _ => true
  | .applyPass _ errs => symsOk errs
  | .normPass _ errs => symsOk errs
  | .trustPass _ errs => symsOk errs
  | .updateBlockCommit _ => true
  | .slotWaitRetry _ errs => symsOk errs
  | .claspOpen _ => true
  | .claspRead _ _ _ _ errs => symsOk errs
  | .claspWrite _ _ _ data _ => data.length == 128
  | .claspCommit _ met => symsOk met.errs
  | .claspAbort _ _ => true
  | .prepare _ _ _ => true
  | .prepareResume _ _ _ => true
  | .vote _ _ _ => true
  | .install _ _ _ => true
  | .installReport _ _ _ => true
  | .txnTimeLimit _ _ => true
  | .lockWaitLimit _ _ _ => true
  | .cachedRead _ _ n errs => n.toNat != 0 && symsOk errs
  | .cachedWrite _ _ data errs => !data.isEmpty && symsOk errs
  | .uncachedAccess _ _ n write errs => (match write with | some d => !d.isEmpty | none => n.toNat != 0) && symsOk errs
  | .atomicFetchAdd _ _ _ _ errs => symsOk errs
  | .atomicCas _ _ _ _ _ errs => symsOk errs
  | .atomicFadd _ _ ty vals errs => floatTy ty.val && elements ty.val vals && symsOk errs
  | .atomicMax _ _ ty vals errs => elements ty.val vals && symsOk errs
  | .atomicMin _ _ ty vals errs => elements ty.val vals && symsOk errs
  | .atomicCopy64 _ _ _ errs => symsOk errs
  | .refresh _ => true
  | .retrainPeriodExpiry _ => true
  | .retrainTemperatureTrigger _ _ => true
  | .retrainErrorRateTrigger _ _ => true
  | .retrainStart _ => true
  | .retrainSuccess _ => true
  | .retrainTimeout _ => true
  | .fenceCopyStart _ => true
  | .fenceCopyEnd _ _ => true
  | .hbmScrub _ _ errs => symsOk errs
  | .segmentTableWrite _ => true
  | .stackThermalLimit _ _ => true
  | .handoffRetry _ _ => true
  | .ledgerAudit _ _ => true
  | .auditMarkerArrival _ _ _ => true
  | .auditReplyArrival _ _ _ => true
  | .auditStall _ _ => true
  | .portModeWrite _ _ => true
  | .portTrainingComplete _ _ => true
  | .portDown _ => true
  | .frameReceive _ f => f.tags.length ≤ 2
  | .pfcXoffRepeat _ => true
  | .linkAck _ _ => true
  | .linkReplay _ _ => true
  | .linkAckTimer _ => true
  | .linkEpisodeTimeout _ => true
  | .brodluWrite _ => true
  | .brodluReduce _ => true
  | .brodluSend _ => true
  | .brodluDict _ => true
  | .brodluAck _ => true
  | .brodluNak _ => true
  | .brodluSync _ => true
  | .brodluFin _ => true
  | .packetTransmit _ => true
  | .ctxOpen _ => true
  | .ctxClose _ => true
  | .ctxThaw _ => true
  | .syncInterval _ => true
  | .syncTimeout _ => true
  | .ackDelayTimer _ => true
  | .retransmitTimeout _ => true
  | .noBufferRetry _ => true
  | .rateControlPeriod => true
  | .put _ => true
  | .putAdd _ => true
  | .localStep _ => true
  | .waitIn _ => true
  | .planStepComplete _ _ => true
  | .streamOpen _ _ => true
  | .streamClose _ _ => true
  | .streamCloseComplete _ _ => true
  | .streamFlush _ _ => true
  | .streamThaw _ _ => true
  | .recordArrival _ _ => true
  | .workSlotGrant _ _ => true
  | .decodeDispatch _ _ => true
  | .decodeComplete _ _ d _ => d.wf
  | .decodeDeadline _ _ _ => true
  | .lcSwitch _ _ => true
  | .samplePlace _ _ => true
  | .packTimeout _ _ => true
  | .strandWrite _ _ => true
  | .splitRatioUpdate _ => true
  | .encodeOpen _ _ => true
  | .encodeClose _ _ => true
  | .encodeThaw _ _ => true
  | .sourceHeadPoll _ _ => true
  | .encodeFrameStart _ => true
  | .encodeFrameEnd _ _ => true
  | .frameDeadline _ _ => true
  | .register _ => true
  | .jobAdmit _ => true
  | .leave _ => true
  | .suspend _ => true
  | .deregister _ => true
  | .jobThaw _ => true
  | .stepSubmit _ _ => true
  | .stepStart _ _ => true
  | .sliceEnd _ => true
  | .cheapPointReached _ _ => true
  | .cheapPointTimeout _ _ => true
  | .coreSaveComplete _ _ => true
  | .coreClearComplete _ _ => true
  | .coreRestoreComplete _ _ => true
  | .commandRunLimit _ _ _ => true
  | .jobWatchdogExpiry _ => true
  | .perstNAssert => true
  | .perstNDeassert => true
  | .hotReset => true
  | .functionLevelReset => true
  | .sqTailDoorbell _ _ => true
  | .cqHeadDoorbell _ _ => true
  | .causeClear _ => true
  | .causeMaskWrite _ => true
  | .doorbellStatusClear _ _ => true
  | .doorbellMaskWrite _ _ => true
  | .notifyHeadWrite _ => true
  | .foreriSlotSubmit _ _ area => area.length ≤ 8216
  | .foreriSlotFree _ => true
  | .mailboxSend _ _ _ => true
  | .sharedMailboxSend _ _ _ => true
  | .mailboxConsume _ _ => true
  | .mailboxFlagClear _ _ => true
  | .sendStatusOverrunClear _ _ => true
  | .mbEnable _ _ => true
  | .sqFetch _ entries => entries.length ≤ 8 && entries.all fun e => e.length == 64
  | .nop _ => true
  | .step _ => true
  | .pageOp _ met => (met.tokens.isEmpty || met.tokens.length == 256) && symsOk met.errs
  | .ptEdit _ met => symsOk met.errs
  | .txnOpen _ => true
  | .txnRead _ errs => symsOk errs
  | .txnWrite _ data => data.length ≤ 128
  | .hostTxnCommit met => symsOk met.errs
  | .hostTxnAbort _ => true
  | .completionPost _ => true
  | .commandTimeout _ _ => true
  | .queueEnable _ => true
  | .queueDisable _ => true
  | .queueThaw _ => true
  | .hostMemoryError _ _ => true
  | .bar2Read off n errs => n.toNat != 0 && off.toNat + n.toNat ≤ 0x4000000 && symsOk errs
  | .bar2Write off data _ errs => !data.isEmpty && off.toNat + data.length ≤ 0x4000000 && symsOk errs
  | .domainOn _ => true
  | .domainOnComplete _ => true
  | .domainOff _ => true
  | .domainOffComplete _ => true
  | .crystalStable => true
  | .crystalAbsent => true
  | .rcRetrim _ => true
  | .clockEnableWrite _ _ => true
  | .opRequest _ _ => true
  | .opMoveLockDone _ => true
  | .opMoveRampDone _ => true
  | .thermalEvaluation _ readings => readings.length == 8
  | .thermalTrip _ _ _ => true
  | .powerEvaluation _ => true
  | .requestRun => true
  | .requestIdle => true
  | .requestSleep => true
  | .requestDeep => true
  | .islandGate _ => true
  | .islandUngate _ => true
  | .idleAutoExpiry => true
  | .sleepEntryComplete => true
  | .sleepExit => true
  | .sleepExitComplete => true
  | .deepEntryComplete => true
  | .deepExit => true
  | .wakeAinTrip _ => true
  | .wakeAinRearm _ => true
  | .wakeNLow => true
  | .wakeFrame _ _ _ _ _ => true
  | .wakeTimer => true
  | .locketClear => true
  | .vddAonRise => true
  | .vddAonLoss => true
  | .sysRstNAssert => true
  | .sysRstNRelease => true
  | .railsGood => true
  | .rcTrimComplete _ => true
  | .fuseLoadComplete words => words.length == 1024
  | .imageSlotChecked _ _ _ => true
  | .configureComplete => true
  | .configureRelease => true
  | .trainComplete failed _ ids => decide failed.Nodup && ids.length == 20
  | .slotBackgroundCheck _ _ => true
  | .warmResetKind1 _ => true
  | .warmResetKind2 _ => true
  | .warmResetKind3 _ => true
  | .warmResetBegin => true
  | .flashDataWrite _ => true
  | .flashErase _ => true
  | .flashOpComplete _ => true
  | .assayTestStart _ => true
  | .assayTestEnd _ _ => true
  | .fuseBurnComplete _ => true
  | .lockstepMismatch => true
  | .masterThaw _ => true
  | .attestRequest _ nonce => nonce.length == 32
  | .rollbackCommit _ _ => true
  | .debugToken _ => true
  | .debugLock => true
  | .debugExpiry => true
  | .entropyHealthTest _ => true
  | .i3cPointerWrite _ => true
  | .i3cWakeCommand => true
  | .i3cIgnoredWrite _ => true
  | .i3cRead _ => true
  | .i3cIbi => true
  | .i3cDynamicAddress _ => true
  | .idcode => true
  | .bypass => true
  | .samplePreload => true
  | .extest => true
  | .extestPulse => true
  | .extestTrain => true
  | .highz => true
  | .clamp => true
  | .debugAccess _ _ => true
  | .trace => true
  | .mfgTest => true
  | .testLogicReset => true
  | .railSample mv => mv.length == 20
  | .gpioFunctionWrite _ _ => true
  | .gpioPulseEdge _ => true
  | .pfcPauseExpiry _ _ => true
  | .pcieConfigurationRequest => true
  | .pcieLinkUp _ _ => true
  | .msixTableWrite _ _ _ _ => true
  | .referenceClockPresenceChange _ _ => true
  | .sendStatusRead _ _ _ => true

end Sys2Proof
end

