-- ==== Sys2Proof/Safety.lean ====
section
/-! DEFINITION. What counts as a sound state of the block: memories in canonical form, waiting commands well formed. -/

namespace Sys2Proof
open Machine

/-- The flash in canonical form: addresses rise strictly, no listed byte is what an unlisted one reads as (0xFF), undefined
sectors are listed in order. -/
def flashWf (f : Flash) : Bool := tsorted f.bytes && tclean f.bytes 0xFF && tsorted f.undef

/-- The three memories of the device in canonical form. -/
def memWf (d : Device) : Bool := Memory.wf d.mem.hbm && Memory.wf d.mem.clm && Memory.wf d.mem.cm

/-- The invariant of the block: the flash is in canonical form and every waiting command is well formed. -/
def Inv (s : State) : Prop := flashWf s.flash = true ∧ s.pending.all wellFormed = true

/-- A run stops at no fault and no refusal: every step of it answers a next state. -/
def SafeRun (s : State) (n : Nat) : Prop := ∀ k ≤ n, ∃ t, Host.Core.run ⟨State, Fault, Refusal, step, State.reset⟩ k s = .next t

/-- The side of the device that computes and carries data: the memory system, the cores, the clusters, the work on them and the network. -/
def Machine.Device.data (s : Device) : MemSys × Tbl CoreSt × Tbl ClusterSt × Work × Net := (s.mem, s.cores, s.clusters, s.work, s.net)

/-- The commands that change the configuration flash: the end of a programming or erasing operation, and the three that cut one short (R467,
R510). -/
def Instr.touchesFlash : Instr → Bool
  | .flashOpComplete _ => true
  | .sysRstNAssert => true
  | .vddAonLoss => true
  | .warmResetBegin => true
  | _ => false

/-! ## Terms of the statements -/

/-- A write of an object that has a row of its own passes the checks made before the object's own rule: the device manager executes,
and checks 6 and 7 of R50 pass. -/
abbrev Machine.Device.accepts (s : Device) (oid : Nat) : Prop := s.managerRuns = true ∧ s.ownerChecks oid = none

/-- The outcome in which the device becomes d, and nothing else changes. -/
def Machine.State.to (s : State) (d : Device) : Outc := .next { s with dev := d }

/-- The command c of opcode op is the next of host queue q, which is enabled, and the device manager executes. -/
abbrev Machine.Device.hostTakes (s : Device) (q op : Nat) (c : HostCmd) : Prop :=
  (s.hq q).next = some c ∧ s.managerRuns = true ∧ c.opcode = op ∧ s.num (O.queueState q) = 1

/-- A request of a channel is the only one, of an id that has not been used, on a channel that is up and known, a session that waits for its AUTH
being in time (R42, R44, R52, R56). -/
abbrev Machine.Device.serves (s : Device) (ch : Chan) (rid : Nat) (req : Req) : Prop :=
  s.chanUp ch = true ∧ s.known ch = true ∧
  (∀ n : Fin 16, ch = .session n → (s.sess n.val).phase = .isOpen ∨
    ((s.sess n.val).phase = .pending ∧ s.uptime ≤ (s.sess n.val).since + ms 5000 ∧ req.op = 0x42)) ∧
  s.fore.engine = [] ∧ (s.chanSt ch).classify rid = .fresh

/-- The device once the request's id is accepted, as its operation finds it. -/
def Machine.Device.accepted (s : Device) (ch : Chan) (rid : Nat) : Device :=
  (s.touchSession (some ch)).setChanSt ch ((s.chanSt ch).acceptId rid)

/-- That device while the request is the one that waits in the engine. -/
def Machine.Device.queued (s : Device) (ch : Chan) (rid : Nat) (req : Req) : Device :=
  { s.accepted ch rid with fore := { (s.accepted ch rid).fore with engine := [{ ch := some ch, rid := rid, req := req, since := s.uptime }] } }

/-- The device once the operation's answer is out and stored. -/
def Machine.Device.answered (s : Device) (ch : Chan) (rid : Nat) (req : Req) (r : Resp) : Device :=
  s.finish { ch := some ch, rid := rid, req := req, since := s.uptime } r

/-- An access of a master passes every check made before it is performed (R11, R21, R25, R250, R253, R269, R281), meets no error in its lines
and no line that is out of reach. -/
abbrev Machine.Device.reaches (s : Device) (m a : Nat) (op : MemOp) (errs : List SymErr) : Prop :=
  masterExists m = true ∧ s.isFrozen m = false ∧ s.domainOn 3 = true ∧ s.runs 3 = true ∧ s.atomicBad a op = false ∧ s.mapCheck a op.len = 0 ∧
  (op.atomic && s.ownWritten m a op.len) = false ∧ s.mustWait a op none = false ∧ s.ownWaits m a op.len = false ∧ op.meets a errs = [] ∧
  s.hbmBlocked a op.len op.plain = false

/-- The bytes b stored in the n bytes at a as a committed write: transactions that track the lines are doomed, lost lines wholly covered
are found again. -/
def Machine.Device.stored (s : Device) (a n : Nat) (b : Bytes) : Device := ((s.doomRange a n none).hbmPut a b).clearLost a n

/-- The data packet r of port l comes from the peer of an open context (R338), is new, and lies within the credit and the window of
sequence numbers (R324); a WRITE or a REDUCE lies in its window, which is mapped and enters no
region of Clasp (R242, R269, R332). -/
abbrev Machine.Device.receives (s : Device) (l : Nat) (r : RxIn) : Prop :=
  s.refusal l r.pkt.dst r = none ∧ (s.packetSeen r).ctxSt r.pkt.dst = 2 ∧ before r.pkt.seq ((s.packetSeen r).ctx r.pkt.dst).rxAck = false ∧
  (((s.packetSeen r).ctx r.pkt.dst).rx.any fun x => x.pkt.seq == r.pkt.seq) = false ∧
  before r.pkt.seq ((s.packetSeen r).ctx r.pkt.dst).sentLimit = true ∧
  before r.pkt.seq (seqAdd ((s.packetSeen r).ctx r.pkt.dst).rxAck 256) = true ∧
  ((r.pkt.type == 1 || r.pkt.type == 2) && (s.packetSeen r).windowFails r.pkt.dst r.pkt) = false ∧
  (s.packetSeen r).packetUnmapped r.pkt.dst r.pkt = 0 ∧ (s.packetSeen r).packetInRegion r.pkt.dst r.pkt = none

/-- One byte of HBM by its address. -/
def Machine.Device.hbmByte (s : Device) (a : Nat) : Byte := memGet s.mem.hbm (s.hbmKeyOf a)

/-- The fences as R287 begins them: at most two, each on the spare band of its number, of different pseudo-channels. -/
def Machine.fencesOk (l : List Fence) : Bool :=
  decide (l.length ≤ 2) && l.map (fun f => f.band) == List.range l.length && l.all (fun f => decide (f.p < 640)) && decide (l.map fun f => f.p).Nodup

/-- A channel with a reservation of r buffers can be opened on a die: the reservations fit, and a channel is free (R300). -/
abbrev Machine.Device.channelFree (s : Device) (q r : Nat) : Prop :=
  s.reservedTotal q + s.num (O.urgentSlice q) + r ≤ 8192 ∧ ∃ k : Fin 1024, s.chOpen q k = false

/-- The staging channel that was opened, and the device after. -/
def Machine.granted (r : Nat ⊕ Nat × Device) (d : Device) : Nat × Device :=
  match r with
  | .inr p => p
  | .inl _ => (0, d)

/-- The outcome of a write that took effect: the device becomes d, the object's write sequence rises, OK is answered. -/
def Machine.State.wrote (s : State) (oid : Nat) (d : Device) : Outc := s.to ((d.raiseSeq oid).emit (.reply .ok 0))

/-! ## Records of a fixed layout whose fields fit -/

/-- Every field of a packet fits its bits of Table 13.3. -/
abbrev Machine.Packet.inRange (p : Packet) : Prop :=
  p.version < 16 ∧ p.type < 16 ∧ p.gen < 16 ∧ p.dst < 4096 ∧ p.src < 4096 ∧ p.payLen < 65536 ∧ p.seq < 2 ^ 32 ∧ p.ack < 2 ^ 32 ∧
  p.sack < 2 ^ 64 ∧
  p.credit < 2 ^ 32 ∧ p.op < 2 ^ 64

/-- Every field of a frame record fits its bits of Table 7.6. -/
abbrev Machine.FrameRec.inRange (r : FrameRec) : Prop := r.count < 2 ^ 32 ∧ r.st < 4 ∧ r.next < 2 ^ 24 ∧ r.tag < 2 ^ 64 ∧ r.node < 2 ^ 32

/-- Every field of a page-table entry fits its bits of Table 7.5. -/
abbrev Machine.Pte.inRange (e : Pte) : Prop := e.frame < 2 ^ 24 ∧ e.fill < 128

/-- Every field of a prefix-tree node fits its bytes of Table 7.8. -/
abbrev Machine.Node.inRange (n : Node) : Prop := n.key < 2 ^ 64 ∧ n.frame < 2 ^ 24 ∧ n.parent < 2 ^ 32 ∧ n.children < 65536 ∧ n.tokens.length = 256

end Sys2Proof
end

