-- ==== Sys2Proof/Certificates/Slice0/Obligations.lean ====
section
/-! DEFINITION. The statements. A claim says of one command, or of one shared operation, what a rule gives it; an obligation joins the
claims of a family. -/

namespace Sys2Proof
open Machine

/-- DOMAIN_ON (R423): a switch-on begins. -/
def Claim.domainOn : Prop :=
  ∀ (s : State) (d : Fin 24),
    4 ≤ d.val →
    s.dev.accepts (O.domainControl d) →
    s.dev.power.trans = .none →
    s.dev.num O.powerState ≤ 1 →
    s.dev.domainOn 1 = true →
    s.dev.domainOn 2 = true →
    s.dev.domainOn 3 = true →
    s.dev.num (O.domainState d) = 0 →
    exec (.domainOn d) s = s.wrote (O.domainControl d)
      ((s.dev.setNum (O.domainState d) 1).setNum (O.domainVoltageMv d) (if d.val < 8 then 750 else 520))

/-- DOMAIN_OFF (R424): with nothing that holds the domain, the switch-off begins. -/
def Claim.domainOff : Prop :=
  ∀ (s : State) (d : Fin 24),
    4 ≤ d.val →
    s.dev.accepts (O.domainControl d) →
    s.dev.power.trans = .none →
    s.dev.num O.powerState ≤ 1 →
    s.dev.domainOn 1 = true →
    s.dev.domainOn 2 = true →
    s.dev.domainOn 3 = true →
    s.dev.num (O.domainState d) = 2 →
    (s.dev.opOf d).move = none →
    s.dev.domainBlocker d = none →
    exec (.domainOff d) s = s.wrote (O.domainControl d) (s.dev.beginOff d)

/-- DOMAIN_ON_COMPLETE (R423): steps 3 to 5 of Table 18.2. -/
def Claim.domainOnComplete : Prop :=
  ∀ (s : State) (d : Fin 24),
    4 ≤ d.val →
    s.dev.num (O.domainState d) = 1 →
    exec (.domainOnComplete { dom := d }) s = s.to (s.dev.finishOn d)

/-- DOMAIN_OFF_COMPLETE (R424): the switch opens. -/
def Claim.domainOffComplete : Prop :=
  ∀ (s : State) (d : Fin 24),
    4 ≤ d.val →
    s.dev.num (O.domainState d) = 3 →
    exec (.domainOffComplete { dom := d }) s = s.to (s.dev.finishOff d)

/-- A region whose save or restore meets an uncorrected error is marked invalid; that is counted in 2.00.072 and recorded as an uncorrected-
contained error (R447). -/
def Claim.locketBad : Prop :=
  ∀ (s : Device) (off : BitVec 16),
    bit (s.num O.locketValid) 2 = true →
    s.switchMet (some off) =
      ((s.setNum O.locketValid (clrBit (s.num O.locketValid) 2)).bump O.locketErrors).event
        { cls := 2, unit := 0x0B, node := 0x10, elem := 2, addr := off.toNat, status := 0x11 }

/-- DOMAIN_ON_COMPLETE whose restore met an uncorrected error (R447). -/
def Claim.domainOnBad : Prop :=
  ∀ (s : State) (d : Fin 24) (off : BitVec 16),
    4 ≤ d.val →
    s.dev.num (O.domainState d) = 1 →
    exec (.domainOnComplete { dom := d, bad := some off }) s = s.to ((s.dev.switchMet (some off)).finishOn d)

/-- DOMAIN_OFF_COMPLETE whose save met an uncorrected error (R447). -/
def Claim.domainOffBad : Prop :=
  ∀ (s : State) (d : Fin 24) (off : BitVec 16),
    4 ≤ d.val →
    s.dev.num (O.domainState d) = 3 →
    exec (.domainOffComplete { dom := d, bad := some off }) s = s.to ((s.dev.switchMet (some off)).finishOff d)

/-- CRYSTAL_STABLE (R425): island 0 runs from the crystal and the uptime counter starts at 0. -/
def Claim.crystalStable : Prop :=
  ∀ (s : State),
    s.dev.startupCode = suXtal →
    s.dev.startup.powered = true →
    s.dev.num O.crystalStatus = 0 →
    exec .crystalStable s = s.to { (s.dev.setNum O.crystalStatus 1).switchIsland 0 3 25000 with uptime := 0 }

/-- CRYSTAL_ABSENT (R425): 2.00.037 reads 2, and warning bit 0 is set. -/
def Claim.crystalAbsent : Prop :=
  ∀ (s : State),
    s.dev.startupCode = suXtal →
    s.dev.startup.powered = true →
    s.dev.num O.crystalStatus = 0 →
    exec .crystalAbsent s = s.to ((s.dev.setNum O.crystalStatus 2).setNum O.startupWarnings (setBit (s.dev.num O.startupWarnings) 0))

/-- RC_RETRIM (R426): the code moves by at most one step. -/
def Claim.rcRetrim : Prop :=
  ∀ (s : State) (n : BitVec 16),
    s.dev.trimReference ≠ 0 →
    s.dev.domainOn 0 = true →
    exec (.rcRetrim n) s = s.to ((s.dev.setNum O.rcTrimReference s.dev.trimReference).moveTrim (max (-1) (min 1 (trimSteps n.toNat))))

/-- CLOCK_ENABLE_WRITE (R429): the run enable of a link island that runs is written 1 again, and the SerDes PLL follows. -/
def Claim.clockEnableWrite : Prop :=
  ∀ (s : State) (i : Fin 46) (v : BitVec 32),
    s.dev.accepts (O.clockEnables i) →
    12 ≤ i.val →
    i.val ≤ 15 →
    v = 1 →
    s.dev.num (O.clockEnables i) = 1 →
    exec (.clockEnableWrite i v) s = s.wrote (O.clockEnables i) ((s.dev.setNum (O.clockEnables i) 1).setNum (O.clockEnables (36 + (i - 12))) 1)

/-- OP_REQUEST (R432): the request is stored and the effective point evaluated again. -/
def Claim.opRequest : Prop :=
  ∀ (s : State) (i : Fin 16) (p : Fin 8),
    s.dev.accepts (O.opRequest i) →
    exec (.opRequest i p) s = s.wrote (O.opRequest i) ((s.dev.setNum (O.opRequest i) p).reevaluate (8 + i))

/-- OP_MOVE_LOCK_DONE (R433): toward a slower point the island switches as soon as the other PLL has locked, and the ramp begins. -/
def Claim.opMoveLockDone : Prop :=
  ∀ (s : State) (i : Fin 16) (m : OpMove),
    (s.dev.opOf (8 + i)).move = some m →
    m.lockDone = false →
    m.start + 500 ≤ s.dev.uptime →
    m.src < m.dst →
    exec (.opMoveLockDone i) s = s.to (s.dev.opSwitch (8 + i)
      { s.dev.opOf (8 + i) with move := some { m with lockDone := true, rampStart := some s.dev.uptime } } m.dst)

/-- OP_MOVE_RAMP_DONE (R433): the voltage is the new point's, and the move of a slower point ends. -/
def Claim.opMoveRampDone : Prop :=
  ∀ (s : State) (i : Fin 16) (m : OpMove) (t : Nat),
    (s.dev.opOf (8 + i)).move = some m →
    m.rampStart = some t →
    m.rampDone = false →
    t + rampTime m.src m.dst ≤ s.dev.uptime →
    m.src < m.dst →
    exec (.opMoveRampDone i) s = s.to ((s.dev.setNum (O.domainVoltageMv (8 + i)) (opMv m.dst)).endMove (8 + i) m.dst)

/-- THERMAL_EVALUATION (R436). -/
def Claim.thermalEvaluation : Prop :=
  ∀ (s : State) (q : Fin 4) (l : List (BitVec 16)),
    s.dev.domainOn 0 = true →
    exec (.thermalEvaluation q l) s = s.to (s.dev.thermalEval q (l.map fun b => b.toInt))

/-- THERMAL_TRIP (R437): at 110 °C the trip is latched and recorded, THERM_TRIP_N is asserted, every island but 0 stops. -/
def Claim.thermalTrip : Prop :=
  ∀ (s : State) (q : Fin 4) (k : Fin 8) (v : BitVec 16),
    440 ≤ v.toInt →
    s.dev.domainOn 0 = true →
    s.dev.power.trip = false →
    exec (.thermalTrip q k v) s = s.to
      (({ s.dev with power := { s.dev.power with trip := true }, board := { s.dev.board with thermTripN := true } } : Device).stopIslands.setBytes
        O.thermalTripRecord (tripRecord s.dev.uptime q k v.toNat))

/-- POWER_EVALUATION (R439): at or above the limit the cap moves one point slower. -/
def Claim.powerEvaluation : Prop :=
  ∀ (s : State) (mw : BitVec 32),
    1000 * s.dev.num O.powerLimitW ≤ mw.toNat →
    exec (.powerEvaluation mw) s = s.to
      (let d := s.dev.setNum O.powerMw mw.toNat
       { d with power := { d.power with below95 := 0 } }.setPowerCap (slower (s.dev.num O.powerCapPoint)))

/-- REQUEST_RUN (R441): from IDLE, at once. -/
def Claim.requestRun : Prop :=
  ∀ (s : State),
    s.dev.accepts O.powerStateRequest →
    s.dev.power.trans = .none →
    s.dev.startupCode = suReady →
    s.dev.num O.powerState = 1 →
    exec .requestRun s = s.wrote O.powerStateRequest (s.dev.leaveIdle 7)

/-- REQUEST_IDLE (R441): from RUN. -/
def Claim.requestIdle : Prop :=
  ∀ (s : State),
    s.dev.accepts O.powerStateRequest →
    s.dev.power.trans = .none →
    s.dev.startupCode = suReady →
    s.dev.num O.powerState = 0 →
    exec .requestIdle s = s.wrote O.powerStateRequest
      (let d := s.dev.setNum O.powerState 1
       { d with power := { d.power with pendingWakes := [], idleSince := [] } })

/-- REQUEST_SLEEP (R441): with nothing in use, the entry begins. -/
def Claim.requestSleep : Prop :=
  ∀ (s : State),
    s.dev.accepts O.powerStateRequest →
    s.dev.power.trans = .none →
    s.dev.startupCode = suReady →
    s.dev.num O.powerState = 0 →
    s.dev.sleepBlocker = none →
    exec .requestSleep s = s.wrote O.powerStateRequest (s.dev.beginSleep 2)

/-- REQUEST_DEEP (R441): with nothing in use, the entry begins. -/
def Claim.requestDeep : Prop :=
  ∀ (s : State),
    s.dev.accepts O.powerStateRequest →
    s.dev.power.trans = .none →
    s.dev.startupCode = suReady →
    s.dev.num O.powerState = 0 →
    s.dev.deepBlocker = none →
    exec .requestDeep s = s.wrote O.powerStateRequest (s.dev.beginSleep 3)

/-- ISLAND_GATE (R442): an island idle for 2.00.003 µs in IDLE is gated. -/
def Claim.islandGate : Prop :=
  ∀ (s : State) (i : Fin 20) (t : Nat),
    s.dev.num O.powerState = 1 →
    s.dev.domainOn (islandDomain (14 + i)) = true →
    s.dev.islandBusy (14 + i) = false →
    s.dev.xing = [] →
    tget? s.dev.power.idleSince (14 + i) = some t →
    t + us (s.dev.num O.idleGateUs) ≤ s.dev.uptime →
    s.dev.power.gated.contains (14 + i.val) = false →
    exec (.islandGate i) s = s.to { s.dev with power := { s.dev.power with gated := (14 + i) :: s.dev.power.gated } }

/-- ISLAND_UNGATE (R442): the island runs again. -/
def Claim.islandUngate : Prop :=
  ∀ (s : State) (i : Fin 20),
    exec (.islandUngate i) s = s.to
      { s.dev with power := { s.dev.power with gated := s.dev.power.gated.filter (· ≠ 14 + i.val), idleSince := tdel s.dev.power.idleSince (14 + i) } }

/-- IDLE_AUTO_EXPIRY (R442): the device goes to IDLE. -/
def Claim.idleAutoExpiry : Prop :=
  ∀ (s : State),
    s.dev.num O.idleAutoMs ≠ 0 →
    s.dev.num O.powerState = 0 →
    s.dev.power.trans = .none →
    s.dev.startupCode = suReady →
    s.dev.jobsBusy = false →
    s.dev.mediaBusy = false →
    s.dev.power.autoSince + ms (s.dev.num O.idleAutoMs) ≤ s.dev.uptime →
    exec .idleAutoExpiry s = s.to
      (let d := s.dev.setNum O.powerState 1
       { d with power := { d.power with pendingWakes := [], idleSince := [] } })

/-- SLEEP_ENTRY_COMPLETE (R443): the device is in SLEEP. -/
def Claim.sleepEntryComplete : Prop :=
  ∀ (s : State),
    s.dev.power.trans = .entering 2 →
    s.dev.installsWait = false →
    exec .sleepEntryComplete s = s.to
      (let d := (s.dev.sleepSteps.setNum O.powerState 2).setNum O.powerTransition 0
       { d with power := { d.power with trans := .none } }.recordHeld 2)

/-- SLEEP_EXIT (R443): a recorded wake starts the exit. -/
def Claim.sleepExit : Prop :=
  ∀ (s : State),
    s.dev.num O.powerState = 2 →
    s.dev.power.trans = .none →
    s.dev.power.wakeHeld = true →
    exec .sleepExit s = s.to (({ s.dev with power := { s.dev.power with trans := .exiting 0 } }).setNum O.powerTransition 2)

/-- SLEEP_EXIT_COMPLETE (R443): the device is in the state the exit leads to. -/
def Claim.sleepExitComplete : Prop :=
  ∀ (s : State) (k : Nat),
    s.dev.power.trans = .exiting k →
    s.dev.num O.powerState = 2 →
    exec .sleepExitComplete s = s.to
      (let d := (s.dev.sleepExitSteps.setNum O.powerState k).setNum O.powerTransition 0
       { d with power := { d.power with trans := .none, recorded := [], wakeHeld := false, pendingWakes := [], autoSince := d.uptime } })

/-- DEEP_ENTRY_COMPLETE (R444): the device is in DEEP. -/
def Claim.deepEntryComplete : Prop :=
  ∀ (s : State),
    s.dev.power.trans = .entering 3 →
    s.dev.installsWait = false →
    exec .deepEntryComplete s = s.to (s.dev.deepSteps.recordHeld 3)

/-- WAKE_AIN_TRIP (R448, R450): the comparator trips, once until it is armed again, and source 1 is raised. -/
def Claim.wakeAinTrip : Prop :=
  ∀ (s : State) (mv : BitVec 16),
    s.dev.domainOn 0 = true →
    s.dev.power.ainArmed = true →
    s.dev.num O.wakeAinPolarity = 0 →
    10 * s.dev.ainThreshold < (mv.toNat : Int) →
    exec (.wakeAinTrip mv) s = s.to
      (let d := (s.dev.setBool O.wakeAinState true).bump O.wakeAinTrips
       { d with power := { d.power with ainArmed := false } }.wakeEvent 1)

/-- WAKE_AIN_REARM (R450): past the hysteresis level the comparator is armed again. -/
def Claim.wakeAinRearm : Prop :=
  ∀ (s : State) (mv : BitVec 16),
    s.dev.domainOn 0 = true →
    s.dev.power.ainArmed = false →
    s.dev.num O.wakeAinPolarity = 0 →
    (mv.toNat : Int) < 10 * ainRearm 0 (s.dev.num O.wakeAinThreshold) (s.dev.num O.wakeAinHysteresis) →
    exec (.wakeAinRearm mv) s = s.to { s.dev.setBool O.wakeAinState false with power := { s.dev.power with ainArmed := true } }

/-- WAKE_N_LOW (R448) in SLEEP: source 2 is recorded. -/
def Claim.wakeNLow : Prop :=
  ∀ (s : State),
    s.dev.num O.powerState = 2 →
    s.dev.power.trans = .none →
    s.dev.power.wakeHeld = false →
    s.dev.power.pendingWakes = [] →
    bit (s.dev.num O.wakeEnable) 2 = true →
    s.dev.power.wakeNDriven = false →
    ∃ t, exec (.wakeNLow) s = s.to t ∧ t.power.wakeHeld = true ∧ t.power.pendingWakes = [2] ∧
      t.bytes O.lastWake = wakeRecord 2 2 0 s.dev.uptime

/-- WAKE_FRAME (R451) in SLEEP: source 4 is recorded. -/
def Claim.wakeFrame : Prop :=
  ∀ (s : State) (mac : BitVec 48) (p : Bytes),
    s.dev.num O.powerState = 2 →
    s.dev.power.trans = .none →
    s.dev.power.wakeHeld = false →
    s.dev.power.pendingWakes = [] →
    bit (s.dev.num O.wakeEnable) 4 = true →
    wolAt (beBytes 6 mac.toNat) (s.dev.bytes O.wakeFramePassword) p = true →
    ∃ t, exec (.wakeFrame mac 0x0842 none p true) s = s.to t ∧ t.power.wakeHeld = true ∧ t.power.pendingWakes = [4] ∧
      t.bytes O.lastWake = wakeRecord 4 2 0 s.dev.uptime

/-- WAKE_TIMER (R448): source 5 is raised, once for each write of 2.00.012. -/
def Claim.wakeTimer : Prop :=
  ∀ (s : State),
    s.dev.power.timerArmed = true →
    s.dev.num O.wakeTimer ≠ 0 →
    s.dev.num O.wakeTimer ≤ s.dev.uptime →
    exec .wakeTimer s = s.to (({ s.dev with power := { s.dev.power with timerArmed := false } } : Device).wakeEvent 5)

/-- LOCKET_CLEAR (R447): every region is invalid, and M2 is extended by the write. -/
def Claim.locketClear : Prop :=
  ∀ (s : State),
    s.dev.accepts O.locketClear →
    exec .locketClear s = s.wrote O.locketClear (s.dev.locketInvalidate.okay.measured O.locketClear [1]).s

/-- VDD_AON_RISE (R455) with SYS_RST_N high: start-up begins at AON_UP with every Locket region invalid. -/
def Claim.vddAonRise : Prop :=
  ∀ (s : State),
    s.dev.startup.powered = false →
    s.dev.startup.sysRstLow = false →
    exec .vddAonRise s = s.to (({ s.dev.coldBase [] with power := {}, startup := { (s.dev.coldBase []).startup with powerOn := true } } : Device).aonUp 0)

/-- VDD_AON_LOSS (R508): the device is OFF. -/
def Claim.vddAonLoss : Prop :=
  ∀ (s : State),
    s.dev.startup.flashOp = none →
    exec .vddAonLoss s = s.to s.dev.powerOff

/-- SYS_RST_N_ASSERT (R516): a cold reset, at once. -/
def Claim.sysRstNAssert : Prop :=
  ∀ (s : State),
    s.dev.startup.flashOp = none →
    s.dev.startup.powered = true →
    exec .sysRstNAssert s = s.to ({ s.dev with startup := { s.dev.startup with sysRstLow := true } } : Device).installsCut.coldReset

/-- SYS_RST_N_RELEASE (R516): start-up begins at AON_UP. -/
def Claim.sysRstNRelease : Prop :=
  ∀ (s : State),
    s.dev.startup.sysRstLow = true →
    s.dev.startup.powered = true →
    s.dev.startup.powerOn = false →
    exec .sysRstNRelease s = s.to (({ s.dev with startup := { s.dev.startup with sysRstLow := false } } : Device).aonUp 1)

/-- RAIL_SAMPLE (R505): every rail is read. -/
def Claim.railSample : Prop :=
  ∀ (s : State) (mv : List (BitVec 16)),
    s.dev.startup.powered = true →
    exec (.railSample mv) s = s.to ((List.range 20).foldl (fun d r => d.railReading r (mv.getD r 0).toNat) s.dev)

/-- RAILS_GOOD (R455): D1 switches on and RC_TRIM is entered. -/
def Claim.railsGood : Prop :=
  ∀ (s : State),
    s.dev.step3Rails = true →
    s.dev.startup.powered = true →
    s.dev.startup.sysRstLow = false →
    s.dev.startupCode = suXtal →
    s.dev.num O.crystalStatus = 1 →
    exec .railsGood s = s.to (s.dev.d1On.restartSignet.enterState suRcTrim)

/-- RC_TRIM_COMPLETE (R426) without a reference: the code stays, and FUSE_LOAD is entered. -/
def Claim.rcTrimComplete : Prop :=
  ∀ (s : State) (n : BitVec 16),
    s.dev.startupCode = suRcTrim →
    s.dev.domainOn 1 = true →
    s.dev.trimReference = 0 →
    exec (.rcTrimComplete n) s = s.to ((s.dev.setNum O.rcTrimReference 0).enterState suFuseLoad)

/-- FUSE_LOAD_COMPLETE (R457) with an uncorrectable word: FUSE_FAIL with the first such word, and D1 off. -/
def Claim.fuseLoadFails : Prop :=
  ∀ (s : State) (w : List FuseWord) (i : Nat),
    s.dev.startupCode = suFuseLoad →
    w.findIdx? (·.uncorrectable) = some i →
    exec (.fuseLoadComplete w) s = s.to ((s.dev.fuseShadow (w.take i)).d1Off.fail suFuseFail 0x01 i)

/-- FUSE_LOAD_COMPLETE (R457 to R459): the words read are the shadow, its objects and maps are in force, and the image is looked for. -/
def Claim.fuseLoadComplete : Prop :=
  ∀ (s : State) (w : List FuseWord),
    s.dev.startupCode = suFuseLoad →
    w.findIdx? (·.uncorrectable) = none →
    bits ((s.dev.fuseShadow w).fuse 0) 31 16 ≠ 0 →
    exec (.fuseLoadComplete w) s = s.to (s.dev.fuseShadow w).fusesLoaded

/-- IMAGE_SLOT_CHECKED (R459): the first slot is used where it passes its checks; where it fails, its code is reported, a warning is set and
the other is tried. -/
def Claim.imageSlotChecked : Prop :=
  ∀ (s : State) (k : Fin 2) (n : FlashId),
    s.dev.startupCode = suImageLoad →
    0x4000000 ≤ n.bytes.toNat →
    n.unsupported = false →
    s.dev.startup.slotsLeft = [k.val, 1 - k.val] →
    exec (.imageSlotChecked k true n) s = s.to (let d := s.dev.setNum O.flashBytes n.bytes.toNat
       let code := d.slotCode (s.slotImage k) true
       let d := if code = 3 then d else d.reportSlot k (s.slotImage k)
       if code = 0 then d.useSlot k ((s.slotImage k).take (imgLength (s.slotImage k)))
       else
         let d := d.setNum (O.slotStatus k) code
         let d := d.setNum O.startupWarnings (setBit (d.num O.startupWarnings) 1)
         { d with startup := { d.startup with slotsLeft := [1 - k.val] } })

/-- SLOT_BACKGROUND_CHECK (R459): a slot that IMAGE_LOAD did not reach and whose header is wrong reads 3. -/
def Claim.slotBackgroundCheck : Prop :=
  ∀ (s : State) (k : Fin 2),
    s.dev.startupCode = suReady →
    k.val ∈ s.dev.startup.slotsLeft →
    s.dev.slotCode (s.slotImage k) true = 3 →
    exec (.slotBackgroundCheck k true) s = s.to (({ s.dev with startup := { s.dev.startup with slotsLeft := s.dev.startup.slotsLeft.filter (· ≠ k.val) } } : Device).setNum (O.slotStatus k) 3)

/-- CONFIGURE_COMPLETE (R462): with every record applied, steps 2 to 5 follow. -/
def Claim.configureComplete : Prop :=
  ∀ (s : State) (d : Device),
    s.dev.startupCode = suConfigure →
    s.dev.startup.holding = false →
    (imgRecords s.dev.startup.image).2 = true →
    applyRecords s.dev 0 (imgRecords s.dev.startup.image).1 = (d, none) →
    (imgRecords s.dev.startup.image).1.length = imgRecCount s.dev.startup.image →
    exec .configureComplete s = s.to d.configured

/-- CONFIGURE_COMPLETE (R461) with a record that fails: SAFE with the number of the first such record. -/
def Claim.configureFails : Prop :=
  ∀ (s : State) (d : Device) (n : Nat),
    s.dev.startupCode = suConfigure →
    s.dev.startup.holding = false →
    applyRecords s.dev 0 (imgRecords s.dev.startup.image).1 = (d, some n) →
    exec .configureComplete s = s.to (d.releasePins.enterSafe 0x20 n)

/-- CONFIGURE_RELEASE (R462): the hold of CONFIGURE ends. -/
def Claim.configureRelease : Prop :=
  ∀ (s : State),
    s.dev.accepts O.configureRelease →
    s.dev.startup.holding = true →
    exec .configureRelease s = s.wrote O.configureRelease s.dev.endConfigure

/-- TRAIN_COMPLETE (R464): with no failure the ports train and READY is entered. -/
def Claim.trainComplete : Prop :=
  ∀ (s : State) (ids : List (Option (BitVec 32))),
    s.dev.startupCode = suTrain →
    (s.dev.trained [] ids).trainBlocked = none →
    exec (.trainComplete [] none ids) s = s.to (s.dev.trained [] ids).trainPorts.enterReady

/-- WARM_RESET_KIND_1 (R468): the reset is accepted. -/
def Claim.warmResetKind1 : Prop :=
  ∀ (s : State) (n : BitVec 32),
    s.dev.accepts O.resetRequest →
    n ≠ 0 →
    s.dev.startupCode = suReady →
    s.dev.power.trans = .none →
    n.toNat ≠ s.dev.num O.lastResetNonce →
    exec (.warmResetKind1 n) s = s.wrote O.resetRequest { s.dev with startup := { s.dev.startup with resetReq := some { kind := 1, nonce := n.toNat, at_ := s.dev.uptime } } }

/-- WARM_RESET_KIND_2 (R468): the reset is accepted. -/
def Claim.warmResetKind2 : Prop :=
  ∀ (s : State) (n : BitVec 32),
    s.dev.accepts O.resetRequest →
    n ≠ 0 →
    s.dev.startupCode = suReady →
    s.dev.power.trans = .none →
    n.toNat ≠ s.dev.num O.lastResetNonce →
    exec (.warmResetKind2 n) s = s.wrote O.resetRequest { s.dev with startup := { s.dev.startup with resetReq := some { kind := 2, nonce := n.toNat, at_ := s.dev.uptime } } }

/-- WARM_RESET_KIND_3 (R468): the reset is accepted. -/
def Claim.warmResetKind3 : Prop :=
  ∀ (s : State) (n : BitVec 32),
    s.dev.accepts O.resetRequest →
    n ≠ 0 →
    s.dev.startupCode = suReady →
    s.dev.power.trans = .none →
    n.toNat ≠ s.dev.num O.lastResetNonce →
    exec (.warmResetKind3 n) s = s.wrote O.resetRequest { s.dev with startup := { s.dev.startup with resetReq := some { kind := 3, nonce := n.toNat, at_ := s.dev.uptime } } }

/-- WARM_RESET_BEGIN (R468): 1 ms after the request the reset takes place. -/
def Claim.warmResetBegin : Prop :=
  ∀ (s : State) (r : ResetReq),
    s.dev.resetDue = some r →
    r.kind ≠ 3 →
    s.dev.endAllTxns.installsWait = false →
    exec .warmResetBegin s = s.to (s.dev.warmReset r)

/-- DEEP_EXIT (R444): start-up begins at RC_TRIM. -/
def Claim.deepExit : Prop :=
  ∀ (s : State),
    s.dev.num O.powerState = 3 →
    s.dev.power.wakeHeld = true →
    s.dev.power.trans = .none →
    exec .deepExit s = s.to s.dev.leaveDeep

/-- FLASH_DATA_WRITE (R467): the program begins at 1.00.020, which advances. -/
def Claim.flashDataWrite : Prop :=
  ∀ (s : State) (b : Bytes),
    s.dev.accepts O.flashData →
    s.dev.startupCode = suConfigure →
    b ≠ [] →
    b.length ≤ 4096 →
    s.dev.num O.flashOffset + b.length ≤ s.dev.flashLimit →
    s.dev.startup.flashOp = none →
    exec (.flashDataWrite b) s = s.wrote O.flashData ((s.dev.flashWrite b).measured O.flashData b).s

/-- FLASH_ERASE (R467): the erase of a sector begins. -/
def Claim.flashErase : Prop :=
  ∀ (s : State) (a : BitVec 32),
    s.dev.accepts O.flashErase →
    s.dev.startupCode = suConfigure →
    a.toNat < s.dev.flashLimit →
    s.dev.startup.flashOp = none →
    exec (.flashErase a) s = s.wrote O.flashErase ((s.dev.flashEraseWrite a.toNat).measured O.flashErase (beBytes 4 a.toNat)).s

/-- FLASH_OP_COMPLETE (R510): the bytes of the flash are the operation's, and flash_state reads idle. -/
def Claim.flashOpComplete : Prop :=
  ∀ (s : State) (op : FlashOp),
    s.dev.startup.flashOp = some op →
    exec (.flashOpComplete true) s = .next
      { dev := ({ s.dev with startup := { s.dev.startup with flashOp := none } } : Device).setNum O.flashState 0,
        flash := op.apply s.flash, pending := s.pending }

/-- I3C_POINTER_WRITE (R512). -/
def Claim.i3cPointerWrite : Prop :=
  ∀ (s : State) (o : BitVec 32),
    s.dev.i3cUp = true →
    exec (.i3cPointerWrite o) s = s.to { s.dev with board := { s.dev.board with pointer := o.toNat } }

/-- I3C_WAKE_COMMAND (R512): source 6 is raised. -/
def Claim.i3cWakeCommand : Prop :=
  ∀ (s : State),
    s.dev.i3cUp = true →
    s.dev.startup.sysRstLow = false →
    exec .i3cWakeCommand s = s.to (s.dev.wakeEvent 6)

/-- I3C_IGNORED_WRITE (R512): counted. -/
def Claim.i3cIgnoredWrite : Prop :=
  ∀ (s : State) (b : Bytes),
    s.dev.i3cUp = true →
    b.length ≠ 4 →
    b ≠ [0x57#8] →
    exec (.i3cIgnoredWrite b) s = s.to (s.dev.bump O.i3cIgnoredWrites)

/-- I3C_DYNAMIC_ADDRESS (R511) by SETDASA: the address is held and published. -/
def Claim.i3cDynamicAddress : Prop :=
  ∀ (s : State) (a : BitVec 7),
    s.dev.i3cUp = true →
    exec (.i3cDynamicAddress (.setdasa a)) s = s.to (({ s.dev with board := { s.dev.board with dynAddr := a.toNat } } : Device).setNum O.i3cDynamicAddress a.toNat)

/-- I3C_DYNAMIC_ADDRESS (R511) by ENTDAA: the provisional identifier is sent and the address is held. -/
def Claim.i3cEntdaa : Prop :=
  ∀ (s : State) (a : BitVec 7),
    s.dev.i3cUp = true →
    exec (.i3cDynamicAddress (.entdaa a)) s = s.to (({ s.dev.emit (.i3c s.dev.i3cIdentity) with board := { s.dev.board with dynAddr := a.toNat } } : Device).setNum O.i3cDynamicAddress a.toNat)

/-- I3C_IBI (R512): one in-band interrupt carries every event since the last. -/
def Claim.i3cIbi : Prop :=
  ∀ (s : State),
    s.dev.i3cUp = true →
    s.dev.flag O.i3cIbiEnable = true →
    s.dev.board.dynAddr ≠ 0 →
    s.dev.ibiEvents ≠ 0 →
    s.dev.board.lastIbi = none →
    exec .i3cIbi s = s.to (({ s.dev with board := { s.dev.board with lastIbi := some s.dev.uptime, ibiSeenErr := s.dev.num O.errorRecordsWritten, ibiSeenState := s.dev.startupCode } } : Device).emit (.ibi s.dev.ibiEvents))

/-- I3C_READ (R512). -/
def Claim.i3cRead : Prop :=
  ∀ (s : State),
    s.dev.domainOn 0 = true →
    s.dev.i3cUp = true →
    exec (.i3cRead none) s = s.to (s.dev.emit (.i3c s.dev.i3cRead))

/-- EXTEST (R515): in SAFE, FUSE_FAIL or IMAGE_FAIL the instruction takes the pins. -/
def Claim.extest : Prop :=
  ∀ (s : State),
    s.dev.startup.powered = true →
    s.dev.scanAvailable = true →
    s.dev.pinsMayBeTaken = true →
    s.dev.startup.sysRstLow = false →
    exec .extest s = s.to (({ s.dev.tapInstr 3 true with board := { (s.dev.tapInstr 3 true).board with scanHeld := true } } : Device).setBool O.boundaryScanActive true)

/-- EXTESTPULSE (R515): in SAFE, FUSE_FAIL or IMAGE_FAIL the instruction takes the pins. -/
def Claim.extestPulse : Prop :=
  ∀ (s : State),
    s.dev.startup.powered = true →
    s.dev.scanAvailable = true →
    s.dev.pinsMayBeTaken = true →
    s.dev.startup.sysRstLow = false →
    exec .extestPulse s = s.to (({ s.dev.tapInstr 4 true with board := { (s.dev.tapInstr 4 true).board with scanHeld := true } } : Device).setBool O.boundaryScanActive true)

/-- EXTESTTRAIN (R515): in SAFE, FUSE_FAIL or IMAGE_FAIL the instruction takes the pins. -/
def Claim.extestTrain : Prop :=
  ∀ (s : State),
    s.dev.startup.powered = true →
    s.dev.scanAvailable = true →
    s.dev.pinsMayBeTaken = true →
    s.dev.startup.sysRstLow = false →
    exec .extestTrain s = s.to (({ s.dev.tapInstr 5 true with board := { (s.dev.tapInstr 5 true).board with scanHeld := true } } : Device).setBool O.boundaryScanActive true)

/-- HIGHZ (R515): in SAFE, FUSE_FAIL or IMAGE_FAIL the instruction takes the pins. -/
def Claim.highz : Prop :=
  ∀ (s : State),
    s.dev.startup.powered = true →
    s.dev.scanAvailable = true →
    s.dev.pinsMayBeTaken = true →
    s.dev.startup.sysRstLow = false →
    exec .highz s = s.to (({ s.dev.tapInstr 6 true with board := { (s.dev.tapInstr 6 true).board with scanHeld := true } } : Device).setBool O.boundaryScanActive true)

/-- CLAMP (R515): in SAFE, FUSE_FAIL or IMAGE_FAIL the instruction takes the pins. -/
def Claim.clamp : Prop :=
  ∀ (s : State),
    s.dev.startup.powered = true →
    s.dev.scanAvailable = true →
    s.dev.pinsMayBeTaken = true →
    s.dev.startup.sysRstLow = false →
    exec .clamp s = s.to (({ s.dev.tapInstr 7 true with board := { (s.dev.tapInstr 7 true).board with scanHeld := true } } : Device).setBool O.boundaryScanActive true)

/-- IDCODE (R514). -/
def Claim.idcode : Prop :=
  ∀ (s : State),
    s.dev.startup.powered = true →
    exec .idcode s = s.to ((s.dev.returnPins.setNum O.tapInstruction 1).emit (.tap 1 (s.dev.num O.jtagIdcode)))

/-- BYPASS (R514). -/
def Claim.bypass : Prop :=
  ∀ (s : State),
    s.dev.startup.powered = true →
    exec .bypass s = s.to (s.dev.returnPins.setNum O.tapInstruction 0xFF)

/-- SAMPLE_PRELOAD (R514). -/
def Claim.samplePreload : Prop :=
  ∀ (s : State),
    s.dev.startup.powered = true →
    s.dev.scanAvailable = true →
    exec .samplePreload s = s.to (s.dev.returnPins.setNum O.tapInstruction 2)

/-- DEBUG_ACCESS (R498) under scope 0 halts a control core. -/
def Claim.debugAccess : Prop :=
  ∀ (s : State) (c : Fin 32),
    s.dev.startup.powered = true →
    bit (s.dev.num O.debugScope) 0 = true →
    exec (.debugAccess (some (c, true)) none) s = s.to (let d := s.dev.returnPins.setNum O.tapInstruction 0x10
       { d with signet := { d.signet with halted := c :: d.signet.halted.filter (· ≠ c.val) } })

/-- TRACE (R514) under scope 4. -/
def Claim.trace : Prop :=
  ∀ (s : State),
    s.dev.startup.powered = true →
    bit (s.dev.num O.debugScope) 4 = true →
    exec .trace s = s.to (s.dev.returnPins.setNum O.tapInstruction 0x11)

/-- MFG_TEST (R514) under scope 5. -/
def Claim.mfgTest : Prop :=
  ∀ (s : State),
    s.dev.startup.powered = true →
    bit (s.dev.num O.debugScope) 5 = true →
    exec .mfgTest s = s.to (s.dev.returnPins.setNum O.tapInstruction 0x20)

/-- TEST_LOGIC_RESET (R515): the pins return. -/
def Claim.testLogicReset : Prop :=
  ∀ (s : State),
    s.dev.startup.powered = true →
    exec .testLogicReset s = s.to (s.dev.returnPins.setNum O.tapInstruction 1)

/-- GPIO_FUNCTION_WRITE (R517): a pin that is held changes its function. -/
def Claim.gpioFunctionWrite : Prop :=
  ∀ (s : State) (n : Fin 16) (f : Byte),
    s.dev.accepts (O.gpioFunction n) →
    f.toNat ≤ 7 →
    f ≠ 0 →
    s.dev.num (O.gpioFunction n) ≠ 0 →
    exec (.gpioFunctionWrite n f) s = s.wrote (O.gpioFunction n) (s.dev.setNum (O.gpioFunction n) f.toNat)

/-- GPIO_PULSE_EDGE (R517): counted. -/
def Claim.gpioPulseEdge : Prop :=
  ∀ (s : State) (n : Fin 16),
    s.dev.num (O.gpioFunction n) = 6 →
    s.dev.managerRuns = true →
    exec (.gpioPulseEdge n) s = s.to (({ s.dev with board := { s.dev.board with gpioPads := setBit s.dev.board.gpioPads n } } : Device).bump (O.gpioPulseCount n))

/-- REFERENCE_CLOCK_PRESENCE_CHANGE (R509): a clock that is there again. -/
def Claim.referenceClockPresenceChange : Prop :=
  ∀ (s : State) (i : Fin 7),
    exec (.referenceClockPresenceChange i true) s = s.to (s.dev.setNum O.refclkPresent (setBit (s.dev.num O.refclkPresent) i))

/-- PERST_N_ASSERT (R403): the host port is reset and the link goes down. -/
def Claim.perstNAssert : Prop :=
  ∀ (s : State),
    s.dev.domainOn 1 = true →
    exec .perstNAssert s = s.to (let d := (s.dev.hostReset.setNum O.linkRate 0).setNum O.linkWidth 0
       { d with host := { d.host with perstN := false, termination := false, training := false, firstConfigDone := false } })

/-- PERST_N_DEASSERT (R463): termination and training, and wake source 3. -/
def Claim.perstNDeassert : Prop :=
  ∀ (s : State),
    s.dev.fuseLoadEnded = true →
    s.dev.domainOn 1 = true →
    s.dev.startup.powered = true →
    exec .perstNDeassert s = s.to (({ s.dev with host := { s.dev.host with perstN := true, termination := true, training := true } } : Device).wakeEvent 3)

/-- HOT_RESET (R403): the host port is reset. -/
def Claim.hotReset : Prop :=
  ∀ (s : State),
    s.dev.domainOn 1 = true →
    exec .hotReset s = s.to s.dev.hostReset

/-- FUNCTION_LEVEL_RESET (R403): the host port is reset. -/
def Claim.functionLevelReset : Prop :=
  ∀ (s : State),
    s.dev.domainOn 1 = true →
    exec .functionLevelReset s = s.to s.dev.hostReset

/-- PCIE_LINK_UP (R400): the rate, at most the cap, and the width reached. -/
def Claim.pcieLinkUp : Prop :=
  ∀ (s : State) (r : Fin 6) (w : Fin 3),
    s.dev.host.training = true →
    bit (s.dev.num O.refclkPresent) 1 = true →
    exec (.pcieLinkUp r w) s = s.to (let d := s.dev.setNum O.linkRate (min (r.val + 1) (s.dev.num O.linkRateCap))
       let d := d.setNum O.linkWidth (2 ^ w.val)
       { d with host := { d.host with training := false } })

/-- PCIE_CONFIGURATION_REQUEST (R463): success once the second party is known, and WAKE_N is released (R449). -/
def Claim.pcieConfigurationRequest : Prop :=
  ∀ (s : State),
    s.dev.num O.linkRate ≠ 0 →
    s.dev.num O.bezelState = 1 →
    exec .pcieConfigurationRequest s = s.to (({ s.dev with host := { s.dev.host with firstConfigDone := true }, power := { s.dev.power with wakeNDriven := false } } : Device).emit (.config true))

/-- PCIE_CONFIGURATION_REQUEST (R463): retry status before step 3 of R462. -/
def Claim.pcieConfigurationRetry : Prop :=
  ∀ (s : State),
    s.dev.num O.linkRate ≠ 0 →
    s.dev.num O.bezelState ≠ 1 →
    s.dev.startupCode ≠ suImageFail →
    s.dev.host.firstConfigDone = false →
    exec .pcieConfigurationRequest s = s.to (s.dev.emit (.config false))

/-- MSIX_TABLE_WRITE (R405): unmasking a vector whose PBA bit is set sends its message. -/
def Claim.msixTableWrite : Prop :=
  ∀ (s : State) (v : Fin 64) (a : BitVec 64) (d : BitVec 32),
    v.val ∈ s.dev.host.pba →
    exec (.msixTableWrite v a d false) s = s.to (({ s.dev with host := { s.dev.host with
        msix := tset s.dev.host.msix v.val { addr := a.toNat, data := d.toNat, masked := false } {},
        pba := s.dev.host.pba.filter (· ≠ v.val) } } : Device).sendMsix v)

/-- CAUSE_CLEAR (Table 17.3): write 1 to clear. -/
def Claim.causeClear : Prop :=
  ∀ (s : State) (v : BitVec 32),
    exec (.causeClear v) s = s.to { s.dev with host := { s.dev.host with cause := w1c s.dev.host.cause v.toNat 7 } }

/-- CAUSE_MASK_WRITE (R405): a mask that gains a bit whose status is set raises vector 0. -/
def Claim.causeMaskWrite : Prop :=
  ∀ (s : State) (v : BitVec 32),
    gainsPending s.dev.host.causeMask (v.toNat % 128) s.dev.host.cause 7 = true →
    exec (.causeMaskWrite v) s = s.to (({ s.dev with host := { s.dev.host with causeMask := v.toNat % 128 } } : Device).sendMsix 0)

/-- DOORBELL_STATUS_CLEAR (R405). -/
def Claim.doorbellStatusClear : Prop :=
  ∀ (s : State) (r : Fin 34) (v : BitVec 32),
    exec (.doorbellStatusClear r v) s = s.to (s.dev.setBell r { s.dev.bell r with status := w1c (s.dev.bell r).status v.toNat 31 })

/-- DOORBELL_MASK_WRITE (R405): a mask that gains a bit whose status is set raises the receiver. -/
def Claim.doorbellMaskWrite : Prop :=
  ∀ (s : State) (r : Fin 34) (v : BitVec 32),
    gainsPending (s.dev.bell r).mask (v.toNat % 2 ^ 31) (s.dev.bell r).status 31 = true →
    exec (.doorbellMaskWrite r v) s = s.to ((s.dev.setBell r { s.dev.bell r with mask := v.toNat % 2 ^ 31 }).raiseBell r)

/-- NOTIFY_HEAD_WRITE (R407). -/
def Claim.notifyHeadWrite : Prop :=
  ∀ (s : State) (v : BitVec 32),
    exec (.notifyHeadWrite v) s = s.to { s.dev with host := { s.dev.host with notifyHead := v.toNat } }

/-- MAILBOX_SEND (R417, rule 5): the word is stored, full is set, its tag is the last accepted one, it is counted and its bit of the
doorbell is set. -/
def Claim.mailboxSend : Prop :=
  ∀ (s : State) (a : BitVec 16) (r : Fin 34) (w : BitVec 64) (n : Nat),
    s.dev.domainOn (receiverDomain r) = true →
    s.dev.findRow a.toNat r = some n →
    (s.dev.box n).lastTag ≠ some (bits w.toNat 63 48) →
    (s.dev.box n).full = false →
    exec (.mailboxSend a r w) s = s.to (let d := s.dev.setBox n { s.dev.box n with word := w.toNat, full := true, lastTag := some (bits w.toNat 63 48) }
       (d.bumpStat (O.mbStats n) 0).ring r (d.mbRow n).2.2.1)

/-- MAILBOX_SEND (R417, rule 1): with the receiver's domain off the write is dropped, counted in the channel's statistics and logged with
the sender's master id. -/
def Claim.mailboxSendOff : Prop :=
  ∀ (s : State) (a : BitVec 16) (r : Fin 34) (w : BitVec 64) (n : Nat),
    s.dev.domainOn (receiverDomain r) = false →
    s.dev.findRow a.toNat r = some n →
    exec (.mailboxSend a r w) s = s.to ((s.dev.bumpStat (O.mbStats n) 3).logDomainDrop a.toNat (receiverNode r))

/-- MAILBOX_SEND (R417, rule 1): the same of a pair without a channel, which has no statistics. -/
def Claim.mailboxSendOffNone : Prop :=
  ∀ (s : State) (a : BitVec 16) (r : Fin 34) (w : BitVec 64),
    s.dev.domainOn (receiverDomain r) = false →
    s.dev.findRow a.toNat r = none →
    exec (.mailboxSend a r w) s = s.to (s.dev.logDomainDrop a.toNat (receiverNode r))

/-- MAILBOX_SEND (R417, rule 2): without an enabled channel the write is dropped and counted in B.7F.009. -/
def Claim.mailboxSendNone : Prop :=
  ∀ (s : State) (a : BitVec 16) (r : Fin 34) (w : BitVec 64),
    s.dev.domainOn (receiverDomain r) = true →
    s.dev.findRow a.toNat r = none →
    exec (.mailboxSend a r w) s = s.to (s.dev.bump O.droppedWrites)

/-- MAILBOX_SEND (R417, rule 3): a write with the accepted tag is counted as a duplicate; nothing is delivered and no bit is set. -/
def Claim.mailboxSendDuplicate : Prop :=
  ∀ (s : State) (a : BitVec 16) (r : Fin 34) (w : BitVec 64) (n : Nat),
    s.dev.domainOn (receiverDomain r) = true →
    s.dev.findRow a.toNat r = some n →
    (s.dev.box n).lastTag = some (bits w.toNat 63 48) →
    exec (.mailboxSend a r w) s = s.to (s.dev.bumpStat (O.mbStats n) 1)

/-- MAILBOX_SEND (R417, rule 4): with full set the word is dropped, the overrun is counted and flagged, and bit 30 of the receiver's
doorbell is set. -/
def Claim.mailboxSendOverrun : Prop :=
  ∀ (s : State) (a : BitVec 16) (r : Fin 34) (w : BitVec 64) (n : Nat),
    s.dev.domainOn (receiverDomain r) = true →
    s.dev.findRow a.toNat r = some n →
    (s.dev.box n).lastTag ≠ some (bits w.toNat 63 48) →
    (s.dev.box n).full = true →
    exec (.mailboxSend a r w) s = s.to (((s.dev.setBox n { s.dev.box n with overrun := true }).bumpStat (O.mbStats n) 2).ring r 30)

/-- SHARED_MAILBOX_SEND (R418): the word and the writer's id are stored, full is set and bit 28 is set. -/
def Claim.sharedMailboxSend : Prop :=
  ∀ (s : State) (a : BitVec 16) (r : Fin 34) (w : BitVec 64),
    s.dev.domainOn (receiverDomain r) = true →
    (tgetD s.dev.host.shared r.val {}).full = false →
    exec (.sharedMailboxSend a r w) s = s.to (let old := tgetD s.dev.host.shared r.val {}
       let new : SharedBox := { word := w.toNat, full := true, collision := old.collision, writer := a.toNat }
       let d : Device := { s.dev with host := { s.dev.host with shared := tset s.dev.host.shared r.val new {} } }
       d.ring r 28)

/-- SHARED_MAILBOX_SEND (R418): a word written over one held replaces it, sets the collision flag, is counted and sets bits 28 and 29. -/
def Claim.sharedMailboxCollision : Prop :=
  ∀ (s : State) (a : BitVec 16) (r : Fin 34) (w : BitVec 64),
    s.dev.domainOn (receiverDomain r) = true →
    (tgetD s.dev.host.shared r.val {}).full = true →
    exec (.sharedMailboxSend a r w) s = s.to (let new : SharedBox := { word := w.toNat, full := true, collision := true, writer := a.toNat }
       let d : Device := { s.dev with host := { s.dev.host with shared := tset s.dev.host.shared r.val new {} } }
       ((d.ring r 28).bump (O.sharedCollisions r)).ring r 29)

/-- SHARED_MAILBOX_SEND (R420): with the receiver's domain off the write is dropped and logged. -/
def Claim.sharedMailboxOff : Prop :=
  ∀ (s : State) (a : BitVec 16) (r : Fin 34) (w : BitVec 64),
    s.dev.domainOn (receiverDomain r) = false →
    exec (.sharedMailboxSend a r w) s = s.to (s.dev.logDomainDrop a.toNat (receiverNode r))

/-- MAILBOX_CONSUME (Table 17.9): full is clear; the word and the last accepted tag stay. -/
def Claim.mailboxConsume : Prop :=
  ∀ (s : State) (r : Fin 34) (b : Fin 28) (n : Nat),
    s.dev.findSlot r b = some n →
    exec (.mailboxConsume r (some b)) s = s.to (s.dev.setBox n { s.dev.box n with full := false })

/-- MAILBOX_CONSUME (Table 17.9): the full flag of the shared mailbox is clear. -/
def Claim.mailboxConsumeShared : Prop :=
  ∀ (s : State) (r : Fin 34),
    exec (.mailboxConsume r none) s = s.to { s.dev with host := { s.dev.host with shared := tmod s.dev.host.shared r.val {} fun x => { x with full := false } } }

/-- MAILBOX_CONSUME (R416, R418): a slot that no channel is bound to holds nothing to consume. -/
def Claim.mailboxConsumeUnbound : Prop :=
  ∀ (s : State) (r : Fin 34) (b : Fin 28),
    s.dev.findSlot r b = none →
    exec (.mailboxConsume r (some b)) s = s.to s.dev

/-- MAILBOX_FLAG_CLEAR (Table 17.9): the overrun flag is clear. -/
def Claim.mailboxFlagClear : Prop :=
  ∀ (s : State) (r : Fin 34) (b : Fin 28) (n : Nat),
    s.dev.findSlot r b = some n →
    exec (.mailboxFlagClear r (some b)) s = s.to (s.dev.setBox n { s.dev.box n with overrun := false })

/-- MAILBOX_FLAG_CLEAR (Table 17.9): the collision flag of the shared mailbox is clear. -/
def Claim.mailboxFlagClearShared : Prop :=
  ∀ (s : State) (r : Fin 34),
    exec (.mailboxFlagClear r none) s = s.to { s.dev with host := { s.dev.host with shared := tmod s.dev.host.shared r.val {} fun x => { x with collision := false } } }

/-- MAILBOX_FLAG_CLEAR (R416): a slot that no channel is bound to has no flag to clear. -/
def Claim.mailboxFlagClearUnbound : Prop :=
  ∀ (s : State) (r : Fin 34) (b : Fin 28),
    s.dev.findSlot r b = none →
    exec (.mailboxFlagClear r (some b)) s = s.to s.dev

/-- SEND_STATUS_OVERRUN_CLEAR (Table 17.10): the overrun flag of the sender's channel is clear. -/
def Claim.sendStatusOverrunClear : Prop :=
  ∀ (s : State) (a : BitVec 16) (r : Fin 34) (n : Nat),
    s.dev.domainOn (receiverDomain r) = true →
    s.dev.findRow a.toNat r = some n →
    exec (.sendStatusOverrunClear a r) s = s.to (s.dev.setBox n { s.dev.box n with overrun := false })

/-- SEND_STATUS_OVERRUN_CLEAR (Table 17.10): without a channel there is no flag to clear. -/
def Claim.sendStatusClearNone : Prop :=
  ∀ (s : State) (a : BitVec 16) (r : Fin 34),
    s.dev.domainOn (receiverDomain r) = true →
    s.dev.findRow a.toNat r = none →
    exec (.sendStatusOverrunClear a r) s = s.to s.dev

/-- SEND_STATUS_OVERRUN_CLEAR (R25, R420): with the receiver's domain off the write is dropped and logged. -/
def Claim.sendStatusClearOff : Prop :=
  ∀ (s : State) (a : BitVec 16) (r : Fin 34),
    s.dev.domainOn (receiverDomain r) = false →
    exec (.sendStatusOverrunClear a r) s = s.to (s.dev.logDomainDrop a.toNat (receiverNode r))

/-- SEND_STATUS_READ (Table 17.10): the send status of the page's sender. -/
def Claim.sendStatusRead : Prop :=
  ∀ (s : State) (p : Fin 64) (r : Fin 34),
    s.dev.domainOn (receiverDomain r) = true →
    exec (.sendStatusRead p r 1) s = s.to (s.dev.emit (.hostRead (some (leBytes 8 (s.dev.sendStatus (masterId 8 p) r)))))

/-- SEND_STATUS_READ of a send slot or a shared send slot: eight bytes that no rule states (the model's choice: a free value). -/
def Claim.sendSlotRead : Prop :=
  ∀ (s : State) (p : Fin 64) (r : Fin 34) (k : Fin 3),
    s.dev.domainOn (receiverDomain r) = true →
    k ≠ 1 →
    exec (.sendStatusRead p r k) s = s.to (s.dev.freeVal.2.emit (.hostRead (some (leBytes 8 s.dev.freeVal.1.toNat))))

/-- SEND_STATUS_READ (R420): with the receiver's domain off the read is a Completer Abort and is counted in B.7F.008. -/
def Claim.sendStatusReadOff : Prop :=
  ∀ (s : State) (p : Fin 64) (r : Fin 34) (k : Fin 3),
    s.dev.domainOn (receiverDomain r) = false →
    exec (.sendStatusRead p r k) s = s.to ((s.dev.bump O.completerAborts).emit (.hostRead none))

/-- MB_ENABLE (R416): clearing the enable releases the row. -/
def Claim.mbEnable : Prop :=
  ∀ (s : State) (n : Fin 256),
    s.dev.accepts (O.mbEnable n) →
    s.dev.flag (O.mbEnable n) = true →
    exec (.mbEnable n false) s = s.wrote (O.mbEnable n) ((s.dev.release (O.mbEnable n)).setBool (O.mbEnable n) false)

/-- MB_ENABLE (R416, R417): enabling claims the pair of sender and receiver and the pair of receiver and bit, and leaves the channel empty
and without an accepted tag. -/
def Claim.mbBind : Prop :=
  ∀ (s : State) (n : Fin 256),
    s.dev.accepts (O.mbEnable n) →
    s.dev.flag (O.mbEnable n) = false →
    (s.dev.mbRow n).2.2.1 ≤ 27 →
    ownReceiver (s.dev.mbRow n).1 ≠ some (s.dev.mbRow n).2.1 →
    s.dev.findRow (s.dev.mbRow n).1 (s.dev.mbRow n).2.1 = none →
    s.dev.findSlot (s.dev.mbRow n).2.1 (s.dev.mbRow n).2.2.1 = none →
    exec (.mbEnable n true) s = s.wrote (O.mbEnable n) (((s.dev.claim [O.mbSender n, O.mbBit n] (O.mbEnable n) 0xFFFFFFFF).1.setBool (O.mbEnable n) true).setBox n {})

/-- CROSSING_DELIVERY (R28, R293): the first flit of a queue of a crossing without credits is delivered. -/
def Claim.crossingDeliver : Prop :=
  ∀ (s : State) (x : Fin 66) (dir : Fin 2) (cls : Fin 4) (hop : Fin 2) (f : Flit),
    headOf (s.dev.crossing x dir).fifo cls hop = some f →
    33 ≤ x.val →
    s.dev.runs (crossingTo x dir) = true →
    s.dev.islandStopped (crossingDest x dir) = false →
    s.dev.islandStopped (crossingSource x dir) = false →
    exec (.crossingDelivery x dir (.deliver cls hop 0)) s = s.to ((s.dev.setCrossing x dir { s.dev.crossing x dir with
      fifo := (s.dev.crossing x dir).fifo.erase f, delivered := (s.dev.crossing x dir).delivered ++ [f] }).takeReturns x dir f.rets)

/-- CROSSING_DELIVERY (R294): a flit enters a queue with a credit. -/
def Claim.crossingEnter : Prop :=
  ∀ (s : State) (x : Fin 66) (dir : Fin 2) (cls : Fin 4) (hop : Fin 2) (m : BitVec 16) (data : Bytes) (d : Device),
    x.val < 28 →
    s.dev.runs (islandDomain (crossingSource x dir)) = true →
    s.dev.islandStopped (crossingSource x dir) = false →
    s.dev.domainOn (crossingTo x dir) = true →
    s.dev.flitIn x dir { cls := cls, hop := 0, master := m.toNat, data := data.take 128 } = some d →
    exec (.crossingDelivery x dir (.present cls hop m data)) s = s.to d

/-- ASSAY_TEST_START (R478): the oldest request of the die starts. -/
def Claim.assayTestStart : Prop :=
  ∀ (s : State) (die : Fin 4) (r : AssayReq),
    s.dev.managerRuns = true →
    tget? s.dev.errs.running die.val = none →
    s.dev.errs.pending.find? (fun r => r.die == die.val) = some r →
    s.dev.testMayStart r = true →
    exec (.assayTestStart die) s = s.to (let d : Device := { s.dev with errs := { s.dev.errs with pending := s.dev.errs.pending.erase r, running := tput s.dev.errs.running die.val r } }
       d.setNum O.assayPending d.errs.pending.length)

/-- ASSAY_TEST_END (R479): a pass is recorded, and is lasting once the passes of a day reach the limit. -/
def Claim.assayTestPassed : Prop :=
  ∀ (s : State) (die : Fin 4) (r : AssayReq),
    tget? s.dev.errs.running die.val = some r →
    exec (.assayTestEnd die true) s = s.to
      (let d : Device := { s.dev with errs := { s.dev.errs with running := tdel s.dev.errs.running die.val } }
       let d := ((d.bump O.assayTestsRun).bump (O.assayResults 1)).record { cls := 7, unit := r.unit, node := r.node, elem := r.elem, addr := r.addr, result := 1, cause := r.cause }
       let seq := d.errs.seq
       let d : Device := { d with errs := { d.errs with passes := { unit := r.unit, node := r.node, elem := r.elem, time := d.uptime } :: d.errs.passes } }
       let lasting := decide (d.num O.assayTransientLimit ≤ d.passesOf r)
       let d := d.hallmarkResult r lasting
       if lasting then d.lastingAction r seq else d)

/-- FUSE_BURN_COMPLETE (R482): the word is in the lowest unused retirement word. -/
def Claim.fuseBurnComplete : Prop :=
  ∀ (s : State) (w : Nat) (r : List Nat) (i : Nat),
    s.dev.errs.burns = w :: r →
    (List.range 48).find? (fun i => s.dev.fuse (96 + i) == 0) = some i →
    exec (.fuseBurnComplete true) s = s.to (let d : Device := { s.dev with errs := { s.dev.errs with burns := r }, startup := { s.dev.startup with fuses := tput s.dev.startup.fuses (96 + i) w } }
       d.setFused O.retirementWordsUsed (.num (d.num O.retirementWordsUsed + 1)))

/-- LOCKSTEP_MISMATCH (R477): an uncorrected-fatal error, and island 1 stops. -/
def Claim.lockstepMismatch : Prop :=
  ∀ (s : State),
    s.dev.domainOn 1 = true →
    exec .lockstepMismatch s = s.to (let d := s.dev.event { cls := 3, unit := 0x0A, node := 0x11 }
       { d with errs := { d.errs with island1Stop := true } })

/-- ATTEST_REQUEST (R493): the report of the channel is made and counted. -/
def Claim.attestRequest : Prop :=
  ∀ (s : State) (ch : Chan) (n : Bytes),
    s.dev.accepts O.attestNonce →
    n.length = 32 →
    exec (.attestRequest ch n) s = s.wrote O.attestNonce ((s.dev.setChanSt ch { s.dev.chanSt ch with
        report := some (s.dev.reportBody ch n ++ s.dev.identitySign (sha3 (s.dev.reportBody ch n))) }).bump O.attestCount)

/-- ROLLBACK_COMMIT (R491): the lowest unburned bits are burned until the count is n. -/
def Claim.rollbackCommit : Prop :=
  ∀ (s : State) (n : BitVec 16),
    s.dev.accepts O.rollbackCommit →
    s.dev.num O.rollbackCounter < n.toNat →
    n.toNat ≤ s.dev.imageRollback →
    exec (.rollbackCommit n none) s = s.wrote O.rollbackCommit ((({ s.dev with signet := { s.dev.signet with rollbackBits := n.toNat } } : Device).burnRollback n.toNat).okay.measured O.rollbackCommit (beBytes 2 n.toNat)).s

/-- DEBUG_TOKEN (R496): an accepted token takes effect and is measured; the token in force resent is answered OK; any other is refused and
counted. -/
def Claim.debugToken : Prop :=
  ∀ (s : State) (t : Bytes),
    s.dev.accepts O.debugToken →
    exec (.debugToken t) s =
      if s.dev.tokenCheck t = none then s.wrote O.debugToken ((s.dev.tokenTaken t).extendM 2 (itemBytes { oid := BitVec.ofNat 32 O.debugToken, ty := BitVec.ofNat 8 (tyOf O.debugToken).code, value := t }))
      else if s.dev.tokenCheck t = some .ok then s.wrote O.debugToken s.dev
      else s.to ((s.dev.bump O.debugTokenRefusals).emit (.reply ((s.dev.tokenCheck t).getD .ok) O.debugToken))

/-- DEBUG_LOCK (R497): debug is locked. -/
def Claim.debugLock : Prop :=
  ∀ (s : State),
    s.dev.accepts O.debugLock →
    exec .debugLock s = s.wrote O.debugLock (s.dev.lockDebug.okay.measured O.debugLock [1]).s

/-- DEBUG_EXPIRY (R497): debug is locked when the counter reaches the expiry. -/
def Claim.debugExpiry : Prop :=
  ∀ (s : State),
    s.dev.num O.debugExpiry ≠ 0 →
    s.dev.num O.debugExpiry ≤ s.dev.uptime →
    exec .debugExpiry s = s.to s.dev.lockDebug

/-- ENTROPY_HEALTH_TEST (R489): a failed test stops the source. -/
def Claim.entropyFails : Prop :=
  ∀ (s : State),
    exec (.entropyHealthTest false) s = s.to ((({ s.dev with signet := { s.dev.signet with healthyRun := 0 } } : Device).setNum O.entropyState 1).bump O.entropyFailures)

/-- ENTROPY_HEALTH_TEST (R489): the 1,024th consecutive pass starts the source again. -/
def Claim.entropyHealthTest : Prop :=
  ∀ (s : State),
    s.dev.num O.entropyState = 1 →
    1023 ≤ s.dev.signet.healthyRun →
    exec (.entropyHealthTest true) s = s.to (({ s.dev with signet := { s.dev.signet with healthyRun := s.dev.signet.healthyRun + 1 } } : Device).setNum O.entropyState 0)

/-- QUEUE_ENABLE (R408): a disabled queue whose configuration passes is enabled, empty. -/
def Claim.queueEnable : Prop :=
  ∀ (s : State) (q : Fin 64),
    s.dev.accepts (O.queueEnable q) →
    s.dev.num (O.queueState q) = 0 →
    s.dev.queueConfigOk q = true →
    exec (.queueEnable q) s = s.wrote (O.queueEnable q) (((s.dev.setHq q { cmds := (s.dev.hq q).cmds.filter fun c => c.gone }).setNum (O.queueState q) 1).setBool (O.queueEnable q) true)

/-- QUEUE_DISABLE (R408): the queue drains. -/
def Claim.queueDisable : Prop :=
  ∀ (s : State) (q : Fin 64),
    s.dev.accepts (O.queueEnable q) →
    s.dev.num (O.queueState q) = 1 →
    exec (.queueDisable q) s = s.wrote (O.queueEnable q) (((s.dev.setNum (O.queueState q) 2).setBool (O.queueEnable q) false).drainQueue q)

/-- QUEUE_THAW (R411, R476): a frozen queue is thawed. -/
def Claim.queueThaw : Prop :=
  ∀ (s : State) (q : Fin 64) (d : Device),
    s.dev.accepts (O.queueThaw q) →
    s.dev.num (O.queueState q) = 4 →
    s.dev.thaw (masterId 0 q) = d.okay →
    exec (.queueThaw q) s = s.wrote (O.queueThaw q) (d.okay.measured (O.queueThaw q) [1]).s

/-- SQ_TAIL_DOORBELL (R408): the tail is stored. -/
def Claim.sqTailDoorbell : Prop :=
  ∀ (s : State) (q : Fin 64) (v : BitVec 32),
    s.dev.domainOn 1 = true →
    s.dev.num (O.queueState q) ≠ 0 →
    v.toNat < s.dev.sqEntries q →
    exec (.sqTailDoorbell q v) s = s.to (s.dev.setHq q { s.dev.hq q with sqTail := v.toNat })

/-- CQ_HEAD_DOORBELL (R408): the head is stored. -/
def Claim.cqHeadDoorbell : Prop :=
  ∀ (s : State) (q : Fin 64) (v : BitVec 32),
    s.dev.domainOn 1 = true →
    s.dev.num (O.queueState q) ≠ 0 →
    v.toNat < s.dev.cqEntries q →
    exec (.cqHeadDoorbell q v) s = s.to (s.dev.setHq q { s.dev.hq q with cqHead := v.toNat })

/-- SQ_FETCH (R409): up to eight entries are fetched in order. -/
def Claim.sqFetch : Prop :=
  ∀ (s : State) (q : Fin 64) (entries : List Bytes),
    s.dev.managerRuns = true →
    s.dev.fetchTurn = some q.val →
    exec (.sqFetch q entries) s = s.to (let h := s.dev.hq q
       let n := min (min 8 (s.dev.sqWaiting q)) (min (256 - h.cmds.length) entries.length)
       let d : Device := { s.dev with host := { s.dev.host with fetchLast := tput s.dev.host.fetchLast (s.dev.num (O.queuePriority q)) q.val } }
       let d := d.setHq q { h with sqHead := (h.sqHead + n) % d.sqEntries q }
       (entries.take n).foldl (fun (x : Device) b => x.fetchOne q (decodeEntry b x.uptime)) d)

/-- NOP of a host queue (R411). -/
def Claim.nop : Prop :=
  ∀ (s : State) (q : Fin 64) (c : HostCmd),
    s.dev.hostTakes q 0x00 c →
    exec (.nop q) s = s.to ((s.dev.startCmd q c).hostDone q c.id .ok)

/-- STEP (R387, R411): the descriptor that its job expects waits in the job and the command completes with OK. -/
def Claim.step : Prop :=
  ∀ (s : State) (q : Fin 64) (c : HostCmd) (x : Job),
    s.dev.hostTakes q 0x01 c →
    (s.dev.startCmd q c).resident (stepSlot (padTo 64 (slice c.args 8 48))) = true →
    (s.dev.startCmd q c).job? (stepSlot (padTo 64 (slice c.args 8 48))) = some x →
    x.stepExtents (padTo 64 (slice c.args 8 48)) = true →
    (s.dev.startCmd q c).jobCode (stepSlot (padTo 64 (slice c.args 8 48))) ≠ jsFrozen →
    x.pending.length < 4 →
    x.expects (padTo 64 (slice c.args 8 48)) = true →
    exec (.step q) s = s.to (((s.dev.startCmd q c).stepWaits (stepSlot (padTo 64 (slice c.args 8 48))) x (padTo 64 (slice c.args 8 48)) (some (q.val * 0x100000000 + c.id))).hostDone q c.id .ok)

/-- TXN_OPEN of a host queue (R244, R413): a free slot of Q0 is taken. -/
def Claim.txnOpen : Prop :=
  ∀ (s : State) (q : Fin 64) (c : HostCmd),
    s.dev.hostTakes q 0x10 c →
    s.dev.domainOn 3 = true →
    ((s.dev.startCmd q c).mem.due.find? fun d => d.master == masterId 0 q) = none →
    (s.dev.startCmd q c).isFrozen (masterId 0 q) = false →
    (s.dev.startCmd q c).claspUp = true →
    (s.dev.startCmd q c).txnsOf (masterId 0 q) = [] →
    (s.dev.startCmd q c).freeSlots 0 ≠ [] →
    ∃ n ∈ (s.dev.startCmd q c).freeSlots 0, exec (.txnOpen q) s = s.to ((((s.dev.startCmd q c).choose ((s.dev.startCmd q c).freeSlots 0)).2.setTxn n
      { master := masterId 0 q, openedAt := (s.dev.startCmd q c).uptime, limit := us ((s.dev.startCmd q c).num O.txnTimeLimitUs) }).hostDone q c.id .ok)

/-- TXN_READ of a host queue (R245): the bytes read complete the command. -/
def Claim.txnRead : Prop :=
  ∀ (s : State) (q : Fin 64) (c : HostCmd),
    s.dev.hostTakes q 0x11 c →
    s.dev.domainOn 3 = true →
    ((s.dev.startCmd q c).txnRead (masterId 0 q) 0 (leAt c.args 8 8) (leAt c.args 16 1) false).1.st = .ok →
    ((s.dev.startCmd q c).txnRead (masterId 0 q) 0 (leAt c.args 8 8) (leAt c.args 16 1) false).2.2 = false →
    exec (.txnRead q []) s = s.to (((s.dev.startCmd q c).txnRead (masterId 0 q) 0 (leAt c.args 8 8) (leAt c.args 16 1) false).1.s.hostReadDone q ((s.dev.startCmd q c).txnRead (masterId 0 q) 0 (leAt c.args 8 8) (leAt c.args 16 1) false).2.1)

/-- TXN_WRITE of a host queue (R246): the bytes join the transaction. -/
def Claim.txnWrite : Prop :=
  ∀ (s : State) (q : Fin 64) (c : HostCmd) (data : Bytes) (key : Nat) (t : Txn) (b : List (Nat × Byte)),
    s.dev.hostTakes q 0x12 c →
    s.dev.domainOn 3 = true →
    1 ≤ leAt c.args 16 2 →
    leAt c.args 8 8 % 128 + leAt c.args 16 2 ≤ 128 →
    (s.dev.startCmd q c).txnGate (masterId 0 q) 0 = .inr (key, t) →
    (s.dev.startCmd q c).lineInRegion (leAt c.args 8 8 / 128) = true →
    (t.written.length + (if t.written.contains (leAt c.args 8 8 / 128) then [] else [leAt c.args 8 8 / 128]).length) ≤ 2048 →
    b = ((List.range (leAt c.args 16 2)).map fun i => (leAt c.args 8 8 + i, data.getD i 0)) →
    exec (.txnWrite q data) s = s.to (((s.dev.startCmd q c).setTxn key { t with written := (t.written ++ if t.written.contains (leAt c.args 8 8 / 128) then [] else [leAt c.args 8 8 / 128]), buf := b.foldl (fun m p => memSet m p.1 p.2) t.buf, masks := t.masks ++ (b.map fun p => p.1).filter fun a => !t.masks.contains a }).hostDone q c.id .ok)

/-- TXN_COMMIT of a host queue (R250, R251): the participants are fixed and the commit sequence begins; the completion follows it. -/
def Claim.hostTxnCommit : Prop :=
  ∀ (s : State) (q : Fin 64) (c : HostCmd) (key : Nat) (t : Txn),
    s.dev.hostTakes q 0x13 c →
    s.dev.domainOn 3 = true →
    (s.dev.startCmd q c).txnGate (masterId 0 q) 0 = .inr (key, t) →
    (s.dev.startCmd q c).partsOf t ≠ [] →
    exec (.hostTxnCommit { val := q }) s = s.to ((s.dev.startCmd q c).setTxn key { t with state := .preparing, parts := ((s.dev.startCmd q c).partsOf t).map fun p => (p, .todo) })

/-- TXN_ABORT of a host queue (R256): the transaction ends with reason 10. -/
def Claim.hostTxnAbort : Prop :=
  ∀ (s : State) (q : Fin 64) (c : HostCmd) (key : Nat) (t : Txn),
    s.dev.hostTakes q 0x14 c →
    s.dev.domainOn 3 = true →
    (s.dev.startCmd q c).dueFor (masterId 0 q) 0 = none →
    (s.dev.startCmd q c).txnFor (masterId 0 q) 0 = some (key, t) →
    t.state = .opened →
    exec (.hostTxnAbort q) s = s.to (((s.dev.startCmd q c).abortTxn key t 10).hostDone q c.id .ok)

/-- COMPLETION_POST (R410): the oldest completion is written and the vector sent. -/
def Claim.completionPost : Prop :=
  ∀ (s : State) (q : Fin 64) (c : Compl) (r : List Compl),
    (s.dev.hq q).posting = c :: r →
    s.dev.managerRuns = true →
    s.dev.num (O.queueState q) ≠ 0 →
    s.dev.cqEntries q ≠ 0 →
    ((s.dev.hq q).cqTail + 1) % s.dev.cqEntries q ≠ (s.dev.hq q).cqHead →
    exec (.completionPost q) s = s.to (s.dev.postOne q c r)

/-- COMMAND_TIMEOUT (R414): the command is reported timed out and goes on. -/
def Claim.commandTimeout : Prop :=
  ∀ (s : State) (q : Fin 64) (id : BitVec 32) (c : HostCmd),
    ((s.dev.hq q).cmds.find? fun (c : HostCmd) => c.id == id.toNat && !c.gone && !c.timedOut) = some c →
    s.dev.managerRuns = true →
    s.dev.cmdRetrying q c = false →
    c.hold = none →
    c.paused = 0 →
    c.fetched + ms (s.dev.num O.commandTimeoutMs) ≤ s.dev.uptime →
    exec (.commandTimeout (.queue q) id) s = s.to (s.dev.timeOutCmd q c)

/-- COMMAND_TIMEOUT of a Foreri request (R483, R485): E_TIMEOUT is answered and stored, and the request goes on. -/
def Claim.commandTimeoutForeri : Prop :=
  ∀ (s : State) (ch : Option Chan) (id : BitVec 32) (w : Waiting),
    s.dev.managerRuns = true →
    s.dev.fore.engine = [w] →
    w.is ch id.toNat = true →
    w.since + ms (s.dev.num O.commandTimeoutMs) ≤ s.dev.uptime →
    exec (.commandTimeout (.foreri ch) id) s = s.to ({ s.dev with fore := { s.dev.fore with engine := [{ w with timedOut := true, held := [] }] } }.reportTimeout w)

/-- HOST_MEMORY_ERROR (R402): the queue is in ERROR. -/
def Claim.hostMemoryError : Prop :=
  ∀ (s : State) (q : Fin 64),
    s.dev.domainOn 1 = true →
    s.dev.num (O.queueState q) = 1 →
    exec (.hostMemoryError q .entries) s = s.to ((s.dev.setNum (O.queueState q) 3).setCause 3)

/-- BAR2_READ (R415): a plain cached access of the home memory-side cache. -/
def Claim.bar2Read : Prop :=
  ∀ (s : State) (off : BitVec 26) (n : BitVec 13),
    s.dev.domainOn 1 = true →
    s.dev.runs 3 = true →
    0 < n.toNat →
    off.toNat + n.toNat ≤ 0x4000000 →
    s.dev.mapCheck (s.dev.num O.bar2Base + off.toNat) n.toNat = 0 →
    s.dev.ownWaits barMaster (s.dev.num O.bar2Base + off.toNat) n.toNat = false →
    s.dev.mustWait (s.dev.num O.bar2Base + off.toNat) (.read n.toNat) none = false →
    s.dev.hbmBlocked (s.dev.num O.bar2Base + off.toNat) n.toNat false = false →
    exec (.bar2Read off n []) s = s.to ((s.dev.cacheTouch (s.dev.num O.bar2Base + off.toNat) n.toNat false).emit (.hostRead (some ((s.dev.cacheTouch (s.dev.num O.bar2Base + off.toNat) n.toNat false).cachedGet (s.dev.num O.bar2Base + off.toNat) n.toNat))))

/-- BAR2_WRITE (R415): a plain cached access of the home memory-side cache. -/
def Claim.bar2Write : Prop :=
  ∀ (s : State) (off : BitVec 26) (data : Bytes),
    s.dev.domainOn 1 = true →
    s.dev.runs 3 = true →
    0 < data.length →
    off.toNat + data.length ≤ 0x4000000 →
    s.dev.mapCheck (s.dev.num O.bar2Base + off.toNat) data.length = 0 →
    s.dev.ownWaits barMaster (s.dev.num O.bar2Base + off.toNat) data.length = false →
    s.dev.mustWait (s.dev.num O.bar2Base + off.toNat) (.write data) none = false →
    s.dev.hbmBlocked (s.dev.num O.bar2Base + off.toNat) data.length true = false →
    exec (.bar2Write off data false []) s = s.to ((((s.dev.cacheTouch (s.dev.num O.bar2Base + off.toNat) data.length true).doomRange (s.dev.num O.bar2Base + off.toNat) data.length none).hbmPut (s.dev.num O.bar2Base + off.toNat) data).clearLost (s.dev.num O.bar2Base + off.toNat) data.length)

/-- MASTER_THAW (R476): the row goes, and the master is in the state its class returns to. -/
def Claim.masterThaw : Prop :=
  ∀ (s : State) (m : BitVec 16),
    s.dev.accepts O.masterThaw →
    masterExists m.toNat = true →
    masterClass m.toNat ∉ [5, 8, 15] →
    s.dev.isFrozen m.toNat = true →
    exec (.masterThaw m) s = s.wrote O.masterThaw (((((s.dev.delFrozen m.toNat).thawClass m.toNat).setNum O.masterThaw m.toNat).okay.measured O.masterThaw (beBytes 2 m.toNat)).s)

/-- READ (R49): the item of an object that the channel may read is answered with OK, and the answer stored. -/
def Claim.read : Prop :=
  ∀ (s : State) (ch : Chan) (rid : BitVec 32) (oid : BitVec 32) (b : Bytes),
    s.dev.serves ch rid.toNat (.read oid) →
    (s.dev.accepted ch rid.toNat).readFor ch oid.toNat = .inr b →
    (O.flashData == oid.toNat) = false →
    exec (.read ch rid oid) s = s.to ((s.dev.accepted ch rid.toNat).finish { ch := some ch, rid := rid.toNat, req := .read oid, since := s.dev.uptime } { op := 0x01, status := .ok, body := b })

/-- READ_MULTI (R51): 1 to 64 objects, each with its status and where that is OK its item. -/
def Claim.readMulti : Prop :=
  ∀ (s : State) (ch : Chan) (rid : BitVec 32) (l : List (BitVec 32)),
    s.dev.serves ch rid.toNat (.readMulti l) →
    l ≠ [] →
    l.length ≤ 64 →
    (l.map (·.toNat)).contains O.flashData = false →
    exec (.readMulti ch rid l) s = s.to ((s.dev.accepted ch rid.toNat).finish { ch := some ch, rid := rid.toNat, req := .readMulti l, since := s.dev.uptime } { op := 0x03, status := .ok, body := (s.dev.accepted ch rid.toNat).multiBody ch l })

/-- READ of 1.00.021 (R467): the request finds the page of the flash at the offset. -/
def Claim.readFlash : Prop :=
  ∀ (s : State) (ch : Chan) (rid : BitVec 32) (oid : BitVec 32),
    oid.toNat = O.flashData →
    exec (.read ch rid oid) s = s.to (((s.dev.holdPage s.flashPage).request (some ch) rid.toNat (.read oid)).holdPage [])

/-- READMULTI of 1.00.021 (R467): the request finds the page of the flash at the offset. -/
def Claim.readMultiFlash : Prop :=
  ∀ (s : State) (ch : Chan) (rid : BitVec 32) (l : List (BitVec 32)),
    (l.map (·.toNat)).contains O.flashData = true →
    exec (.readMulti ch rid l) s = s.to (((s.dev.holdPage s.flashPage).request (some ch) rid.toNat (.readMulti l)).holdPage [])

/-- DESCRIBE (Table 2.10): the description of an object that exists. -/
def Claim.describe : Prop :=
  ∀ (s : State) (ch : Chan) (rid : BitVec 32) (oid : BitVec 32) (d : ObjDesc),
    s.dev.serves ch rid.toNat (.describe oid) →
    lookup oid.toNat = .found d →
    ((s.dev.accepted ch rid.toNat).rights ch).read = true →
    ((s.dev.accepted ch rid.toNat).pageOf oid.toNat d).isSome = true →
    exec (.describe ch rid oid) s = s.to ((s.dev.accepted ch rid.toNat).finish { ch := some ch, rid := rid.toNat, req := .describe oid, since := s.dev.uptime } { op := 0x05, status := .ok, body := (s.dev.accepted ch rid.toNat).describeBody oid.toNat d })

/-- WRITE (R50): an item that passes every check takes effect and is answered with OK. -/
def Claim.write : Prop :=
  ∀ (s : State) (ch : Chan) (rid : BitVec 32) (i : Item),
    s.dev.serves ch rid.toNat (.write false i) →
    (s.dev.accepted ch rid.toNat).firstBad ch false 0 [i] = none →
    ((s.dev.accepted ch rid.toNat).writeItems ch 0 [i]).2 = none →
    exec (.write ch rid false i) s = s.to (((s.dev.accepted ch rid.toNat).writeItems ch 0 [i]).1.finish { ch := some ch, rid := rid.toNat, req := .write false i, since := s.dev.uptime } { op := 0x02, status := .ok, body := [] })

/-- WRITE_MULTI (R51): 1 to 64 items that pass every check are written in order. -/
def Claim.writeMulti : Prop :=
  ∀ (s : State) (ch : Chan) (rid : BitVec 32) (l : List Item),
    s.dev.serves ch rid.toNat (.writeMulti false l) →
    l ≠ [] →
    l.length ≤ 64 →
    (s.dev.accepted ch rid.toNat).firstBad ch false 0 l = none →
    ((s.dev.accepted ch rid.toNat).writeItems ch 0 l).2 = none →
    exec (.writeMulti ch rid false l) s = s.to (((s.dev.accepted ch rid.toNat).writeItems ch 0 l).1.finish { ch := some ch, rid := rid.toNat, req := .writeMulti false l, since := s.dev.uptime } { op := 0x04, status := .ok, body := [] })

/-- WRITE in a transaction (R62): the item is staged with the write sequence of its object. -/
def Claim.writeStaged : Prop :=
  ∀ (s : State) (ch : Chan) (rid : BitVec 32) (i : Item) (t : DictTxn),
    s.dev.serves ch rid.toNat (.write true i) →
    ((s.dev.accepted ch rid.toNat).rights ch).txn = true →
    ((s.dev.accepted ch rid.toNat).chanSt ch).txn = some t →
    ((s.dev.accepted ch rid.toNat).setChanSt ch { (s.dev.accepted ch rid.toNat).chanSt ch with txn := some { t with lastReq := (s.dev.accepted ch rid.toNat).uptime } }).firstBad ch true 0 [i] = none →
    t.staged.length < 256 →
    (t.staged.map fun y => y.item.value.length).sum + i.value.length ≤ 16384 →
    exec (.write ch rid true i) s = s.to
      (let d := (s.dev.accepted ch rid.toNat).setChanSt ch { (s.dev.accepted ch rid.toNat).chanSt ch with txn := some { t with lastReq := (s.dev.accepted ch rid.toNat).uptime } }
       let y : Staged := { item := i, seqAt := tgetD d.fore.writeSeq i.oid.toNat 0 }
       (d.setChanSt ch { d.chanSt ch with txn := some { staged := t.staged ++ [y], lastReq := (s.dev.accepted ch rid.toNat).uptime } }).finish
         { ch := some ch, rid := rid.toNat, req := .write true i, since := s.dev.uptime } { op := 0x02, status := .ok })

/-- TXN_BEGIN (R62): a channel with the right and no open transaction opens one. -/
def Claim.txnBegin : Prop :=
  ∀ (s : State) (ch : Chan) (rid : BitVec 32) ,
    s.dev.serves ch rid.toNat (.txnBegin) →
    ((s.dev.accepted ch rid.toNat).rights ch).txn = true →
    ((s.dev.accepted ch rid.toNat).chanSt ch).txn = none →
    (s.dev.accepted ch rid.toNat).startupCode = suReady →
    (s.dev.accepted ch rid.toNat).runs 3 = true →
    exec (.txnBegin ch rid) s = s.to (((s.dev.accepted ch rid.toNat).setChanSt ch { (s.dev.accepted ch rid.toNat).chanSt ch with txn := some { lastReq := (s.dev.accepted ch rid.toNat).uptime }, txnLost := false }).finish { ch := some ch, rid := rid.toNat, req := .txnBegin, since := s.dev.uptime } { op := 0x10, status := .ok, body := [] })

/-- TXN_ABORT (R62): the transaction ends. -/
def Claim.txnAbort : Prop :=
  ∀ (s : State) (ch : Chan) (rid : BitVec 32) (t : DictTxn),
    s.dev.serves ch rid.toNat (.txnAbort) →
    ((s.dev.accepted ch rid.toNat).rights ch).txn = true →
    ((s.dev.accepted ch rid.toNat).chanSt ch).txn = some t →
    exec (.txnAbort ch rid) s = s.to (((s.dev.accepted ch rid.toNat).setChanSt ch { (s.dev.accepted ch rid.toNat).chanSt ch with txn := none }).finish { ch := some ch, rid := rid.toNat, req := .txnAbort, since := s.dev.uptime } { op := 0x12, status := .ok, body := [] })

/-- TXN_COMMIT (R63, R261): a slot of Q0 is taken for the one hardware transaction, and the commit runs in it. -/
def Claim.txnCommit : Prop :=
  ∀ (s : State) (ch : Chan) (rid : BitVec 32) (t : DictTxn),
    s.dev.serves ch rid.toNat .txnCommit →
    ((s.dev.accepted ch rid.toNat).rights ch).txn = true →
    ((s.dev.accepted ch rid.toNat).chanSt ch).txn = some t →
    (s.dev.accepted ch rid.toNat).isFrozen managerId = false →
    (s.dev.accepted ch rid.toNat).claspUp = true →
    ((s.dev.accepted ch rid.toNat).txnsOf managerId).length < 8 →
    (s.dev.accepted ch rid.toNat).freeSlots 0 ≠ [] →
    (∀ n ∈ (s.dev.accepted ch rid.toNat).freeSlots 0, ((((s.dev.queued ch rid.toNat .txnCommit).choose ((s.dev.queued ch rid.toNat .txnCommit).freeSlots 0)).2.setTxn n { master := managerId, openedAt := (s.dev.queued ch rid.toNat .txnCommit).uptime, limit := us ((s.dev.queued ch rid.toNat .txnCommit).num O.txnTimeLimitUs) }).commitIn ch t n).isSome = true) →
    ∃ n ∈ (s.dev.accepted ch rid.toNat).freeSlots 0, exec (.txnCommit ch rid) s = s.to ((((((s.dev.accepted ch rid.toNat).choose ((s.dev.accepted ch rid.toNat).freeSlots 0)).2.setTxn n { master := managerId, openedAt := (s.dev.accepted ch rid.toNat).uptime, limit := us ((s.dev.accepted ch rid.toNat).num O.txnTimeLimitUs) }).commitIn ch t n).getD ((s.dev.accepted ch rid.toNat), failed 0x11 .busy)).1.finish
      { ch := some ch, rid := rid.toNat, req := .txnCommit, since := s.dev.uptime } (((((s.dev.accepted ch rid.toNat).choose ((s.dev.accepted ch rid.toNat).freeSlots 0)).2.setTxn n { master := managerId, openedAt := (s.dev.accepted ch rid.toNat).uptime, limit := us ((s.dev.accepted ch rid.toNat).num O.txnTimeLimitUs) }).commitIn ch t n).getD ((s.dev.accepted ch rid.toNat), failed 0x11 .busy)).2)

/-- The commit (R63, R261): with no line locked and none lost, no staged object written since and every check passed, every value is taken
and OK answered. -/
def Claim.commitTakes : Prop :=
  ∀ (d e : Device) (ch : Chan) (t : DictTxn) (n : Nat),
    (t.lines.any fun l => d.wLocked l (some n)) = false →
    d.shadowStop (tgetD d.mem.txns n { master := managerId, openedAt := d.uptime, limit := 0 }) t.lines = 0 →
    ((t.lines.foldl (fun (d : Device) l => d.cacheTouch (128 * l) 128 false) d).setTxn n { (tgetD d.mem.txns n { master := managerId, openedAt := d.uptime, limit := 0 }) with tracked := t.lines, written := t.lines }).staleItem 0 t.staged = none →
    (((t.lines.foldl (fun (d : Device) l => d.cacheTouch (128 * l) 128 false) d).setTxn n { (tgetD d.mem.txns n { master := managerId, openedAt := d.uptime, limit := 0 }) with tracked := t.lines, written := t.lines }).writeItems ch 0 (t.staged.map fun y => y.item)).2 = none →
    ((t.lines.foldl (fun (d : Device) l => d.cacheTouch (128 * l) 128 false) d).setTxn n { (tgetD d.mem.txns n { master := managerId, openedAt := d.uptime, limit := 0 }) with tracked := t.lines, written := t.lines }).commitNow n = some (0, e) →
    d.commitIn ch t n = some (let f := (e.writeItems ch 0 (t.staged.map fun y => y.item)).1
      ((f.setChanSt ch { f.chanSt ch with txn := none }).unstall managerId, { op := 0x11, status := .ok }))

/-- CLOSE (R59): answered with OK; the session ends once the answer is out. -/
def Claim.close : Prop :=
  ∀ (s : State) (rid : BitVec 32) (n : Fin 16),
    s.dev.serves (.session n) rid.toNat .close →
    exec (.close (.session n) rid) s = s.to ((s.dev.accepted (.session n) rid.toNat).finish { ch := some (.session n), rid := rid.toNat, req := .close, since := s.dev.uptime } { op := 0x43, status := .ok })

/-- CLOSE (R60): the PCIe host channel returns to operator rights. -/
def Claim.closePcie : Prop :=
  ∀ (s : State) (rid : BitVec 32),
    s.dev.serves .pcie rid.toNat .close →
    exec (.close .pcie rid) s = s.to (({ s.dev.accepted .pcie rid.toNat with
        fore := { (s.dev.accepted .pcie rid.toNat).fore with pcieAdmin := false, pcieHello := none } } : Device).finish
      { ch := some .pcie, rid := rid.toNat, req := .close, since := s.dev.uptime } { op := 0x43, status := .ok })

/-- SUBSCRIBE (R65): the lowest free number is taken and answered. -/
def Claim.subscribe : Prop :=
  ∀ (s : State) (ch : Chan) (rid : BitVec 32) (o : BitVec 32) (m : Byte) (p i : BitVec 16) (v : Ty × Bytes) (d : ObjDesc),
    s.dev.serves ch rid.toNat (.subscribe o m p i) →
    ((s.dev.accepted ch rid.toNat).rights ch).sub = true →
    (s.dev.accepted ch rid.toNat).readObj ((s.dev.accepted ch rid.toNat).rights ch).reading ((s.dev.accepted ch rid.toNat).chanSt ch).report o.toNat = .inr v →
    lookup o.toNat = .found d →
    ((m.toNat = 0 ∧ d.subs = true) ∨ m.toNat = 1) →
    10 ≤ p.toNat →
    p.toNat ≤ 60000 →
    i.toNat ≤ 60000 →
    ((s.dev.accepted ch rid.toNat).chanSt ch).subs.length < 64 →
    exec (.subscribe ch rid o m p i) s = s.to (((s.dev.accepted ch rid.toNat).subTaken ch o.toNat m.toNat p.toNat i.toNat v).1.finish { ch := some ch, rid := rid.toNat, req := .subscribe o m p i, since := s.dev.uptime } ((s.dev.accepted ch rid.toNat).subTaken ch o.toNat m.toNat p.toNat i.toNat v).2)

/-- UNSUBSCRIBE (R65): the subscription of that number ends. -/
def Claim.unsubscribe : Prop :=
  ∀ (s : State) (ch : Chan) (rid : BitVec 32) (n : Byte),
    s.dev.serves ch rid.toNat (.unsubscribe n) →
    (((s.dev.accepted ch rid.toNat).chanSt ch).subs.any fun y => y.num == n.toNat) = true →
    exec (.unsubscribe ch rid n) s = s.to (((s.dev.accepted ch rid.toNat).setChanSt ch { (s.dev.accepted ch rid.toNat).chanSt ch with subs := ((s.dev.accepted ch rid.toNat).chanSt ch).subs.filter fun y => y.num != n.toNat }).finish { ch := some ch, rid := rid.toNat, req := .unsubscribe n, since := s.dev.uptime } { op := 0x21, status := .ok, body := [] })

/-- AUTH (R56): a pending session whose tag and signature are good opens and the role is answered; otherwise its slot is freed and E_AUTH
answered. -/
def Claim.auth : Prop :=
  ∀ (s : State) (rid : BitVec 32) (n : Fin 16) (g t : Bytes),
    s.dev.serves (.session n) rid.toNat (.auth g t) →
    ((s.dev.accepted (.session n) rid.toNat).sess n).phase = .pending →
    exec (.auth (.session n) rid g t) s = s.to
      (if (s.dev.accepted (.session n) rid.toNat).authTagGood n rid.toNat g t = true then
        ((s.dev.accepted (.session n) rid.toNat).setSess n { (s.dev.accepted (.session n) rid.toNat).sess n with phase := .isOpen, lastReq := (s.dev.accepted (.session n) rid.toNat).uptime }).finish
          { ch := some (.session n), rid := rid.toNat, req := .auth g t, since := s.dev.uptime } { op := 0x42, status := .ok, body := beBytes 1 ((s.dev.accepted (.session n) rid.toNat).sess n).role }
       else ((s.dev.accepted (.session n) rid.toNat).bump O.authFailures).finish
          { ch := some (.session n), rid := rid.toNat, req := .auth g t, since := s.dev.uptime } (failed 0x42 .auth))

/-- HELLO (R56): with a slot free and, for the roles above observer, an enabled key, the slot is taken and the response signed. -/
def Claim.hello : Prop :=
  ∀ (s : State) (rid : BitVec 32) (r : Byte) (k n e : Bytes) (j : Nat),
    s.dev.mgmtUp = true →
    s.dev.fore.engine = [] →
    s.dev.keptHello n = none →
    r.toNat ≤ 2 →
    s.dev.num O.entropyState ≠ 1 →
    s.dev.freeSessions ≠ [] →
    (r = 0 → s.dev.observers.length < 8) →
    s.dev.fore.nextSid ≤ 0xFFFEFFFF →
    (if r = 0 then some 0xFF else s.dev.findKey r.toNat k) = some j →
    ∃ i ∈ s.dev.freeSessions, exec (.hello false rid r k n e) s = s.to (((s.dev.choose s.dev.freeSessions).2.helloTaken i j r k n e).1.deliver none none rid.toNat ((s.dev.choose s.dev.freeSessions).2.helloTaken i j r k n e).2)

/-- FORERI_SEGMENT (R46): a whole message of a session. -/
def Claim.foreriSegment : Prop :=
  ∀ (s : State) (b : Bytes) (ch : Chan),
    s.dev.mgmtUp = true →
    s.dev.sessionOf (beAt b 8 4) = some ch →
    s.dev.expireChan (some ch) = s.dev →
    24 ≤ b.length →
    headerFault b false = none →
    beAt b 7 1 = 1 →
    beAt b 6 1 = 0 →
    bit (beAt b 4 1) 4 = false →
    b.length = 24 + beAt b 16 2 →
    exec (.foreriSegment none b) s = s.to (s.dev.wholeMsg (some ch) none (b.take 24) (slice b 24 (beAt b 16 2)) (b.drop (24 + beAt b 16 2)))

/-- REASSEMBLY_TIMEOUT (R47): the segments are dropped and counted. -/
def Claim.reassemblyTimeout : Prop :=
  ∀ (s : State) (ch : Chan) (rid : BitVec 32) (y : Reasm),
    s.dev.managerRuns = true →
    (s.dev.chanSt ch).reasm = [y] →
    y.rid = rid.toNat →
    y.firstAt + ms 50 ≤ s.dev.uptime →
    exec (.reassemblyTimeout ch rid) s = s.to ((s.dev.setChanSt ch { s.dev.chanSt ch with reasm := [] }).bump O.reassemblyDrops)

/-- NOTIFY_ON_CHANGE (R65): the subscription that is due sends its value. -/
def Claim.notifyOnChange : Prop :=
  ∀ (s : State) (ch : Chan) (num : Byte) (y : Sub) (v : Ty × Bytes),
    ((s.dev.chanSt ch).subs.find? fun y => y.num == num.toNat && !y.periodic) = some y →
    s.dev.subValue ch y.oid = some v →
    s.dev.chanUp ch = true →
    y.lastVal ≠ .bytes v.2 →
    y.lastSent = none →
    exec (.notifyOnChange ch num) s = s.to ((s.dev.setChanSt ch { s.dev.chanSt ch with subs := (s.dev.chanSt ch).subs.map fun z => if z.num = num.toNat then { y with lastSent := some s.dev.uptime, lastVal := .bytes v.2 } else z }).notify ch y.oid v)

/-- NOTIFY_PERIODIC (R65): the subscription that is due sends its value. -/
def Claim.notifyPeriodic : Prop :=
  ∀ (s : State) (ch : Chan) (num : Byte) (y : Sub) (v : Ty × Bytes),
    ((s.dev.chanSt ch).subs.find? fun y => y.num == num.toNat && y.periodic) = some y →
    s.dev.subValue ch y.oid = some v →
    s.dev.chanUp ch = true →
    y.lastSent.getD y.start + ms y.periodMs ≤ s.dev.uptime →
    exec (.notifyPeriodic ch num) s = s.to ((s.dev.setChanSt ch { s.dev.chanSt ch with subs := (s.dev.chanSt ch).subs.map fun z => if z.num = num.toNat then { y with lastSent := some s.dev.uptime, lastVal := .bytes v.2 } else z }).notify ch y.oid v)

/-- AUTH_TIMEOUT (R56): the slot is freed and the failure counted. -/
def Claim.authTimeout : Prop :=
  ∀ (s : State) (n : Fin 16),
    s.dev.managerRuns = true →
    (s.dev.sess n).phase = .pending →
    (s.dev.sess n).since + ms 5000 ≤ s.dev.uptime →
    s.dev.fore.engine = [] →
    exec (.authTimeout n) s = s.to ((s.dev.endSession n).bump O.authFailures)

/-- HELLO_STORE_EXPIRY (R57). -/
def Claim.helloStoreExpiry : Prop :=
  ∀ (s : State) (n : Bytes),
    exec (.helloStoreExpiry n) s = s.to { s.dev with fore := { s.dev.fore with hellos := s.dev.fore.hellos.filter fun h => !(h.nonce == n && decide (h.sentAt + ms 5000 ≤ s.dev.uptime)) } }

/-- SESSION_IDLE_TIMEOUT (R59): the session ends. -/
def Claim.sessionIdleTimeout : Prop :=
  ∀ (s : State) (n : Fin 16),
    s.dev.managerRuns = true →
    (s.dev.sess n).phase = .isOpen →
    (s.dev.sess n).lastReq + ms (1000 * s.dev.num O.sessionIdleTimeoutS) ≤ s.dev.uptime →
    exec (.sessionIdleTimeout n) s = s.to (s.dev.endSession n)

/-- TXN_IDLE_TIMEOUT (R64): the transaction aborts. -/
def Claim.txnIdleTimeout : Prop :=
  ∀ (s : State) (ch : Chan) (t : DictTxn),
    (s.dev.chanSt ch).txn = some t →
    s.dev.managerRuns = true →
    t.lastReq + ms (s.dev.num O.txnIdleTimeoutMs) ≤ s.dev.uptime →
    exec (.txnIdleTimeout ch) s = s.to (s.dev.setChanSt ch { s.dev.chanSt ch with txn := none, txnLost := true })

/-- REGISTER_WRITE (R50): the checks pass and the write takes effect. -/
def Claim.registerWrite : Prop :=
  ∀ (s : State) (ch : Chan) (i : Item) (d : ObjDesc),
    s.dev.chanUp ch = true →
    s.dev.known ch = true →
    (∀ n : Fin 16, ch = .session n → (s.dev.sess n.val).phase = .isOpen) →
    s.dev.checkItem ch false i = .inr d →
    exec (.registerWrite ch i) s = s.to (s.dev.writeObj ch i.oid.toNat d i.value).reply

/-- FORERI_SLOT_SUBMIT (R406): the slot is BUSY and its message goes to the engine. -/
def Claim.foreriSlotSubmit : Prop :=
  ∀ (s : State) (k : Fin 8) (len : BitVec 16) (a : Bytes),
    s.dev.pcieUp = true →
    (tgetD s.dev.host.slots k.val {}).st = .idle →
    24 ≤ len.toNat →
    len.toNat ≤ 8216 →
    exec (.foreriSlotSubmit k len a) s = s.to (({ s.dev with host := { s.dev.host with slots := tset s.dev.host.slots k.val { tgetD s.dev.host.slots k.val {} with st := .busy, msg := padTo len.toNat a, resp := none } {} } } : Device).wholeIn .pcie (some k.val) (padTo len.toNat a))

/-- FORERI_SLOT_FREE (R406): the slot is IDLE. -/
def Claim.foreriSlotFree : Prop :=
  ∀ (s : State) (k : Fin 8),
    s.dev.pcieUp = true →
    (tgetD s.dev.host.slots k.val {}).st = .ready →
    exec (.foreriSlotFree k) s = s.to { s.dev with host := { s.dev.host with slots := tdel s.dev.host.slots k.val } }

/-- MMA (R102, R103): a command that passes its checks enters the array command queue. -/
def Claim.mma : Prop :=
  ∀ (s : State) (c : Fin 32) (k : Fin 16) (j a : Nat),
    s.dev.seqReady (coreNo c k) = true →
    s.dev.listEntry (coreNo c k) (s.dev.core (coreNo c k)).pc = (1, j, a) →
    (s.dev.core (coreNo c k)).arrayWaits < 4 →
    aligned a 128 = true →
    a + 128 ≤ cmBytes →
    leAt (s.dev.cmGet (coreNo c k) a 128) 7 1 = 0x10 →
    (Mma.decode (s.dev.cmGet (coreNo c k) a 128)).formOk = true →
    ((Mma.decode (s.dev.cmGet (coreNo c k) a 128)).acc == 1) = (s.dev.core (coreNo c k)).chainHeld →
    (Mma.decode (s.dev.cmGet (coreNo c k) a 128)).fn ≠ 8 →
    beyondCm (Mma.decode (s.dev.cmGet (coreNo c k) a 128)).extents = false →
    exec (.mma c k) s = s.to (let x := s.dev.core (coreNo c k)
       (s.dev.setCore (coreNo c k) { x with
          arrayQ := x.arrayQ ++ [{ Mma.decode (s.dev.cmGet (coreNo c k) a 128) with poly := [] }]
          arrayAt := if x.arrayQ.isEmpty then s.dev.uptime else x.arrayAt }).advance (coreNo c k))

/-- ARRAY_COMPUTE_END (R82, R97, R98): the command at the head of the array ends in its bank. -/
def Claim.arrayComputeEnd : Prop :=
  ∀ (s : State) (c : Fin 32) (k : Fin 16) (u v : BitVec 32) (m : Mma) (rest : List Mma) (b : Bank) (l : List Bank),
    s.dev.coreLive (coreNo c k) = true →
    s.dev.arrayMay (coreNo c k) = true →
    (s.dev.core (coreNo c k)).arrayQ = m :: rest →
    (s.dev.core (coreNo c k)).bankFor m = some (b, l) →
    exec (.arrayComputeEnd c k u v []) s = s.to ((s.dev.computeEnd (coreNo c k) u.toNat v.toNat []).arrayOver (coreNo c k))

/-- DRAIN_START (R114): the oldest finished bank claims an entry of the queue. -/
def Claim.drainStart : Prop :=
  ∀ (s : State) (c : Fin 32) (k : Fin 16) (i : Nat) (m : Mma),
    s.dev.coreLive (coreNo c k) = true →
    ((s.dev.core (coreNo c k)).banks.any fun b => b.st == BankState.draining) = false →
    (s.dev.core (coreNo c k)).queue.length < 8 →
    ((s.dev.core (coreNo c k)).banks.findIdx? fun b => b.st == BankState.full) = some i →
    ((s.dev.core (coreNo c k)).banks.getD i {}).cmd = some m →
    (s.dev.core (coreNo c k)).queue.length < s.dev.num (O.queuePeak (coreNo c k / 16) (coreNo c k % 16)) →
    exec (.drainStart c k) s = s.to (let x := s.dev.core (coreNo c k)
       s.dev.setCore (coreNo c k) { x with banks := x.banks.set i { x.banks.getD i {} with st := .draining }, queue := x.queue ++ [{ cmd := m }] })

/-- DRAIN_END (R110, R112): the bank is free and its entry holds the tile. -/
def Claim.drainEnd : Prop :=
  ∀ (s : State) (c : Fin 32) (k : Fin 16) (i : Nat) (m : Mma),
    s.dev.coreLive (coreNo c k) = true →
    ((s.dev.core (coreNo c k)).banks.findIdx? fun b => b.st == BankState.draining) = some i →
    ((s.dev.core (coreNo c k)).banks.getD i {}).cmd = some m →
    exec (.drainEnd c k []) s = s.to (let x := s.dev.core (coreNo c k)
       (s.dev.setCore (coreNo c k) { x with
          banks := x.banks.set i {},
          queue := x.queue.map fun e => if e.filled then e else { filled := true, cmd := m, tile := s.dev.drained (coreNo c k) m (x.banks.getD i {}).tile } }).bump
        (O.tilesDrained (coreNo c k / 16) (coreNo c k % 16)))

/-- DIRECT_STORE_END (R111): the tile is written to core memory and leaves the queue. -/
def Claim.directStoreEnd : Prop :=
  ∀ (s : State) (c : Fin 32) (k : Fin 16) (e : QEntry) (rest : List QEntry),
    s.dev.coreLive (coreNo c k) = true →
    (s.dev.core (coreNo c k)).queue = e :: rest →
    e.filled = true →
    e.cmd.dest = 1 →
    exec (.directStoreEnd c k []) s = s.to ((s.dev.storeTile (coreNo c k) e.cmd.out e.cmd.mRows e.cmd.nCols (tileAt e.tile)).setCore (coreNo c k) { s.dev.core (coreNo c k) with queue := rest })

/-- FENCE (R99): the sequencer waits. -/
def Claim.fence : Prop :=
  ∀ (s : State) (c : Fin 32) (k : Fin 16) (j a : Nat),
    s.dev.seqReady (coreNo c k) = true →
    s.dev.listEntry (coreNo c k) (s.dev.core (coreNo c k)).pc = (2, j, a) →
    exec (.fence c k) s = s.to ((s.dev.advance (coreNo c k)).setCore (coreNo c k) { (s.dev.advance (coreNo c k)).core (coreNo c k) with seq := .fence })

/-- FENCE_RELEASE (R99): with every earlier command over, the sequencer goes on. -/
def Claim.fenceRelease : Prop :=
  ∀ (s : State) (c : Fin 32) (k : Fin 16),
    s.dev.coreLive (coreNo c k) = true →
    s.dev.coreHeld (coreNo c k) = false →
    (s.dev.core (coreNo c k)).seq = .fence →
    (s.dev.core (coreNo c k)).fenceMet = true →
    exec (.fenceRelease c k) s = s.to (s.dev.setCore (coreNo c k) { s.dev.core (coreNo c k) with seq := .run })

/-- DMA (R122): the descriptor enters its channel's queue. -/
def Claim.dma : Prop :=
  ∀ (s : State) (c : Fin 32) (k : Fin 16) (j a : Nat),
    s.dev.seqReady (coreNo c k) = true →
    s.dev.listEntry (coreNo c k) (s.dev.core (coreNo c k)).pc = (3, j, a) →
    (tgetD (s.dev.core (coreNo c k)).dma j {}).queue.length < 16 →
    aligned a 64 = true →
    a + 64 ≤ cmBytes →
    exec (.dma c k) s = s.to (let x := s.dev.core (coreNo c k)
       let d := tgetD x.dma j {}
       (s.dev.setCore (coreNo c k) { x with dma := tset x.dma j { d with queue := d.queue ++ [s.dev.cmGet (coreNo c k) a 64] } {} }).advance (coreNo c k))

/-- WAIT_DMA (R124): with fewer completions the sequencer waits. -/
def Claim.waitDma : Prop :=
  ∀ (s : State) (c : Fin 32) (k : Fin 16) (j a : Nat),
    s.dev.seqReady (coreNo c k) = true →
    s.dev.listEntry (coreNo c k) (s.dev.core (coreNo c k)).pc = (4, j, a) →
    (s.dev.advance (coreNo c k)).dmaCount (coreNo c k) j < a →
    exec (.waitDma c k) s = s.to ((s.dev.advance (coreNo c k)).setCore (coreNo c k) { (s.dev.advance (coreNo c k)).core (coreNo c k) with seq := .waitDma j a })

/-- WAIT_DMA_RELEASE (R124): the completion count is reached. -/
def Claim.waitDmaRelease : Prop :=
  ∀ (s : State) (c : Fin 32) (k : Fin 16) (j a : Nat),
    (s.dev.core (coreNo c k)).seq = .waitDma j a →
    s.dev.coreLive (coreNo c k) = true →
    s.dev.coreHeld (coreNo c k) = false →
    a ≤ s.dev.dmaCount (coreNo c k) j →
    exec (.waitDmaRelease c k) s = s.to (s.dev.setCore (coreNo c k) { s.dev.core (coreNo c k) with seq := .run })

/-- VECTOR (R131, R146): a command that passes its checks enters the vector queue. -/
def Claim.vector : Prop :=
  ∀ (s : State) (c : Fin 32) (k : Fin 16) (j a : Nat),
    s.dev.seqReady (coreNo c k) = true →
    s.dev.listEntry (coreNo c k) (s.dev.core (coreNo c k)).pc = (5, j, a) →
    (s.dev.core (coreNo c k)).vq.length < 4 →
    aligned a 64 = true →
    a + 192 ≤ cmBytes →
    leAt (s.dev.cmGet (coreNo c k) a 192) 7 1 = 0x20 →
    (VCmd.decode (s.dev.cmGet (coreNo c k) a 192)).formOk = true →
    (s.dev.core (coreNo c k)).kindsOk (VCmd.decode (s.dev.cmGet (coreNo c k) a 192)) = true →
    (VCmd.decode (s.dev.cmGet (coreNo c k) a 192)).argsOk = true →
    (s.dev.polyTables (coreNo c k) (VCmd.decode (s.dev.cmGet (coreNo c k) a 192)).polyAddrs).isSome = true →
    beyondCm (s.dev.vExtents (coreNo c k) (VCmd.decode (s.dev.cmGet (coreNo c k) a 192))) = false →
    exec (.vector c k) s = s.to (let x := s.dev.core (coreNo c k)
       (s.dev.setCore (coreNo c k) { x with vq := x.vq ++ [{ VCmd.decode (s.dev.cmGet (coreNo c k) a 192) with polys := (s.dev.polyTables (coreNo c k) (VCmd.decode (s.dev.cmGet (coreNo c k) a 192)).polyAddrs).getD [] }] }).advance (coreNo c k))

/-- END (R155): the list is over and the core idle. -/
def Claim.listEnds : Prop :=
  ∀ (s : State) (c : Fin 32) (k : Fin 16) (j a : Nat),
    s.dev.seqReady (coreNo c k) = true →
    s.dev.listEntry (coreNo c k) (s.dev.core (coreNo c k)).pc = (6, j, a) →
    exec (.listEnd c k) s = s.to ((s.dev.advance (coreNo c k)).listEnd (coreNo c k))

/-- VECTOR_PASS_START (R130): with its source there the pass starts. -/
def Claim.vectorPassStart : Prop :=
  ∀ (s : State) (c : Fin 32) (k : Fin 16) (v : VCmd),
    s.dev.coreLive (coreNo c k) = true →
    s.dev.coreHeld (coreNo c k) = false →
    (s.dev.core (coreNo c k)).vq.head? = some v →
    (s.dev.core (coreNo c k)).vrun = none →
    (s.dev.core (coreNo c k)).sourceThere v = true →
    v.src ≠ 3 →
    exec (.vectorPassStart c k) s = s.to ((s.dev.setCore (coreNo c k) { s.dev.core (coreNo c k) with vrun := some s.dev.uptime }).vectorView (coreNo c k))

/-- VECTOR_PASS_END (R133, R147): the pass commits its results. -/
def Claim.vectorPassEnd : Prop :=
  ∀ (s : State) (c : Fin 32) (k : Fin 16) (w o : BitVec 32) (r : Fin 64) (v : VCmd) (t : Nat),
    s.dev.coreLive (coreNo c k) = true →
    (s.dev.core (coreNo c k)).vq.head? = some v →
    (s.dev.core (coreNo c k)).vrun = some t →
    exec (.vectorPassEnd c k w o r []) s = s.to (let n := coreNo c k
       (((((s.dev.bump (O.vectorBusyCycles (n / 16) (n % 16)) (v.cycles + w.toNat - o.toNat)).bump (O.vectorWaitCycles (n / 16) (n % 16)) w.toNat).cmErrors n []).noteRun n t).passCommit n v).vectorView n)

/-- CMEM_SCRUB (R121): the errors met are counted. -/
def Claim.cmemScrub : Prop :=
  ∀ (s : State) (c : Fin 32) (k : Fin 16) (h : List EccHit),
    s.dev.runs (clusterDomain c) = true →
    exec (.cmemScrub c k h) s = s.to (s.dev.cmErrors (coreNo c k) h)

/-- DMA_COPY (R122, R125): the descriptor that passes its checks runs. -/
def Claim.dmaCopy : Prop :=
  ∀ (s : State) (c : Fin 32) (k : Fin 16) (j : Fin 4) (raw : Bytes) (job : Nat) (x : Job),
    (s.dev.chan (coreNo c k) j).queue.head? = some raw →
    s.dev.occupant (coreNo c k) = some job →
    s.dev.job? job = some x →
    s.dev.coreLive (coreNo c k) = true →
    s.dev.coreHeld (coreNo c k) = false →
    s.dev.num (O.dmaState (coreNo c k / 16) (dmaEl (coreNo c k) j)) = 0 →
    (s.dev.chan (coreNo c k) j).active = none →
    (s.dev.chan (coreNo c k) j).halted = false →
    (Desc.decode raw).op = 1 →
    (Desc.decode raw).formFault = none →
    (Desc.decode raw).violates x = none →
    s.dev.dmaHold (coreNo c k) j x (Desc.decode raw) = none →
    (((Desc.decode raw).streams x).find? fun t => (s.dev.hbmStreamBad t).1 || (s.dev.hbmStreamBad t).2) = none →
    exec (.dmaCopy c k j) s = s.to ((s.dev.setChan (coreNo c k) j { s.dev.chan (coreNo c k) j with active := some s.dev.uptime }).setNum (O.dmaState (coreNo c k / 16) (dmaEl (coreNo c k) j)) 1)

/-- DMA_CONVERT (R122, R125): the descriptor that passes its checks runs. -/
def Claim.dmaConvert : Prop :=
  ∀ (s : State) (c : Fin 32) (k : Fin 16) (j : Fin 4) (raw : Bytes) (job : Nat) (x : Job),
    (s.dev.chan (coreNo c k) j).queue.head? = some raw →
    s.dev.occupant (coreNo c k) = some job →
    s.dev.job? job = some x →
    s.dev.coreLive (coreNo c k) = true →
    s.dev.coreHeld (coreNo c k) = false →
    s.dev.num (O.dmaState (coreNo c k / 16) (dmaEl (coreNo c k) j)) = 0 →
    (s.dev.chan (coreNo c k) j).active = none →
    (s.dev.chan (coreNo c k) j).halted = false →
    (Desc.decode raw).op = 2 →
    (Desc.decode raw).formFault = none →
    (Desc.decode raw).violates x = none →
    s.dev.dmaHold (coreNo c k) j x (Desc.decode raw) = none →
    (((Desc.decode raw).streams x).find? fun t => (s.dev.hbmStreamBad t).1 || (s.dev.hbmStreamBad t).2) = none →
    exec (.dmaConvert c k j) s = s.to ((s.dev.setChan (coreNo c k) j { s.dev.chan (coreNo c k) j with active := some s.dev.uptime }).setNum (O.dmaState (coreNo c k / 16) (dmaEl (coreNo c k) j)) 1)

/-- DMA_FILL (R122, R125): the descriptor that passes its checks runs. -/
def Claim.dmaFill : Prop :=
  ∀ (s : State) (c : Fin 32) (k : Fin 16) (j : Fin 4) (raw : Bytes) (job : Nat) (x : Job),
    (s.dev.chan (coreNo c k) j).queue.head? = some raw →
    s.dev.occupant (coreNo c k) = some job →
    s.dev.job? job = some x →
    s.dev.coreLive (coreNo c k) = true →
    s.dev.coreHeld (coreNo c k) = false →
    s.dev.num (O.dmaState (coreNo c k / 16) (dmaEl (coreNo c k) j)) = 0 →
    (s.dev.chan (coreNo c k) j).active = none →
    (s.dev.chan (coreNo c k) j).halted = false →
    (Desc.decode raw).op = 3 →
    (Desc.decode raw).formFault = none →
    (Desc.decode raw).violates x = none →
    s.dev.dmaHold (coreNo c k) j x (Desc.decode raw) = none →
    (((Desc.decode raw).streams x).find? fun t => (s.dev.hbmStreamBad t).1 || (s.dev.hbmStreamBad t).2) = none →
    exec (.dmaFill c k j) s = s.to ((s.dev.setChan (coreNo c k) j { s.dev.chan (coreNo c k) j with active := some s.dev.uptime }).setNum (O.dmaState (coreNo c k / 16) (dmaEl (coreNo c k) j)) 1)

/-- DMA_DESCRIPTOR_COMPLETE (R122, R126): the rows are moved and the descriptor counted. -/
def Claim.dmaDescriptorComplete : Prop :=
  ∀ (s : State) (c : Fin 32) (k : Fin 16) (j : Fin 4) (raw : Bytes) (t job : Nat) (x : Job),
    (s.dev.chan (coreNo c k) j).queue.head? = some raw →
    (s.dev.chan (coreNo c k) j).active = some t →
    s.dev.occupant (coreNo c k) = some job →
    s.dev.job? job = some x →
    s.dev.coreLive (coreNo c k) = true →
    s.dev.dmaWaits (Desc.decode raw) x = false →
    s.dev.bufOn (x.buf (Desc.decode raw).srcBuf) = true →
    (s.dev.unstall (dmaMaster (coreNo c k) j)).dmaBadRow (Desc.decode raw) x = none →
    exec (.dmaDescriptorComplete c k j none {}) s = s.to (((((s.dev.unstall (dmaMaster (coreNo c k) j)).dmaMove (coreNo c k) j job (Desc.decode raw) x (Desc.decode raw).rows)).dmaDone (coreNo c k) j .ok).noteRun (coreNo c k) t)

/-- A descriptor that meets an uncorrected error (R126): it ends at the first such row with E_UNCORRECTED, and the channel halts. -/
def Claim.dmaHalts : Prop :=
  ∀ (s : Device) (n j : Nat) (raw : Bytes) (t job r : Nat) (x : Job),
    (s.chan n j).queue.head? = some raw →
    (s.chan n j).active = some t →
    s.occupant n = some job →
    s.job? job = some x →
    s.dmaWaits (Desc.decode raw) x = false →
    s.bufOn (x.buf (Desc.decode raw).srcBuf) = true →
    (s.unstall (dmaMaster n j)).dmaBadRow (Desc.decode raw) x = none →
    r < (Desc.decode raw).rows →
    s.dmaEnd n j (some r) {} = (((((s.unstall (dmaMaster n j)).dmaMove n j job (Desc.decode raw) x r)).dmaDone n j .uncorrected).dmaHalt n j).noteRun n t

/-- WINDOW_MAX (R155, R167): the command that passes its checks enters the window unit's queue. -/
def Claim.windowMax : Prop :=
  ∀ (s : State) (c : Fin 32) (b : Bytes),
    s.dev.ctrlWorks c = true →
    (s.dev.clu c).port = [] →
    b.length = 64 →
    (s.dev.clu c).winQ.length < 9 →
    (WinCmd.decode b).op = 0 →
    leAt b 7 1 = 0x30 →
    (WinCmd.decode b).headOk = true →
    (WinCmd.decode b).mapsOk = true →
    (WinCmd.decode b).geomOk = true →
    (WinCmd.decode b).cycles ≤ 30000 →
    ((WinCmd.decode b).touches.any fun r => !s.dev.inPart c (WinCmd.decode b).job r) = false →
    exec (.windowMax c b) s = s.to (let x := s.dev.clu c
       (s.dev.setClu c { x with winQ := x.winQ ++ [WinCmd.decode b], winAt := if x.winQ.isEmpty then s.dev.uptime else x.winAt }).setNum (O.windowState c) 1)

/-- WINDOW_AVG (R155, R167): the command that passes its checks enters the window unit's queue. -/
def Claim.windowAvg : Prop :=
  ∀ (s : State) (c : Fin 32) (b : Bytes),
    s.dev.ctrlWorks c = true →
    (s.dev.clu c).port = [] →
    b.length = 64 →
    (s.dev.clu c).winQ.length < 9 →
    (WinCmd.decode b).op = 1 →
    leAt b 7 1 = 0x30 →
    (WinCmd.decode b).headOk = true →
    (WinCmd.decode b).mapsOk = true →
    (WinCmd.decode b).geomOk = true →
    (WinCmd.decode b).cycles ≤ 30000 →
    ((WinCmd.decode b).touches.any fun r => !s.dev.inPart c (WinCmd.decode b).job r) = false →
    exec (.windowAvg c b) s = s.to (let x := s.dev.clu c
       (s.dev.setClu c { x with winQ := x.winQ ++ [WinCmd.decode b], winAt := if x.winQ.isEmpty then s.dev.uptime else x.winAt }).setNum (O.windowState c) 1)

/-- WINDOW_MAX_IDX (R155, R167): the command that passes its checks enters the window unit's queue. -/
def Claim.windowMaxIdx : Prop :=
  ∀ (s : State) (c : Fin 32) (b : Bytes),
    s.dev.ctrlWorks c = true →
    (s.dev.clu c).port = [] →
    b.length = 64 →
    (s.dev.clu c).winQ.length < 9 →
    (WinCmd.decode b).op = 2 →
    leAt b 7 1 = 0x30 →
    (WinCmd.decode b).headOk = true →
    (WinCmd.decode b).mapsOk = true →
    (WinCmd.decode b).geomOk = true →
    (WinCmd.decode b).cycles ≤ 30000 →
    ((WinCmd.decode b).touches.any fun r => !s.dev.inPart c (WinCmd.decode b).job r) = false →
    exec (.windowMaxIdx c b) s = s.to (let x := s.dev.clu c
       (s.dev.setClu c { x with winQ := x.winQ ++ [WinCmd.decode b], winAt := if x.winQ.isEmpty then s.dev.uptime else x.winAt }).setNum (O.windowState c) 1)

/-- WINDOW_MAX_BWD (R155, R167): the command that passes its checks enters the window unit's queue. -/
def Claim.windowMaxBwd : Prop :=
  ∀ (s : State) (c : Fin 32) (b : Bytes),
    s.dev.ctrlWorks c = true →
    (s.dev.clu c).port = [] →
    b.length = 64 →
    (s.dev.clu c).winQ.length < 9 →
    (WinCmd.decode b).op = 3 →
    leAt b 7 1 = 0x30 →
    (WinCmd.decode b).headOk = true →
    (WinCmd.decode b).mapsOk = true →
    (WinCmd.decode b).geomOk = true →
    (WinCmd.decode b).cycles ≤ 30000 →
    ((WinCmd.decode b).touches.any fun r => !s.dev.inPart c (WinCmd.decode b).job r) = false →
    exec (.windowMaxBwd c b) s = s.to (let x := s.dev.clu c
       (s.dev.setClu c { x with winQ := x.winQ ++ [WinCmd.decode b], winAt := if x.winQ.isEmpty then s.dev.uptime else x.winAt }).setNum (O.windowState c) 1)

/-- WINDOW_AVG_BWD (R155, R167): the command that passes its checks enters the window unit's queue. -/
def Claim.windowAvgBwd : Prop :=
  ∀ (s : State) (c : Fin 32) (b : Bytes),
    s.dev.ctrlWorks c = true →
    (s.dev.clu c).port = [] →
    b.length = 64 →
    (s.dev.clu c).winQ.length < 9 →
    (WinCmd.decode b).op = 4 →
    leAt b 7 1 = 0x30 →
    (WinCmd.decode b).headOk = true →
    (WinCmd.decode b).mapsOk = true →
    (WinCmd.decode b).geomOk = true →
    (WinCmd.decode b).cycles ≤ 30000 →
    ((WinCmd.decode b).touches.any fun r => !s.dev.inPart c (WinCmd.decode b).job r) = false →
    exec (.windowAvgBwd c b) s = s.to (let x := s.dev.clu c
       (s.dev.setClu c { x with winQ := x.winQ ++ [WinCmd.decode b], winAt := if x.winQ.isEmpty then s.dev.uptime else x.winAt }).setNum (O.windowState c) 1)

/-- WINDOW_COMMAND_END (R157 to R162): the rows of the command at the head are written. -/
def Claim.windowCommandEnd : Prop :=
  ∀ (s : State) (c : Fin 32) (w : BitVec 32) (x : WinCmd) (rest : List WinCmd),
    s.dev.works (clusterDomain c) = true →
    (s.dev.clu c).winQ = x :: rest →
    exec (.windowCommandEnd c w none []) s = s.to ((s.dev.windowEnd c w.toNat none []).portGoes c)

/-- CAMEO_STEM (R163, R167): the command that passes its checks enters Cameo's queue. -/
def Claim.cameoStem : Prop :=
  ∀ (s : State) (c : Fin 32) (b : Bytes),
    s.dev.ctrlWorks c = true →
    (s.dev.clu c).port = [] →
    b.length = 96 →
    (s.dev.clu c).camQ.length < 9 →
    (CameoCmd.decode b).mode = 0 →
    leAt b 7 1 = 0x31 →
    (CameoCmd.decode b).headOk = true →
    (CameoCmd.decode b).mapsOk = true →
    (CameoCmd.decode b).geomOk = true →
    (CameoCmd.decode b).cycles ≤ 30000 →
    ((CameoCmd.decode b).touches.any fun r => !s.dev.inPart c (CameoCmd.decode b).job r) = false →
    exec (.cameoStem c b) s = s.to (let x := s.dev.clu c
       (s.dev.setClu c { x with camQ := x.camQ ++ [CameoCmd.decode b], camAt := if x.camQ.isEmpty then s.dev.uptime else x.camAt }).setNum (O.cameoState c) 1)

/-- CAMEO_HEAD (R163, R167): the command that passes its checks enters Cameo's queue. -/
def Claim.cameoHead : Prop :=
  ∀ (s : State) (c : Fin 32) (b : Bytes),
    s.dev.ctrlWorks c = true →
    (s.dev.clu c).port = [] →
    b.length = 96 →
    (s.dev.clu c).camQ.length < 9 →
    (CameoCmd.decode b).mode = 1 →
    leAt b 7 1 = 0x31 →
    (CameoCmd.decode b).headOk = true →
    (CameoCmd.decode b).mapsOk = true →
    (CameoCmd.decode b).geomOk = true →
    (CameoCmd.decode b).cycles ≤ 30000 →
    ((CameoCmd.decode b).touches.any fun r => !s.dev.inPart c (CameoCmd.decode b).job r) = false →
    exec (.cameoHead c b) s = s.to (let x := s.dev.clu c
       (s.dev.setClu c { x with camQ := x.camQ ++ [CameoCmd.decode b], camAt := if x.camQ.isEmpty then s.dev.uptime else x.camAt }).setNum (O.cameoState c) 1)

/-- CAMEO_STEM_WGRAD (R163, R167): the command that passes its checks enters Cameo's queue. -/
def Claim.cameoStemWgrad : Prop :=
  ∀ (s : State) (c : Fin 32) (b : Bytes),
    s.dev.ctrlWorks c = true →
    (s.dev.clu c).port = [] →
    b.length = 96 →
    (s.dev.clu c).camQ.length < 9 →
    (CameoCmd.decode b).mode = 2 →
    leAt b 7 1 = 0x31 →
    (CameoCmd.decode b).headOk = true →
    (CameoCmd.decode b).mapsOk = true →
    (CameoCmd.decode b).geomOk = true →
    (CameoCmd.decode b).cycles ≤ 30000 →
    ((CameoCmd.decode b).touches.any fun r => !s.dev.inPart c (CameoCmd.decode b).job r) = false →
    exec (.cameoStemWgrad c b) s = s.to (let x := s.dev.clu c
       (s.dev.setClu c { x with camQ := x.camQ ++ [CameoCmd.decode b], camAt := if x.camQ.isEmpty then s.dev.uptime else x.camAt }).setNum (O.cameoState c) 1)

/-- CAMEO_COMMAND_END (R163 to R166): the rows of the command at the head are written. -/
def Claim.cameoCommandEnd : Prop :=
  ∀ (s : State) (c : Fin 32) (w : BitVec 32) (x : CameoCmd) (rest : List CameoCmd),
    s.dev.works (clusterDomain c) = true →
    (s.dev.clu c).camQ = x :: rest →
    exec (.cameoCommandEnd c w none []) s = s.to ((s.dev.cameoEnd c w.toNat none []).portGoes c)

/-- CLMEM_SCRUB (R153): the errors met are counted. -/
def Claim.clmemScrub : Prop :=
  ∀ (s : State) (c : Fin 32) (h : List EccHit),
    s.dev.runs (clusterDomain c) = true →
    exec (.clmemScrub c h) s = s.to (s.dev.clmErrors c h)

/-- The frame at the head of the free list (R187, R188): after the limbo frames that may move have moved, it leaves the list with count 1,
LIVE. -/
def Claim.txTakes : Prop :=
  ∀ (x : Pool) (c : TxCtx) (s s1 s2 s3 s4 s5 s6 : Device) (pins : List Nat) (k g : Nat) (r : FrameRec),
    txPins x c s = (s1, .ok pins) →
    txReap reapMost x pins c s1 = (s2, .ok k) →
    txLe x.freeHeadAt 4 c s2 = (s3, .ok g) →
    g % 2 ^ 24 ≠ listEnd →
    txFrame x g c s3 = (s4, .ok r) →
    txUnlink x.freeHeadAt x.freeTailAt r c s4 = (s5, .ok ()) →
    txSetFrame x g { r with count := 1, st := 1, next := listEnd, node := 0xFFFFFFFF } c s5 = (s6, .ok ()) →
    txTake x c s = (s6, .ok (some g, k))

/-- A limbo frame at the head whose tag every pin exceeds is FREE at the tail of the free list (R188). -/
def Claim.txReaps : Prop :=
  ∀ (n : Nat) (x : Pool) (c : TxCtx) (s s1 s2 s3 s4 s5 : Device) (pins : List Nat) (h k : Nat) (r : FrameRec),
    txLe x.limboHeadAt 4 c s = (s1, .ok h) →
    h % 2 ^ 24 ≠ listEnd →
    txFrame x h c s1 = (s2, .ok r) →
    (pins.all fun v => decide (r.tag < v)) = true →
    txUnlink x.limboHeadAt x.limboTailAt r c s2 = (s3, .ok ()) →
    txAppend x x.freeHeadAt x.freeTailAt h { r with st := 0 } c s3 = (s4, .ok ()) →
    txReap n x pins c s4 = (s5, .ok k) →
    txReap (n + 1) x pins c s = (s5, .ok (k + 1))

/-- A frame that others name too loses one reference (R187). -/
def Claim.txUnrefShared : Prop :=
  ∀ (x : Pool) (f : Nat) (c : TxCtx) (s s1 s2 : Device) (r : FrameRec),
    txFrame x f c s = (s1, .ok r) →
    1 < r.count →
    txSetFrame x f { r with count := r.count - 1 } c s1 = (s2, .ok ()) →
    txUnref x f c s = (s2, .ok 0)

/-- The last reference (R188): the frame goes to the tail of the limbo list tagged with the epoch, which rises by 1. -/
def Claim.txUnrefLast : Prop :=
  ∀ (x : Pool) (f : Nat) (c : TxCtx) (s s1 s2 s3 s4 : Device) (r : FrameRec) (e : Nat),
    txFrame x f c s = (s1, .ok r) →
    r.count ≤ 1 →
    txLe x.epochAt 8 c s1 = (s2, .ok e) →
    txAppend x x.limboHeadAt x.limboTailAt f { r with count := 0, st := 2, tag := e } c s2 = (s3, .ok ()) →
    txPutLe x.epochAt 8 (e + 1) c s3 = (s4, .ok ()) →
    txUnref x f c s = (s4, .ok 1)

/-- ALLOC (R189): an entry that is not valid names the frame taken, empty, and FREE is one less. -/
def Claim.txAllocs : Prop :=
  ∀ (p : Nat) (x : Pool) (j : Job) (pt b : Nat) (c : TxCtx) (s s1 s2 s3 : Device) (e : Pte) (g k : Nat),
    b < 32768 →
    txPte x j pt b c s = (s1, .ok e) →
    e.valid = false →
    txTake x c s1 = (s2, .ok (some g, k)) →
    txSetPte x j pt b { frame := g, fill := 0, valid := true } c s2 = (s3, .ok ()) →
    txAlloc p x j pt b c s = (s3, .ok { done := fun d => d.poolCounts p 1 k 0 })

/-- ALLOC with no frame FREE (R189): E_LIMIT, counted in D.00.029. -/
def Claim.txAllocNone : Prop :=
  ∀ (p : Nat) (x : Pool) (j : Job) (pt b : Nat) (c : TxCtx) (s s1 s2 : Device) (e : Pte) (k : Nat),
    b < 32768 →
    txPte x j pt b c s = (s1, .ok e) →
    e.valid = false →
    txTake x c s1 = (s2, .ok (none, k)) →
    txAlloc p x j pt b c s = (s2, .ok { st := .limit, done := fun d => (d.poolCounts p 0 k 0).bump (O.allocRefusals p) })

/-- LOOKUP (R189, R193): the bucket of the block's key under its parent is read. -/
def Claim.txLooks : Prop :=
  ∀ (p root : Nat) (x : Pool) (j : Job) (pt b : Nat) (c : TxCtx) (s s1 s2 s3 : Device) (t : Bytes) (e : Pte) (pf pk : Nat) (ways : List (Nat × Node)),
    txPte x j pt b c s = (s1, .ok e) →
    e.valid = false →
    txParent root x j pt b c s1 = (s2, .ok (some (pf, pk))) →
    txBucket x (blockKey pk t) c s2 = (s3, .ok ways) →
    txLookup p root x j pt b t c s = txFound p x j pt b pf (blockKey pk t) t ways c s3

/-- LOOKUP with a way that holds the key, the parent and every token id (R193): its frame has one reference more and the entry names it,
full; ways with the key alone are collisions. -/
def Claim.txHit : Prop :=
  ∀ (p : Nat) (x : Pool) (j : Job) (pt b : Nat) (c : TxCtx) (pf key : Nat) (t : Bytes) (ways : List (Nat × Node)) (s s1 s2 s3 : Device) (w : Nat × Node) (r : FrameRec),
    ((sameKey key ways).find? fun w => confirmed pf t w.2) = some w →
    txFrame x w.2.frame c s = (s1, .ok r) →
    txSetFrame x w.2.frame { r with count := r.count + 1 } c s1 = (s2, .ok ()) →
    txSetPte x j pt b { frame := w.2.frame, fill := 64, valid := true } c s2 = (s3, .ok ()) →
    txFound p x j pt b pf key t ways c s = (s3, .ok { detail := 1, done := fun d => (d.collisions p pf t (sameKey key ways)).bump (O.treeHits p) })

/-- LOOKUP with no such way (R193): a miss. -/
def Claim.txMiss : Prop :=
  ∀ (p : Nat) (x : Pool) (j : Job) (pt b : Nat) (c : TxCtx) (pf key : Nat) (t : Bytes) (ways : List (Nat × Node)) (s : Device),
    ((sameKey key ways).find? fun w => confirmed pf t w.2) = none →
    txFound p x j pt b pf key t ways c s = (s, .ok { done := fun d => (d.collisions p pf t (sameKey key ways)).bump (O.treeMisses p) })

/-- INSERT (R189, R193): a full block takes the first way of its bucket that is not valid; its frame and its parent have one reference and
one child more. -/
def Claim.txInserts : Prop :=
  ∀ (p root : Nat) (x : Pool) (j : Job) (pt b : Nat) (c : TxCtx) (s s1 s2 s3 s4 s5 s6 s7 : Device) (t : Bytes) (e : Pte) (r : FrameRec) (pf pk i : Nat) (ways : List (Nat × Node)) (n : Node),
    txPte x j pt b c s = (s1, .ok e) →
    e.valid = true →
    e.fill = 64 →
    txFrame x e.frame c s1 = (s2, .ok r) →
    r.inTree = false →
    txParent root x j pt b c s2 = (s3, .ok (some (pf, pk))) →
    txBucket x (blockKey pk t) c s3 = (s4, .ok ways) →
    (ways.find? fun w => !w.2.valid) = some (i, n) →
    txSetNode x i { key := blockKey pk t, frame := e.frame, parent := pf, children := 0, valid := true, tokens := t } c s4 = (s5, .ok ()) →
    txChildren x pf true c s5 = (s6, .ok ()) →
    txSetFrame x e.frame { r with count := r.count + 1, node := i } c s6 = (s7, .ok ()) →
    txInsert p root x j pt b t c s = (s7, .ok { done := fun d => d.bump (O.treeNodes p) })

/-- FILL (R189): the fill count of a frame that the entry alone names rises. -/
def Claim.txFills : Prop :=
  ∀ (x : Pool) (j : Job) (pt b : Nat) (c : TxCtx) (s s1 s2 s3 : Device) (n : Nat) (e : Pte) (r : FrameRec),
    txPte x j pt b c s = (s1, .ok e) →
    e.valid = true →
    e.fill ≤ n →
    txFrame x e.frame c s1 = (s2, .ok r) →
    r.count ≤ 1 →
    n ≤ 64 →
    txSetPte x j pt b { e with fill := n } c s2 = (s3, .ok ()) →
    txFill x j pt b n c s = (s3, .ok {})

/-- PRUNE (R189, R193): a node without children leaves the tree, and its frame and its parent have one reference and one child less. -/
def Claim.txPrunes : Prop :=
  ∀ (p : Nat) (x : Pool) (f : Nat) (c : TxCtx) (s s1 s2 s3 s4 s5 s6 : Device) (r : FrameRec) (n : Node) (k : Nat),
    f < x.frames →
    txFrame x f c s = (s1, .ok r) →
    r.inTree = true →
    txNode x r.node c s1 = (s2, .ok n) →
    n.children = 0 →
    txSetNode x r.node { n with valid := false } c s2 = (s3, .ok ()) →
    txChildren x n.parent false c s3 = (s4, .ok ()) →
    txSetFrame x f { r with node := 0xFFFFFFFF } c s4 = (s5, .ok ()) →
    txUnref x f c s5 = (s6, .ok k) →
    txPrune p x f c s = (s6, .ok { done := fun d => (d.poolCounts p 0 0 k).drop (O.treeNodes p) })

/-- COW (R191): of a frame that others name too a copy is to be made, in the frame at the head of the free list, which the entry names. -/
def Claim.txCows : Prop :=
  ∀ (x : Pool) (j : Job) (pt b : Nat) (c : TxCtx) (s s1 s2 s3 s4 s5 : Device) (e : Pte) (r : FrameRec) (g k u : Nat),
    txPte x j pt b c s = (s1, .ok e) →
    e.valid = true →
    txFrame x e.frame c s1 = (s2, .ok r) →
    1 < r.count →
    txTake x c s2 = (s3, .ok (some g, k)) →
    txSetPte x j pt b { e with frame := g } c s3 = (s4, .ok ()) →
    txUnref x e.frame c s4 = (s5, .ok u) →
    txCow x j pt b c s = (s5, .ok (.copy e.frame g k))

/-- An entry of PT_EDIT (R411): the frame that it names has one reference more, the one it named one less. -/
def Claim.txEdits : Prop :=
  ∀ (x : Pool) (j : Job) (pt : Nat) (c : TxCtx) (s s1 s2 s3 s4 s5 : Device) (a : Nat × Nat) (i : Nat) (old w : Pte) (r : FrameRec) (k : Nat),
    txPte x j pt i c s = (s1, .ok old) →
    (old == w) = false →
    w.valid = true →
    txFrame x w.frame c s1 = (s2, .ok r) →
    txSetFrame x w.frame { r with count := r.count + 1 } c s2 = (s3, .ok ()) →
    txSetPte x j pt i w c s3 = (s4, .ok ()) →
    old.valid = true →
    txUnref x old.frame c s4 = (s5, .ok k) →
    txEditOne x j pt a (i, w) c s = (s5, .ok (a.1 + 1, a.2 + k))

/-- ALLOC (R189): its transaction, with its retries, commits; the counters and the answer follow. -/
def Claim.alloc : Prop :=
  ∀ (s : State) (c : Fin 32) (p : Fin 8) (t : BitVec 64) (b : BitVec 32) (k : Met (BitVec 16)) (x : Pool) (j : Job) (r : PageRes) (e : Device),
    s.dev.ctrlWorks c = true →
    s.dev.claspUp = true →
    s.dev.isFrozen (masterId 2 c) = false →
    s.dev.copying (masterId 2 c) = false →
    s.dev.pool? p = some x →
    s.dev.job? x.job = some j →
    b.toNat < 32768 →
    t.toNat + 8 * (b.toNat + 1) ≤ (x.pts j).size →
    Device.runTx (s.dev.num O.opRetryLimit) s.dev p (masterId 2 c) k.val.toNat k.errs (txAlloc p x j t.toNat b.toNat) = (e, .done r) →
    r.st = .ok →
    exec (.alloc c p t b k) s = s.to ({ s := r.done (e.unstall (masterId 2 c)), st := .ok, detail := r.detail } : Ans).out

/-- LOOKUP (R189, R193): its transaction commits; hits, misses and collisions are counted. -/
def Claim.lookup : Prop :=
  ∀ (s : State) (c : Fin 32) (p : Fin 8) (t : BitVec 64) (b : BitVec 32) (w : Bytes) (k : Met (BitVec 16)) (x : Pool) (j : Job) (r : PageRes) (e : Device),
    s.dev.ctrlWorks c = true →
    s.dev.claspUp = true →
    s.dev.isFrozen (masterId 2 c) = false →
    s.dev.copying (masterId 2 c) = false →
    s.dev.pool? p = some x →
    s.dev.job? x.job = some j →
    t.toNat + 8 * (b.toNat + 1) ≤ (x.pts j).size →
    Device.runTx (s.dev.num O.opRetryLimit) s.dev p (masterId 2 c) k.val.toNat k.errs (txLookup p (s.dev.num (O.treeRootKey p)) x j t.toNat b.toNat (padTo 256 w)) = (e, .done r) →
    r.st = .ok →
    exec (.lookup c p t b w k) s = s.to ({ s := r.done (e.unstall (masterId 2 c)), st := .ok, detail := r.detail } : Ans).out

/-- INSERT (R189, R193): its transaction commits and the node is counted. -/
def Claim.insert : Prop :=
  ∀ (s : State) (c : Fin 32) (p : Fin 8) (t : BitVec 64) (b : BitVec 32) (w : Bytes) (k : Met (BitVec 16)) (x : Pool) (j : Job) (r : PageRes) (e : Device),
    s.dev.ctrlWorks c = true →
    s.dev.claspUp = true →
    s.dev.isFrozen (masterId 2 c) = false →
    s.dev.copying (masterId 2 c) = false →
    s.dev.pool? p = some x →
    s.dev.job? x.job = some j →
    t.toNat + 8 * (b.toNat + 1) ≤ (x.pts j).size →
    Device.runTx (s.dev.num O.opRetryLimit) s.dev p (masterId 2 c) k.val.toNat k.errs (txInsert p (s.dev.num (O.treeRootKey p)) x j t.toNat b.toNat (padTo 256 w)) = (e, .done r) →
    r.st = .ok →
    exec (.insert c p t { index := b, tokens := w } k) s = s.to ({ s := r.done (e.unstall (masterId 2 c)), st := .ok, detail := r.detail } : Ans).out

/-- FILL (R189): its transaction commits. -/
def Claim.fill : Prop :=
  ∀ (s : State) (c : Fin 32) (p : Fin 8) (t : BitVec 64) (b : BitVec 32) (n : BitVec 8) (k : Met (BitVec 16)) (x : Pool) (j : Job) (r : PageRes) (e : Device),
    s.dev.ctrlWorks c = true →
    s.dev.claspUp = true →
    s.dev.isFrozen (masterId 2 c) = false →
    s.dev.copying (masterId 2 c) = false →
    s.dev.pool? p = some x →
    s.dev.job? x.job = some j →
    t.toNat + 8 * (b.toNat + 1) ≤ (x.pts j).size →
    Device.runTx (s.dev.num O.opRetryLimit) s.dev p (masterId 2 c) k.val.toNat k.errs (txFill x j t.toNat b.toNat n.toNat) = (e, .done r) →
    r.st = .ok →
    exec (.fill c p t b n k) s = s.to ({ s := r.done (e.unstall (masterId 2 c)), st := .ok, detail := r.detail } : Ans).out

/-- PRUNE (R189, R193): its transaction commits and the node is no longer counted. -/
def Claim.prune : Prop :=
  ∀ (s : State) (c : Fin 32) (p : Fin 8) (f : BitVec 24) (k : Met (BitVec 16)) (x : Pool) (j : Job) (r : PageRes) (e : Device),
    s.dev.ctrlWorks c = true →
    s.dev.claspUp = true →
    s.dev.isFrozen (masterId 2 c) = false →
    s.dev.copying (masterId 2 c) = false →
    s.dev.pool? p = some x →
    s.dev.job? x.job = some j →
    Device.runTx (s.dev.num O.opRetryLimit) s.dev p (masterId 2 c) k.val.toNat k.errs (txPrune p x f.toNat) = (e, .done r) →
    r.st = .ok →
    exec (.prune c p f k) s = s.to ({ s := r.done (e.unstall (masterId 2 c)), st := .ok, detail := r.detail } : Ans).out

/-- PAGE_RELEASE (R192): its transactions, from the highest entry down to b, commit; the answer is the number of entries cleared. -/
def Claim.pageRelease : Prop :=
  ∀ (s : State) (c : Fin 32) (p : Fin 8) (t : BitVec 64) (b : BitVec 32) (k : Met (List (BitVec 16))) (x : Pool) (j : Job) (a : Ans),
    s.dev.ctrlWorks c = true →
    s.dev.claspUp = true →
    s.dev.isFrozen (masterId 2 c) = false →
    s.dev.copying (masterId 2 c) = false →
    s.dev.pool? p = some x →
    s.dev.job? x.job = some j →
    t.toNat + 8 ≤ (x.pts j).size →
    s.dev.opRelease p (masterId 2 c) x j t.toNat b.toNat (k.val.map fun n => n.toNat) k.errs = some a →
    a.st = .ok →
    exec (.pageRelease c p t b k) s = s.to a.out

/-- RELEASE goes from transaction to transaction (R192): each goes on below the lowest entry that the one before cleared. -/
def Claim.releases : Prop :=
  ∀ (n : Nat) (s e : Device) (p m : Nat) (x : Pool) (j : Job) (pt b hi : Nat) (lost : List Nat) (errs : List SymErr) (got : Nat) (r : PageRes × Nat),
    b < hi →
    Device.runTx (s.num O.opRetryLimit) s p m (lost.headD 0) errs (txRelease p x j pt b hi) = (e, .done r) →
    Device.release256 (n + 1) s p m x j pt b hi lost errs got = Device.release256 n (r.1.done (e.unstall m)) p m x j pt b r.2 (lost.drop 1) [] (got + r.1.detail)

/-- COW (R191): a frame that others name too is copied; the transaction stays open until the copy has ended. -/
def Claim.cow : Prop :=
  ∀ (s : State) (c : Fin 32) (p : Fin 8) (t : BitVec 64) (b : Met (BitVec 32)) (x : Pool) (j : Job) (d : Device),
    s.dev.ctrlWorks c = true →
    s.dev.claspUp = true →
    s.dev.isFrozen (masterId 2 c) = false →
    s.dev.copying (masterId 2 c) = false →
    s.dev.pool? p = some x →
    s.dev.job? x.job = some j →
    t.toNat + 8 * (b.val.toNat + 1) ≤ (x.pts j).size →
    s.dev.opCow p (masterId 2 c) x j t.toNat b.val.toNat none b.errs = .copies d →
    exec (.cow c p t b) s = s.to d

/-- COW (R191) with nothing to copy: answered at once. -/
def Claim.cowAlone : Prop :=
  ∀ (s : State) (c : Fin 32) (p : Fin 8) (t : BitVec 64) (b : Met (BitVec 32)) (x : Pool) (j : Job) (a : Ans),
    s.dev.ctrlWorks c = true →
    s.dev.claspUp = true →
    s.dev.isFrozen (masterId 2 c) = false →
    s.dev.copying (masterId 2 c) = false →
    s.dev.pool? p = some x →
    s.dev.job? x.job = some j →
    t.toNat + 8 * (b.val.toNat + 1) ≤ (x.pts j).size →
    s.dev.opCow p (masterId 2 c) x j t.toNat b.val.toNat none b.errs = .answer a →
    a.st = .ok →
    exec (.cow c p t b) s = s.to a.out

/-- COW with a frame to copy (R191): its transaction stays open and the copy is in progress. -/
def Claim.cowOpens : Prop :=
  ∀ (s d : Device) (r : CowRun) (m key f g k : Nat) (x : Pool) (j : Job) (errs : List SymErr) (a : Ans),
    s.txnOpenOp m = (a, some key) →
    txCow x j r.pt r.b { key := key, m := m, errs := errs } a.s = (d, .ok (.copy f g k)) →
    s.cowTry r m x j errs = ({ d with work := { d.work with cows := d.work.cows ++ [{ r with key := key, master := m, frame := f, target := g, moved := k }] } }, .done none)

/-- COW_COPY_END (R191): the copy has ended and the transaction commits: the entry names the new frame. -/
def Claim.cowCopyEnd : Prop :=
  ∀ (s : State) (i : BitVec 8) (r : CowRun) (x : Pool) (j : Job) (d : Device),
    s.dev.work.cows[i.toNat]? = some r →
    s.dev.claspUp = true →
    s.dev.pool? r.pool = some x →
    s.dev.job? x.job = some j →
    s.dev.copyWaits x j r.frame r.target = false →
    s.dev.copyBlocked x j r.frame r.target = false →
    ((s.dev.cowGone r).copyFrame x j r.frame r.target).commitNow r.key = some (0, d) →
    r.host = none →
    r.forWrite = false →
    exec (.cowCopyEnd i) s = s.to ((d.poolCounts r.pool 1 r.moved 0).bump (O.cowCopies r.pool)).okay.reply

/-- PAGE_OP (R189, R411): the operation is executed with the queue as issuer, and its result completes the command. -/
def Claim.pageOp : Prop :=
  ∀ (s : State) (q : Fin 64) (c : HostCmd) (t : PageMet) (x : Job) (p : Pool) (a : Ans),
    s.dev.hostTakes q 0x02 c →
    s.dev.queueCopies q = false →
    (s.dev.startCmd q c).hostPool (leAt c.args 9 1) (leAt c.args 10 1) = some (x, p) →
    (s.dev.startCmd q c).pageOpStop s.dev q c x p = none →
    leAt c.args 8 1 ≠ 4 →
    (s.dev.startCmd q c).pageOpAns q c x p (t.conflicts.map fun k => k.toNat) t.tokens t.errs = some a →
    a.st = .ok →
    exec (.pageOp q t) s = s.to (a.s.hostDone q c.id .ok 0 a.detail)

/-- PAGE_OP with COW (R191): the copy begins; its end completes the command. -/
def Claim.pageOpCow : Prop :=
  ∀ (s : State) (q : Fin 64) (c : HostCmd) (t : PageMet) (x : Job) (p : Pool) (d : Device),
    s.dev.hostTakes q 0x02 c →
    s.dev.queueCopies q = false →
    (s.dev.startCmd q c).hostPool (leAt c.args 9 1) (leAt c.args 10 1) = some (x, p) →
    (s.dev.startCmd q c).pageOpStop s.dev q c x p = none →
    leAt c.args 8 1 = 4 →
    (s.dev.startCmd q c).opCow (leAt c.args 10 1) (masterId 0 q) p x (leAt c.args 16 8) (leAt c.args 12 4) (some (q.val, c.id)) t.errs = .copies d →
    exec (.pageOp q t) s = s.to d

/-- PAGE_OP with COW (R191): an entry whose frame it alone names is done at once. -/
def Claim.pageOpCowAlone : Prop :=
  ∀ (s : State) (q : Fin 64) (c : HostCmd) (t : PageMet) (x : Job) (p : Pool) (a : Ans),
    s.dev.hostTakes q 0x02 c →
    s.dev.queueCopies q = false →
    (s.dev.startCmd q c).hostPool (leAt c.args 9 1) (leAt c.args 10 1) = some (x, p) →
    (s.dev.startCmd q c).pageOpStop s.dev q c x p = none →
    leAt c.args 8 1 = 4 →
    (s.dev.startCmd q c).opCow (leAt c.args 10 1) (masterId 0 q) p x (leAt c.args 16 8) (leAt c.args 12 4) (some (q.val, c.id)) t.errs = .answer a →
    a.st = .ok →
    exec (.pageOp q t) s = s.to (a.s.hostDone q c.id .ok 0 a.detail)

/-- PT_EDIT (R411): the entries are written in one transaction, and the number changed completes the command. -/
def Claim.ptEdit : Prop :=
  ∀ (s : State) (q : Fin 64) (c : HostCmd) (t : Met (BitVec 16)) (x : Job) (p : Pool) (a : Ans),
    s.dev.hostTakes q 0x03 c →
    (s.dev.startCmd q c).hostPool (leAt c.args 8 1) (leAt c.args 9 1) = some (x, p) →
    (s.dev.startCmd q c).ptEditStop s.dev q c x p = none →
    (s.dev.startCmd q c).pageOp1 (leAt c.args 9 1) (masterId 0 q) t.val.toNat t.errs p (txEdit (leAt c.args 9 1) p x (leAt c.args 16 8) ((s.dev.startCmd q c).ptEditList c x)) = some a →
    a.st = .ok →
    exec (.ptEdit q t) s = s.to (a.s.hostDone q c.id .ok 0 a.detail)

/-- HALO_READY (R170): the token leaves the end that holds it. -/
def Claim.haloReady : Prop :=
  ∀ (s : State) (c : Fin 32) (b : Bytes) (p ph : Nat) (x : HaloCh),
    s.dev.ctrlWorks c = true →
    (s.dev.clu c).port = [] →
    b.length = 16 →
    (HaloCmd.decode b).op = 1 →
    s.dev.haloEnd c (HaloCmd.decode b).ch = some (p, ph, x) →
    x.job = (HaloCmd.decode b).job →
    p = c.val ∧ ph = (HaloCmd.decode b).ch →
    x.token (HaloCmd.decode b).slot = .home →
    exec (.haloReady c b) s = s.to (s.dev.tokenLeaves p ph x (HaloCmd.decode b).slot .toConsumer)

/-- HALO_RETURN (R170): the token leaves the end that holds it. -/
def Claim.haloReturn : Prop :=
  ∀ (s : State) (c : Fin 32) (b : Bytes) (p ph : Nat) (x : HaloCh),
    s.dev.ctrlWorks c = true →
    (s.dev.clu c).port = [] →
    b.length = 16 →
    (HaloCmd.decode b).op = 2 →
    s.dev.haloEnd c (HaloCmd.decode b).ch = some (p, ph, x) →
    x.job = (HaloCmd.decode b).job →
    ¬ (p = c.val ∧ ph = (HaloCmd.decode b).ch) →
    x.token (HaloCmd.decode b).slot = .ready →
    exec (.haloReturn c b) s = s.to (s.dev.tokenLeaves p ph x (HaloCmd.decode b).slot .toProducer)

/-- HALO_GATE (R171): the entry enters its core's gate queue. -/
def Claim.haloGate : Prop :=
  ∀ (s : State) (c : Fin 32) (b : Bytes) (j : Job),
    s.dev.ctrlWorks c = true →
    (s.dev.clu c).port = [] →
    b.length = 16 →
    (HaloCmd.decode b).op = 3 →
    (HaloCmd.decode b).condCount ≤ 4 →
    s.dev.job? (HaloCmd.decode b).job = some j →
    coreNo c (HaloCmd.decode b).core ∈ j.cores →
    ((HaloCmd.decode b).conds.all (s.dev.condOwn c (HaloCmd.decode b).job)) = true →
    (s.dev.core (coreNo c (HaloCmd.decode b).core)).gates.length < 4 →
    exec (.haloGate c b) s = s.to (let h := HaloCmd.decode b
       let n := coreNo c h.core
       s.dev.setCore n { s.dev.core n with gates := (s.dev.core n).gates ++ [{ job := h.job, list := h.list, conds := h.conds }] })

/-- A write to a full queue (R155): it holds the control core. -/
def Claim.portHolds : Prop :=
  ∀ (s : Device) (c : Nat) (p : PortCmd),
    s.ctrlWorks c = true →
    (s.clu c).port = [] →
    s.portFull c p = true →
    s.portWrite c p = s.setClu c { s.clu c with port := [p] }

/-- The write that holds the control core goes on once an entry is free (R155). -/
def Claim.portGoesOn : Prop :=
  ∀ (s : Device) (c : Nat) (p : PortCmd),
    s.ctrlWorks c = true →
    (s.clu c).port = [p] →
    s.portFull c p = false →
    s.portGoes c = (s.setClu c { s.clu c with port := [] }).portRun c p

/-- HALO_TOKEN_ARRIVAL (R170): the oldest token of its route reaches its consumer. -/
def Claim.haloTokenArrival : Prop :=
  ∀ (s : State) (c : Fin 32) (h : Fin 64) (i : Fin 2) (x : HaloCh),
    tget? (s.dev.clu c).halo h.val = some x →
    x.token i = .toConsumer →
    s.dev.works (clusterDomain x.cons) = true →
    s.dev.tokenDue (c.val, h.val, i.val) (c.val, x.cons) = true →
    exec (.haloTokenArrival c h i) s = s.to (s.dev.tokenArrives c h x i)

/-- HALO_TOKEN_ARRIVAL (R170): the oldest token of its route is back at its producer. -/
def Claim.tokenHome : Prop :=
  ∀ (s : State) (c : Fin 32) (h : Fin 64) (i : Fin 2) (x : HaloCh),
    tget? (s.dev.clu c).halo h.val = some x →
    x.token i = .toProducer →
    s.dev.works (clusterDomain c) = true →
    s.dev.tokenDue (c.val, h.val, i.val) (x.cons, c.val) = true →
    exec (.haloTokenArrival c h i) s = s.to (s.dev.tokenArrives c h x i)

/-- GATE_START (R171): with its conditions met the head entry starts its list. -/
def Claim.gateStart : Prop :=
  ∀ (s : State) (c : Fin 32) (k : Fin 16) (g : Gate) (rest : List Gate),
    (s.dev.core (coreNo c k)).gates = g :: rest →
    s.dev.coreRuns (coreNo c k) = true →
    s.dev.occupant (coreNo c k) = some g.job →
    tget? s.dev.work.hands (coreNo c k) = none →
    (s.dev.core (coreNo c k)).seq = .idle →
    g.conds.all (s.dev.condHolds c) = true →
    exec (.gateStart c k []) s = s.to (((s.dev.setCore (coreNo c k) { s.dev.core (coreNo c k) with gates := rest }).startList (coreNo c k) g).portGoes c)

/-- WALK_START (R182 to R184): the record of an item dealt to this cluster begins its walk. -/
def Claim.walkStart : Prop :=
  ∀ (s : State) (c : Fin 32) (b : Bytes) (j : Job) (r : StepRun) (w : Walk),
    s.dev.walkable c (recF b 0 34 30) = true →
    b.length = 64 →
    s.dev.job? (recF b 0 34 30) = some j →
    j.cur = some r →
    s.dev.recOk c b j r = true →
    recF b 1 31 0 < ((s.dev.lenEntry j r (recF b 1 63 48)).qLen + 63) / 64 →
    lenStatus j (s.dev.lenEntry j r (recF b 1 63 48)) = 0 →
    s.dev.walk? c (recF b 0 38 35) = none →
    s.dev.walkOf c b j r = some w →
    exec (.walkStart c b) s = s.to (s.dev.walkBegin c j w)

/-- WALK_PIN_DONE (R184): the pin is set and the init list is started through GATE. -/
def Claim.walkPinDone : Prop :=
  ∀ (s : State) (c : Fin 32) (k : Fin 16) (w : Walk),
    s.dev.walk? c k = some w →
    s.dev.walkable c w.job = true →
    w.stage = .pinning →
    (s.dev.core (coreNo c k)).gates.length < 4 →
    exec (.walkPinDone c k) s = s.to ((s.dev.setCore (coreNo c k) { s.dev.core (coreNo c k) with gates := (s.dev.core (coreNo c k)).gates ++ [{ job := w.job, list := w.f 3 63 42, conds := [] }] }).putWalk c { w with stage := .blocks })

/-- WALK_BLOCK_START (R184): the descriptor of the next block is emitted. -/
def Claim.walkBlockStart : Prop :=
  ∀ (s : State) (c : Fin 32) (k : Fin 16) (w : Walk),
    s.dev.walk? c k = some w →
    s.dev.walkable c w.job = true →
    w.stage = .blocks →
    w.emitted = w.started →
    w.emitted < w.last →
    exec (.walkBlockStart c k) s = s.to (s.dev.walkEmit c w)

/-- WALK_BLOCK_START (R184): the block that has arrived is started through GATE. -/
def Claim.walkNextBlock : Prop :=
  ∀ (s : State) (c : Fin 32) (k : Fin 16) (w : Walk),
    s.dev.walk? c k = some w →
    s.dev.walkable c w.job = true →
    w.stage = .blocks →
    w.emitted ≠ w.started →
    w.emitted = w.last →
    s.dev.channelDone (coreNo c k) = true →
    s.dev.coreThrough (coreNo c k) = true →
    exec (.walkBlockStart c k) s = s.to ((s.dev.setCore (coreNo c k) { s.dev.core (coreNo c k) with gates := (s.dev.core (coreNo c k)).gates ++ [{ job := w.job, list := (if w.started % 2 = 1 then w.f 2 41 20 else w.f 2 63 42), conds := [] }] }).putWalk c { w with started := w.started + 1 })

/-- WALK_PIN_RELEASE (R188): after the last block's copy the walk is through with the pool's pages. -/
def Claim.walkPinRelease : Prop :=
  ∀ (s : State) (c : Fin 32) (k : Fin 16) (w : Walk),
    s.dev.walk? c k = some w →
    s.dev.ctrlWorks c = true →
    w.paged = true →
    w.stage = .blocks →
    w.emitted = w.last →
    s.dev.channelDone (coreNo c k) = true →
    exec (.walkPinRelease c k) s = s.to ((s.dev.walkUnpins c w).putWalk c { w with stage := .draining })

/-- The pin of a control core (R188): with no other walk on the pool it is written 0. -/
def Claim.walkUnpinsLast : Prop :=
  ∀ (s : Device) (c : Nat) (w : Walk),
    s.walksOf c = [w] →
    w.paged = true →
    s.walkUnpins c w = s.unpin c w.poolNo

/-- A pin is written 0 (R188), and limbo frames may move. -/
def Claim.unpins : Prop :=
  ∀ (s : Device) (c p : Nat) (x : Pool),
    s.pool? p = some x →
    s.pin c p ≠ 0 →
    s.mustWait (x.pinAt c) (.write (leBytes 8 0)) none = false →
    s.unpin c p = (s.perform (x.pinAt c) (.write (leBytes 8 0))).2.2.reap c p

/-- WALK_FINAL_START (R184): the final list is started and the walk is over. -/
def Claim.walkFinalStart : Prop :=
  ∀ (s : State) (c : Fin 32) (k : Fin 16) (w : Walk),
    s.dev.walk? c k = some w →
    s.dev.walkable c w.job = true →
    w.started = w.last →
    w.stage = .draining →
    s.dev.coreThrough (coreNo c k) = true →
    exec (.walkFinalStart c { core := k }) s = s.to ((s.dev.setCore (coreNo c k) { s.dev.core (coreNo c k) with gates := (s.dev.core (coreNo c k)).gates ++ [{ job := w.job, list := w.f 3 41 20, conds := [], item := w.item }] }).dropWalk c k)

/-- WALK_FINAL_START (R184): the final list is started and the walk is over. -/
def Claim.walkFinalPlain : Prop :=
  ∀ (s : State) (c : Fin 32) (k : Fin 16) (w : Walk),
    s.dev.walk? c k = some w →
    s.dev.walkable c w.job = true →
    w.started = w.last →
    w.stage = .blocks →
    w.paged = false →
    s.dev.coreThrough (coreNo c k) = true →
    exec (.walkFinalStart c { core := k }) s = s.to ((s.dev.setCore (coreNo c k) { s.dev.core (coreNo c k) with gates := (s.dev.core (coreNo c k)).gates ++ [{ job := w.job, list := w.f 3 41 20, conds := [], item := w.item }] }).dropWalk c k)

/-- WALK_FINAL_START with a merge list (R179): with every part of a tile over, the merge starts on the core that ran part 0. -/
def Claim.walkMergeStart : Prop :=
  ∀ (s : State) (c : Fin 32) (k : Fin 16) (a : BitVec 22) (d : PartId × Nat),
    (s.dev.work.done.find? fun d => d.1.part == 0 && d.2 == coreNo c k && s.dev.partsDone d.1) = some d →
    s.dev.walkable c d.1.job = true →
    (s.dev.core (coreNo c k)).gates.length < 4 →
    exec (.walkFinalStart c { core := k, merge := some a }) s = s.to
      (let e := s.dev.setCore (coreNo c k) { s.dev.core (coreNo c k) with gates := (s.dev.core (coreNo c k)).gates ++ [{ job := d.1.job, list := a.toNat, conds := [] }] }
       { e with work := { e.work with done := e.work.done.filter fun e => { e.1 with part := 0 } != d.1 } })

/-- GATHER (R198, R206): the entry starts, its gather buffer is FILLING and its plan runs. -/
def Claim.gather : Prop :=
  ∀ (s : State) (j : Fin 32) (x : Job) (r : StepRun) (a : Nat),
    s.dev.nextEntry j 1 = some (x, r, a) →
    exec (.gather j) s = s.to (((s.dev.beginEntry j x r 1).setGather j (bits a 63 61) 1).planStart j (bits a 60 45) r.next true)

/-- REDUCE (R198): the entry starts and its plan runs. -/
def Claim.reduce : Prop :=
  ∀ (s : State) (j : Fin 32) (x : Job) (r : StepRun) (a : Nat),
    s.dev.nextEntry j 4 = some (x, r, a) →
    exec (.reduce j) s = s.to ((s.dev.beginEntry j x r 4).planStart j (bits a 60 45) r.next false)

/-- UPDATE (R198, R227): the entry starts and, its range list in order, the update units take the list. -/
def Claim.update : Prop :=
  ∀ (s : State) (j : Fin 32) (x : Job) (r : StepRun) (a : Nat),
    s.dev.nextEntry j 5 = some (x, r, a) →
    ((s.dev.updateReads x (bits a 47 0)).any fun p => s.dev.spaceWaits x p.1 p.2 false) = false →
    ((s.dev.updateReads x (bits a 47 0)).any fun p => s.dev.spaceBlocked x p.1 p.2 false) = false →
    exec (.update j) s = s.to ((s.dev.beginEntry j x r 5).updateStart j x r r.next (bits a 47 0))

/-- RELEASE (R206): the entry completes at once and its gather buffer is EMPTY. -/
def Claim.release : Prop :=
  ∀ (s : State) (j : Fin 32) (x : Job) (r : StepRun) (a : Nat),
    s.dev.nextEntry j 6 = some (x, r, a) →
    exec (.release j) s = s.to ((s.dev.passEntry j x r).setGather j (bits a 63 61) 0)

/-- SCHEDULE_END (R201): END completes when every earlier entry has. -/
def Claim.scheduleEnd : Prop :=
  ∀ (s : State) (j : Fin 32) (x : Job) (r : StepRun) (a : Nat),
    s.dev.nextEntry j 8 = some (x, r, a) →
    r.running = [] →
    exec (.scheduleEnd j) s = s.to (s.dev.passEntry j x r)

/-- FWD (R199): every core with a list gets it through its gate queue, and the entry runs on those cores. -/
def Claim.fwd : Prop :=
  ∀ (s : State) (j : Fin 32) (x : Job) (r : StepRun) (a : Nat),
    s.dev.nextEntry j 2 = some (x, r, a) →
    x.inSpace (bits a 47 0) (8 * x.cores.length) = true →
    ((s.dev.startTable x (bits a 47 0)).any fun p => 4 ≤ (s.dev.core p.1).gates.length) = false →
    exec (.fwd j) s = s.to (((((s.dev.startTable x (bits a 47 0)).foldl (fun (s : Device) p => s.setCore p.1 { s.core p.1 with
        gates := (s.core p.1).gates ++ [{ job := j, list := p.2, conds := [], entry := some r.next }] }) s.dev).beginEntry j x r 2).modEntry j r.next fun e =>
        { e with cores := (s.dev.startTable x (bits a 47 0)).map fun p => p.1 }))

/-- BWD (R199): every core with a list gets it through its gate queue, and the entry runs on those cores. -/
def Claim.bwd : Prop :=
  ∀ (s : State) (j : Fin 32) (x : Job) (r : StepRun) (a : Nat),
    s.dev.nextEntry j 3 = some (x, r, a) →
    x.inSpace (bits a 47 0) (8 * x.cores.length) = true →
    ((s.dev.startTable x (bits a 47 0)).any fun p => 4 ≤ (s.dev.core p.1).gates.length) = false →
    exec (.bwd j) s = s.to (((((s.dev.startTable x (bits a 47 0)).foldl (fun (s : Device) p => s.setCore p.1 { s.core p.1 with
        gates := (s.core p.1).gates ++ [{ job := j, list := p.2, conds := [], entry := some r.next }] }) s.dev).beginEntry j x r 3).modEntry j r.next fun e =>
        { e with cores := (s.dev.startTable x (bits a 47 0)).map fun p => p.1 }))

/-- DISPATCH (R214 to R217): with the extents in place and the entries in range the tokens are placed. -/
def Claim.dispatch : Prop :=
  ∀ (s : State) (j : Fin 32) (x : Job) (r : StepRun) (a : Nat),
    s.dev.nextEntry j 7 = some (x, r, a) →
    (((s.dev.beginEntry j x r 7).dispatchExtents x (bits a 47 0)).any fun e => !x.inSpace e.1 e.2) = false →
    (((s.dev.beginEntry j x r 7).dispatchExtents x (bits a 47 0)).any fun e => (s.dev.beginEntry j x r 7).spaceBlocked x e.1 e.2 false) = false →
    ((s.dev.beginEntry j x r 7).dispatchIn x (bits a 47 0)).ok = true →
    exec (.dispatch j) s = s.to ((s.dev.beginEntry j x r 7).dispatchDo j x ((s.dev.beginEntry j x r 7).dispatchIn x (bits a 47 0)))

/-- SCHEDULE_ENTRY_COMPLETE (R199, R201): an entry with nothing left to run completes. -/
def Claim.scheduleEntryComplete : Prop :=
  ∀ (s : State) (j : Fin 32) (i : BitVec 16) (x : Job) (r : StepRun) (e : EntryRun),
    s.dev.job? j = some x →
    x.cur = some r →
    r.entry? i.toNat = some e →
    e.cores = [] →
    e.units = [] →
    e.plan = none →
    s.dev.works 1 = true →
    exec (.scheduleEntryComplete j i) s = s.to (s.dev.entryOver j x r e)

/-- STEP_BOUNDARY (R208): all entries completed and the units at rest, the boundary work is done. -/
def Claim.stepBoundary : Prop :=
  ∀ (s : State) (j : Fin 32) (x : Job) (r : StepRun),
    s.dev.job? j = some x →
    x.cur = some r →
    s.dev.works 1 = true →
    r.next = x.entries →
    r.running = [] →
    r.stop = none →
    r.boundary = 0 →
    s.dev.drainedJob j x = true →
    exec (.stepBoundary j) s = s.to (s.dev.boundary j x r)

/-- PATCH_APPLY (R208, R213): the patches of the changed entries are applied and the step ends. -/
def Claim.patchApply : Prop :=
  ∀ (s : State) (j : Fin 32) (x : Job) (r : StepRun),
    s.dev.job? j = some x →
    x.cur = some r →
    s.dev.works 1 = true →
    r.boundary = 2 →
    s.dev.holdsAll j x = true →
    exec (.patchApply j) s = s.to (s.dev.applyPatches j x r)

/-- NORM_PASS (R228): the partial sum over the unit's run is written and the item is done. -/
def Claim.normPass : Prop :=
  ∀ (s : State) (u : Fin 20) (errs : List SymErr) (d : Device) (r : UpdRun) (x : Job) (c : StepRun),
    s.dev.unitWorks u = true →
    s.dev.nextRun u 1 = some (r, x, c) →
    entryFailed c r = false →
    s.dev.statWaits u 1 r x = false →
    ((s.dev.unstall (masterId 7 u)).readErrs u (r.ranges x u 1) errs) = (false, d) →
    exec (.normPass u errs) s = s.to ((d.statSums u 1 r x).itemOver u r)

/-- TRUST_PASS (R228): both partial sums over the unit's run are written and the item is done. -/
def Claim.trustPass : Prop :=
  ∀ (s : State) (u : Fin 20) (errs : List SymErr) (d : Device) (r : UpdRun) (x : Job) (c : StepRun),
    s.dev.unitWorks u = true →
    s.dev.nextRun u 2 = some (r, x, c) →
    entryFailed c r = false →
    s.dev.statWaits u 2 r x = false →
    ((s.dev.unstall (masterId 7 u)).readErrs u (r.ranges x u 2) errs) = (false, d) →
    d.stamped u r x = false →
    exec (.trustPass u errs) s = s.to ((d.statSums u 2 r x).itemOver u r)

/-- APPLY_PASS (R232): the transaction of the next block opens, and its lines are read. -/
def Claim.applyPass : Prop :=
  ∀ (s : State) (u : Fin 20) (errs : List SymErr) (r : UpdRun) (x : Job) (c : StepRun),
    s.dev.unitWorks u = true →
    s.dev.nextRun u 0 = some (r, x, c) →
    r.phase = .idle →
    entryFailed c r = false →
    r.k < (runOf r.desc u).2 →
    exec (.applyPass u errs) s = s.to (s.dev.blockOpen u r x errs)

/-- The open transaction of a block (R232): its tracked reads follow. -/
def Claim.blockOpens : Prop :=
  ∀ (s : Device) (u : Nat) (r : UpdRun) (x : Job) (errs : List SymErr) (a : Ans) (key : Nat),
    s.txnOpenOp (masterId 7 u) = (a, some key) →
    s.blockOpen u r x errs = (a.s.putRun u { r with phase := .opened, txn := some key }).blockRead u { r with phase := .opened, txn := some key } x errs

/-- The tracked reads of a block (R232, R233, R236): with no lock to wait for and every limit kept, the stamp read decides. -/
def Claim.blockReads : Prop :=
  ∀ (s e : Device) (u : Nat) (r : UpdRun) (x : Job) (errs : List SymErr) (key : Nat) (t : Txn) (v : StampVerdict),
    s.blockTxn u r = .inl (key, t) →
    stampVerdict (leNat (s.cachedGet (stampAt x r.desc u r.k) 4)) r.t = v →
    ((r.blockRanges x u v).any fun p => s.mustWait p.1 (.read p.2) (some key)) = false →
    (v == StampVerdict.update && grpRule r.desc == 4 && s.spaceWaits x (grpStat r.desc + 160) 8 false) = false →
    s.unstall (masterId 7 u) = s →
    s.trackLimit t ((r.blockRanges x u v).flatMap fun p => linesOf p.1 p.2) = 0 →
    s.readErrs u (r.blockRanges x u v) errs = (false, e) →
    s.blockRead u r x errs = (e.trackAll key (r.blockRanges x u v)).blockDecide u r x key v

/-- A block that carries this step's stamp is skipped and counted (R233). -/
def Claim.blockSkips : Prop :=
  ∀ (s : Device) (u : Nat) (r : UpdRun) (x : Job) (key : Nat) (t : Txn),
    tget? s.mem.txns key = some t →
    s.blockDecide u r x key .skip = ((s.abortTxn key t 10).bump (O.blocksSkipped r.job)).blockOver u r x

/-- Any stamp but this step's and the one before refuses the entry with E_STATE (R233). -/
def Claim.blockRefuses : Prop :=
  ∀ (s : Device) (u : Nat) (r : UpdRun) (x : Job) (key : Nat) (t : Txn),
    tget? s.mem.txns key = some t →
    s.blockDecide u r x key .refuse = ((s.abortTxn key t 10).runFail u r .state).bump (O.stampRefusals r.job)

/-- What a stamp says (R233): the step's own, the one before, or neither. -/
def Claim.stampRule : Prop :=
  ∀ (v t : Nat),
    (stampVerdict v t = .skip ↔ v = t) ∧ (stampVerdict v t = .update ↔ v ≠ t ∧ (v + 1) % 2 ^ 32 = t)

/-- UPDATE_BLOCK_COMMIT (R232, R233): the block and its stamp are committed as one transaction and the run goes on. -/
def Claim.updateBlockCommit : Prop :=
  ∀ (s : State) (u : Fin 20) (key : Nat) (t : Txn) (w : Device) (r : UpdRun) (x : Job) (c : StepRun),
    s.dev.unitWorks u = true →
    s.dev.nextRun u 0 = some (r, x, c) →
    r.phase = .read →
    s.dev.blockTxn u r = .inl (key, t) →
    s.dev.blockWrite u r x key t = some (0, w) →
    exec (.updateBlockCommit u) s = s.to (((w.unstall (masterId 7 u)).bump (O.blocksCommitted u)).blockOver u r x)

/-- SLOT_WAIT_RETRY (R232): 1 µs after a refused OPEN the unit opens again. -/
def Claim.slotWaitRetry : Prop :=
  ∀ (s : State) (u : Fin 20) (errs : List SymErr) (r : UpdRun) (x : Job) (c : StepRun),
    s.dev.unitWorks u = true →
    s.dev.nextRun u 0 = some (r, x, c) →
    r.phase = .slotWait →
    r.since + us 1 ≤ s.dev.uptime →
    exec (.slotWaitRetry u errs) s = s.to ((s.dev.bump (O.slotWaits u)).blockOpen u r x errs)

/-- CACHED_READ (R253, R278): the bytes of the lines are answered. -/
def Claim.cachedRead : Prop :=
  ∀ (s : State) (m : BitVec 16) (a : BitVec 40) (n : BitVec 16) (errs : List SymErr),
    s.dev.reaches m.toNat a.toNat (.read n.toNat) errs →
    exec (.cachedRead m a n errs) s = s.to ((s.dev.cacheTouch a.toNat n.toNat false).answer m.toNat .ok ((s.dev.cacheTouch a.toNat n.toNat false).cachedGet a.toNat n.toNat))

/-- CACHED_WRITE (R248, R278): the bytes are stored, transactions that track their lines are doomed. -/
def Claim.cachedWrite : Prop :=
  ∀ (s : State) (m : BitVec 16) (a : BitVec 40) (data : Bytes) (errs : List SymErr),
    s.dev.reaches m.toNat a.toNat (.write data) errs →
    exec (.cachedWrite m a data errs) s = s.to ((((s.dev.cacheTouch a.toNat data.length true).stored a.toNat data.length data).outsideWrite m.toNat a.toNat data.length).answer m.toNat .ok [])

/-- ATOMIC_FETCH_ADD (R281): the sum, reduced to the width, is stored and the old value answered. -/
def Claim.atomicFetchAdd : Prop :=
  ∀ (s : State) (m : BitVec 16) (a : BitVec 40) (wide : Bool) (v : BitVec 64) (errs : List SymErr),
    s.dev.reaches m.toNat a.toNat (.fetchAdd wide v.toNat) errs →
    exec (.atomicFetchAdd m a wide v errs) s = s.to (let d := (s.dev.cacheTouch a.toNat (if wide then 8 else 4) true true)
       let old := leNat (d.cachedGet a.toNat (if wide then 8 else 4))
       ((((d.bump (O.atomics (s.dev.homeDie a.toNat))).stored a.toNat (if wide then 8 else 4) (leBytes (if wide then 8 else 4) (old + v.toNat))).outsideWrite m.toNat a.toNat (if wide then 8 else 4)).answer m.toNat .ok (leBytes (if wide then 8 else 4) old)))

/-- ATOMIC_CAS (R281): where the old value is the one compared the new one is stored; the old value is answered. -/
def Claim.atomicCas : Prop :=
  ∀ (s : State) (m : BitVec 16) (a : BitVec 40) (wide : Bool) (cmp new : BitVec 64) (errs : List SymErr),
    s.dev.reaches m.toNat a.toNat (.cas wide (if wide then cmp.toNat else cmp.toNat % 4294967296) new.toNat) errs →
    leNat ((s.dev.cacheTouch a.toNat (if wide then 8 else 4) true true).cachedGet a.toNat (if wide then 8 else 4)) = (if wide then cmp.toNat else cmp.toNat % 4294967296) →
    exec (.atomicCas m a wide cmp new errs) s = s.to ((((((s.dev.cacheTouch a.toNat (if wide then 8 else 4) true true).bump (O.atomics (s.dev.homeDie a.toNat))).stored a.toNat (if wide then 8 else 4) (leBytes (if wide then 8 else 4) new.toNat)).outsideWrite m.toNat a.toNat (if wide then 8 else 4)).answer m.toNat .ok (leBytes (if wide then 8 else 4) (if wide then cmp.toNat else cmp.toNat % 4294967296))))

/-- ATOMIC_CAS (R281): otherwise memory stays as it is. -/
def Claim.casKeeps : Prop :=
  ∀ (s : State) (m : BitVec 16) (a : BitVec 40) (wide : Bool) (cmp new : BitVec 64) (errs : List SymErr),
    s.dev.reaches m.toNat a.toNat (.cas wide (if wide then cmp.toNat else cmp.toNat % 4294967296) new.toNat) errs →
    leNat ((s.dev.cacheTouch a.toNat (if wide then 8 else 4) true true).cachedGet a.toNat (if wide then 8 else 4)) ≠ (if wide then cmp.toNat else cmp.toNat % 4294967296) →
    exec (.atomicCas m a wide cmp new errs) s = s.to ((((s.dev.cacheTouch a.toNat (if wide then 8 else 4) true true).bump (O.atomics (s.dev.homeDie a.toNat))).outsideWrite m.toNat a.toNat (if wide then 8 else 4)).answer m.toNat .ok (leBytes (if wide then 8 else 4) (leNat ((s.dev.cacheTouch a.toNat (if wide then 8 else 4) true true).cachedGet a.toNat (if wide then 8 else 4)))))

/-- ATOMIC_FADD (R281, R282): element by element the sums are stored; no value is answered. -/
def Claim.atomicFadd : Prop :=
  ∀ (s : State) (m : BitVec 16) (a : BitVec 40) (ty : Fin 6) (vals : List (BitVec 64)) (errs : List SymErr),
    s.dev.reaches m.toNat a.toNat (.fadd ty.val (vals.map fun v => v.toNat % 256 ^ tyBytes ty.val)) errs →
    exec (.atomicFadd m a ty vals errs) s = s.to (let d := (s.dev.cacheTouch a.toNat (tyBytes ty.val * vals.length) true true)
       ((((d.bump (O.atomics (s.dev.homeDie a.toNat))).stored a.toNat (tyBytes ty.val * vals.length) (((d.elems a.toNat (tyBytes ty.val) vals.length).zip (vals.map fun v => v.toNat % 256 ^ tyBytes ty.val)).flatMap fun p => leBytes (tyBytes ty.val) (elemAdd ty.val p.1 p.2))).outsideWrite m.toNat a.toNat
        (tyBytes ty.val * vals.length)).answer m.toNat .ok []))

/-- ATOMIC_MAX (R281, R282): element by element the larger ones are stored; no value is answered. -/
def Claim.atomicMax : Prop :=
  ∀ (s : State) (m : BitVec 16) (a : BitVec 40) (ty : Fin 6) (vals : List (BitVec 64)) (errs : List SymErr),
    s.dev.reaches m.toNat a.toNat (.max ty.val (vals.map fun v => v.toNat % 256 ^ tyBytes ty.val)) errs →
    exec (.atomicMax m a ty vals errs) s = s.to (let d := (s.dev.cacheTouch a.toNat (tyBytes ty.val * vals.length) true true)
       ((((d.bump (O.atomics (s.dev.homeDie a.toNat))).stored a.toNat (tyBytes ty.val * vals.length) (((d.elems a.toNat (tyBytes ty.val) vals.length).zip (vals.map fun v => v.toNat % 256 ^ tyBytes ty.val)).flatMap fun p => leBytes (tyBytes ty.val) (elemPick ty.val true p.1 p.2))).outsideWrite m.toNat a.toNat
        (tyBytes ty.val * vals.length)).answer m.toNat .ok []))

/-- ATOMIC_MIN (R281, R282): element by element the smaller ones are stored; no value is answered. -/
def Claim.atomicMin : Prop :=
  ∀ (s : State) (m : BitVec 16) (a : BitVec 40) (ty : Fin 6) (vals : List (BitVec 64)) (errs : List SymErr),
    s.dev.reaches m.toNat a.toNat (.min ty.val (vals.map fun v => v.toNat % 256 ^ tyBytes ty.val)) errs →
    exec (.atomicMin m a ty vals errs) s = s.to (let d := (s.dev.cacheTouch a.toNat (tyBytes ty.val * vals.length) true true)
       ((((d.bump (O.atomics (s.dev.homeDie a.toNat))).stored a.toNat (tyBytes ty.val * vals.length) (((d.elems a.toNat (tyBytes ty.val) vals.length).zip (vals.map fun v => v.toNat % 256 ^ tyBytes ty.val)).flatMap fun p => leBytes (tyBytes ty.val) (elemPick ty.val false p.1 p.2))).outsideWrite m.toNat a.toNat
        (tyBytes ty.val * vals.length)).answer m.toNat .ok []))

/-- ATOMIC_COPY64 (R281): the eight bytes at the source are stored and answered. -/
def Claim.atomicCopy64 : Prop :=
  ∀ (s : State) (m : BitVec 16) (a : BitVec 40) (src : BitVec 40) (errs : List SymErr),
    s.dev.reaches m.toNat a.toNat (.copy64 src.toNat) errs →
    s.dev.mapCheck src.toNat 8 = 0 →
    s.dev.hbmBlocked src.toNat 8 false = false →
    exec (.atomicCopy64 m a src errs) s = s.to (let d := (s.dev.cacheTouch a.toNat 8 true true)
       let v := d.cachedGet src.toNat 8
       (((((d.cacheTouch src.toNat 8 false).bump (O.atomics (s.dev.homeDie a.toNat))).stored a.toNat 8 v).outsideWrite m.toNat a.toNat 8).answer m.toNat .ok v))

/-- UNCACHED_ACCESS (R279): a read outside every region answers the bytes. -/
def Claim.uncachedAccess : Prop :=
  ∀ (s : State) (m : BitVec 16) (a : BitVec 40) (n : BitVec 16) (errs : List SymErr),
    masterExists m.toNat = true →
    s.dev.isFrozen m.toNat = false →
    s.dev.domainOn 3 = true →
    s.dev.runs 3 = true →
    s.dev.mapCheck a.toNat n.toNat = 0 →
    s.dev.inRegion a.toNat n.toNat = false →
    errsIn a.toNat n.toNat errs = [] →
    s.dev.hbmBlocked a.toNat n.toNat false = false →
    exec (.uncachedAccess m a n none errs) s = s.to ((s.dev.bump (O.uncachedAccesses (s.dev.homeDie a.toNat))).answer m.toNat .ok ((s.dev.bump (O.uncachedAccesses (s.dev.homeDie a.toNat))).hbmGet a.toNat n.toNat))

/-- UNCACHED_ACCESS (R279): a write outside every region stores the bytes. -/
def Claim.uncachedWrite : Prop :=
  ∀ (s : State) (m : BitVec 16) (a : BitVec 40) (n : BitVec 16) (d : Bytes) (errs : List SymErr),
    masterExists m.toNat = true →
    s.dev.isFrozen m.toNat = false →
    s.dev.domainOn 3 = true →
    s.dev.runs 3 = true →
    s.dev.mapCheck a.toNat d.length = 0 →
    s.dev.inRegion a.toNat d.length = false →
    errsPart a.toNat d.length errs = [] →
    s.dev.hbmBlocked a.toNat d.length true = false →
    exec (.uncachedAccess m a n (some d) errs) s = s.to (((((s.dev.bump (O.uncachedAccesses (s.dev.homeDie a.toNat))).hbmPut a.toNat d).clearLost a.toNat d.length).dirtyHit a.toNat d.length).answer m.toNat .ok [])

/-- UNCACHED_ACCESS (R242): an uncached access to a region is an access violation and moves no byte. -/
def Claim.uncachedRegion : Prop :=
  ∀ (s : State) (m : BitVec 16) (a : BitVec 40) (n : BitVec 16) (w : Option Bytes) (errs : List SymErr),
    masterExists m.toNat = true →
    s.dev.isFrozen m.toNat = false →
    s.dev.domainOn 3 = true →
    s.dev.runs 3 = true →
    s.dev.mapCheck a.toNat (match w with | some d => d.length | none => n.toNat) = 0 →
    s.dev.inRegion a.toNat (match w with | some d => d.length | none => n.toNat) = true →
    exec (.uncachedAccess m a n w errs) s = s.to ((s.dev.bump (O.txnUncachedViolations (s.dev.homeDie a.toNat))).violation m.toNat 0 a.toNat)

/-- REFRESH (R284): above 85 °C a stack refreshes at the shorter interval; a map switch that waits is tried (R262, R290). -/
def Claim.refresh : Prop :=
  ∀ (s : State) (k : Fin 20),
    s.dev.hbmRuns = true →
    exec (.refresh k) s = s.to (s.dev.setNum (O.refreshMode k) (if 85 < s.dev.stackTemp k then 1 else 0)).deadSwitch

/-- RETRAIN_PERIOD_EXPIRY (R285). -/
def Claim.retrainPeriodExpiry : Prop :=
  ∀ (s : State) (p : Fin 640),
    s.dev.hbmRuns = true →
    s.dev.trainedAt p + ms (s.dev.num O.retrainPeriodMs) ≤ s.dev.uptime →
    exec (.retrainPeriodExpiry p) s = s.to (s.dev.trigger p)

/-- RETRAIN_TEMPERATURE_TRIGGER (R285). -/
def Claim.retrainTemperatureTrigger : Prop :=
  ∀ (s : State) (k : Fin 20) (temp : BitVec 16),
    s.dev.hbmRuns = true →
    exec (.retrainTemperatureTrigger k temp) s = s.to ((List.range 32).foldl (fun (d : Device) j =>
        if d.num O.retrainTempDeltaC ≤ (temp.toInt - d.trainedTemp (32 * k.val + j)).natAbs then d.trigger (32 * k.val + j) else d) (s.dev.setNum (O.stackTemperatureC k) temp.toNat))

/-- RETRAIN_ERROR_RATE_TRIGGER (R285). -/
def Claim.retrainErrorRateTrigger : Prop :=
  ∀ (s : State) (p : Fin 640) (rate : BitVec 32),
    s.dev.hbmRuns = true →
    s.dev.num O.retrainCorrectedRate < rate.toNat →
    exec (.retrainErrorRateTrigger p rate) s = s.to (s.dev.trigger p)

/-- A trigger of a pseudo-channel in service waits its turn on its die: in the order of the triggers, those of one moment in increasing
number (R285). -/
def Claim.triggerQueues : Prop :=
  ∀ (d : Device) (p : Nat) (a b : List (Nat × Nat)),
    d.pcSt p = 0 →
    d.retrainWaiting (p / 160) = a ++ b →
    (∀ x ∈ a ++ b, x.1 ≠ p) →
    (∀ x ∈ a, x.2 < d.uptime ∨ x.1 < p) →
    (∀ x ∈ b, d.uptime ≤ x.2 ∧ p ≤ x.1) →
    d.trigger p = d.setRetrainWaiting (p / 160) (a ++ [(p, d.uptime)] ++ b)

/-- RETRAIN_START (R285): the first that waits on a die starts. -/
def Claim.retrainStart : Prop :=
  ∀ (s : State) (q : Fin 4) (p w : Nat) (r : List (Nat × Nat)),
    s.dev.hbmRuns = true →
    tget? s.dev.mem.retrainNow q.val = none →
    ((s.dev.retrainWaiting q).dropWhile fun x => s.dev.pcSt x.1 != 0) = (p, w) :: r →
    exec (.retrainStart q) s = s.to (let d : Device := (s.dev.setRetrainWaiting q r).setPcSt p 1
       ({ d with mem := { d.mem with retrainNow := tput d.mem.retrainNow q.val (p, d.uptime) } } : Device).bump (O.pcRetrainCount (p / 32) (p % 32)))

/-- RETRAIN_SUCCESS (R285, R286). -/
def Claim.retrainSuccess : Prop :=
  ∀ (s : State) (q : Fin 4) (p t : Nat),
    tget? s.dev.mem.retrainNow q.val = some (p, t) →
    s.dev.hbmRuns = true →
    s.dev.uptime ≤ t + us 38 →
    exec (.retrainSuccess q) s = s.to (s.dev.retrainEnd q p t)

/-- RETRAIN_TIMEOUT (R285, R287): the pseudo-channel drops to 4.8 Gbit/s and is fenced. -/
def Claim.retrainTimeout : Prop :=
  ∀ (s : State) (q : Fin 4) (p t : Nat),
    tget? s.dev.mem.retrainNow q.val = some (p, t) →
    s.dev.hbmRuns = true →
    t + us 38 ≤ s.dev.uptime →
    exec (.retrainTimeout q) s = s.to (let d := ((s.dev.retrainEnd q p t).setNum (O.pcRateMbps (p / 32) (p % 32)) 4800).failPc p 0 0
       d.requestTest 8 4 (0x60 + p / 32) (p % 32) 0 d.errs.seq)

/-- A pseudo-channel to be fenced takes the next spare band and is FENCING (R287). -/
def Claim.fenceBegins : Prop :=
  ∀ (d : Device) (p addr cause : Nat),
    d.pcSt p ≠ 2 →
    d.pcSt p ≠ 3 →
    d.pcSt p ≠ 4 →
    d.mem.fences.length < 2 →
    d.failPc p addr cause =
      (let s : Device := d.setFences (d.mem.fences ++ [{ p := p, band := d.mem.fences.length, start := d.uptime }])
       let s : Device := (s.drop O.hbmSpareBandsFree).bump O.hbmOutOfServiceBytes 1125000000
       let s : Device := s.noRetrain p
       ((s.setPcSt p 2).setNum (O.pcRateMbps (p / 32) (p % 32)) 4800).pcRecord p addr 4 cause)

/-- FENCE_COPY_START (R288): the copy begins when every earlier fence has ended. -/
def Claim.fenceCopyStart : Prop :=
  ∀ (s : State) (k : Fin 2) (f : Fence),
    (s.dev.mem.fences.find? fun f => f.band == k.val) = some f →
    s.dev.hbmRuns = true →
    f.live = true →
    f.copying = false →
    (∀ g ∈ s.dev.mem.fences, f.band ≤ g.band ∨ g.live = false) →
    exec (.fenceCopyStart k) s = s.to (s.dev.modFence k fun f => { f with copying := true })

/-- FENCE_COPY_END (R289): the switch is made and the lost lines are entered. -/
def Claim.fenceCopyEnd : Prop :=
  ∀ (s : State) (k : Fin 2) (lost : List (BitVec 23 × Bool)) (f : Fence),
    (s.dev.mem.fences.find? fun f => f.band == k.val) = some f →
    s.dev.hbmRuns = true →
    f.live = true →
    f.copying = true →
    s.dev.lockedOn f.p = false →
    s.dev.mem.lostLines.length + (f.lostItems s.dev.mem.fences lost).length ≤ 4096 →
    exec (.fenceCopyEnd k lost) s = s.to (s.dev.fenceSwitch f (f.lostItems s.dev.mem.fences lost))

/-- HBM_SCRUB (R277): a granule that the round has not read yet is decoded; each codeword in error is counted where it lies and written back
corrected. -/
def Claim.hbmScrub : Prop :=
  ∀ (s : State) (p : Fin 640) (u : BitVec 23) (errs : List SymErr),
    s.dev.hbmRuns = true →
    u.toNat < 4378147 →
    s.dev.pcSt (s.dev.finalPlace p u.toNat).1 ≠ 4 →
    s.dev.scrubDone p u.toNat = false →
    exec (.hbmScrub p u errs) s = s.to (errs.foldl (fun (d : Device) e => d.scrubWord p u.toNat e) { s.dev with mem := { s.dev.mem with scrubbed := tput s.dev.mem.scrubbed (p.val * 8388608 + u.toNat) s.dev.uptime } })

/-- STACK_THERMAL_LIMIT (R438): half rate from 95 °C until below 92 °C. -/
def Claim.stackThermalLimit : Prop :=
  ∀ (s : State) (k : Fin 20) (temp : BitVec 16),
    s.dev.domainOn 3 = true →
    exec (.stackThermalLimit k temp) s = s.to (let d : Device := s.dev.setNum (O.stackTemperatureC k) temp.toNat
       { d with mem := { d.mem with hot := if 95 ≤ temp.toInt then (if d.mem.hot.contains k.val then d.mem.hot else k.val :: d.mem.hot)
        else if temp.toInt < 92 then d.mem.hot.filter fun x => x != k.val else d.mem.hot } })

/-- SEGMENT_TABLE_WRITE (R267): in CONFIGURE or SAFE a table in order is stored whole. -/
def Claim.segmentTableWrite : Prop :=
  ∀ (s : State) (v : Bytes),
    s.dev.accepts O.segmentTable →
    (s.dev.inSafe = true ∨ s.dev.startupCode = suConfigure) →
    segTableOk v = true →
    exec (.segmentTableWrite v) s = s.wrote O.segmentTable (let d : Device := (s.dev.setBytes O.segmentTable v).setNum O.segmentCount (beAt v 0 2)
       (((if d.domainOn 3 && d.startup.holding then { d with mem := { d.mem with segs := d.segTable } } else d).okay).measured O.segmentTable v).s)

/-- CLASP_OPEN (R244): a free slot of the coordinator is taken, and its number is the answer. -/
def Claim.claspOpen : Prop :=
  ∀ (s : State) (m : BitVec 16),
    s.dev.domainOn 3 = true →
    (s.dev.mem.due.find? fun d => d.master == m.toNat) = none →
    m.toNat ≠ managerId →
    mayOpen m.toNat = true →
    s.dev.isFrozen m.toNat = false →
    s.dev.claspUp = true →
    s.dev.txnsOf m.toNat = [] →
    s.dev.freeSlots (coordinator m.toNat) ≠ [] →
    ∃ n ∈ s.dev.freeSlots (coordinator m.toNat), exec (.claspOpen m) s = s.to (((((s.dev.choose (s.dev.freeSlots (coordinator m.toNat))).2.setTxn
      (64 * coordinator m.toNat + n) { master := m.toNat, openedAt := s.dev.uptime, limit := us (s.dev.num O.txnTimeLimitUs) })).emit (.reply .ok (64 * coordinator m.toNat + n))))

/-- PREPARE (R251, R252): the lower dies have voted yes, and the prepare, whose checks pass, votes yes. -/
def Claim.prepare : Prop :=
  ∀ (s : State) (q : Fin 4) (n : Fin 64) (d : Fin 4) (t : Txn),
    tget? s.dev.mem.txns (64 * q.val + n.val) = some t →
    t.state = .preparing →
    t.part d.val = some .todo →
    (∀ p ∈ t.parts, d.val ≤ p.1 ∨ p.2 = .counted) →
    s.dev.runs 3 = true →
    s.dev.engineTaken d.val (64 * q.val + n.val) = false →
    s.dev.prepare (64 * q.val + n.val) t d.val = .yes →
    exec (.prepare q n d) s = s.to ((s.dev.bump (O.txnLockWaitNs d) 0).setTxn (64 * q.val + n.val) (t.setPart d.val .yes))

/-- PREPARE_RESUME (R252): a prepare that waited starts again at its first check, and votes yes when all pass. -/
def Claim.prepareResume : Prop :=
  ∀ (s : State) (q : Fin 4) (n : Fin 64) (d : Fin 4) (t : Txn) (since : Nat),
    tget? s.dev.mem.txns (64 * q.val + n.val) = some t →
    t.part d.val = some (.waiting since) →
    s.dev.runs 3 = true →
    s.dev.prepare (64 * q.val + n.val) t d.val = .yes →
    exec (.prepareResume q n d) s = s.to ((s.dev.bump (O.txnLockWaitNs d) (40 * (s.dev.uptime - since))).setTxn (64 * q.val + n.val) (t.setPart d.val .yes))

/-- PREPARE (R252): a check that fails makes the vote a no with its reason. -/
def Claim.prepareNo : Prop :=
  ∀ (s : State) (q : Fin 4) (n : Fin 64) (d : Fin 4) (t : Txn) (why : Nat),
    tget? s.dev.mem.txns (64 * q.val + n.val) = some t →
    t.state = .preparing →
    t.part d.val = some .todo →
    (∀ p ∈ t.parts, d.val ≤ p.1 ∨ p.2 = .counted) →
    s.dev.runs 3 = true →
    s.dev.engineTaken d.val (64 * q.val + n.val) = false →
    s.dev.prepare (64 * q.val + n.val) t d.val = .no why →
    exec (.prepare q n d) s = s.to ((s.dev.bump (O.txnLockWaitNs d) 0).setTxn (64 * q.val + n.val) (t.setPart d.val (.no why)))

/-- PREPARE (R252): at a line that another commit holds, the prepare waits for the lock. -/
def Claim.prepareWaits : Prop :=
  ∀ (s : State) (q : Fin 4) (n : Fin 64) (d : Fin 4) (t : Txn),
    tget? s.dev.mem.txns (64 * q.val + n.val) = some t →
    t.state = .preparing →
    t.part d.val = some .todo →
    (∀ p ∈ t.parts, d.val ≤ p.1 ∨ p.2 = .counted) →
    s.dev.runs 3 = true →
    s.dev.engineTaken d.val (64 * q.val + n.val) = false →
    s.dev.prepare (64 * q.val + n.val) t d.val = .wait →
    exec (.prepare q n d) s = s.to (s.dev.setTxn (64 * q.val + n.val) (t.setPart d.val (.waiting s.dev.uptime)))

/-- LOCK_WAIT_LIMIT (R252): the prepare votes no. -/
def Claim.lockWaitLimit : Prop :=
  ∀ (s : State) (q : Fin 4) (n : Fin 64) (d : Fin 4) (t : Txn) (since : Nat),
    tget? s.dev.mem.txns (64 * q.val + n.val) = some t →
    t.part d.val = some (.waiting since) →
    s.dev.runs 3 = true →
    since + us (s.dev.num O.txnLockWaitLimitUs) < s.dev.uptime →
    exec (.lockWaitLimit q n d) s = s.to ((s.dev.bump (O.txnLockWaitNs d) (40 * (s.dev.uptime - since))).setTxn (64 * q.val + n.val) (t.setPart d.val (.no 3)))

/-- VOTE (R251): the last yes is the commit point. -/
def Claim.vote : Prop :=
  ∀ (s : State) (q : Fin 4) (n : Fin 64) (d : Fin 4) (t : Txn),
    tget? s.dev.mem.txns (64 * q.val + n.val) = some t →
    s.dev.runs 3 = true →
    t.state = .preparing →
    t.part d.val = some .yes →
    ((t.setPart d.val .counted).parts.all fun p => p.2 == .counted) = true →
    exec (.vote q n d) s = s.to (s.dev.setTxn (64 * q.val + n.val) { t.setPart d.val .counted with state := .installing })

/-- VOTE (R251, R256): a no aborts the transaction, and its issuer is told. -/
def Claim.voteNo : Prop :=
  ∀ (s : State) (q : Fin 4) (n : Fin 64) (d : Fin 4) (t : Txn) (why : Nat),
    tget? s.dev.mem.txns (64 * q.val + n.val) = some t →
    s.dev.runs 3 = true →
    t.state = .preparing →
    t.part d.val = some (.no why) →
    exec (.vote q n d) s = s.to ((s.dev.abortTxn (64 * q.val + n.val) t why).txnTell t.master (reasonStatus why) why)

/-- VOTE (R251): an earlier yes is counted. -/
def Claim.voteCounts : Prop :=
  ∀ (s : State) (q : Fin 4) (n : Fin 64) (d : Fin 4) (t : Txn),
    tget? s.dev.mem.txns (64 * q.val + n.val) = some t →
    s.dev.runs 3 = true →
    t.state = .preparing →
    t.part d.val = some .yes →
    ((t.setPart d.val .counted).parts.all fun p => p.2 == .counted) = false →
    exec (.vote q n d) s = s.to (s.dev.setTxn (64 * q.val + n.val) (t.setPart d.val .counted))

/-- INSTALL (R254): the lines of the participant are written, its locks released, and accesses that waited go on. -/
def Claim.install : Prop :=
  ∀ (s : State) (q : Fin 4) (n : Fin 64) (d : Fin 4) (t : Txn),
    tget? s.dev.mem.txns (64 * q.val + n.val) = some t →
    s.dev.runs 3 = true →
    t.state = .installing →
    t.part d.val = some .counted →
    exec (.install q n d) s = s.to (((s.dev.installAt (64 * q.val + n.val) t d.val).setTxn (64 * q.val + n.val) (t.setPart d.val .installed)).wakeWaiting)

/-- INSTALL_REPORT (R251): after the last report the issuer receives OK and the slot is free. -/
def Claim.installReport : Prop :=
  ∀ (s : State) (q : Fin 4) (n : Fin 64) (d : Fin 4) (t : Txn),
    tget? s.dev.mem.txns (64 * q.val + n.val) = some t →
    s.dev.runs 3 = true →
    t.part d.val = some .installed →
    ((t.setPart d.val .reported).parts.all fun p => p.2 == .reported) = true →
    exec (.installReport q n d) s = s.to (((s.dev.countCommit (64 * q.val + n.val) (t.setPart d.val .reported)).delTxn (64 * q.val + n.val)).txnTell t.master .ok 0)

/-- TXN_TIME_LIMIT (R257): a transaction open beyond its limit is aborted. -/
def Claim.txnTimeLimit : Prop :=
  ∀ (s : State) (q : Fin 4) (n : Fin 64) (t : Txn),
    tget? s.dev.mem.txns (64 * q.val + n.val) = some t →
    s.dev.runs 3 = true →
    t.state = .opened →
    t.openedAt + t.limit < s.dev.uptime →
    exec (.txnTimeLimit q n) s = s.to (s.dev.abortLater (64 * q.val + n.val) t 9)

/-- CLASP_ABORT (R256): the transaction ends with reason 10 and OK is answered. -/
def Claim.claspAbort : Prop :=
  ∀ (s : State) (m : BitVec 16) (slot : BitVec 8) (key : Nat) (t : Txn),
    s.dev.domainOn 3 = true →
    s.dev.dueFor m.toNat slot.toNat = none →
    s.dev.txnFor m.toNat slot.toNat = some (key, t) →
    t.state = .opened →
    exec (.claspAbort m slot) s = s.to ((s.dev.abortTxn key t 10).emit (.reply .ok 0))

/-- CLASP_COMMIT (R251): the participants are fixed and the commit sequence begins. -/
def Claim.claspCommit : Prop :=
  ∀ (s : State) (m : BitVec 16) (slot : BitVec 8) (key : Nat) (t : Txn),
    s.dev.domainOn 3 = true →
    s.dev.txnGate m.toNat slot.toNat = .inr (key, t) →
    s.dev.partsOf t ≠ [] →
    exec (.claspCommit m { val := slot }) s = s.to (s.dev.setTxn key { t with state := .preparing, parts := (s.dev.partsOf t).map fun q => (q, .todo) })

/-- CLASP_COMMIT (R251): a transaction that read and wrote nothing commits at once. -/
def Claim.commitNothing : Prop :=
  ∀ (s : State) (m : BitVec 16) (slot : BitVec 8) (key : Nat) (t : Txn),
    s.dev.domainOn 3 = true →
    s.dev.txnGate m.toNat slot.toNat = .inr (key, t) →
    s.dev.partsOf t = [] →
    exec (.claspCommit m { val := slot }) s = s.to (((s.dev.countCommit key t).delTxn key).emit (.reply .ok 0))

/-- CLASP_READ (R245, R247): the committed bytes under the transaction's own writes are answered, and the line is tracked. -/
def Claim.claspRead : Prop :=
  ∀ (s : State) (m : BitVec 16) (slot : BitVec 8) (a : BitVec 40) (whole : Bool) (errs : List SymErr) (key k b : Nat) (t : Txn),
    s.dev.domainOn 3 = true →
    s.dev.txnGate m.toNat slot.toNat = .inr (key, t) →
    k = (if whole then 128 else 32) →
    b = a.toNat / k * k →
    s.dev.lineInRegion (b / 128) = true →
    s.dev.trackLimit t (linesOf b k) = 0 →
    errsIn b k errs = [] →
    s.dev.hbmBlocked b k false = false →
    s.dev.mustWait b (.read k) (some key) = false →
    s.dev.ownWaits m.toNat b k = false →
    exec (.claspRead m slot a whole errs) s = s.to ((s.dev.trackedRead key t b k).2.answer m.toNat .ok (s.dev.trackedRead key t b k).1)

/-- CLASP_WRITE (R244, R247): the bytes of the line whose mask bits are set are held in the transaction. -/
def Claim.claspWrite : Prop :=
  ∀ (s : State) (m : BitVec 16) (slot : BitVec 8) (line : BitVec 33) (data : Bytes) (mask : BitVec 128) (key : Nat) (t : Txn) (b : List (Nat × Byte)),
    s.dev.domainOn 3 = true →
    s.dev.txnGate m.toNat slot.toNat = .inr (key, t) →
    b = (((List.range 128).filter fun i => mask.getLsbD i).map fun i => (128 * line.toNat + i, data.getD i 0)) →
    s.dev.lineInRegion line.toNat = true →
    (if t.written.contains line.toNat then t.written else t.written ++ [line.toNat]).length ≤ 2048 →
    exec (.claspWrite m slot line data mask) s = s.to ((s.dev.setTxn key { t with
        written := if t.written.contains line.toNat then t.written else t.written ++ [line.toNat],
        buf := b.foldl (fun m p => memSet m p.1 p.2) t.buf,
        masks := t.masks ++ (b.map fun p => p.1).filter fun a => !t.masks.contains a }).emit (.reply .ok 0))

/-- HANDOFF_RETRY (R302): the handoff at the head is granted. -/
def Claim.handoffRetry : Prop :=
  ∀ (s : State) (q : Fin 4) (a : Fin 1024) (b : Nat) (r : List Nat) (d : Device),
    (s.dev.poolCh q a).handoffs = b :: r →
    s.dev.domainOn 1 = true →
    (a.val, b) ∈ s.dev.handoffTurn q →
    s.dev.tryHandoff q a b = some d →
    exec (.handoffRetry q a) s = s.to ((d.setPoolCh q a { d.poolCh q a with handoffs := r }).handedOver q b)

/-- LEDGER_AUDIT (R307): a ledger of two sides sends its marker; that of a cluster's halos follows the tokens on their way. -/
def Claim.ledgerAudit : Prop :=
  ∀ (s : State) (kind : Fin 8) (inst : BitVec 12) (l : Ledger),
    tget? s.dev.mem.ledgers (ledgerId kind inst.toNat) = some l →
    l.audit = none →
    s.dev.runs (ledgerDomain (ledgerId kind inst.toNat)) = true →
    twoSided (ledgerId kind inst.toNat) = true →
    l.auditDue ≤ s.dev.uptime →
    exec (.ledgerAudit kind inst) s = s.to (let d := s.dev.auditBegins (ledgerId kind inst.toNat)
       (if kind.val = 5 then d.markHalos ((ledgerId kind inst.toNat) % 4096) Token.toConsumer else d).setAudit (ledgerId kind inst.toNat) (some (.marker (d.credit (ledgerId kind inst.toNat)).sent d.uptime)))

/-- LEDGER_AUDIT (R307): the counts of a ledger of one side add up to its total. -/
def Claim.auditSum : Prop :=
  ∀ (s : State) (kind : Fin 8) (inst : BitVec 12) (l : Ledger),
    tget? s.dev.mem.ledgers (ledgerId kind inst.toNat) = some l →
    l.audit = none →
    s.dev.runs (ledgerDomain (ledgerId kind inst.toNat)) = true →
    twoSided (ledgerId kind inst.toNat) = false →
    ((s.dev.auditBegins (ledgerId kind inst.toNat)).ledgerCounts (ledgerId kind inst.toNat)).1 + ((s.dev.auditBegins (ledgerId kind inst.toNat)).ledgerCounts (ledgerId kind inst.toNat)).2.1 + ((s.dev.auditBegins (ledgerId kind inst.toNat)).ledgerCounts (ledgerId kind inst.toNat)).2.2.1 + ((s.dev.auditBegins (ledgerId kind inst.toNat)).ledgerCounts (ledgerId kind inst.toNat)).2.2.2 = (s.dev.auditBegins (ledgerId kind inst.toNat)).ledgerTotal (ledgerId kind inst.toNat) →
    l.auditDue ≤ s.dev.uptime →
    exec (.ledgerAudit kind inst) s = s.to ((let d := s.dev.auditBegins (ledgerId kind inst.toNat)
       d.auditPass (ledgerId kind inst.toNat) (d.ledgerCounts (ledgerId kind inst.toNat)).1 (d.ledgerCounts (ledgerId kind inst.toNat)).2.2.1 (d.ledgerCounts (ledgerId kind inst.toNat)).2.2.2))

/-- LEDGER_AUDIT (R307, R309): another sum is a ledger fault. -/
def Claim.auditSumWrong : Prop :=
  ∀ (s : State) (kind : Fin 8) (inst : BitVec 12) (l : Ledger),
    tget? s.dev.mem.ledgers (ledgerId kind inst.toNat) = some l →
    l.audit = none →
    s.dev.runs (ledgerDomain (ledgerId kind inst.toNat)) = true →
    twoSided (ledgerId kind inst.toNat) = false →
    ((s.dev.auditBegins (ledgerId kind inst.toNat)).ledgerCounts (ledgerId kind inst.toNat)).1 + ((s.dev.auditBegins (ledgerId kind inst.toNat)).ledgerCounts (ledgerId kind inst.toNat)).2.1 + ((s.dev.auditBegins (ledgerId kind inst.toNat)).ledgerCounts (ledgerId kind inst.toNat)).2.2.1 + ((s.dev.auditBegins (ledgerId kind inst.toNat)).ledgerCounts (ledgerId kind inst.toNat)).2.2.2 ≠ (s.dev.auditBegins (ledgerId kind inst.toNat)).ledgerTotal (ledgerId kind inst.toNat) →
    l.auditDue ≤ s.dev.uptime →
    exec (.ledgerAudit kind inst) s = s.to ((let d := s.dev.auditBegins (ledgerId kind inst.toNat)
       d.auditFail (ledgerId kind inst.toNat) 1 ((d.ledgerCounts (ledgerId kind inst.toNat)).1 + (d.ledgerCounts (ledgerId kind inst.toNat)).2.1 + (d.ledgerCounts (ledgerId kind inst.toNat)).2.2.1 + (d.ledgerCounts (ledgerId kind inst.toNat)).2.2.2)))

/-- AUDIT_MARKER_ARRIVAL (R307): the receiver records its counts and replies. -/
def Claim.auditMarkerArrival : Prop :=
  ∀ (s : State) (kind : Fin 8) (inst : BitVec 12) (l : Ledger) (m t : Nat),
    tget? s.dev.mem.ledgers (ledgerId kind inst.toNat) = some l →
    l.audit = some (.marker m t) →
    ((ledgerIslands (ledgerId kind inst.toNat)).any s.dev.islandStopped) = false →
    m ≤ (s.dev.credit (ledgerId kind inst.toNat)).received →
    s.dev.markerThrough (ledgerId kind inst.toNat) = true →
    exec (.auditMarkerArrival kind inst none) s = s.to ((if kind.val = 5 then s.dev.markHalos ((ledgerId kind inst.toNat) % 4096) Token.toProducer else s.dev).setAudit (ledgerId kind inst.toNat) (some (.reply m m (s.dev.credit (ledgerId kind inst.toNat)).returned t)))

/-- AUDIT_REPLY_ARRIVAL (R307): the counts of both sides agree, and the audit passes. -/
def Claim.auditReplyJudged : Prop :=
  ∀ (s : State) (kind : Fin 8) (inst : BitVec 12) (l : Ledger) (m f t : Nat),
    tget? s.dev.mem.ledgers (ledgerId kind inst.toNat) = some l →
    l.audit = some (.reply m m f t) →
    ((ledgerIslands (ledgerId kind inst.toNat)).any s.dev.islandStopped) = false →
    f ≤ m →
    m - f ≤ (s.dev.setCredit (ledgerId kind inst.toNat) { s.dev.credit (ledgerId kind inst.toNat) with back := max (s.dev.credit (ledgerId kind inst.toNat)).back (min f (s.dev.credit (ledgerId kind inst.toNat)).returned) }).ledgerTotal (ledgerId kind inst.toNat) →
    ledgerId kind inst.toNat / 4096 ≠ 5 →
    s.dev.markerThrough (ledgerId kind inst.toNat) = true →
    exec (.auditReplyArrival kind inst none) s = s.to
      (let d := s.dev.setCredit (ledgerId kind inst.toNat) { s.dev.credit (ledgerId kind inst.toNat) with back := max (s.dev.credit (ledgerId kind inst.toNat)).back (min f (s.dev.credit (ledgerId kind inst.toNat)).returned) }
       d.auditPass (ledgerId kind inst.toNat) (d.ledgerTotal (ledgerId kind inst.toNat) - (m - f) - ((s.dev.credit (ledgerId kind inst.toNat)).sent - m)) (m - f) ((s.dev.credit (ledgerId kind inst.toNat)).sent - m))

/-- AUDIT_STALL (R308): an audit outstanding too long is a ledger fault of kind 6. -/
def Claim.auditStall : Prop :=
  ∀ (s : State) (kind : Fin 8) (inst : BitVec 12) (l : Ledger) (m t : Nat),
    tget? s.dev.mem.ledgers (ledgerId kind inst.toNat) = some l →
    l.audit = some (.marker m t) →
    ((ledgerIslands (ledgerId kind inst.toNat)).any s.dev.islandStopped) = false →
    t + us (s.dev.num O.auditStallLimitUs) < s.dev.uptime →
    exec (.auditStall kind inst) s = s.to ((s.dev.setAudit (ledgerId kind inst.toNat) (some (.marker m s.dev.uptime))).ledgerFault (ledgerId kind inst.toNat) 6 (s.dev.ledgerTotal (ledgerId kind inst.toNat)) 0)

/-- PORT_MODE_WRITE (R312): a port that is not off changes its mode and trains anew. -/
def Claim.portModeWrite : Prop :=
  ∀ (s : State) (l : Fin 96) (mode : BitVec 8),
    s.dev.accepts (O.portMode l) →
    (mode.toNat = 1 ∨ mode.toNat = 2) →
    bit (s.dev.num (O.clockEnables (12 + l.val / 24))) 0 = true →
    s.dev.portCtxs l = [] →
    s.dev.num (O.portMode l) ≠ 0 →
    mode.toNat ≠ s.dev.num (O.portMode l) →
    exec (.portModeWrite l mode) s = s.wrote (O.portMode l) (((s.dev.setNum (O.portMode l) mode.toNat).setPort l { pool := (s.dev.port l).pool }).setPortState l 1)

/-- PORT_MODE_WRITE (R312, R33, R300): mode 0 releases the lanes and closes the link-receive channel. -/
def Claim.portOff : Prop :=
  ∀ (s : State) (l : Fin 96) (mode : BitVec 8),
    s.dev.accepts (O.portMode l) →
    mode.toNat = 0 →
    bit (s.dev.num (O.clockEnables (12 + l.val / 24))) 0 = true →
    s.dev.portCtxs l = [] →
    s.dev.num (O.portMode l) ≠ 0 →
    s.dev.chHeld (l / 24) (s.dev.port l).pool = 0 →
    exec (.portModeWrite l mode) s = s.wrote (O.portMode l)
      (let d : Device := (s.dev.poolClose (l / 24) (s.dev.port l).pool).setPortState l 0
       (({ d with net := { d.net with ports := tdel d.net.ports l } } : Device).release (O.portMode l)).setNum (O.portMode l) 0)

/-- PORT_MODE_WRITE (R312, R33, R300): a port that was off claims its lanes and opens its link-receive channel. -/
def Claim.portClaims : Prop :=
  ∀ (s : State) (l : Fin 96) (mode : BitVec 8) (d : Device),
    s.dev.accepts (O.portMode l) →
    (mode.toNat = 1 ∨ mode.toNat = 2) →
    bit (s.dev.num (O.clockEnables (12 + l.val / 24))) 0 = true →
    s.dev.portCtxs l = [] →
    s.dev.num (O.portMode l) = 0 →
    l.val % s.dev.num (O.portLanes l) = 0 →
    ((s.dev.portLanesOf l).any s.dev.laneFailed) = false →
    (s.dev.claim ((s.dev.portLanesOf l).map fun x => O.laneState x) (O.portMode l) 0xFFFFFFFF).1 = d →
    (s.dev.claim ((s.dev.portLanesOf l).map fun x => O.laneState x) (O.portMode l) 0xFFFFFFFF).2 = none →
    d.channelFree (l / 24) (s.dev.num (O.rxReserve l)) →
    exec (.portModeWrite l mode) s = s.wrote (O.portMode l)
      (let p := granted (d.poolOpen (l / 24) 1 (s.dev.num (O.rxReserve l)) (s.dev.num (O.rxCap l)) (s.dev.num (O.rxClass l)) (O.portMode l) 0xFFFFFFFF) d
       ((p.2.setNum (O.portMode l) mode.toNat).setPort l { pool := p.1 }).setPortState l 1)

/-- PORT_TRAINING_COMPLETE (R314): with its lanes and its reference clock there, the port is up and frames that waited leave. -/
def Claim.portTrainingComplete : Prop :=
  ∀ (s : State) (l : Fin 96) (native : Bool),
    s.dev.runs 2 = true →
    s.dev.portOn l = true →
    s.dev.num (O.portState l) = 1 →
    (s.dev.num (O.portMode l) ≠ 2 ∨ native = true) →
    ((s.dev.portLanesOf l).any s.dev.laneFailed) = false →
    bit (s.dev.num O.refclkPresent) (2 + l.val / 24) = true →
    exec (.portTrainingComplete l native) s = s.to ((s.dev.setPortState l 2).portFlush l)

/-- PORT_DOWN (R315): the port is down. -/
def Claim.portDown : Prop :=
  ∀ (s : State) (l : Fin 96),
    s.dev.portOn l = true →
    s.dev.num (O.portState l) = 2 →
    exec (.portDown l) s = s.to (s.dev.setPortState l 3)

/-- LINK_ACK (R319): the frames before the one named are freed. -/
def Claim.linkAck : Prop :=
  ∀ (s : State) (l : Fin 96) (seq : BitVec 16),
    s.dev.portUp l = true →
    s.dev.num (O.portMode l) = 2 →
    exec (.linkAck l seq) s = s.to ((s.dev.setPort l { s.dev.port l with replay := (s.dev.port l).replay.filter fun f => decide (seq16 f.seq seq.toNat < 32768) }).portFlush l)

/-- LINK_REPLAY (R319): the frames from the one named are sent again, in order. -/
def Claim.linkReplay : Prop :=
  ∀ (s : State) (l : Fin 96) (seq : BitVec 16),
    s.dev.portUp l = true →
    s.dev.num (O.portMode l) = 2 →
    exec (.linkReplay l seq) s = s.to (((s.dev.port l).replay.filter fun f => decide (seq16 f.seq seq.toNat < 32768)).foldl (fun (d : Device) f => d.emit (.frame l (startBlock f.seq 0) f.data)) s.dev)

/-- LINK_ACK_TIMER (R319): an ACK names the next sequence expected. -/
def Claim.linkAckTimer : Prop :=
  ∀ (s : State) (l : Fin 96),
    s.dev.portUp l = true →
    s.dev.num (O.portMode l) = 2 →
    (s.dev.port l).unacked = true →
    (s.dev.port l).ackAt + us 1 ≤ s.dev.uptime →
    exec (.linkAckTimer l) s = s.to ((s.dev.setPort l { s.dev.port l with unacked := false, ackAt := s.dev.uptime }).linkControl l 1 (s.dev.port l).rxNext)

/-- LINK_EPISODE_TIMEOUT (R319): the missing frames are given up. -/
def Claim.linkEpisodeTimeout : Prop :=
  ∀ (s : State) (l : Fin 96) (t : Nat),
    (s.dev.port l).episode = some t →
    t + us 8 ≤ s.dev.uptime →
    exec (.linkEpisodeTimeout l) s = s.to ((s.dev.endEpisode l).setPort l { (s.dev.endEpisode l).port l with resync := true })

/-- PFC_PAUSE_EXPIRY (R331): the priority is no longer paused. -/
def Claim.pfcPauseExpiry : Prop :=
  ∀ (s : State) (l : Fin 96) (i : Fin 8) (t : Nat),
    tget? (s.dev.port l).paused i.val = some t →
    t ≤ s.dev.uptime →
    exec (.pfcPauseExpiry l i) s = s.to ((s.dev.setPort l { s.dev.port l with paused := tdel (s.dev.port l).paused i.val }).portFlush l)

/-- PFC_XOFF_REPEAT (R331): XOFF is sent again every 10 µs. -/
def Claim.pfcXoffRepeat : Prop :=
  ∀ (s : State) (l : Fin 96),
    s.dev.portUp l = true →
    s.dev.pfcOn l = true →
    (s.dev.port l).xoff = true →
    (s.dev.port l).xoffAt + us 10 ≤ s.dev.uptime →
    exec (.pfcXoffRepeat l) s = s.to ((s.dev.setPort l { s.dev.port l with xoffAt := s.dev.uptime }).pfcSend l 0xFFFF)

/-- FRAME_RECEIVE (R317): a frame with a good FCS goes on to the other checks. -/
def Claim.frameReceive : Prop :=
  ∀ (s : State) (l : Fin 96) (f : RxFrame),
    s.dev.portUp l = true →
    (s.dev.port l).held = [] →
    s.dev.num (O.portMode l) ≠ 2 →
    f.fcsGood = true →
    exec (.frameReceive l f) s = s.to (s.dev.frameIn l f)

/-- FRAME_RECEIVE (R317): a frame with a bad FCS is dropped and counted. -/
def Claim.frameBad : Prop :=
  ∀ (s : State) (l : Fin 96) (f : RxFrame),
    s.dev.portUp l = true →
    s.dev.num (O.portMode l) ≠ 2 →
    f.fcsGood = false →
    (s.dev.port l).held = [] →
    exec (.frameReceive l f) s = s.to (s.dev.bump (O.rxDrops l))

/-- FRAME_RECEIVE (R318, R319): the next frame of a native link ends an episode and is taken. -/
def Claim.frameInOrder : Prop :=
  ∀ (s : State) (l : Fin 96) (f : RxFrame),
    s.dev.portUp l = true →
    s.dev.num (O.portMode l) = 2 →
    f.fcsGood = true →
    f.startGood = true →
    f.control = false →
    (s.dev.port l).resync = false →
    seq16 f.linkSeq.toNat (s.dev.port l).rxNext = 0 →
    (s.dev.port l).held = [] →
    exec (.frameReceive l f) s = s.to (((s.dev.endEpisode l).setPort l { (s.dev.endEpisode l).port l with rxNext := (f.linkSeq.toNat + 1) % 65536, unacked := true }).frameIn l f)

/-- FRAME_RECEIVE (R319): a frame out of order asks for a replay and is dropped. -/
def Claim.frameGap : Prop :=
  ∀ (s : State) (l : Fin 96) (f : RxFrame),
    s.dev.portUp l = true →
    s.dev.num (O.portMode l) = 2 →
    f.fcsGood = true →
    f.startGood = true →
    f.control = false →
    (s.dev.port l).resync = false →
    0 < seq16 f.linkSeq.toNat (s.dev.port l).rxNext →
    seq16 f.linkSeq.toNat (s.dev.port l).rxNext < 32768 →
    (s.dev.port l).episode = none →
    (s.dev.port l).held = [] →
    exec (.frameReceive l f) s = s.to (((s.dev.setPort l { s.dev.port l with episode := some s.dev.uptime }).bump (O.linkReplays l)).linkControl l 2 (s.dev.port l).rxNext)

/-- A tagged frame passes where the port has a tag and the VLAN is the port's (R317). -/
def Claim.tagOfPort : Prop :=
  ∀ (d : Device) (l : Nat) (f : RxFrame) (t : BitVec 16),
    f.etherType.toNat ≠ 0x8808 →
    f.tags = [t] →
    d.tagOk l f = (bit (d.num (O.vlan l)) 15 && bits t.toNat 11 0 == bits (d.num (O.vlan l)) 11 0)

/-- FRAME_RECEIVE (R27, R29): a frame that comes while the link-layer island is stopped is held in the crossing. -/
def Claim.frameHeld : Prop :=
  ∀ (s : State) (l : Fin 96) (f : RxFrame),
    s.dev.runs 2 = true →
    s.dev.portOn l = true →
    s.dev.num (O.portState l) = 2 →
    s.dev.islandStopped (10 + l / 24) = true →
    exec (.frameReceive l f) s = s.to (s.dev.setPort l { s.dev.port l with held := (s.dev.port l).held ++ [f] })

/-- A frame that was held comes in when the island runs again (R27, R29). -/
def Claim.frameWaits : Prop :=
  ∀ (d : Device) (l : Nat) (f : RxFrame),
    d.portUp l = true →
    (d.port l).held = [f] →
    d.linkResumes l = ((d.setPort l { d.port l with held := [] }).frameArrives l f).portFlush l

/-- BRODLU_WRITE (R324, R332): a packet that passes every check is accepted. -/
def Claim.brodluWrite : Prop :=
  ∀ (s : State) (l : Fin 96) (r : RxIn) (d : Device),
    s.dev.portUp l = true →
    ((s.dev.linkResumes l).drainPort l).rxHead l 1 = some (r, d) →
    d.receives l r →
    exec (.brodluWrite l) s = s.to (((d.packetSeen r).accept l r.pkt.dst r).passDict l)

/-- BRODLU_REDUCE (R324, R332): a packet that passes every check is accepted. -/
def Claim.brodluReduce : Prop :=
  ∀ (s : State) (l : Fin 96) (r : RxIn) (d : Device),
    s.dev.portUp l = true →
    ((s.dev.linkResumes l).drainPort l).rxHead l 2 = some (r, d) →
    d.receives l r →
    exec (.brodluReduce l) s = s.to (((d.packetSeen r).accept l r.pkt.dst r).passDict l)

/-- BRODLU_SEND (R324, R329): a packet that passes every check is accepted. -/
def Claim.brodluSend : Prop :=
  ∀ (s : State) (l : Fin 96) (r : RxIn) (d : Device),
    s.dev.portUp l = true →
    ((s.dev.linkResumes l).drainPort l).rxHead l 3 = some (r, d) →
    d.receives l r →
    exec (.brodluSend l) s = s.to (((d.packetSeen r).accept l r.pkt.dst r).passDict l)

/-- BRODLU_DICT (R324, R337): a packet that passes every check is accepted. -/
def Claim.brodluDict : Prop :=
  ∀ (s : State) (l : Fin 96) (r : RxIn) (d : Device),
    s.dev.portUp l = true →
    ((s.dev.linkResumes l).drainPort l).rxHead l 4 = some (r, d) →
    d.receives l r →
    exec (.brodluDict l) s = s.to (((d.packetSeen r).accept l r.pkt.dst r).passDict l)

/-- BRODLU_FIN (R323, R324): a packet that passes every check is accepted. -/
def Claim.brodluFin : Prop :=
  ∀ (s : State) (l : Fin 96) (r : RxIn) (d : Device),
    s.dev.portUp l = true →
    ((s.dev.linkResumes l).drainPort l).rxHead l 8 = some (r, d) →
    d.receives l r →
    exec (.brodluFin l) s = s.to (((d.packetSeen r).accept l r.pkt.dst r).passDict l)

/-- BRODLU_ACK (R326): its buffers go back and what it acknowledges is taken. -/
def Claim.brodluAck : Prop :=
  ∀ (s : State) (l : Fin 96) (r : RxIn) (d : Device),
    s.dev.rxHead l 5 = some (r, d) →
    (d.rxFree l r.bufs).refusal l r.pkt.dst r = none →
    exec (.brodluAck l) s = s.to ((d.rxFree l r.bufs).packetSeen r)

/-- BRODLU_NAK (R338): the sender acts as Table 13.8 says. -/
def Claim.brodluNak : Prop :=
  ∀ (s : State) (l : Fin 96) (r : RxIn) (d : Device),
    s.dev.rxHead l 6 = some (r, d) →
    (d.rxFree l r.bufs).ctxSt r.pkt.dst = 2 →
    (d.rxFree l r.bufs).ctxPort r.pkt.dst = l.val →
    (d.rxFree l r.bufs).fromPeer r.pkt.dst r = true →
    exec (.brodluNak l) s = s.to (((d.rxFree l r.bufs).bumpStat (O.ctxStats r.pkt.dst) 5).nakAct r.pkt.dst (bits r.pkt.op 63 56) (bits r.pkt.op 31 0) r.pkt)

/-- BRODLU_SYNC (R322): a SYNC of the peer takes part in the handshake. -/
def Claim.brodluSync : Prop :=
  ∀ (s : State) (l : Fin 96) (r : RxIn) (d : Device),
    s.dev.rxHead l 7 = some (r, d) →
    ((d.rxFree l r.bufs).ctxSt r.pkt.dst = 1 ∨ (d.rxFree l r.bufs).ctxSt r.pkt.dst = 2) →
    (d.rxFree l r.bufs).ctxDatagram r.pkt.dst = false →
    (d.rxFree l r.bufs).ctxPort r.pkt.dst = l.val →
    (d.rxFree l r.bufs).fromPeer r.pkt.dst r = true →
    exec (.brodluSync l) s = s.to (((d.rxFree l r.bufs).bumpStat (O.ctxStats r.pkt.dst) 1).syncIn r.pkt.dst r.pkt)

/-- PACKET_TRANSMIT (R330): with no frame that waits before it, the arbiter of the port sends one packet. -/
def Claim.packetTransmit : Prop :=
  ∀ (s : State) (l : Fin 96),
    s.dev.portUp l = true →
    (s.dev.port l).held = [] →
    (s.dev.port l).outq = [] →
    s.dev.maySend l 9216 = true →
    exec (.packetTransmit l) s = s.to (s.dev.portTransmit l)

/-- The head of the queue leaves once its buffers are granted, and is kept until it is acknowledged (R327). -/
def Claim.transmitHead : Prop :=
  ∀ (d : Device) (n : Nat) (p : Packet) (rest : List Packet) (ch : Nat) (e : Device),
    (d.ctx n).queue = p :: rest →
    (d.ctx n).pool = some ch →
    d.ctxDatagram n = false →
    d.poolTake (d.ctxPort n / 24) ch (max 1 ((p.payload.length + 4095) / 4096)) = (true, e) →
    e.ctxDatagram n = false →
    d.transmit n =
      ((e.setCtx n { d.ctx n with
          queue := rest, txSeq := seqAdd p.seq 1,
          nextSend := max (d.ctx n).nextSend d.uptime + sendCounts (d.frameLen (d.ctxPort n) (isV4 (d.ctxIp n)) (40 + p.payload.length)) (beAt (d.bytes (O.ctxStats n)) 56 8),
          unacked := (d.ctx n).unacked ++ [{ pkt := p, bufs := max 1 ((p.payload.length + 4095) / 4096), timerAt := e.uptime }] }).ctxSend n p.type p.seq
        fun h => { p with gen := h.gen, dst := h.dst, src := h.src, ack := h.ack, sack := h.sack, credit := h.credit, ceEcho := h.ceEcho })

/-- CTX_CLOSE (R323): an open context closes once its packets are acknowledged. -/
def Claim.ctxClose : Prop :=
  ∀ (s : State) (n : Fin 4096),
    s.dev.accepts (O.ctxControl n) →
    s.dev.ctxSt n = 2 →
    exec (.ctxClose n) s = s.wrote (O.ctxControl n) ((s.dev.setCtx n { s.dev.ctx n with closing := true }).closeIfDone n)

/-- CTX_CLOSE (R323): a failed context is closed at once. -/
def Claim.ctxCloseFailed : Prop :=
  ∀ (s : State) (n : Fin 4096),
    s.dev.accepts (O.ctxControl n) →
    s.dev.ctxSt n = 3 →
    exec (.ctxClose n) s = s.wrote (O.ctxControl n) (s.dev.ctxClosed n)

/-- CTX_OPEN (R321, R322): the send channel is opened, the generation is the next, and SYNC is sent. -/
def Claim.ctxOpenReliable : Prop :=
  ∀ (s : State) (n : Fin 4096),
    s.dev.accepts (O.ctxControl n) →
    s.dev.ctxSt n = 0 →
    (s.dev.ctx n).closedAt = none →
    s.dev.portOn (s.dev.ctxPort n) = true →
    s.dev.channelFree (s.dev.ctxPort n / 24) (s.dev.ctxCfg n 34 2) →
    s.dev.ctxDatagram n = false →
    let p := granted (s.dev.poolOpen (s.dev.ctxPort n / 24) 2 (s.dev.ctxCfg n 34 2) (s.dev.ctxCfg n 36 2) (s.dev.ctxCfg n 3 1) (O.ctxControl n) 0xFFFFFFFF) s.dev;
    exec (.ctxOpen n) s = s.wrote (O.ctxControl n)
      ((((p.2.setStat (O.ctxStats n) 7 (s.dev.rateMax n)).setCtx n { gen := ((s.dev.ctx n).gen + 1) % 16, consumed := (s.dev.ctx n).consumed, msgNo := (s.dev.ctx n).msgNo, pool := some p.1, openedAt := p.2.uptime, lastSync := p.2.uptime }).setNum
        (O.ctxState n) 1).syncSend n true)

/-- CTX_OPEN (R321): a datagram context is OPEN at once. -/
def Claim.ctxOpenDatagram : Prop :=
  ∀ (s : State) (n : Fin 4096),
    s.dev.accepts (O.ctxControl n) →
    s.dev.ctxSt n = 0 →
    (s.dev.ctx n).closedAt = none →
    s.dev.portOn (s.dev.ctxPort n) = true →
    s.dev.channelFree (s.dev.ctxPort n / 24) (s.dev.ctxCfg n 34 2) →
    s.dev.ctxDatagram n = true →
    let p := granted (s.dev.poolOpen (s.dev.ctxPort n / 24) 2 (s.dev.ctxCfg n 34 2) (s.dev.ctxCfg n 36 2) (s.dev.ctxCfg n 3 1) (O.ctxControl n) 0xFFFFFFFF) s.dev;
    exec (.ctxOpen n) s = s.wrote (O.ctxControl n)
      (((p.2.setStat (O.ctxStats n) 7 (s.dev.rateMax n)).setCtx n { gen := (s.dev.ctx n).gen, consumed := (s.dev.ctx n).consumed, msgNo := (s.dev.ctx n).msgNo, pool := some p.1, openedAt := p.2.uptime }).setNum
        (O.ctxState n) 2)

/-- CTX_THAW (R332, R476): a frozen context is thawed. -/
def Claim.ctxThaw : Prop :=
  ∀ (s : State) (n : Fin 4096) (d : Device),
    s.dev.accepts (O.ctxThaw n) →
    s.dev.ctxSt n = 4 →
    s.dev.thaw (masterId 4 n) = d.okay →
    exec (.ctxThaw n) s = s.wrote (O.ctxThaw n) ((d.okay.measured (O.ctxThaw n) [1]).s)

/-- SYNC_INTERVAL (R322): SYNC is sent again every 100 µs. -/
def Claim.syncInterval : Prop :=
  ∀ (s : State) (n : Fin 4096),
    s.dev.runs 2 = true →
    s.dev.ctxSt n = 1 →
    (s.dev.ctx n).lastSync + us 100 ≤ s.dev.uptime →
    exec (.syncInterval n) s = s.to ((s.dev.setCtx n { s.dev.ctx n with lastSync := s.dev.uptime }).syncSend n true)

/-- SYNC_TIMEOUT (R322): without an answer in time the context fails. -/
def Claim.syncTimeout : Prop :=
  ∀ (s : State) (n : Fin 4096),
    s.dev.runs 2 = true →
    s.dev.ctxSt n = 1 →
    (s.dev.ctx n).openedAt + ms (s.dev.num O.syncTimeoutMs) ≤ s.dev.uptime →
    exec (.syncTimeout n) s = s.to (s.dev.ctxFail n .timeout)

/-- ACK_DELAY_TIMER (R326): the ACK that is due is sent. -/
def Claim.ackDelayTimer : Prop :=
  ∀ (s : State) (n : Fin 4096) (t : Nat),
    (s.dev.ctx n).ackDue = some t →
    s.dev.runs 2 = true →
    s.dev.ctxSt n = 2 →
    t ≤ s.dev.uptime →
    exec (.ackDelayTimer n) s = s.to (s.dev.ackNow n)

/-- RETRANSMIT_TIMEOUT (R327): the oldest packet goes again and the next timeout runs. -/
def Claim.retransmitTimeout : Prop :=
  ∀ (s : State) (n : Fin 4096) (u : Unacked) (rest : List Unacked),
    (s.dev.ctx n).unacked = u :: rest →
    s.dev.runs 2 = true →
    s.dev.ctxSt n = 2 →
    (s.dev.port (s.dev.ctxPort n)).episode = none →
    u.timerAt + us (rtoUs u.tries) ≤ s.dev.uptime →
    u.tries < 6 →
    exec (.retransmitTimeout n) s = s.to ((s.dev.setCtx n { s.dev.ctx n with unacked := { u with timerAt := u.timerAt + us (rtoUs u.tries), tries := u.tries + 1 } :: rest }).resend n u.pkt.seq)

/-- RETRANSMIT_TIMEOUT (R327): when the seventh timeout expires the context fails with E_TIMEOUT. -/
def Claim.retransmitGivesUp : Prop :=
  ∀ (s : State) (n : Fin 4096) (u : Unacked) (rest : List Unacked),
    (s.dev.ctx n).unacked = u :: rest →
    s.dev.runs 2 = true →
    s.dev.ctxSt n = 2 →
    (s.dev.port (s.dev.ctxPort n)).episode = none →
    u.timerAt + us (rtoUs u.tries) ≤ s.dev.uptime →
    6 ≤ u.tries →
    exec (.retransmitTimeout n) s = s.to (s.dev.ctxFail n .timeout)

/-- NO_BUFFER_RETRY (R327, R338): a packet that is due again is sent again. -/
def Claim.noBufferRetry : Prop :=
  ∀ (s : State) (n : Fin 4096) (u : Unacked),
    s.dev.dueAgain n = some u →
    s.dev.runs 2 = true →
    s.dev.ctxSt n = 2 →
    exec (.noBufferRetry n) s = s.to (s.dev.resend n u.pkt.seq)

/-- RATE_CONTROL_PERIOD (R330): every open reliable context adjusts its rate. -/
def Claim.rateControlPeriod : Prop :=
  ∀ (s : State),
    s.dev.runs 2 = true →
    s.dev.net.rcAt + us (s.dev.num O.rcPeriodUs) ≤ s.dev.uptime →
    exec .rateControlPeriod s = s.to ((s.dev.net.ctxs.map fun c => c.1).foldl (fun (d : Device) n => if d.ctxSt n = 2 ∧ d.ctxDatagram n = false then
        (d.setStat (O.ctxStats n) 7 (d.rateNext n)).setCtx n { d.ctx n with echoed := false } else d)
        { s.dev with net := { s.dev.net with rcAt := s.dev.uptime } })

/-- PUT (R334): the step's message is queued on its context. -/
def Claim.put : Prop :=
  ∀ (s : State) (id : BitVec 32) (p : PlanRun) (x : Job) (t : PlanStep),
    s.dev.planReady id.toNat (fun t => t.op == 1 && !t.isLocal) = some (p, x, t) →
    s.dev.bufWaits (x.buf t.src) t.srcOff t.length false = false →
    s.dev.bufOn (x.buf t.src) = true →
    s.dev.bufBlocked (x.buf t.src) t.srcOff t.length false = false →
    exec (.put id) s = s.to (s.dev.putMessage p x t)

/-- PUT_ADD (R334): the step's message is queued on its context. -/
def Claim.putAdd : Prop :=
  ∀ (s : State) (id : BitVec 32) (p : PlanRun) (x : Job) (t : PlanStep),
    s.dev.planReady id.toNat (fun t => t.op == 2 && !t.isLocal) = some (p, x, t) →
    s.dev.bufWaits (x.buf t.src) t.srcOff t.length false = false →
    s.dev.bufOn (x.buf t.src) = true →
    s.dev.bufBlocked (x.buf t.src) t.srcOff t.length false = false →
    exec (.putAdd id) s = s.to (s.dev.putMessage p x t)

/-- LOCAL_STEP (R334): the bytes are copied, or added line by line. -/
def Claim.localStep : Prop :=
  ∀ (s : State) (id : BitVec 32) (p : PlanRun) (x : Job) (t : PlanStep),
    s.dev.planReady id.toNat (PlanStep.isLocal) = some (p, x, t) →
    s.dev.bufWaits (x.buf t.src) t.srcOff t.length false = false →
    s.dev.bufOn (x.buf t.src) = true →
    s.dev.bufBlocked (x.buf t.src) t.srcOff t.length false = false →
    s.dev.bufWaits (x.buf t.window) t.dstOff t.length true = false →
    s.dev.bufOn (x.buf t.window) = true →
    s.dev.bufBlocked (x.buf t.window) t.dstOff t.length true = false →
    exec (.localStep id) s = s.to (let d := s.dev.bufGet (x.buf t.src) t.srcOff t.length
       let e := s.dev.bufTouch (x.buf t.src) t.srcOff t.length false
       let e := if t.op = 1 then (e.bufTouch (x.buf t.window) t.dstOff t.length true).bufPut (x.buf t.window) t.dstOff d else e.addLines (x.buf t.window) t.dstOff t.element d
       let e := if p.gather then e.bump (O.gatherBytes p.job) t.length else e
       e.stepStarted p .nothing)

/-- WAIT_IN (R334): the step waits for messages of its context. -/
def Claim.waitIn : Prop :=
  ∀ (s : State) (id : BitVec 32) (p : PlanRun) (x : Job) (t : PlanStep),
    s.dev.planReady id.toNat (fun t => t.op == 3) = some (p, x, t) →
    exec (.waitIn id) s = s.to (s.dev.stepStarted p (.count t.ctx t.length))

/-- PLAN_STEP_COMPLETE (R335): a step whose wait has come about is done, and a plan with every step done ends. -/
def Claim.planStepComplete : Prop :=
  ∀ (s : State) (id : BitVec 32) (i : Fin 4096) (p : PlanRun),
    s.dev.plan? id.toNat = some p →
    s.dev.works 2 = true →
    p.running = true →
    exec (.planStepComplete id i) s = s.to ((s.dev.stepDone p i).planCheck id.toNat)

/-- STREAM_OPEN (R341): a configuration that passes the checks claims its context, opens its IN channel, and the stream is OPEN. -/
def Claim.streamOpen : Prop :=
  ∀ (s : State) (m : Fin 4) (n : Fin 64) (x : Job) (c : Bytes) (d : Device),
    s.dev.accepts (O.streamControl m n) →
    s.dev.resident (leAt (s.dev.sCfg (64 * m.val + n.val)) 2 1) = true →
    s.dev.streamSt (64 * m.val + n.val) = 0 →
    c = s.dev.sCfg (64 * m.val + n.val) →
    s.dev.job? (leAt c 2 1) = some x →
    streamCfgOk c = true →
    s.dev.ctxDelivery (leAt c 4 2) = 2 →
    s.dev.ctxPort (leAt c 4 2) / 24 = m.val →
    s.dev.ctxJob (leAt c 4 2) = leAt c 2 1 →
    largestSize c ≤ leAt c 136 4 →
    (s.dev.plainExtent x (leAt c 104 8) (4096 + leAt c 112 4 * strandStride c) && s.dev.plainExtent x (leAt c 128 8) (leAt c 3 1 * leAt c 136 4) && (leAt c 120 8 == 0 || s.dev.plainExtent x (leAt c 120 8) (16 * 139264))) = true →
    (s.dev.claim [O.ctxState (leAt c 4 2), O.streamState m n] (O.streamControl m n) 0xFFFFFFFF).1 = d →
    (s.dev.claim [O.ctxState (leAt c 4 2), O.streamState m n] (O.streamControl m n) 0xFFFFFFFF).2 = none →
    d.channelFree m (leAt c 6 2) →
    exec (.streamOpen m n) s = s.wrote (O.streamControl m n)
      (let p := granted (d.poolOpen m 4 (leAt c 6 2) (leAt c 8 2) (leAt c 1 1) (O.streamControl m n) 0xFFFFFFFF) d
       ((p.2.setStream (64 * m.val + n.val) { pool := p.1, ctx := leAt c 4 2 }).setNum (O.streamState m n) 1).setNum (O.strandHead m n) 0)

/-- STREAM_CLOSE (R358): an open stream is CLOSING. -/
def Claim.streamClose : Prop :=
  ∀ (s : State) (m : Fin 4) (n : Fin 64),
    s.dev.accepts (O.streamControl m n) →
    s.dev.streamSt (64 * m.val + n.val) = 1 →
    exec (.streamClose m n) s = s.wrote (O.streamControl m n) (((s.dev.setStream (64 * m.val + n.val) { s.dev.stream (64 * m.val + n.val) with closing := true }).setNum (O.streamState m n) 2).flushView (64 * m.val + n.val))

/-- STREAM_FLUSH (R356): the samples before the next number close their Strand. -/
def Claim.streamFlush : Prop :=
  ∀ (s : State) (m : Fin 4) (n : Fin 64),
    s.dev.accepts (O.streamControl m n) →
    s.dev.streamSt (64 * m.val + n.val) = 1 →
    exec (.streamFlush m n) s = s.wrote (O.streamControl m n) ((s.dev.setStream (64 * m.val + n.val) { s.dev.stream (64 * m.val + n.val) with flushAt := some (s.dev.num (O.nextSampleSeq m n)) }).flushView (64 * m.val + n.val))

/-- STREAM_THAW (R476): a frozen stream is thawed. -/
def Claim.streamThaw : Prop :=
  ∀ (s : State) (m : Fin 4) (n : Fin 64) (d : Device),
    s.dev.accepts (O.streamThaw m n) →
    s.dev.streamSt (64 * m.val + n.val) = 3 →
    s.dev.thaw (masterId 6 (64 * m.val + n.val)) = d.okay →
    exec (.streamThaw m n) s = s.wrote (O.streamThaw m n) ((d.okay.measured (O.streamThaw m n) [1]).s)

/-- ENCODE_THAW (R476): a frozen encode stream is thawed. -/
def Claim.encodeThaw : Prop :=
  ∀ (s : State) (m : Fin 4) (n : Fin 64) (d : Device),
    s.dev.accepts (O.encodeThaw m n) →
    s.dev.encSt (64 * m.val + n.val) = 3 →
    s.dev.thaw (masterId 6 (64 * m.val + n.val)) = d.okay →
    exec (.encodeThaw m n) s = s.wrote (O.encodeThaw m n) ((d.okay.measured (O.encodeThaw m n) [1]).s)

/-- STREAM_CLOSE_COMPLETE (R358): with nothing left to place or to write the stream is CLOSED. -/
def Claim.streamCloseComplete : Prop :=
  ∀ (s : State) (m : Fin 4) (n : Fin 64),
    s.dev.works (mediaDomain m) = true →
    s.dev.streamSt (64 * m.val + n.val) = 2 →
    (s.dev.stream (64 * m.val + n.val)).records = [] →
    (s.dev.stream (64 * m.val + n.val)).openStrand = none →
    (s.dev.stream (64 * m.val + n.val)).closed = [] →
    exec (.streamCloseComplete m n) s = s.to (s.dev.streamGone (64 * m.val + n.val))

/-- RECORD_ARRIVAL (R342, R343): the first packet of a record is checked. -/
def Claim.recordArrival : Prop :=
  ∀ (s : State) (m : Fin 4) (n : Fin 64) (p : Piece) (rest : List Piece),
    (s.dev.stream (64 * m.val + n.val)).inq = p :: rest →
    p.need = 0 →
    s.dev.streamWorks m (64 * m.val + n.val) = true →
    p.first = true →
    exec (.recordArrival m n) s = s.to ((s.dev.setStream (64 * m.val + n.val) { s.dev.stream (64 * m.val + n.val) with inq := rest }).recordBegin (64 * m.val + n.val) p)

/-- RECORD_ARRIVAL (R342, R343): a later packet continues its record. -/
def Claim.recordLater : Prop :=
  ∀ (s : State) (m : Fin 4) (n : Fin 64) (p : Piece) (rest : List Piece),
    (s.dev.stream (64 * m.val + n.val)).inq = p :: rest →
    p.need = 0 →
    s.dev.streamWorks m (64 * m.val + n.val) = true →
    p.first = false →
    exec (.recordArrival m n) s = s.to ((s.dev.setStream (64 * m.val + n.val) { s.dev.stream (64 * m.val + n.val) with inq := rest }).recordMore (64 * m.val + n.val) p)

/-- A record that passes the structural checks consumes the next sequence number (R343). -/
def Claim.recordTaken : Prop :=
  ∀ (d : Device) (k : Nat) (p : Piece),
    (d.stream k).records = [] →
    d.structural k p.data = none →
    d.recordBegin k p =
      (let o := O.nextSampleSeq (k / 64) (k % 64)
       let s : Device := (d.setNum o ((d.num o + 1) % 2 ^ 32)).workArrives
       (s.setStream k { s.stream k with
          records := (s.stream k).records ++ [{ seq := d.num o, hdr := p.data.take 32, body := p.data.drop 32, bufs := p.bufs, ended := p.last }]
          discarding := false }).advanceRecord k (d.num o))

/-- One that fails a check is discarded, counted and logged with its stage, sequence number and detail (R343). -/
def Claim.recordRefused : Prop :=
  ∀ (d : Device) (k code : Nat) (p : Piece) (st : Status),
    (d.stream k).records = [] →
    d.structural k p.data = some (st, code) →
    d.recordBegin k p =
      (let s : Device := d.poolRelease (k / 64) (d.stream k).pool p.bufs
       ((s.setStream k { d.stream k with discarding := !p.last }).sStat k 2).rejectRow (k / 64) (leAt p.data 14 2) st 0 (leAt p.data 0 4) code)

/-- WORK_SLOT_GRANT (R344): the first record that waits takes the lowest free work slot. -/
def Claim.workSlotGrant : Prop :=
  ∀ (s : State) (m : Fin 4) (n : Fin 64) (y : Sample) (i : Nat),
    s.dev.slotWaiter (64 * m.val + n.val) = some y →
    s.dev.freeWorkSlot (64 * m.val + n.val) = some i →
    s.dev.streamWorks m (64 * m.val + n.val) = true →
    exec (.workSlotGrant m n) s = s.to (s.dev.takeSlot (64 * m.val + n.val) y i)

/-- DECODE_DISPATCH (R347, R365): the lowest free engine of the kind takes the next job. -/
def Claim.decodeDispatch : Prop :=
  ∀ (s : State) (m : Fin 4) (k : Fin 4) (e : Nat),
    s.dev.freeEngine m k = some e →
    s.dev.works (mediaDomain m) = true →
    exec (.decodeDispatch m k) s = s.to (s.dev.engineNext m k e)

/-- An engine takes the head of the LC queue before all else (R365). -/
def Claim.liveFirst : Prop :=
  ∀ (d : Device) (m kind e : Nat) (p : Nat × Sample),
    d.queueHead m kind true = some p →
    d.engineNext m kind e = d.dispatchSample e p.1 p.2 (d.engine m e).aside

/-- DECODE_COMPLETE (R345 to R348): a job finished within its deadline delivers its planes. -/
def Claim.decodeComplete : Prop :=
  ∀ (s : State) (m : Fin 4) (e : Fin 17) (d : Decoded) (u : Bool) (j : EngineJob) (y : Sample),
    (s.dev.engine m e).now = some j →
    s.dev.sample? j.stream j.seq = some y →
    s.dev.works (mediaDomain m) = true →
    s.dev.streamSt j.stream ≠ 3 →
    s.dev.inTime y = true →
    (y.ended || d.outside y.codec || u) = true →
    exec (.decodeComplete m e d u) s = s.to (s.dev.decoded j.stream y e d u)

/-- DECODE_DEADLINE (R348): a sample not finished at its deadline fails with E_TIMEOUT. -/
def Claim.decodeDeadline : Prop :=
  ∀ (s : State) (m : Fin 4) (n : Fin 64) (q : BitVec 32) (y : Sample) (t : Nat),
    s.dev.sample? (64 * m.val + n.val) q.toNat = some y →
    y.deadline = some t →
    s.dev.works (mediaDomain m) = true →
    y.stage = .decoding →
    t ≤ s.dev.uptime →
    exec (.decodeDeadline m n q) s = s.to ((s.dev.modSample (64 * m.val + n.val) y.seq fun x => { x with aborted := true }).sampleFail (64 * m.val + n.val) y.seq .timeout 3 0 3)

/-- LC_SWITCH (R365): the engine puts its BE job aside for the LC job that waits. -/
def Claim.lcSwitch : Prop :=
  ∀ (s : State) (m : Fin 4) (e : Fin 17) (j : EngineJob) (p : Nat × Sample),
    (s.dev.engine m e).now = some j →
    (e.val < 8 ∨ e.val = 16) →
    j.live = false →
    s.dev.works (mediaDomain m) = true →
    s.dev.queueHead m (if e.val < 8 then 0 else 3) true = some p →
    exec (.lcSwitch m e) s = s.to ((s.dev.bump (O.lcSwitchWaitNs m) (40 * (s.dev.uptime - p.2.waitSince))).dispatchSample e p.1 p.2 (some j))

/-- SAMPLE_PLACE (R355): the next item in sequence order is placed. -/
def Claim.samplePlace : Prop :=
  ∀ (s : State) (m : Fin 4) (n : Fin 64) (y : Sample) (rest : List Sample),
    (s.dev.stream (64 * m.val + n.val)).records = y :: rest →
    (y.stage = .ready ∨ y.stage = .failed) →
    s.dev.streamWorks m (64 * m.val + n.val) = true →
    exec (.samplePlace m n) s = s.to (s.dev.placeSample (64 * m.val + n.val) y)

/-- PACK_TIMEOUT (R356): the open Strand closes for its age. -/
def Claim.packTimeout : Prop :=
  ∀ (s : State) (m : Fin 4) (n : Fin 64) (d : Strand),
    (s.dev.stream (64 * m.val + n.val)).openStrand = some d →
    leAt (s.dev.sCfg (64 * m.val + n.val)) 100 4 ≠ 0 →
    s.dev.works (mediaDomain m) = true →
    s.dev.streamSt (64 * m.val + n.val) ≠ 3 →
    d.firstAt + us (leAt (s.dev.sCfg (64 * m.val + n.val)) 100 4) ≤ s.dev.uptime →
    exec (.packTimeout m n) s = s.to (s.dev.closeStrand (64 * m.val + n.val) 1)

/-- STRAND_WRITE (R357): with room in the ring the oldest closed Strand is written and head moves. -/
def Claim.strandWrite : Prop :=
  ∀ (s : State) (m : Fin 4) (n : Fin 64) (d : Strand) (rest : List Strand) (x : Job) (t : Nat),
    (s.dev.stream (64 * m.val + n.val)).closed = d :: rest →
    s.dev.job? (leAt (s.dev.sCfg (64 * m.val + n.val)) 2 1) = some x →
    s.dev.streamWorks m (64 * m.val + n.val) = true →
    s.dev.spaceLe x (leAt (s.dev.sCfg (64 * m.val + n.val)) 104 8 + 8) 8 = t →
    (s.dev.stream (64 * m.val + n.val)).lastTail ≤ t →
    t ≤ d.number →
    d.number - t < leAt (s.dev.sCfg (64 * m.val + n.val)) 112 4 →
    exec (.strandWrite m n) s = s.to (s.dev.strandPut (64 * m.val + n.val) x d rest t)

/-- SPLIT_RATIO_UPDATE (R359): the ratios of the complex follow its occupancy. -/
def Claim.splitRatioUpdate : Prop :=
  ∀ (s : State) (m : Fin 4),
    s.dev.works (mediaDomain m) = true →
    tgetD s.dev.net.splitAt m.val 0 + us (s.dev.num O.splitPeriodUs) ≤ s.dev.uptime →
    exec (.splitRatioUpdate m) s = s.to (s.dev.splitUpdate m)

/-- ENCODE_OPEN (R368): a configuration that passes the checks opens the stream. -/
def Claim.encodeOpen : Prop :=
  ∀ (s : State) (m : Fin 4) (n : Fin 64) (x : Job) (c : Bytes) (d : Device),
    s.dev.accepts (O.encodeControl m n) →
    c = s.dev.eCfg (64 * m.val + n.val) →
    s.dev.resident (leAt c 2 1) = true →
    s.dev.encSt (64 * m.val + n.val) = 0 →
    s.dev.job? (leAt c 2 1) = some x →
    encCfgOk c = true →
    bit (s.dev.num O.encodeCodecs) (leAt c 0 1) = true →
    leAt c 60 1 = 0 →
    (s.dev.plainExtent x (leAt c 32 8) (4096 + leAt c 40 4 * encStride c) && s.dev.plainExtent x (leAt c 48 8) (leAt c 56 4 + 64)) = true →
    (s.dev.claim [O.streamState m n] (O.encodeControl m n) 0xFFFFFFFF).1 = d →
    (s.dev.claim [O.streamState m n] (O.encodeControl m n) 0xFFFFFFFF).2 = none →
    exec (.encodeOpen m n) s = s.wrote (O.encodeControl m n) ((d.setEnc (64 * m.val + n.val) { srcWait := some d.uptime }).setNum (O.encodeState m n) 1)

/-- ENCODE_CLOSE (R374): an open stream is CLOSING. -/
def Claim.encodeClose : Prop :=
  ∀ (s : State) (m : Fin 4) (n : Fin 64),
    s.dev.accepts (O.encodeControl m n) →
    s.dev.encSt (64 * m.val + n.val) = 1 →
    exec (.encodeClose m n) s = s.wrote (O.encodeControl m n) (((s.dev.setEnc (64 * m.val + n.val) { s.dev.enc (64 * m.val + n.val) with closing := true }).setNum (O.encodeState m n) 2).encCloseView (64 * m.val + n.val))

/-- SOURCE_HEAD_POLL (R369): the frames up to the new head arrive. -/
def Claim.sourceHeadPoll : Prop :=
  ∀ (s : State) (m : Fin 4) (n : Fin 64) (x : Job) (h : Nat),
    s.dev.job? (leAt (s.dev.eCfg (64 * m.val + n.val)) 2 1) = some x →
    s.dev.works (mediaDomain m) = true →
    s.dev.encSt (64 * m.val + n.val) = 1 →
    s.dev.spaceLe x (leAt (s.dev.eCfg (64 * m.val + n.val)) 32 8) 8 = h →
    (s.dev.enc (64 * m.val + n.val)).head < h →
    h - (s.dev.enc (64 * m.val + n.val)).seen ≤ leAt (s.dev.eCfg (64 * m.val + n.val)) 40 4 →
    exec (.sourceHeadPoll m n) s = s.to (s.dev.framesArrive (64 * m.val + n.val) h)

/-- ENCODE_FRAME_START (R372): a free encoder takes the next frame. -/
def Claim.encodeFrameStart : Prop :=
  ∀ (s : State) (m : Fin 4) (k e : Nat) (f : EncFrame),
    s.dev.encPick m = some k →
    s.dev.freeEncoder m = some e →
    s.dev.works (mediaDomain m) = true →
    s.dev.encNext k = some f →
    (s.dev.encRead k f).isSome = true →
    exec (.encodeFrameStart m) s = s.to (s.dev.encBegin m k e ((s.dev.encRead k f).getD f))

/-- ENCODE_FRAME_END (R371, R373): the frame is finished, and emitted once there is room. -/
def Claim.encodeFrameEnd : Prop :=
  ∀ (s : State) (m : Fin 4) (n : Fin 64) (f : EncFrame),
    s.dev.works (mediaDomain m) = true →
    (s.dev.encSt (64 * m.val + n.val) = 1 ∨ s.dev.encSt (64 * m.val + n.val) = 2) →
    (s.dev.enc (64 * m.val + n.val)).encoding = some f →
    exec (.encodeFrameEnd m n) s = s.to ((s.dev.encFinish (64 * m.val + n.val) f).encEmit (64 * m.val + n.val))

/-- FRAME_DEADLINE (R372): a late live frame becomes a repeat frame. -/
def Claim.frameDeadline : Prop :=
  ∀ (s : State) (m : Fin 4) (n : Fin 64) (f : EncFrame),
    s.dev.encNext (64 * m.val + n.val) = some f →
    s.dev.works (mediaDomain m) = true →
    s.dev.encLate (64 * m.val + n.val) f = true →
    (s.dev.encRead (64 * m.val + n.val) f).isSome = true →
    exec (.frameDeadline m n) s = s.to (s.dev.encRepeat (64 * m.val + n.val) ((s.dev.encRead (64 * m.val + n.val) f).getD f))

/-- REGISTER (R380, R200): a record whose fields are in range and whose schedule passes makes the slot REGISTERED. -/
def Claim.register : Prop :=
  ∀ (s : State) (j : Fin 32),
    s.dev.accepts (O.jobControl j) →
    s.dev.startupCode = suReady →
    s.dev.jobCode j = jsFree →
    s.dev.domainOn 3 = true →
    s.dev.hbmIn (s.dev.num (O.registrationAddress j)) 1024 = true →
    s.dev.hbmBlocked (s.dev.num (O.registrationAddress j)) 1024 false = false →
    (s.dev.recordJob (s.dev.num (O.registrationAddress j))).badField (s.dev.num O.commandTimeoutMs) = none →
    s.dev.spaceBlocked (s.dev.recordJob (s.dev.num (O.registrationAddress j))) ((s.dev.recordJob (s.dev.num (O.registrationAddress j))).at_ 32 8) (16 * (s.dev.recordJob (s.dev.num (O.registrationAddress j))).entries) false = false →
    s.dev.scheduleBad (s.dev.recordJob (s.dev.num (O.registrationAddress j))) = none →
    exec (.register j) s = s.wrote (O.jobControl j) (s.dev.registered j (s.dev.recordJob (s.dev.num (O.registrationAddress j))))

/-- ADMIT (R382): a job that passes every check is granted what its record names. -/
def Claim.jobAdmit : Prop :=
  ∀ (s : State) (j : Fin 32) (x : Job),
    s.dev.accepts (O.jobControl j) →
    s.dev.startupCode = suReady →
    (s.dev.jobCode j = jsRegistered ∨ s.dev.jobCode j = jsSuspended) →
    s.dev.job? j = some x →
    s.dev.domainOn 3 = true →
    s.dev.admitBad j x = none →
    exec (.jobAdmit j) s = s.wrote (O.jobControl j) (s.dev.grantJob j x (s.dev.jobCode j == jsSuspended))

/-- LEAVE (R384): everything granted is released. -/
def Claim.leave : Prop :=
  ∀ (s : State) (j : Fin 32),
    s.dev.accepts (O.jobControl j) →
    s.dev.startupCode = suReady →
    (s.dev.jobCode j = jsReady ∨ s.dev.jobCode j = jsStopped ∨ s.dev.jobCode j = jsFrozen) →
    exec (.leave j) s = s.wrote (O.jobControl j) (s.dev.jobLeaves j false)

/-- SUSPEND (R384): the state is saved in full and everything granted is released. -/
def Claim.suspend : Prop :=
  ∀ (s : State) (j : Fin 32),
    s.dev.accepts (O.jobControl j) →
    s.dev.startupCode = suReady →
    (s.dev.jobCode j = jsReady ∨ s.dev.jobCode j = jsStopped ∨ s.dev.jobCode j = jsFrozen) →
    exec (.suspend j) s = s.wrote (O.jobControl j) (s.dev.jobLeaves j true)

/-- DEREGISTER (R384): the slot is FREE and its save area returns to the pool. -/
def Claim.deregister : Prop :=
  ∀ (s : State) (j : Fin 32),
    s.dev.accepts (O.jobControl j) →
    s.dev.startupCode = suReady →
    (s.dev.jobCode j = jsRegistered ∨ s.dev.jobCode j = jsSuspended) →
    exec (.deregister j) s = s.wrote (O.jobControl j) (s.dev.jobFreed j)

/-- JOB_THAW (R396, R476): a frozen job is thawed. -/
def Claim.jobThaw : Prop :=
  ∀ (s : State) (j : Fin 32) (d : Device),
    s.dev.accepts (O.jobThaw j) →
    s.dev.startupCode = suReady →
    s.dev.jobCode j = jsFrozen →
    s.dev.thaw (masterId 1 j) = d.okay →
    exec (.jobThaw j) s = s.wrote (O.jobThaw j) ((d.okay.measured (O.jobThaw j) [1]).s)

/-- STEP_SUBMIT (R387): the descriptor that the job expects waits in its queue. -/
def Claim.stepSubmit : Prop :=
  ∀ (s : State) (j : Fin 32) (d : Bytes) (x : Job),
    s.dev.accepts (O.stepSubmit j) →
    s.dev.startupCode = suReady →
    d.length = 64 →
    stepSlot d = j →
    (s.dev.resident j && s.dev.jobCode j != jsFrozen) = true →
    s.dev.job? j = some x →
    x.pending.length < 4 →
    x.expects d = true →
    x.stepExtents d = true →
    exec (.stepSubmit j d) s = s.wrote (O.stepSubmit j) (s.dev.stepWaits j x d none)

/-- STEP_START (R388): the step runs; releases, then joins, and the status of every length. -/
def Claim.stepStart : Prop :=
  ∀ (s : State) (j : Fin 32) (conf : List (List (BitVec 16))) (x : Job) (w : StepWait) (rest : List StepWait) (d : Device),
    s.dev.job? j = some x →
    x.pending = w :: rest →
    s.dev.stepMay j x = true →
    s.dev.stepLocked x w.desc = false →
    ((s.dev.stepBegin j x w rest).coresIdle j x).stepBlocked x w.desc = false →
    ((s.dev.stepBegin j x w rest).coresIdle j x).stepSlotsAndLengths j x (s.dev.stepRun w) (conf.map fun l => l.map fun v => v.toNat) = some d →
    exec (.stepStart j conf) s = s.to (d.unstall (masterId 2 x.lowCluster))

/-- SLICE_END (R385 rule 3): with no LC job at hand the next slice begins, or the job gives its cores up. -/
def Claim.sliceEnd : Prop :=
  ∀ (s : State) (j : Fin 32) (x : Job),
    s.dev.job? j = some x →
    s.dev.sliceOver j x = true →
    (s.dev.residents.foldl Device.lcTurn s.dev).leavesCores j = false →
    exec (.sliceEnd j) s = s.to ((s.dev.residents.foldl Device.lcTurn s.dev).sliceTurn j x)

/-- CHEAP_POINT_REACHED (R391): the core stands and its live state is to be saved. -/
def Claim.cheapPointReached : Prop :=
  ∀ (s : State) (c : Fin 32) (k : Fin 16) (h : Hand) (a : Nat),
    s.dev.hand? (coreNo c k) = some h →
    h.out = some a →
    h.stage = .toCheap →
    s.dev.atCheap (coreNo c k) = true →
    s.dev.coreRests (coreNo c k) = true →
    (s.dev.core (coreNo c k)).banksFree = true →
    s.dev.jobTxnsOver a = true →
    s.dev.runs 1 = true →
    s.dev.runs (clusterDomain c) = true →
    s.dev.recordValid (some a) (coreNo c k) = false →
    exec (.cheapPointReached c k) s = s.to (s.dev.setHand (coreNo c k) { h with stage := .saving })

/-- CHEAP_POINT_REACHED (R392): a record that is still valid makes the save unnecessary. -/
def Claim.cheapPointReachedSaved : Prop :=
  ∀ (s : State) (c : Fin 32) (k : Fin 16) (h : Hand) (a : Nat),
    s.dev.hand? (coreNo c k) = some h →
    h.out = some a →
    h.stage = .toCheap →
    s.dev.atCheap (coreNo c k) = true →
    s.dev.coreRests (coreNo c k) = true →
    (s.dev.core (coreNo c k)).banksFree = true →
    s.dev.jobTxnsOver a = true →
    s.dev.runs 1 = true →
    s.dev.runs (clusterDomain c) = true →
    s.dev.recordValid (some a) (coreNo c k) = true →
    exec (.cheapPointReached c k) s = s.to ((s.dev.gatesToRecord a (coreNo c k)).setHand (coreNo c k) { h with stage := .clearing })

/-- CHEAP_POINT_TIMEOUT (R391): the save will be a full one. -/
def Claim.cheapPointTimeout : Prop :=
  ∀ (s : State) (c : Fin 32) (k : Fin 16) (h : Hand) (a : Nat),
    s.dev.hand? (coreNo c k) = some h →
    h.out = some a →
    h.stage = .toCheap →
    h.since + us (s.dev.num O.cheapPointWaitUs) ≤ s.dev.uptime →
    s.dev.runs 1 = true →
    exec (.cheapPointTimeout c k) s = s.to ((s.dev.setHand (coreNo c k) { h with stage := .full, arrayDone := !(s.dev.core (coreNo c k)).arrayRuns }).bump (O.forcedSaves a))

/-- CORE_SAVE_COMPLETE (R383, R391): the record is written and the core is to be cleared. -/
def Claim.coreSaveComplete : Prop :=
  ∀ (s : State) (c : Fin 32) (k : Fin 16) (h : Hand),
    s.dev.hand? (coreNo c k) = some h →
    (h.stage = .saving ∨ (h.stage = .full ∧ s.dev.coreStill (coreNo c k) = true ∧ (match h.out with | some a => s.dev.jobTxnsOver a | none => true) = true)) →
    s.dev.runs 1 = true →
    s.dev.runs 3 = true →
    exec (.coreSaveComplete c k) s = s.to ((s.dev.saveHand (coreNo c k) h).setHand (coreNo c k) { h with stage := .clearing })

/-- CORE_CLEAR_COMPLETE (R391): the cleared core passes on and the outgoing job has left it. -/
def Claim.coreClearComplete : Prop :=
  ∀ (s : State) (c : Fin 32) (k : Fin 16) (h : Hand) (a : Nat),
    s.dev.hand? (coreNo c k) = some h →
    h.out = some a →
    h.stage = .clearing →
    s.dev.runs 1 = true →
    s.dev.runs (clusterDomain c) = true →
    exec (.coreClearComplete c k) s = s.to ((((s.dev.coreCleared (coreNo c k)).passCore (coreNo c k) h).released a h.since).resched)

/-- CORE_RESTORE_COMPLETE (R391, R392): the core goes to its incoming job. -/
def Claim.coreRestoreComplete : Prop :=
  ∀ (s : State) (c : Fin 32) (k : Fin 16) (h : Hand) (b : Nat),
    s.dev.hand? (coreNo c k) = some h →
    h.into = some b →
    h.stage = .restoring →
    s.dev.runs 1 = true →
    s.dev.runs 3 = true →
    s.dev.runs (clusterDomain c) = true →
    exec (.coreRestoreComplete c k) s = s.to ((s.dev.giveCore (coreNo c k) b).resched)

/-- COMMAND_RUN_LIMIT (R395): the command stops where it is and its job core group is a violator. -/
def Claim.commandRunLimit : Prop :=
  ∀ (s : State) (u : RunUnit) (st rows : BitVec 32) (j t : Nat),
    s.dev.running u = some (j, t) →
    t + us 200 + st.toNat ≤ s.dev.uptime →
    exec (.commandRunLimit u st rows) s = s.to (let d := ((s.dev.stopsUnit j u rows.toNat).noteJob j (t + st.toNat)).violation (masterId 1 j) 0
       match u with
       | .window c => d.portGoes c
       | .cameo c => d.portGoes c
       | _ => d)

/-- JOB_WATCHDOG_EXPIRY (R398): the job's cores stop and its step ends with E_TIMEOUT. -/
def Claim.jobWatchdogExpiry : Prop :=
  ∀ (s : State) (j : Fin 32) (x : Job) (r : StepRun),
    s.dev.job? j = some x →
    x.cur = some r →
    s.dev.works 1 = true →
    s.dev.jobRetrying j = false →
    (s.dev.dogResumed x).dogLen + (s.dev.dogResumed x).dogPaused ≤ s.dev.dogCount x →
    s.dev.jobCode j = jsRunning →
    exec (.jobWatchdogExpiry j) s = s.to ((s.dev.setJob j (s.dev.dogResumed x)).watchdogFires j r)

/-- R484: while a command of the job reports retrying, its watchdog pauses. -/
def Claim.watchdogPause : Prop :=
  ∀ (s : State) (j : Fin 32) (x : Job) (r : StepRun),
    s.dev.job? j = some x →
    x.cur = some r →
    s.dev.works 1 = true →
    s.dev.jobRetrying j = true →
    x.dogPaused + s.dev.dogPause x < x.dogLen →
    x.dogHold = none →
    exec (.jobWatchdogExpiry j) s = s.to ((s.dev.setJob j { x with dogHold := some s.dev.uptime }).bump O.timerPauses)

end Sys2Proof

open Sys2Proof Sys2Proof.Machine

/-- Domains, crystal, RC retrim, clock gates and operating points: for each command named, in every state that meets its conditions, exec
answers the next state that is written out. Everything the written state does not change is unchanged. -/
def Obligations.DomainAndClockCommands : Prop :=
  Claim.domainOn ∧ Claim.domainOff ∧ Claim.domainOnComplete ∧ Claim.domainOffComplete ∧ Claim.locketBad ∧ Claim.domainOnBad ∧
  Claim.domainOffBad ∧ Claim.crystalStable ∧ Claim.crystalAbsent ∧ Claim.rcRetrim ∧ Claim.clockEnableWrite ∧ Claim.opRequest ∧
  Claim.opMoveLockDone ∧ Claim.opMoveRampDone

/-- Thermal and power evaluations and the thermal trip: for each command named, in every state that meets its conditions, exec answers the
next state that is written out. Everything the written state does not change is unchanged. -/
def Obligations.ThermalAndPowerLimits : Prop :=
  Claim.thermalEvaluation ∧ Claim.thermalTrip ∧ Claim.powerEvaluation ∧ Claim.stackThermalLimit

/-- Requests of RUN, IDLE, SLEEP and DEEP, island gates, and what enters and leaves the states: for each command named, in every state that
meets its conditions, exec answers the next state that is written out. Everything the written state does not change is unchanged. -/
def Obligations.PowerStateRequests : Prop :=
  Claim.requestRun ∧ Claim.requestIdle ∧ Claim.requestSleep ∧ Claim.requestDeep ∧ Claim.islandGate ∧ Claim.islandUngate ∧
  Claim.idleAutoExpiry ∧ Claim.sleepEntryComplete ∧ Claim.sleepExit ∧ Claim.sleepExitComplete ∧ Claim.deepEntryComplete ∧
  Claim.deepExit

/-- Wake sources and the clearing of the Locket: for each command named, in every state that meets its conditions, exec answers the next
state that is written out. Everything the written state does not change is unchanged. -/
def Obligations.WakeSourcesAndLocket : Prop :=
  Claim.wakeAinTrip ∧ Claim.wakeAinRearm ∧ Claim.wakeNLow ∧ Claim.wakeFrame ∧ Claim.wakeTimer ∧ Claim.locketClear

/-- Start-up from VDD_AON to READY: rails, fuses, image, configure, train: for each command named, in every state that meets its conditions,
exec answers the next state that is written out. Everything the written state does not change is unchanged. -/
def Obligations.StartUpCommands : Prop :=
  Claim.vddAonRise ∧ Claim.railSample ∧ Claim.railsGood ∧ Claim.rcTrimComplete ∧ Claim.fuseLoadComplete ∧ Claim.fuseLoadFails ∧
  Claim.imageSlotChecked ∧ Claim.slotBackgroundCheck ∧ Claim.configureComplete ∧ Claim.configureFails ∧ Claim.configureRelease ∧
  Claim.trainComplete

/-- Resets, power loss and the configuration flash: for each command named, in every state that meets its conditions, exec answers the next
state that is written out. Everything the written state does not change is unchanged. -/
def Obligations.ResetAndFlashCommands : Prop :=
  Claim.vddAonLoss ∧ Claim.sysRstNAssert ∧ Claim.sysRstNRelease ∧ Claim.warmResetKind1 ∧ Claim.warmResetKind2 ∧ Claim.warmResetKind3
  ∧ Claim.warmResetBegin ∧ Claim.flashDataWrite ∧ Claim.flashErase ∧ Claim.flashOpComplete

/-- The I3C target, the JTAG port, the GPIO pads and the reference clock: for each command named, in every state that meets its conditions,
exec answers the next state that is written out. Everything the written state does not change is unchanged. -/
def Obligations.BoardCommands : Prop :=
  Claim.i3cPointerWrite ∧ Claim.i3cWakeCommand ∧ Claim.i3cIgnoredWrite ∧ Claim.i3cDynamicAddress ∧ Claim.i3cEntdaa ∧ Claim.i3cIbi ∧
  Claim.i3cRead ∧ Claim.extest ∧ Claim.extestPulse ∧ Claim.extestTrain ∧ Claim.highz ∧ Claim.clamp ∧ Claim.idcode ∧ Claim.bypass ∧
  Claim.samplePreload ∧ Claim.debugAccess ∧ Claim.trace ∧ Claim.mfgTest ∧ Claim.testLogicReset ∧ Claim.gpioFunctionWrite ∧
  Claim.gpioPulseEdge ∧ Claim.referenceClockPresenceChange

/-- The host port: resets, link, configuration requests, interrupts, doorbells and the notification ring: for each command named, in every
state that meets its conditions, exec answers the next state that is written out. Everything the written state does not change is unchanged.
-/
def Obligations.HostPortCommands : Prop :=
  Claim.perstNAssert ∧ Claim.perstNDeassert ∧ Claim.hotReset ∧ Claim.functionLevelReset ∧ Claim.pcieLinkUp ∧
  Claim.pcieConfigurationRequest ∧ Claim.pcieConfigurationRetry ∧ Claim.msixTableWrite ∧ Claim.causeClear ∧ Claim.causeMaskWrite ∧
  Claim.doorbellStatusClear ∧ Claim.doorbellMaskWrite ∧ Claim.notifyHeadWrite

/-- Words written to a send slot and to a shared mailbox, rule by rule: for each command named, in every state that meets its conditions,
exec answers the next state that is written out. Everything the written state does not change is unchanged. -/
def Obligations.MailboxSends : Prop :=
  Claim.mailboxSend ∧ Claim.mailboxSendOff ∧ Claim.mailboxSendOffNone ∧ Claim.mailboxSendNone ∧ Claim.mailboxSendDuplicate ∧
  Claim.mailboxSendOverrun ∧ Claim.sharedMailboxSend ∧ Claim.sharedMailboxCollision ∧ Claim.sharedMailboxOff

/-- Receive slots: consuming a word and clearing a flag (Table 17.9): for each command named, in every state that meets its conditions, exec
answers the next state that is written out. Everything the written state does not change is unchanged. -/
def Obligations.MailboxReceiveSlots : Prop :=
  Claim.mailboxConsume ∧ Claim.mailboxConsumeShared ∧ Claim.mailboxConsumeUnbound ∧ Claim.mailboxFlagClear ∧
  Claim.mailboxFlagClearShared ∧ Claim.mailboxFlagClearUnbound

/-- Send status (Table 17.10), and the enable of a mailbox row: for each command named, in every state that meets its conditions, exec
answers the next state that is written out; what a send slot itself reads as no rule states, and there the eight bytes are a free value.
Everything the written state does not change is unchanged. -/
def Obligations.MailboxStatusAndBinding : Prop :=
  Claim.sendStatusOverrunClear ∧ Claim.sendStatusClearNone ∧ Claim.sendStatusClearOff ∧ Claim.sendStatusRead ∧ Claim.sendSlotRead ∧
  Claim.sendStatusReadOff ∧ Claim.mbEnable ∧ Claim.mbBind

/-- Domain crossings, Assay tests and lockstep mismatches: for each command named, in every state that meets its conditions, exec answers
the next state that is written out. Everything the written state does not change is unchanged. -/
def Obligations.CrossingAndSelfTestCommands : Prop :=
  Claim.crossingDeliver ∧ Claim.crossingEnter ∧ Claim.assayTestStart ∧ Claim.assayTestPassed ∧ Claim.lockstepMismatch

/-- Fuse burns, attestation, rollback, debug tokens and the entropy source: for each command named, in every state that meets its
conditions, exec answers the next state that is written out. Everything the written state does not change is unchanged. -/
def Obligations.SecurityCommands : Prop :=
  Claim.fuseBurnComplete ∧ Claim.attestRequest ∧ Claim.rollbackCommit ∧ Claim.debugToken ∧ Claim.debugLock ∧ Claim.debugExpiry ∧
  Claim.entropyFails ∧ Claim.entropyHealthTest

/-- Host queues: enable, drain, thaw, doorbells, fetch, commands, completions, timeouts and errors: for each command named, in every state
that meets its conditions, exec answers the next state that is written out. Everything the written state does not change is unchanged. -/
def Obligations.HostQueueCommands : Prop :=
  Claim.queueEnable ∧ Claim.queueDisable ∧ Claim.queueThaw ∧ Claim.sqTailDoorbell ∧ Claim.cqHeadDoorbell ∧ Claim.sqFetch ∧ Claim.nop
  ∧ Claim.step ∧ Claim.pageOp ∧ Claim.pageOpCow ∧ Claim.pageOpCowAlone ∧ Claim.ptEdit ∧ Claim.completionPost ∧ Claim.commandTimeout
  ∧ Claim.commandTimeoutForeri ∧ Claim.hostMemoryError ∧ Claim.masterThaw

/-- Transactions of host queues, and BAR2: for each command named, in every state that meets its conditions, exec answers the next state
that is written out. Everything the written state does not change is unchanged. -/
def Obligations.HostTransactionAndBarCommands : Prop :=
  Claim.txnOpen ∧ Claim.txnRead ∧ Claim.txnWrite ∧ Claim.hostTxnCommit ∧ Claim.hostTxnAbort ∧ Claim.bar2Read ∧ Claim.bar2Write

/-- Foreri requests on objects: READ, WRITE, their multiple forms, DESCRIBE and the register window: for each command named, in every state
that meets its conditions, exec answers the next state that is written out. Everything the written state does not change is unchanged. -/
def Obligations.DictionaryRequests : Prop :=
  Claim.read ∧ Claim.readFlash ∧ Claim.readMulti ∧ Claim.readMultiFlash ∧ Claim.describe ∧ Claim.write ∧ Claim.writeMulti ∧
  Claim.registerWrite ∧ Claim.foreriSegment ∧ Claim.foreriSlotSubmit ∧ Claim.foreriSlotFree ∧ Claim.reassemblyTimeout

/-- Foreri transactions: BEGIN, staged writes, COMMIT, ABORT and the idle timeout: for each command named, in every state that meets its
conditions, exec answers the next state that is written out. Everything the written state does not change is unchanged. -/
def Obligations.DictionaryTransactions : Prop :=
  Claim.writeStaged ∧ Claim.txnBegin ∧ Claim.txnAbort ∧ Claim.txnCommit ∧ Claim.commitTakes ∧ Claim.txnIdleTimeout

/-- Sessions and subscriptions: HELLO, AUTH, CLOSE, their timeouts, SUBSCRIBE and notifications: for each command named, in every state that
meets its conditions, exec answers the next state that is written out. Everything the written state does not change is unchanged. -/
def Obligations.SessionsAndSubscriptions : Prop :=
  Claim.hello ∧ Claim.auth ∧ Claim.close ∧ Claim.closePcie ∧ Claim.authTimeout ∧ Claim.helloStoreExpiry ∧ Claim.sessionIdleTimeout ∧
  Claim.subscribe ∧ Claim.unsubscribe ∧ Claim.notifyOnChange ∧ Claim.notifyPeriodic

/-- List entries of a core: matrix, vector and DMA commands, fences, waits and END: for each command named, in every state that meets its
conditions, exec answers the next state that is written out. Everything the written state does not change is unchanged. -/
def Obligations.SequencerEntries : Prop :=
  Claim.mma ∧ Claim.arrayComputeEnd ∧ Claim.drainStart ∧ Claim.drainEnd ∧ Claim.directStoreEnd ∧ Claim.fence ∧ Claim.fenceRelease ∧
  Claim.dma ∧ Claim.waitDma ∧ Claim.waitDmaRelease ∧ Claim.listEnds

/-- The vector engine, DMA descriptors and the scrubs of core and cluster memory: for each command named, in every state that meets its
conditions, exec answers the next state that is written out. Everything the written state does not change is unchanged. -/
def Obligations.VectorAndDmaEngines : Prop :=
  Claim.vector ∧ Claim.vectorPassStart ∧ Claim.vectorPassEnd ∧ Claim.cmemScrub ∧ Claim.clmemScrub ∧ Claim.dmaCopy ∧ Claim.dmaConvert
  ∧ Claim.dmaFill ∧ Claim.dmaDescriptorComplete ∧ Claim.dmaHalts

/-- Window and Cameo commands of a cluster: for each command named, in every state that meets its conditions, exec answers the next state
that is written out. Everything the written state does not change is unchanged. -/
def Obligations.WindowAndCameoCommands : Prop :=
  Claim.windowMax ∧ Claim.windowAvg ∧ Claim.windowMaxIdx ∧ Claim.windowMaxBwd ∧ Claim.windowAvgBwd ∧ Claim.windowCommandEnd ∧
  Claim.cameoStem ∧ Claim.cameoHead ∧ Claim.cameoStemWgrad ∧ Claim.cameoCommandEnd

/-- Halo tokens, gates, and the write that holds a control core: for each command named, in every state that meets its conditions, exec
answers the next state that is written out. Everything the written state does not change is unchanged. -/
def Obligations.HaloAndGateCommands : Prop :=
  Claim.portHolds ∧ Claim.portGoesOn ∧ Claim.haloReady ∧ Claim.haloReturn ∧ Claim.haloGate ∧ Claim.haloTokenArrival ∧
  Claim.tokenHome ∧ Claim.gateStart

/-- Attention walks: start, pin, blocks and the final list: for each command named, in every state that meets its conditions, exec answers
the next state that is written out. Everything the written state does not change is unchanged. -/
def Obligations.AttentionWalks : Prop :=
  Claim.walkStart ∧ Claim.walkPinDone ∧ Claim.walkBlockStart ∧ Claim.walkNextBlock ∧ Claim.walkPinRelease ∧ Claim.walkUnpinsLast ∧
  Claim.unpins ∧ Claim.walkFinalStart ∧ Claim.walkFinalPlain ∧ Claim.walkMergeStart

/-- Page operations on a key-value pool: for each command named, in every state that meets its conditions, exec answers the next state that
is written out. Everything the written state does not change is unchanged. -/
def Obligations.PageOperations : Prop :=
  Claim.alloc ∧ Claim.lookup ∧ Claim.insert ∧ Claim.fill ∧ Claim.pageRelease ∧ Claim.releases ∧ Claim.prune ∧ Claim.cow ∧
  Claim.cowAlone ∧ Claim.cowOpens ∧ Claim.cowCopyEnd

/-- What the transaction of a page operation does: frames taken, reaped and unreferenced, buckets, entries: for each command named, in every
state that meets its conditions, exec answers the next state that is written out. Everything the written state does not change is unchanged.
-/
def Obligations.PageTransactions : Prop :=
  Claim.txTakes ∧ Claim.txReaps ∧ Claim.txUnrefShared ∧ Claim.txUnrefLast ∧ Claim.txAllocs ∧ Claim.txAllocNone ∧ Claim.txLooks ∧
  Claim.txHit ∧ Claim.txMiss ∧ Claim.txInserts ∧ Claim.txFills ∧ Claim.txPrunes ∧ Claim.txCows ∧ Claim.txEdits

/-- Schedule entries of a training step, the dispatcher and step boundaries: for each command named, in every state that meets its
conditions, exec answers the next state that is written out. Everything the written state does not change is unchanged. -/
def Obligations.ScheduleEntries : Prop :=
  Claim.gather ∧ Claim.reduce ∧ Claim.update ∧ Claim.release ∧ Claim.scheduleEnd ∧ Claim.fwd ∧ Claim.bwd ∧ Claim.dispatch ∧
  Claim.scheduleEntryComplete ∧ Claim.stepBoundary ∧ Claim.patchApply

/-- Update-unit passes, block commits and retries: for each command named, in every state that meets its conditions, exec answers the next
state that is written out. Everything the written state does not change is unchanged. -/
def Obligations.UpdatePasses : Prop :=
  Claim.normPass ∧ Claim.trustPass ∧ Claim.applyPass ∧ Claim.blockOpens ∧ Claim.blockReads ∧ Claim.stampRule ∧ Claim.blockSkips ∧
  Claim.blockRefuses ∧ Claim.updateBlockCommit ∧ Claim.slotWaitRetry

/-- Cached and uncached accesses and atomics: for each command named, in every state that meets its conditions, exec answers the next state
that is written out. Everything the written state does not change is unchanged. -/
def Obligations.MemoryAccesses : Prop :=
  Claim.cachedRead ∧ Claim.cachedWrite ∧ Claim.atomicFetchAdd ∧ Claim.atomicCas ∧ Claim.casKeeps ∧ Claim.atomicFadd ∧
  Claim.atomicMax ∧ Claim.atomicMin ∧ Claim.atomicCopy64 ∧ Claim.uncachedAccess ∧ Claim.uncachedWrite ∧ Claim.uncachedRegion

/-- Refresh, retraining, fences, scrubs and the segment table: for each command named, in every state that meets its conditions, exec
answers the next state that is written out. Everything the written state does not change is unchanged. -/
def Obligations.RefreshRetrainAndFences : Prop :=
  Claim.refresh ∧ Claim.retrainPeriodExpiry ∧ Claim.retrainTemperatureTrigger ∧ Claim.retrainErrorRateTrigger ∧ Claim.triggerQueues
  ∧ Claim.retrainStart ∧ Claim.retrainSuccess ∧ Claim.retrainTimeout ∧ Claim.fenceBegins ∧ Claim.fenceCopyStart ∧ Claim.fenceCopyEnd
  ∧ Claim.hbmScrub ∧ Claim.segmentTableWrite

/-- Clasp transactions: open, accesses, prepare, votes, installs, abort and time limit: for each command named, in every state that meets
its conditions, exec answers the next state that is written out. Everything the written state does not change is unchanged. -/
def Obligations.ClaspTransactions : Prop :=
  Claim.claspOpen ∧ Claim.claspRead ∧ Claim.claspWrite ∧ Claim.claspCommit ∧ Claim.commitNothing ∧ Claim.claspAbort ∧ Claim.prepare
  ∧ Claim.prepareResume ∧ Claim.prepareNo ∧ Claim.prepareWaits ∧ Claim.lockWaitLimit ∧ Claim.vote ∧ Claim.voteNo ∧ Claim.voteCounts
  ∧ Claim.install ∧ Claim.installReport ∧ Claim.txnTimeLimit

/-- Handoffs and ledger audits: for each command named, in every state that meets its conditions, exec answers the next state that is
written out. Everything the written state does not change is unchanged. -/
def Obligations.LedgerAudits : Prop :=
  Claim.handoffRetry ∧ Claim.ledgerAudit ∧ Claim.auditSum ∧ Claim.auditSumWrong ∧ Claim.auditMarkerArrival ∧ Claim.auditReplyJudged
  ∧ Claim.auditStall

/-- Link ports: modes, training, frames, acknowledgements, replay and flow control: for each command named, in every state that meets its
conditions, exec answers the next state that is written out. Everything the written state does not change is unchanged. -/
def Obligations.LinkAndPortCommands : Prop :=
  Claim.portModeWrite ∧ Claim.portOff ∧ Claim.portClaims ∧ Claim.portTrainingComplete ∧ Claim.portDown ∧ Claim.frameReceive ∧
  Claim.frameHeld ∧ Claim.frameWaits ∧ Claim.frameBad ∧ Claim.frameInOrder ∧ Claim.frameGap ∧ Claim.tagOfPort ∧ Claim.linkAck ∧
  Claim.linkReplay ∧ Claim.linkAckTimer ∧ Claim.linkEpisodeTimeout ∧ Claim.pfcPauseExpiry ∧ Claim.pfcXoffRepeat

/-- Brodlu packets received and transmitted: for each command named, in every state that meets its conditions, exec answers the next state
that is written out. Everything the written state does not change is unchanged. -/
def Obligations.BrodluPackets : Prop :=
  Claim.brodluWrite ∧ Claim.brodluReduce ∧ Claim.brodluSend ∧ Claim.brodluDict ∧ Claim.brodluFin ∧ Claim.brodluAck ∧ Claim.brodluNak
  ∧ Claim.brodluSync ∧ Claim.packetTransmit ∧ Claim.transmitHead

/-- Brodlu contexts, their timers, and plan steps: for each command named, in every state that meets its conditions, exec answers the next
state that is written out. Everything the written state does not change is unchanged. -/
def Obligations.ContextsAndPlans : Prop :=
  Claim.ctxOpenReliable ∧ Claim.ctxOpenDatagram ∧ Claim.ctxClose ∧ Claim.ctxCloseFailed ∧ Claim.ctxThaw ∧ Claim.syncInterval ∧
  Claim.syncTimeout ∧ Claim.ackDelayTimer ∧ Claim.retransmitTimeout ∧ Claim.retransmitGivesUp ∧ Claim.noBufferRetry ∧
  Claim.rateControlPeriod ∧ Claim.put ∧ Claim.putAdd ∧ Claim.localStep ∧ Claim.waitIn ∧ Claim.planStepComplete

/-- Input streams: open, records, Strands, flush and close: for each command named, in every state that meets its conditions, exec answers
the next state that is written out. Everything the written state does not change is unchanged. -/
def Obligations.InputStreams : Prop :=
  Claim.streamOpen ∧ Claim.streamClose ∧ Claim.streamFlush ∧ Claim.streamThaw ∧ Claim.streamCloseComplete ∧ Claim.recordArrival ∧
  Claim.recordLater ∧ Claim.recordTaken ∧ Claim.recordRefused ∧ Claim.workSlotGrant ∧ Claim.samplePlace ∧ Claim.packTimeout ∧
  Claim.strandWrite ∧ Claim.splitRatioUpdate

/-- Decode and encode engines: for each command named, in every state that meets its conditions, exec answers the next state that is written
out. Everything the written state does not change is unchanged. -/
def Obligations.MediaEngines : Prop :=
  Claim.decodeDispatch ∧ Claim.liveFirst ∧ Claim.decodeComplete ∧ Claim.decodeDeadline ∧ Claim.lcSwitch ∧ Claim.encodeOpen ∧
  Claim.encodeClose ∧ Claim.encodeThaw ∧ Claim.sourceHeadPoll ∧ Claim.encodeFrameStart ∧ Claim.encodeFrameEnd ∧ Claim.frameDeadline

/-- Jobs: register, admit, leave, suspend, deregister, thaw, steps and the watchdog: for each command named, in every state that meets its
conditions, exec answers the next state that is written out. Everything the written state does not change is unchanged. -/
def Obligations.JobCommands : Prop :=
  Claim.register ∧ Claim.jobAdmit ∧ Claim.leave ∧ Claim.suspend ∧ Claim.deregister ∧ Claim.jobThaw ∧ Claim.stepSubmit ∧
  Claim.stepStart ∧ Claim.jobWatchdogExpiry ∧ Claim.watchdogPause

/-- Core slices, cheap points, saves, clears, restores and run limits: for each command named, in every state that meets its conditions,
exec answers the next state that is written out. Everything the written state does not change is unchanged. -/
def Obligations.CoreOccupancyCommands : Prop :=
  Claim.sliceEnd ∧ Claim.cheapPointReached ∧ Claim.cheapPointReachedSaved ∧ Claim.cheapPointTimeout ∧ Claim.coreSaveComplete ∧
  Claim.coreClearComplete ∧ Claim.coreRestoreComplete ∧ Claim.commandRunLimit

/-- For every state whose queue begins with a command c, step is exec of c on the same state with the queue's rest. -/
def Obligations.StepRunsFront : Prop :=
  ∀ (s : State) (c : Instr) (rest : List Instr), s.pending = c :: rest → step s = exec c { s with pending := rest }

/-- With an empty queue step answers next: while the device is powered the uptime counter rises by one and stops at its largest value, and
nothing else changes; without power nothing changes. That an idle step counts is the model's choice (log entry 1). -/
def Obligations.IdleStepTicks : Prop :=
  ∀ s : State, s.pending = [] →
    step s = s.to (if s.dev.startup.powered = true then { s.dev with uptime := min (s.dev.uptime + 1) (2 ^ 64 - 1) } else s.dev)

/-- State.reset is the device before VDD_AON rises (the model's choice of the first state, log entry 5): no domain is on, every object reads
its default value, the uptime is 0, the memories and the flash list nothing and are in canonical form, the queue is empty, and the invariant
holds. -/
def Obligations.ResetState : Prop :=
  State.reset.pending = [] ∧ Inv State.reset ∧ memWf State.reset.dev = true ∧ (∀ d < 24, State.reset.dev.domainOn d = false) ∧
  (∀ o, State.reset.dev.val o = defaultVal o) ∧ State.reset.dev.uptime = 0 ∧ State.reset.dev.mem.hbm = [] ∧ State.reset.flash.bytes = []

/-- In every state that meets the invariant (the flash in canonical form, every waiting command well formed), a step that answers a next
state answers one that meets it. -/
def Obligations.InvStep : Prop :=
  ∀ s t : State, Inv s → step s = .next t → Inv t

/-- For every command, state and queue, exec answers a next state with the same queue, and the device and the flash of that state do not
depend on the queue. -/
def Obligations.QueueAndOutcome : Prop :=
  ∀ (c : Instr) (s : State) (q : List Instr), ∃ d f, exec c s = .next { dev := d, flash := f, pending := s.pending } ∧
    exec c { s with pending := q } = .next { dev := d, flash := f, pending := q }

/-- From every state, for every number of steps, every prefix of the run answers a next state. -/
def Obligations.RunsAreSafe : Prop :=
  ∀ (s : State) (n : Nat), SafeRun s n

/-- Every command but FLASH_OP_COMPLETE, SYS_RST_N_ASSERT, VDD_AON_LOSS and WARM_RESET_BEGIN leaves every byte of the flash, and which
sectors are undefined, as they were. -/
def Obligations.FlashFrame : Prop :=
  ∀ (c : Instr) (s t : State), exec c s = .next t →
    t.flash = s.flash ∨ c.touchesFlash = true

/-- Counting n events in a counter object of any other area gives the sum or the largest value of its type, whichever is less; in areas F
and 9 it gives the sum modulo 2^32. No other object changes. -/
def Obligations.CountersStop : Prop :=
  ∀ (s : Device) (o n p : Nat),
    (oidArea o ≠ 0xF → oidArea o ≠ 9 → (s.bump o n).num o = min (s.num o + n) (tyOf o).maxVal) ∧
    (oidArea o = 0xF ∨ oidArea o = 9 → (s.bump o n).num o = (s.num o + n) % 2 ^ 32) ∧
    (p ≠ o → (s.bump o n).val p = s.val p)

/-- For each of the commands named, which write an object that has a row of its own: where the domain of the object is off, its master is
frozen or the device is stopped by an uncorrected-fatal error, the write is answered with the status and detail of the first check that
refuses it, and nothing else changes. -/
def Obligations.RefusedWritesChangeNothing : Prop :=
  ∀ (s : State) (st : Status) (x : Nat), s.dev.managerRuns = true →
  (∀ (d : Fin 24), s.dev.ownerChecks (O.domainControl d.val) = some (st, x) → exec (.domainOn d) s = s.to (s.dev.emit (.reply st x))) ∧
  (∀ (d : Fin 24), s.dev.ownerChecks (O.domainControl d.val) = some (st, x) → exec (.domainOff d) s = s.to (s.dev.emit (.reply st x))) ∧
  (∀ (i : Fin 46) (v : BitVec 32), s.dev.ownerChecks (O.clockEnables i) = some (st, x) → exec (.clockEnableWrite i v) s = s.to (s.dev.emit (.reply st x))) ∧
  (∀ (i : Fin 16) (p : Fin 8), s.dev.ownerChecks (O.opRequest i) = some (st, x) → exec (.opRequest i p) s = s.to (s.dev.emit (.reply st x))) ∧
  (s.dev.ownerChecks (O.powerStateRequest) = some (st, x) → exec .requestRun s = s.to (s.dev.emit (.reply st x))) ∧
  (s.dev.ownerChecks (O.powerStateRequest) = some (st, x) → exec .requestSleep s = s.to (s.dev.emit (.reply st x))) ∧
  (s.dev.ownerChecks (O.powerStateRequest) = some (st, x) → exec .requestDeep s = s.to (s.dev.emit (.reply st x))) ∧
  (s.dev.ownerChecks (O.locketClear) = some (st, x) → exec .locketClear s = s.to (s.dev.emit (.reply st x))) ∧
  (s.dev.ownerChecks (O.configureRelease) = some (st, x) → exec .configureRelease s = s.to (s.dev.emit (.reply st x))) ∧
  (∀ (a : BitVec 32), s.dev.ownerChecks (O.flashErase) = some (st, x) → exec (.flashErase a) s = s.to (s.dev.emit (.reply st x))) ∧
  (∀ (n : Fin 256) (b : Bool), s.dev.ownerChecks (O.mbEnable n) = some (st, x) → exec (.mbEnable n b) s = s.to (s.dev.emit (.reply st x))) ∧
  (s.dev.ownerChecks (O.debugLock) = some (st, x) → exec .debugLock s = s.to (s.dev.emit (.reply st x))) ∧
  (∀ (q : Fin 64), s.dev.ownerChecks (O.queueEnable q) = some (st, x) → exec (.queueEnable q) s = s.to (s.dev.emit (.reply st x))) ∧
  (∀ (q : Fin 64), s.dev.ownerChecks (O.queueThaw q) = some (st, x) → exec (.queueThaw q) s = s.to (s.dev.emit (.reply st x))) ∧
  (∀ (m : BitVec 16), s.dev.ownerChecks (O.masterThaw) = some (st, x) → exec (.masterThaw m) s = s.to (s.dev.emit (.reply st x))) ∧
  (∀ (b : Bytes), s.dev.ownerChecks (O.segmentTable) = some (st, x) → exec (.segmentTableWrite b) s = s.to (s.dev.emit (.reply st x))) ∧
  (∀ (l : Fin 96) (m : BitVec 8), s.dev.ownerChecks (O.portMode l) = some (st, x) → exec (.portModeWrite l m) s = s.to (s.dev.emit (.reply st x))) ∧
  (∀ (n : Fin 4096), s.dev.ownerChecks (O.ctxControl n) = some (st, x) → exec (.ctxClose n) s = s.to (s.dev.emit (.reply st x))) ∧
  (∀ (n : Fin 4096), s.dev.ownerChecks (O.ctxThaw n) = some (st, x) → exec (.ctxThaw n) s = s.to (s.dev.emit (.reply st x))) ∧
  (∀ (m : Fin 4) (n : Fin 64), s.dev.ownerChecks (O.streamControl m n) = some (st, x) → exec (.streamOpen m n) s = s.to (s.dev.emit (.reply st x))) ∧
  (∀ (m : Fin 4) (n : Fin 64), s.dev.ownerChecks (O.streamControl m n) = some (st, x) → exec (.streamClose m n) s = s.to (s.dev.emit (.reply st x))) ∧
  (∀ (m : Fin 4) (n : Fin 64), s.dev.ownerChecks (O.streamControl m n) = some (st, x) → exec (.streamFlush m n) s = s.to (s.dev.emit (.reply st x))) ∧
  (∀ (m : Fin 4) (n : Fin 64), s.dev.ownerChecks (O.encodeControl m n) = some (st, x) → exec (.encodeOpen m n) s = s.to (s.dev.emit (.reply st x))) ∧
  (∀ (m : Fin 4) (n : Fin 64), s.dev.ownerChecks (O.encodeControl m n) = some (st, x) → exec (.encodeClose m n) s = s.to (s.dev.emit (.reply st x))) ∧
  (∀ (j : Fin 32), s.dev.ownerChecks (O.jobControl j) = some (st, x) → exec (.register j) s = s.to (s.dev.emit (.reply st x))) ∧
  (∀ (j : Fin 32), s.dev.ownerChecks (O.jobControl j) = some (st, x) → exec (.jobAdmit j) s = s.to (s.dev.emit (.reply st x))) ∧
  (∀ (j : Fin 32), s.dev.ownerChecks (O.jobControl j) = some (st, x) → exec (.leave j) s = s.to (s.dev.emit (.reply st x))) ∧
  (∀ (j : Fin 32), s.dev.ownerChecks (O.jobControl j) = some (st, x) → exec (.suspend j) s = s.to (s.dev.emit (.reply st x))) ∧
  (∀ (j : Fin 32), s.dev.ownerChecks (O.jobControl j) = some (st, x) → exec (.deregister j) s = s.to (s.dev.emit (.reply st x))) ∧
  (∀ (j : Fin 32), s.dev.ownerChecks (O.jobThaw j) = some (st, x) → exec (.jobThaw j) s = s.to (s.dev.emit (.reply st x))) ∧
  (∀ (j : Fin 32) (b : Bytes), s.dev.ownerChecks (O.stepSubmit j) = some (st, x) → exec (.stepSubmit j b) s = s.to (s.dev.emit (.reply st x)))

/-- For a channel n of die q that holds h buffers, with reservation r and cap c: h ≥ c is refused; else h < r is served from the
reservation; else an unheld buffer of the shared remainder serves it; else the urgent slice serves an LC channel; else it is refused. A
refusal holds nothing and is counted in the refusals of the channel and of the pool. A grant adds one buffer to the channel, charged to the
urgent slice in the fourth case only. No other channel's buffers change. -/
def Obligations.PoolRequest : Prop :=
  ∀ (s : Device) (q n : Nat), q < 4 → n < 1024 →
    (s.chCap q n ≤ s.chHeld q n → s.poolSource q n = none) ∧
    (s.chHeld q n < s.chCap q n → s.chHeld q n < s.chReserve q n → s.poolSource q n = some 2) ∧
    (s.chHeld q n < s.chCap q n → s.chReserve q n ≤ s.chHeld q n → 0 < s.sharedFree q → s.poolSource q n = some 3) ∧
    (s.chHeld q n < s.chCap q n → s.chReserve q n ≤ s.chHeld q n → s.sharedFree q = 0 → s.num (O.channelClass q n) = 1 → 0 < s.urgentFree q →
      s.poolSource q n = some 4) ∧
    (s.chHeld q n < s.chCap q n → s.chReserve q n ≤ s.chHeld q n → s.sharedFree q = 0 → s.num (O.channelClass q n) ≠ 1 ∨ s.urgentFree q = 0 →
      s.poolSource q n = none) ∧
    (s.poolSource q n = none → (s.poolRequest q n).1 = false ∧ (s.poolRequest q n).2.chHeld q n = s.chHeld q n ∧
      (s.poolRequest q n).2.poolCh q n = s.poolCh q n ∧
      (s.poolRequest q n).2.num (O.channelRefusals q n) = min (s.num (O.channelRefusals q n) + 1) (tyOf (O.channelRefusals q n)).maxVal ∧
      (s.poolRequest q n).2.num (O.poolRefusals q) = min (s.num (O.poolRefusals q) + 1) (tyOf (O.poolRefusals q)).maxVal) ∧
    (∀ k, s.poolSource q n = some k → (s.poolRequest q n).1 = true ∧ (s.poolRequest q n).2.chHeld q n = s.chHeld q n + 1 ∧
      ((s.poolRequest q n).2.poolCh q n).urgent = (s.poolCh q n).urgent + (if k = 4 then 1 else 0) ∧
      (s.poolRequest q n).2.num (O.channelRefusals q n) = s.num (O.channelRefusals q n)) ∧
    ∀ q' n', q' < 4 → n' < 1024 → ¬ (q' = q ∧ n' = n) →
      (s.poolRequest q n).2.chHeld q' n' = s.chHeld q' n' ∧ (s.poolRequest q n).2.poolCh q' n' = s.poolCh q' n'

/-- Where a request to switch a compute or media domain off is executed, and a resident job holds a core or cluster memory there, a stream
or an encoder of the domain is open, a transaction opened by a master in the domain is open, or a staging channel of the domain holds
buffers, the request is answered with E_STATE, whose detail is the object of the first blocking item, and nothing else changes. -/
def Obligations.DomainOffRefused : Prop :=
  ∀ (s : State) (d : Fin 24), 4 ≤ d.val → s.dev.accepts (O.domainControl d) → s.dev.power.trans = .none → s.dev.num O.powerState ≤ 1 →
    s.dev.domainOn 1 = true → s.dev.domainOn 2 = true → s.dev.domainOn 3 = true → s.dev.num (O.domainState d) = 2 → (s.dev.opOf d).move = none →
    ((∃ j ∈ s.dev.residents, ∃ x, s.dev.job? j = some x ∧ x.holdsIn d = true) ∨ (∃ k ∈ s.dev.openStreams, mediaDomain (k / 64) = d) ∨
      (∃ k ∈ s.dev.openEncoders, mediaDomain (k / 64) = d) ∨ (∃ t ∈ s.dev.mem.txns, masterDomain t.2.master = some d.val) ∨
      ∃ c ∈ s.dev.mem.pool, ownerDomain (s.dev.num (O.channelOwner (c.1 / 1024) (c.1 % 1024))) = some d.val ∧ s.dev.chHeld (c.1 / 1024) (c.1 % 1024) ≠ 0) →
    ∃ o, s.dev.domainBlocker d = some o ∧ exec (.domainOff d) s = s.to (s.dev.emit (.reply .state o))

/-- A NaN is written as FP32 0x7FC00000, BF16 0x7FC0, FP16 0x7E00, E4M3 0x7F, E5M2 0x7E, in either rounding mode and without saturation;
whatever value is written in one of these formats, if what is written is a NaN it is that one. Every element whose magnitude bits lie above
infinity (E4M3: are 0x7F) is read as the NaN, which holds neither payload nor sign; sums and products with a NaN are NaN. -/
def Obligations.CanonicalNan : Prop :=
  (∀ rtz, (fmt! 0).narrow rtz .nan = (0x7FC00000, false) ∧ (fmt! 1).narrow rtz .nan = (0x7FC0, false) ∧ (fmt! 2).narrow rtz .nan = (0x7E00, false) ∧
    (fmt! 3).narrow rtz .nan = (0x7F, false) ∧ (fmt! 4).narrow rtz .nan = (0x7E, false)) ∧ toF32 .nan = 0x7FC00000 ∧
  (∀ k < 5, ∀ rtz x, (fmt! k).decode ((fmt! k).narrow rtz x).1 = .nan → (fmt! k).narrow rtz x = (fmt! k).narrow rtz .nan) ∧
  (∀ x, (toF32 x).fp = .nan → toF32 x = 0x7FC00000) ∧
  (∀ k < 5, ∀ raw, (fmt! k).decode raw = .nan ↔ [0x7F800000, 0x7F80, 0x7C00, 0x7E, 0x7C].getD k 0 < raw % 2 ^ ((fmt! k).w - 1)) ∧
  ∀ x : Fp, Fp.add .nan x = .nan ∧ Fp.add x .nan = .nan ∧ Fp.mul .nan x = .nan ∧ Fp.mul x .nan = .nan

/-- For every format of Table 3.1 and every pattern of its width that is neither NaN nor infinite (for the integer formats: not the most
negative code), narrowing the value read from the pattern, in either rounding mode, gives the pattern itself, unsaturated: negative zeros,
subnormal values and the largest value included. -/
def Obligations.ConversionExact : Prop :=
  ∀ (k : Nat) (f : Fmt) (raw : Nat) (rtz : Bool), fmtOf k = some f → raw < 2 ^ f.w → (f.decode raw).finite = true →
    (f.isInt = true → raw ≠ 2 ^ (f.w - 1)) → f.narrow rtz (f.decode raw) = (raw, false)

/-- Under a segment table that R267 accepts and fences as R287 begins them, whichever of them have switched: two addresses of segments whose
final pseudo-channel, granule and byte agree are one address; every final place lies on one of the 640 pseudo-channels, within their
granules and spare bands, and never on a pseudo-channel whose fence has switched. -/
def Obligations.NoSharedPlace : Prop :=
  ∀ (s : Device) (a b : Nat), segsOk s.mem.segs = true → fencesOk s.mem.fences = true → (s.segOf a).isSome = true → (s.segOf b).isSome = true →
    (s.finalOf a = s.finalOf b → a % 256 = b % 256 → a = b) ∧ (s.finalOf a).1 < 640 ∧ (s.finalOf a).2 < 4394531 ∧
    ∀ f ∈ s.mem.fences, f.switched.isSome = true → (s.finalOf a).1 ≠ f.p

/-- An address of a segment translates as Table R268 gives for the mode of the segment, with o the offset in it and G its granule; the
result is relocated by the fences in order, and the home die is the final pseudo-channel divided by 160. -/
def Obligations.Translation : Prop :=
  ∀ (s : Device) (a : Nat) (g : Seg), s.segOf a = some g →
    (g.mode = 0 → s.finalOf a = s.finalPlace (160 * ((a - g.base) / 256 % 640 % 4) + 32 * ((a - g.base) / 256 % 640 / 4 % 5) + (a - g.base) / 256 % 640 / 20)
      (g.u0 + (a - g.base) / 256 / 640)) ∧
    (g.mode = 1 → s.finalOf a = s.finalPlace (g.pcFirst + 32 * ((a - g.base) / 256 % 160 % 5) + (a - g.base) / 256 % 160 / 5) (g.u0 + (a - g.base) / 256 / 160)) ∧
    (g.mode = 2 → s.finalOf a = s.finalPlace (g.pcFirst + (a - g.base) / 256 % g.pcCount) (g.u0 + (a - g.base) / 256 / g.pcCount)) ∧
    s.homeDie a = (s.finalOf a).1 / 160

/-- For every 128-bit value, the 32 data symbols and the four check symbols of its check bits have syndrome 0. An error of any one of the 36
symbols, by any nonzero value, is decoded as that symbol and that value. -/
def Obligations.SymbolCode : Prop :=
  (∀ d : Nat, syndrome (((List.range 32).map fun k => (k, bits d (4 * k + 3) (4 * k))) ++
      (List.range 4).map fun i => (32 + i, bits (checkBits d) (4 * i + 3) (4 * i))) = (0, 0, 0, 0)) ∧
  ∀ k v : Nat, k < 36 → 1 ≤ v → v < 16 → decodeSyndrome (syndrome [(k, v)]) = .correct k v

/-- Under a segment table that R267 accepts, for an access that passes its checks: a cached or uncached read leaves every byte of HBM; a
cached or uncached write leaves in its bytes the data given, and every byte outside them; an atomic leaves every byte outside its operand.
None of them changes core memory or cluster memory. -/
def Obligations.StoreFrame : Prop :=
  ∀ (s t : State) (m : BitVec 16) (a : BitVec 40) (errs : List SymErr), segsOk s.dev.mem.segs = true →
    (∀ n : BitVec 16, s.dev.reaches m.toNat a.toNat (.read n.toNat) errs → exec (.cachedRead m a n errs) s = .next t →
      (∀ x, t.dev.hbmByte x = s.dev.hbmByte x) ∧ t.dev.mem.cm = s.dev.mem.cm ∧ t.dev.mem.clm = s.dev.mem.clm) ∧
    (∀ data : Bytes, s.dev.reaches m.toNat a.toNat (.write data) errs → exec (.cachedWrite m a data errs) s = .next t →
      (∀ x, a.toNat ≤ x → x < a.toNat + data.length → t.dev.hbmByte x = data.getD (x - a.toNat) 0) ∧ (∀ x, ¬ (a.toNat ≤ x ∧ x < a.toNat + data.length) → t.dev.hbmByte x = s.dev.hbmByte x) ∧ t.dev.mem.cm = s.dev.mem.cm ∧ t.dev.mem.clm = s.dev.mem.clm) ∧
    (∀ n : BitVec 16, masterExists m.toNat = true ∧ s.dev.isFrozen m.toNat = false ∧ s.dev.domainOn 3 = true ∧ s.dev.runs 3 = true ∧ s.dev.mapCheck a.toNat n.toNat = 0 ∧ s.dev.inRegion a.toNat n.toNat = false ∧ errsIn a.toNat n.toNat errs = [] ∧ s.dev.hbmBlocked a.toNat n.toNat false = false →
      exec (.uncachedAccess m a n none errs) s = .next t → (∀ x, t.dev.hbmByte x = s.dev.hbmByte x) ∧ t.dev.mem.cm = s.dev.mem.cm ∧ t.dev.mem.clm = s.dev.mem.clm) ∧
    (∀ (n : BitVec 16) (d : Bytes), masterExists m.toNat = true ∧ s.dev.isFrozen m.toNat = false ∧ s.dev.domainOn 3 = true ∧ s.dev.runs 3 = true ∧ s.dev.mapCheck a.toNat d.length = 0 ∧ s.dev.inRegion a.toNat d.length = false ∧ errsPart a.toNat d.length errs = [] ∧ s.dev.hbmBlocked a.toNat d.length true = false →
      exec (.uncachedAccess m a n (some d) errs) s = .next t → (∀ x, a.toNat ≤ x → x < a.toNat + d.length → t.dev.hbmByte x = d.getD (x - a.toNat) 0) ∧ (∀ x, ¬ (a.toNat ≤ x ∧ x < a.toNat + d.length) → t.dev.hbmByte x = s.dev.hbmByte x) ∧ t.dev.mem.cm = s.dev.mem.cm ∧ t.dev.mem.clm = s.dev.mem.clm) ∧
    (∀ (wide : Bool) (v : BitVec 64), s.dev.reaches m.toNat a.toNat (.fetchAdd wide v.toNat) errs → exec (.atomicFetchAdd m a wide v errs) s = .next t →
      (∀ x, ¬ (a.toNat ≤ x ∧ x < a.toNat + (if wide then 8 else 4)) → t.dev.hbmByte x = s.dev.hbmByte x) ∧ t.dev.mem.cm = s.dev.mem.cm ∧ t.dev.mem.clm = s.dev.mem.clm) ∧
    (∀ (wide : Bool) (cmp new : BitVec 64), s.dev.reaches m.toNat a.toNat (.cas wide (if wide then cmp.toNat else cmp.toNat % 4294967296) new.toNat) errs →
      exec (.atomicCas m a wide cmp new errs) s = .next t → (∀ x, ¬ (a.toNat ≤ x ∧ x < a.toNat + (if wide then 8 else 4)) → t.dev.hbmByte x = s.dev.hbmByte x) ∧ t.dev.mem.cm = s.dev.mem.cm ∧ t.dev.mem.clm = s.dev.mem.clm) ∧
    (∀ (ty : Fin 6) (vals : List (BitVec 64)), s.dev.reaches m.toNat a.toNat (.fadd ty.val (vals.map fun v => v.toNat % 256 ^ tyBytes ty.val)) errs →
      exec (.atomicFadd m a ty vals errs) s = .next t → (∀ x, ¬ (a.toNat ≤ x ∧ x < a.toNat + tyBytes ty.val * vals.length) → t.dev.hbmByte x = s.dev.hbmByte x) ∧ t.dev.mem.cm = s.dev.mem.cm ∧ t.dev.mem.clm = s.dev.mem.clm) ∧
    (∀ (ty : Fin 6) (vals : List (BitVec 64)), s.dev.reaches m.toNat a.toNat (.max ty.val (vals.map fun v => v.toNat % 256 ^ tyBytes ty.val)) errs →
      exec (.atomicMax m a ty vals errs) s = .next t → (∀ x, ¬ (a.toNat ≤ x ∧ x < a.toNat + tyBytes ty.val * vals.length) → t.dev.hbmByte x = s.dev.hbmByte x) ∧ t.dev.mem.cm = s.dev.mem.cm ∧ t.dev.mem.clm = s.dev.mem.clm) ∧
    (∀ (ty : Fin 6) (vals : List (BitVec 64)), s.dev.reaches m.toNat a.toNat (.min ty.val (vals.map fun v => v.toNat % 256 ^ tyBytes ty.val)) errs →
      exec (.atomicMin m a ty vals errs) s = .next t → (∀ x, ¬ (a.toNat ≤ x ∧ x < a.toNat + tyBytes ty.val * vals.length) → t.dev.hbmByte x = s.dev.hbmByte x) ∧ t.dev.mem.cm = s.dev.mem.cm ∧ t.dev.mem.clm = s.dev.mem.clm) ∧
    (∀ src : BitVec 40, s.dev.reaches m.toNat a.toNat (.copy64 src.toNat) errs → s.dev.mapCheck src.toNat 8 = 0 → s.dev.hbmBlocked src.toNat 8 false = false →
      exec (.atomicCopy64 m a src errs) s = .next t → (∀ x, ¬ (a.toNat ≤ x ∧ x < a.toNat + 8) → t.dev.hbmByte x = s.dev.hbmByte x) ∧ t.dev.mem.cm = s.dev.mem.cm ∧ t.dev.mem.clm = s.dev.mem.clm)

/-- For every reference picture, row of superblocks and number of steps: the window loaded whole at the start of the row, and slid a column
of 64 luma samples to the right at each step, holds in its three planes what a whole load at the place reached holds. -/
def Obligations.MotionWindowSlides : Prop :=
  ∀ (r : RefPic) (cy n : Nat), r.along cy n = r.load n cy

/-- Every vector of an encoded frame lies within 1,024 by 512 quarter samples. For every superblock and prediction block, a vector that the
search answers keeps the block, widened by 3 samples above and left and 4 below and right, in the window of the superblock; where the block
may stand still, the search answers a vector. -/
def Obligations.VectorLimit : Prop :=
  (∀ (c : Bytes) (history : List Bytes) (frame : Bytes) (key : Bool),
    ((frameVectors c history frame key).all fun p => decide (p.2.1.natAbs ≤ 1024) && decide (p.2.2.natAbs ≤ 512)) = true) ∧
  ∀ (cx cy : Nat) (b : PredBlock) (use : List Nat),
    (∀ v, chooseVec cx cy b use = some v → v.1.natAbs ≤ 1024 ∧ v.2.natAbs ≤ 512 ∧
      64 * (cx : Int) - 256 ≤ b.x + v.1 / 4 - 3 ∧ b.x + v.1 / 4 + b.w + 3 ≤ 64 * cx + 319 ∧
      64 * (cy : Int) - 128 ≤ b.y + v.2 / 4 - 3 ∧ b.y + v.2 / 4 + b.h + 3 ≤ 64 * cy + 191) ∧
    (64 * cx ≤ b.x + 253 → b.x + b.w ≤ 64 * cx + 316 → 64 * cy ≤ b.y + 125 → b.y + b.h ≤ 64 * cy + 188 → ∃ v, chooseVec cx cy b use = some v)

/-- For every packet, frame record, page-table entry and prefix-tree node whose fields fit their places in Tables 13.3, 7.6, 7.5 and 7.8:
decoding its encoding gives it back, with every field. -/
def Obligations.LayoutsRoundTrip : Prop :=
  (∀ p : Packet, p.inRange → Packet.decode p.encode = p) ∧ (∀ r : FrameRec, r.inRange → FrameRec.decode r.encode = r) ∧
  (∀ e : Pte, e.inRange → Pte.decode e.encode = e) ∧ ∀ n : Node, n.inRange → Node.decode n.encode = n
end

