-- ==== Sys2Proof/Laws/Tables.lean ====
section
/-! SUPPORT. Laws of the sparse tables: reading after writing, and the canonical form (rising keys, no default listed) that every
operation keeps. -/

namespace Sys2Proof.Laws
open Sys2Proof.Machine

variable {α : Type}

theorem tget_tput_same (m : Tbl α) (k : Nat) (v : α) : tget? (tput m k v) k = some v := by
  induction m with
  | nil => simp [tput, tget?]
  | cons p r ih =>
    obtain ⟨a, w⟩ := p
    simp only [tput]
    split
    · simp [tget?]
    · split
      · simp [tget?]
      · have : a ≠ k := fun h => by simp_all
        simp [tget?, this, ih]

theorem tget_tput_ne (m : Tbl α) {k l : Nat} (v : α) (h : l ≠ k) : tget? (tput m k v) l = tget? m l := by
  induction m with
  | nil => simp [tput, tget?, Ne.symm h]
  | cons p r ih =>
    obtain ⟨a, w⟩ := p
    simp only [tput]
    split
    · simp [tget?, Ne.symm h]
    · split
      · next e => subst e; simp [tget?, Ne.symm h]
      · simp only [tget?]; split <;> simp [ih]

theorem tget_tdel_ne (m : Tbl α) {k l : Nat} (h : l ≠ k) : tget? (tdel m k) l = tget? m l := by
  induction m with
  | nil => rfl
  | cons p r ih =>
    obtain ⟨a, w⟩ := p
    simp only [tdel] at ih ⊢
    rw [List.filter_cons]
    split
    · simp only [tget?]; split <;> simp [ih]
    · next e => simp only [bne_iff_ne, ne_eq, not_not] at e; subst e; simp [tget?, Ne.symm h, ih]

/-- An entry taken out is gone. -/
theorem tget_tdel_same (m : Tbl α) (k : Nat) : tget? (tdel m k) k = none := by
  induction m with
  | nil => rfl
  | cons p r ih =>
    obtain ⟨a, w⟩ := p
    simp only [tdel] at ih ⊢
    rw [List.filter_cons]
    split
    · next e => simp only [bne_iff_ne, ne_eq] at e; simp [tget?, e, ih]
    · exact ih

/-- Every key of a list is above a bound. -/
def above (k : Nat) (m : Tbl α) : Prop := ∀ p ∈ m, k < p.1

/-- A sorted table: the rest lies above its first key, and is sorted. -/
theorem tsorted_cons {a : Nat} {w : α} {r : Tbl α} : tsorted ((a, w) :: r) = true ↔ above a r ∧ tsorted r = true := by
  induction r generalizing a w with
  | nil => simp [tsorted, above]
  | cons p r ih =>
    obtain ⟨b, x⟩ := p
    have step : tsorted ((a, w) :: (b, x) :: r) = (decide (a < b) && tsorted ((b, x) :: r)) := rfl
    rw [step, Bool.and_eq_true, decide_eq_true_eq]
    constructor
    · rintro ⟨h, hs⟩
      refine ⟨?_, hs⟩
      intro p hp
      rcases List.mem_cons.1 hp with rfl | hp
      · exact h
      · exact lt_trans h ((ih.1 hs).1 p hp)
    · rintro ⟨h, hs⟩
      exact ⟨h (b, x) (List.mem_cons_self ..), hs⟩

theorem above_tput {k l : Nat} {v : α} {m : Tbl α} (h : above k m) (hl : k < l) : above k (tput m l v) := by
  induction m with
  | nil => simpa [tput, above] using hl
  | cons p r ih =>
    obtain ⟨a, w⟩ := p
    have ha : k < a := h (a, w) (List.mem_cons_self ..)
    have hr : above k r := fun p hp => h p (List.mem_cons_of_mem _ hp)
    have ih := ih hr
    simp only [tput]
    split
    · intro p hp; simp only [List.mem_cons] at hp; rcases hp with rfl | rfl | hp
      · exact hl
      · exact ha
      · exact hr p hp
    · split
      · intro p hp; simp only [List.mem_cons] at hp; rcases hp with rfl | hp
        · exact hl
        · exact hr p hp
      · intro p hp; simp only [List.mem_cons] at hp; rcases hp with rfl | hp
        · exact ha
        · exact ih p hp

theorem above_filter {k : Nat} {m : Tbl α} (f : Nat × α → Bool) (h : above k m) : above k (m.filter f) :=
  fun p hp => h p (List.mem_filter.1 hp).1

/-- Putting an entry keeps the keys rising. -/
theorem tsorted_tput {m : Tbl α} (h : tsorted m = true) (k : Nat) (v : α) : tsorted (tput m k v) = true := by
  induction m with
  | nil => simp [tput, tsorted]
  | cons p r ih =>
    obtain ⟨a, w⟩ := p
    obtain ⟨ha, hr⟩ := tsorted_cons.1 h
    simp only [tput]
    split
    · next hk =>
      refine tsorted_cons.2 ⟨?_, h⟩
      intro p hp; simp only [List.mem_cons] at hp; rcases hp with rfl | hp
      · exact hk
      · exact lt_trans hk (ha p hp)
    · split
      · next e => subst e; exact tsorted_cons.2 ⟨ha, hr⟩
      · exact tsorted_cons.2 ⟨above_tput ha (by omega), ih hr⟩

theorem tsorted_filter {m : Tbl α} (h : tsorted m = true) (f : Nat × α → Bool) : tsorted (m.filter f) = true := by
  induction m with
  | nil => rfl
  | cons p r ih =>
    obtain ⟨a, w⟩ := p
    obtain ⟨ha, hr⟩ := tsorted_cons.1 h
    simp only [List.filter_cons]
    split
    · exact tsorted_cons.2 ⟨above_filter f ha, ih hr⟩
    · exact ih hr

theorem mem_tput {m : Tbl α} {k : Nat} {v : α} {p : Nat × α} (h : p ∈ tput m k v) : p = (k, v) ∨ p ∈ m := by
  induction m with
  | nil => simpa [tput] using h
  | cons q r ih =>
    obtain ⟨a, w⟩ := q
    simp only [tput] at h
    split at h
    · simpa using h
    · split at h
      · simp only [List.mem_cons] at h ⊢; tauto
      · simp only [List.mem_cons] at h ⊢
        rcases h with h | h
        · exact .inr (.inl h)
        · rcases ih h with h | h
          · exact .inl h
          · exact .inr (.inr h)

variable [DecidableEq α]

/-- Setting an entry keeps the canonical form. -/
theorem tsorted_tset {m : Tbl α} (h : tsorted m = true) (k : Nat) (v d : α) : tsorted (tset m k v d) = true := by
  unfold tset; split
  · exact tsorted_filter h _
  · exact tsorted_tput h k v

theorem tclean_tset {m : Tbl α} {d : α} (h : tclean m d = true) (k : Nat) (v : α) : tclean (tset m k v d) d = true := by
  simp only [tclean, List.all_eq_true, decide_eq_true_eq] at h ⊢
  unfold tset; split
  · exact fun p hp => h p ((List.mem_filter.1 hp).1)
  · next hv =>
    intro p hp
    rcases mem_tput hp with rfl | hp
    · exact hv
    · exact h p hp

theorem tclean_filter {m : Tbl α} {d : α} (h : tclean m d = true) (f : Nat × α → Bool) : tclean (m.filter f) d = true := by
  simp only [tclean, List.all_eq_true] at h ⊢
  exact fun p hp => h p (List.mem_filter.1 hp).1

/-- What a table holds at a key after it is set there. -/
theorem tgetD_tset_same (m : Tbl α) (k : Nat) (v d : α) : tgetD (tset m k v d) k d = v := by
  unfold tset tgetD; split
  · next e => simp [tget_tdel_same, e]
  · simp [tget_tput_same]

/-- Setting one key leaves every other key as it was. -/
theorem tgetD_tset_ne (m : Tbl α) {k l : Nat} (v d : α) (h : l ≠ k) : tgetD (tset m k v d) l d = tgetD m l d := by
  unfold tset tgetD; split
  · rw [tget_tdel_ne m h]
  · rw [tget_tput_ne m v h]

end Sys2Proof.Laws
end

