-- ==== Sys2Proof/Laws/Memory.lean ====
section
/-! SUPPORT. Laws of the memories: every operation keeps the canonical form, a read after a write, and what a write leaves alone. -/

namespace Sys2Proof.Laws
open Sys2Proof.Machine

theorem wf_iff {m : Memory} : Memory.wf m = true ↔ tsorted m = true ∧ tclean m 0 = true := by simp [Memory.wf]

theorem memSet_wf {m : Memory} (h : Memory.wf m = true) (a : Nat) (b : Byte) : Memory.wf (memSet m a b) = true := by
  rw [wf_iff] at *; exact ⟨tsorted_tset h.1 a b 0, tclean_tset h.2 a b⟩

theorem memSetN_wf {m : Memory} (h : Memory.wf m = true) (a : Nat) (b : Bytes) : Memory.wf (memSetN m a b) = true := by
  induction b generalizing m a with
  | nil => exact h
  | cons x r ih => exact ih (memSet_wf h a x) (a + 1)

theorem filter_wf {m : Memory} (h : Memory.wf m = true) (f : Nat × Byte → Bool) : Memory.wf (m.filter f) = true := by
  rw [wf_iff] at *; exact ⟨tsorted_filter h.1 f, tclean_filter h.2 f⟩

theorem memClear_wf {m : Memory} (h : Memory.wf m = true) (a n : Nat) : Memory.wf (memClear m a n) = true := filter_wf h _

theorem memGet_memSet_same (m : Memory) (a : Nat) (b : Byte) : memGet (memSet m a b) a = b := tgetD_tset_same m a b 0

theorem memGet_memSet_ne (m : Memory) {a c : Nat} (b : Byte) (h : c ≠ a) : memGet (memSet m a b) c = memGet m c :=
  tgetD_tset_ne m b 0 h

/-- A write of bytes leaves every byte outside them. -/
theorem memGet_memSetN_out (m : Memory) (a : Nat) (b : Bytes) (c : Nat) (h : c < a ∨ a + b.length ≤ c) :
    memGet (memSetN m a b) c = memGet m c := by
  induction b generalizing m a with
  | nil => rfl
  | cons x r ih =>
    simp only [List.length_cons] at h
    rw [memSetN, ih _ _ (by omega), memGet_memSet_ne _ _ (by omega)]

/-- A byte written reads back. -/
theorem memGet_memSetN_in (m : Memory) (a : Nat) (b : Bytes) (i : Nat) (h : i < b.length) :
    memGet (memSetN m a b) (a + i) = b.getD i 0 := by
  induction b generalizing m a i with
  | nil => simp at h
  | cons x r ih =>
    rw [memSetN]
    cases i with
    | zero => rw [memGet_memSetN_out _ _ _ _ (by omega)]; simpa using memGet_memSet_same m a x
    | succ i =>
      have := ih (memSet m a x) (a + 1) i (by simpa using h)
      rw [show a + (i + 1) = a + 1 + i by omega, this]; simp

theorem memGetN_memSetN (m : Memory) (a : Nat) (b : Bytes) : memGetN (memSetN m a b) a b.length = b := by
  apply List.ext_getElem
  · simp [memGetN]
  · intro i h1 h2
    simp only [memGetN, List.getElem_map, List.getElem_range]
    rw [memGet_memSetN_in m a b i h2]; simp [h2]

/-! ## The flash -/

theorem flashWf_iff {f : Flash} : flashWf f = true ↔ (tsorted f.bytes = true ∧ tclean f.bytes 0xFF = true) ∧ tsorted f.undef = true := by
  simp [flashWf]

theorem flashPut_wf {m : Tbl Byte} (h : tsorted m = true ∧ tclean m 0xFF = true) (a : Nat) (b : Bytes) :
    tsorted (flashPut m a b) = true ∧ tclean (flashPut m a b) 0xFF = true := by
  induction b generalizing m a with
  | nil => exact h
  | cons x r ih => exact ih ⟨tsorted_tset h.1 a x 0xFF, tclean_tset h.2 a x⟩ (a + 1)

/-- A program or an erase keeps the canonical form of the flash. -/
theorem flashApply_wf {f : Flash} (h : flashWf f = true) (op : FlashOp) : flashWf (op.apply f) = true := by
  rw [flashWf_iff] at *
  cases op with
  | program off d => exact ⟨flashPut_wf h.1 off d, h.2⟩
  | erase sec => exact ⟨⟨tsorted_filter h.1.1 _, tclean_filter h.1.2 _⟩, tsorted_filter h.2 _⟩

/-- A reset that cuts an operation short keeps it too. -/
theorem flashCut_wf {f : Flash} (h : flashWf f = true) (op : FlashOp) (use : Nat) : flashWf (f.cut op use) = true := by
  rw [flashWf_iff] at *
  simp only [Flash.cut]
  refine ⟨h.1, ?_⟩
  have : ∀ (l : List Nat) (m : Tbl Nat) (g : Nat → Nat), tsorted m = true → tsorted (List.foldl (fun m i => tput m (g i) use) m l) = true := by
    intro l
    induction l with
    | nil => exact fun m g hm => hm
    | cons x r ih => exact fun m g hm => ih _ g (tsorted_tput hm _ _)
  generalize List.range 512 = l
  exact this l f.undef (fun i => 512 * (op.offset / 0x2000000) + i) h.2

/-! ## The memories of the device -/

theorem cmPut_memWf {d : Device} (h : memWf d = true) (n a : Nat) (b : Bytes) : memWf (d.cmPut n a b) = true := by
  simp only [memWf, Bool.and_eq_true] at h ⊢; exact ⟨h.1, memSetN_wf h.2 _ _⟩
theorem cmClear_memWf {d : Device} (h : memWf d = true) (n : Nat) : memWf (d.cmClear n) = true := by
  simp only [memWf, Bool.and_eq_true] at h ⊢; exact ⟨h.1, memClear_wf h.2 _ _⟩
theorem clmPut_memWf {d : Device} (h : memWf d = true) (c a : Nat) (b : Bytes) : memWf (d.clmPut c a b) = true := by
  simp only [memWf, Bool.and_eq_true] at h ⊢; exact ⟨⟨h.1.1, memSetN_wf h.1.2 _ _⟩, h.2⟩
theorem clmClear_memWf {d : Device} (h : memWf d = true) (c a n : Nat) : memWf (d.clmClear c a n) = true := by
  simp only [memWf, Bool.and_eq_true] at h ⊢; exact ⟨⟨h.1.1, memClear_wf h.1.2 _ _⟩, h.2⟩

/-- The end of an operation of the flash keeps its form. -/
theorem execFlashOpComplete_flashWf {s t : State} {ok : Bool} (h : flashWf s.flash = true) (e : execFlashOpComplete ok s = .next t) :
    flashWf t.flash = true ∧ t.pending = s.pending := by
  cases e
  refine ⟨?_, rfl⟩
  simp only
  split
  · split
    · exact flashApply_wf h _
    · exact h
  · exact h

/-- A restart that cuts an operation of the flash short keeps its form. -/
theorem restart_flashWf {s t : State} {f : Device → Device} (h : flashWf s.flash = true) (e : s.restart f = .next t) :
    flashWf t.flash = true ∧ t.pending = s.pending := by
  unfold State.restart at e
  split at e <;> cases e
  · exact ⟨flashCut_wf h _ _, rfl⟩
  · exact ⟨h, rfl⟩

end Sys2Proof.Laws
end

