-- ==== Sys2Proof/Laws/State.lean ====
section
/-! SUPPORT. What each small update of the device leaves alone, field by field. -/

namespace Sys2Proof.Laws
open Sys2Proof.Machine

variable (s : Device)

@[simp] theorem setVal_uptime (o : Nat) (v : Val) : (s.setVal o v).uptime = s.uptime := rfl
@[simp] theorem setVal_freeCtr (o : Nat) (v : Val) : (s.setVal o v).freeCtr = s.freeCtr := rfl
@[simp] theorem setVal_out (o : Nat) (v : Val) : (s.setVal o v).out = s.out := rfl
@[simp] theorem setVal_xing (o : Nat) (v : Val) : (s.setVal o v).xing = s.xing := rfl
@[simp] theorem setVal_fore (o : Nat) (v : Val) : (s.setVal o v).fore = s.fore := rfl
@[simp] theorem setVal_errs (o : Nat) (v : Val) : (s.setVal o v).errs = s.errs := rfl
@[simp] theorem setVal_host (o : Nat) (v : Val) : (s.setVal o v).host = s.host := rfl
@[simp] theorem setVal_power (o : Nat) (v : Val) : (s.setVal o v).power = s.power := rfl
@[simp] theorem setVal_startup (o : Nat) (v : Val) : (s.setVal o v).startup = s.startup := rfl
@[simp] theorem setVal_signet (o : Nat) (v : Val) : (s.setVal o v).signet = s.signet := rfl
@[simp] theorem setVal_board (o : Nat) (v : Val) : (s.setVal o v).board = s.board := rfl
@[simp] theorem setVal_cores (o : Nat) (v : Val) : (s.setVal o v).cores = s.cores := rfl
@[simp] theorem setVal_clusters (o : Nat) (v : Val) : (s.setVal o v).clusters = s.clusters := rfl
@[simp] theorem setVal_loupe (o : Nat) (v : Val) : (s.setVal o v).loupe = s.loupe := rfl
@[simp] theorem setVal_mem (o : Nat) (v : Val) : (s.setVal o v).mem = s.mem := rfl
@[simp] theorem setVal_work (o : Nat) (v : Val) : (s.setVal o v).work = s.work := rfl
@[simp] theorem setVal_net (o : Nat) (v : Val) : (s.setVal o v).net = s.net := rfl

@[simp] theorem setNum_uptime (o n : Nat) : (s.setNum o n).uptime = s.uptime := rfl
@[simp] theorem setNum_freeCtr (o n : Nat) : (s.setNum o n).freeCtr = s.freeCtr := rfl
@[simp] theorem setNum_out (o n : Nat) : (s.setNum o n).out = s.out := rfl
@[simp] theorem setNum_xing (o n : Nat) : (s.setNum o n).xing = s.xing := rfl
@[simp] theorem setNum_fore (o n : Nat) : (s.setNum o n).fore = s.fore := rfl
@[simp] theorem setNum_errs (o n : Nat) : (s.setNum o n).errs = s.errs := rfl
@[simp] theorem setNum_host (o n : Nat) : (s.setNum o n).host = s.host := rfl
@[simp] theorem setNum_power (o n : Nat) : (s.setNum o n).power = s.power := rfl
@[simp] theorem setNum_startup (o n : Nat) : (s.setNum o n).startup = s.startup := rfl
@[simp] theorem setNum_signet (o n : Nat) : (s.setNum o n).signet = s.signet := rfl
@[simp] theorem setNum_board (o n : Nat) : (s.setNum o n).board = s.board := rfl
@[simp] theorem setNum_cores (o n : Nat) : (s.setNum o n).cores = s.cores := rfl
@[simp] theorem setNum_clusters (o n : Nat) : (s.setNum o n).clusters = s.clusters := rfl
@[simp] theorem setNum_loupe (o n : Nat) : (s.setNum o n).loupe = s.loupe := rfl
@[simp] theorem setNum_mem (o n : Nat) : (s.setNum o n).mem = s.mem := rfl
@[simp] theorem setNum_work (o n : Nat) : (s.setNum o n).work = s.work := rfl
@[simp] theorem setNum_net (o n : Nat) : (s.setNum o n).net = s.net := rfl

@[simp] theorem setBytes_uptime (o : Nat) (b : Bytes) : (s.setBytes o b).uptime = s.uptime := rfl
@[simp] theorem setBytes_freeCtr (o : Nat) (b : Bytes) : (s.setBytes o b).freeCtr = s.freeCtr := rfl
@[simp] theorem setBytes_out (o : Nat) (b : Bytes) : (s.setBytes o b).out = s.out := rfl
@[simp] theorem setBytes_xing (o : Nat) (b : Bytes) : (s.setBytes o b).xing = s.xing := rfl
@[simp] theorem setBytes_fore (o : Nat) (b : Bytes) : (s.setBytes o b).fore = s.fore := rfl
@[simp] theorem setBytes_errs (o : Nat) (b : Bytes) : (s.setBytes o b).errs = s.errs := rfl
@[simp] theorem setBytes_host (o : Nat) (b : Bytes) : (s.setBytes o b).host = s.host := rfl
@[simp] theorem setBytes_power (o : Nat) (b : Bytes) : (s.setBytes o b).power = s.power := rfl
@[simp] theorem setBytes_startup (o : Nat) (b : Bytes) : (s.setBytes o b).startup = s.startup := rfl
@[simp] theorem setBytes_signet (o : Nat) (b : Bytes) : (s.setBytes o b).signet = s.signet := rfl
@[simp] theorem setBytes_board (o : Nat) (b : Bytes) : (s.setBytes o b).board = s.board := rfl
@[simp] theorem setBytes_cores (o : Nat) (b : Bytes) : (s.setBytes o b).cores = s.cores := rfl
@[simp] theorem setBytes_clusters (o : Nat) (b : Bytes) : (s.setBytes o b).clusters = s.clusters := rfl
@[simp] theorem setBytes_loupe (o : Nat) (b : Bytes) : (s.setBytes o b).loupe = s.loupe := rfl
@[simp] theorem setBytes_mem (o : Nat) (b : Bytes) : (s.setBytes o b).mem = s.mem := rfl
@[simp] theorem setBytes_work (o : Nat) (b : Bytes) : (s.setBytes o b).work = s.work := rfl
@[simp] theorem setBytes_net (o : Nat) (b : Bytes) : (s.setBytes o b).net = s.net := rfl

@[simp] theorem setBool_uptime (o : Nat) (b : Bool) : (s.setBool o b).uptime = s.uptime := rfl
@[simp] theorem setBool_freeCtr (o : Nat) (b : Bool) : (s.setBool o b).freeCtr = s.freeCtr := rfl
@[simp] theorem setBool_out (o : Nat) (b : Bool) : (s.setBool o b).out = s.out := rfl
@[simp] theorem setBool_xing (o : Nat) (b : Bool) : (s.setBool o b).xing = s.xing := rfl
@[simp] theorem setBool_fore (o : Nat) (b : Bool) : (s.setBool o b).fore = s.fore := rfl
@[simp] theorem setBool_errs (o : Nat) (b : Bool) : (s.setBool o b).errs = s.errs := rfl
@[simp] theorem setBool_host (o : Nat) (b : Bool) : (s.setBool o b).host = s.host := rfl
@[simp] theorem setBool_power (o : Nat) (b : Bool) : (s.setBool o b).power = s.power := rfl
@[simp] theorem setBool_startup (o : Nat) (b : Bool) : (s.setBool o b).startup = s.startup := rfl
@[simp] theorem setBool_signet (o : Nat) (b : Bool) : (s.setBool o b).signet = s.signet := rfl
@[simp] theorem setBool_board (o : Nat) (b : Bool) : (s.setBool o b).board = s.board := rfl
@[simp] theorem setBool_cores (o : Nat) (b : Bool) : (s.setBool o b).cores = s.cores := rfl
@[simp] theorem setBool_clusters (o : Nat) (b : Bool) : (s.setBool o b).clusters = s.clusters := rfl
@[simp] theorem setBool_loupe (o : Nat) (b : Bool) : (s.setBool o b).loupe = s.loupe := rfl
@[simp] theorem setBool_mem (o : Nat) (b : Bool) : (s.setBool o b).mem = s.mem := rfl
@[simp] theorem setBool_work (o : Nat) (b : Bool) : (s.setBool o b).work = s.work := rfl
@[simp] theorem setBool_net (o : Nat) (b : Bool) : (s.setBool o b).net = s.net := rfl

@[simp] theorem bump_uptime (o n : Nat) : (s.bump o n).uptime = s.uptime := rfl
@[simp] theorem bump_freeCtr (o n : Nat) : (s.bump o n).freeCtr = s.freeCtr := rfl
@[simp] theorem bump_out (o n : Nat) : (s.bump o n).out = s.out := rfl
@[simp] theorem bump_xing (o n : Nat) : (s.bump o n).xing = s.xing := rfl
@[simp] theorem bump_fore (o n : Nat) : (s.bump o n).fore = s.fore := rfl
@[simp] theorem bump_errs (o n : Nat) : (s.bump o n).errs = s.errs := rfl
@[simp] theorem bump_host (o n : Nat) : (s.bump o n).host = s.host := rfl
@[simp] theorem bump_power (o n : Nat) : (s.bump o n).power = s.power := rfl
@[simp] theorem bump_startup (o n : Nat) : (s.bump o n).startup = s.startup := rfl
@[simp] theorem bump_signet (o n : Nat) : (s.bump o n).signet = s.signet := rfl
@[simp] theorem bump_board (o n : Nat) : (s.bump o n).board = s.board := rfl
@[simp] theorem bump_cores (o n : Nat) : (s.bump o n).cores = s.cores := rfl
@[simp] theorem bump_clusters (o n : Nat) : (s.bump o n).clusters = s.clusters := rfl
@[simp] theorem bump_loupe (o n : Nat) : (s.bump o n).loupe = s.loupe := rfl
@[simp] theorem bump_mem (o n : Nat) : (s.bump o n).mem = s.mem := rfl
@[simp] theorem bump_work (o n : Nat) : (s.bump o n).work = s.work := rfl
@[simp] theorem bump_net (o n : Nat) : (s.bump o n).net = s.net := rfl

@[simp] theorem drop_uptime (o n : Nat) : (s.drop o n).uptime = s.uptime := rfl
@[simp] theorem drop_freeCtr (o n : Nat) : (s.drop o n).freeCtr = s.freeCtr := rfl
@[simp] theorem drop_out (o n : Nat) : (s.drop o n).out = s.out := rfl
@[simp] theorem drop_xing (o n : Nat) : (s.drop o n).xing = s.xing := rfl
@[simp] theorem drop_fore (o n : Nat) : (s.drop o n).fore = s.fore := rfl
@[simp] theorem drop_errs (o n : Nat) : (s.drop o n).errs = s.errs := rfl
@[simp] theorem drop_host (o n : Nat) : (s.drop o n).host = s.host := rfl
@[simp] theorem drop_power (o n : Nat) : (s.drop o n).power = s.power := rfl
@[simp] theorem drop_startup (o n : Nat) : (s.drop o n).startup = s.startup := rfl
@[simp] theorem drop_signet (o n : Nat) : (s.drop o n).signet = s.signet := rfl
@[simp] theorem drop_board (o n : Nat) : (s.drop o n).board = s.board := rfl
@[simp] theorem drop_cores (o n : Nat) : (s.drop o n).cores = s.cores := rfl
@[simp] theorem drop_clusters (o n : Nat) : (s.drop o n).clusters = s.clusters := rfl
@[simp] theorem drop_loupe (o n : Nat) : (s.drop o n).loupe = s.loupe := rfl
@[simp] theorem drop_mem (o n : Nat) : (s.drop o n).mem = s.mem := rfl
@[simp] theorem drop_work (o n : Nat) : (s.drop o n).work = s.work := rfl
@[simp] theorem drop_net (o n : Nat) : (s.drop o n).net = s.net := rfl

@[simp] theorem bumpStat_uptime (o i n : Nat) : (s.bumpStat o i n).uptime = s.uptime := rfl
@[simp] theorem bumpStat_freeCtr (o i n : Nat) : (s.bumpStat o i n).freeCtr = s.freeCtr := rfl
@[simp] theorem bumpStat_out (o i n : Nat) : (s.bumpStat o i n).out = s.out := rfl
@[simp] theorem bumpStat_xing (o i n : Nat) : (s.bumpStat o i n).xing = s.xing := rfl
@[simp] theorem bumpStat_fore (o i n : Nat) : (s.bumpStat o i n).fore = s.fore := rfl
@[simp] theorem bumpStat_errs (o i n : Nat) : (s.bumpStat o i n).errs = s.errs := rfl
@[simp] theorem bumpStat_host (o i n : Nat) : (s.bumpStat o i n).host = s.host := rfl
@[simp] theorem bumpStat_power (o i n : Nat) : (s.bumpStat o i n).power = s.power := rfl
@[simp] theorem bumpStat_startup (o i n : Nat) : (s.bumpStat o i n).startup = s.startup := rfl
@[simp] theorem bumpStat_signet (o i n : Nat) : (s.bumpStat o i n).signet = s.signet := rfl
@[simp] theorem bumpStat_board (o i n : Nat) : (s.bumpStat o i n).board = s.board := rfl
@[simp] theorem bumpStat_cores (o i n : Nat) : (s.bumpStat o i n).cores = s.cores := rfl
@[simp] theorem bumpStat_clusters (o i n : Nat) : (s.bumpStat o i n).clusters = s.clusters := rfl
@[simp] theorem bumpStat_loupe (o i n : Nat) : (s.bumpStat o i n).loupe = s.loupe := rfl
@[simp] theorem bumpStat_mem (o i n : Nat) : (s.bumpStat o i n).mem = s.mem := rfl
@[simp] theorem bumpStat_work (o i n : Nat) : (s.bumpStat o i n).work = s.work := rfl
@[simp] theorem bumpStat_net (o i n : Nat) : (s.bumpStat o i n).net = s.net := rfl

@[simp] theorem setStat_uptime (o i n : Nat) : (s.setStat o i n).uptime = s.uptime := rfl
@[simp] theorem setStat_freeCtr (o i n : Nat) : (s.setStat o i n).freeCtr = s.freeCtr := rfl
@[simp] theorem setStat_out (o i n : Nat) : (s.setStat o i n).out = s.out := rfl
@[simp] theorem setStat_xing (o i n : Nat) : (s.setStat o i n).xing = s.xing := rfl
@[simp] theorem setStat_fore (o i n : Nat) : (s.setStat o i n).fore = s.fore := rfl
@[simp] theorem setStat_errs (o i n : Nat) : (s.setStat o i n).errs = s.errs := rfl
@[simp] theorem setStat_host (o i n : Nat) : (s.setStat o i n).host = s.host := rfl
@[simp] theorem setStat_power (o i n : Nat) : (s.setStat o i n).power = s.power := rfl
@[simp] theorem setStat_startup (o i n : Nat) : (s.setStat o i n).startup = s.startup := rfl
@[simp] theorem setStat_signet (o i n : Nat) : (s.setStat o i n).signet = s.signet := rfl
@[simp] theorem setStat_board (o i n : Nat) : (s.setStat o i n).board = s.board := rfl
@[simp] theorem setStat_cores (o i n : Nat) : (s.setStat o i n).cores = s.cores := rfl
@[simp] theorem setStat_clusters (o i n : Nat) : (s.setStat o i n).clusters = s.clusters := rfl
@[simp] theorem setStat_loupe (o i n : Nat) : (s.setStat o i n).loupe = s.loupe := rfl
@[simp] theorem setStat_mem (o i n : Nat) : (s.setStat o i n).mem = s.mem := rfl
@[simp] theorem setStat_work (o i n : Nat) : (s.setStat o i n).work = s.work := rfl
@[simp] theorem setStat_net (o i n : Nat) : (s.setStat o i n).net = s.net := rfl

@[simp] theorem emit_uptime (x : Out) : (s.emit x).uptime = s.uptime := rfl
@[simp] theorem emit_freeCtr (x : Out) : (s.emit x).freeCtr = s.freeCtr := rfl
@[simp] theorem emit_objs (x : Out) : (s.emit x).objs = s.objs := rfl
@[simp] theorem emit_xing (x : Out) : (s.emit x).xing = s.xing := rfl
@[simp] theorem emit_fore (x : Out) : (s.emit x).fore = s.fore := rfl
@[simp] theorem emit_errs (x : Out) : (s.emit x).errs = s.errs := rfl
@[simp] theorem emit_host (x : Out) : (s.emit x).host = s.host := rfl
@[simp] theorem emit_power (x : Out) : (s.emit x).power = s.power := rfl
@[simp] theorem emit_startup (x : Out) : (s.emit x).startup = s.startup := rfl
@[simp] theorem emit_signet (x : Out) : (s.emit x).signet = s.signet := rfl
@[simp] theorem emit_board (x : Out) : (s.emit x).board = s.board := rfl
@[simp] theorem emit_cores (x : Out) : (s.emit x).cores = s.cores := rfl
@[simp] theorem emit_clusters (x : Out) : (s.emit x).clusters = s.clusters := rfl
@[simp] theorem emit_loupe (x : Out) : (s.emit x).loupe = s.loupe := rfl
@[simp] theorem emit_mem (x : Out) : (s.emit x).mem = s.mem := rfl
@[simp] theorem emit_work (x : Out) : (s.emit x).work = s.work := rfl
@[simp] theorem emit_net (x : Out) : (s.emit x).net = s.net := rfl

@[simp] theorem extendM_uptime (i : Nat) (b : Bytes) : (s.extendM i b).uptime = s.uptime := rfl
@[simp] theorem extendM_freeCtr (i : Nat) (b : Bytes) : (s.extendM i b).freeCtr = s.freeCtr := rfl
@[simp] theorem extendM_out (i : Nat) (b : Bytes) : (s.extendM i b).out = s.out := rfl
@[simp] theorem extendM_xing (i : Nat) (b : Bytes) : (s.extendM i b).xing = s.xing := rfl
@[simp] theorem extendM_fore (i : Nat) (b : Bytes) : (s.extendM i b).fore = s.fore := rfl
@[simp] theorem extendM_errs (i : Nat) (b : Bytes) : (s.extendM i b).errs = s.errs := rfl
@[simp] theorem extendM_host (i : Nat) (b : Bytes) : (s.extendM i b).host = s.host := rfl
@[simp] theorem extendM_power (i : Nat) (b : Bytes) : (s.extendM i b).power = s.power := rfl
@[simp] theorem extendM_startup (i : Nat) (b : Bytes) : (s.extendM i b).startup = s.startup := rfl
@[simp] theorem extendM_signet (i : Nat) (b : Bytes) : (s.extendM i b).signet = s.signet := rfl
@[simp] theorem extendM_board (i : Nat) (b : Bytes) : (s.extendM i b).board = s.board := rfl
@[simp] theorem extendM_cores (i : Nat) (b : Bytes) : (s.extendM i b).cores = s.cores := rfl
@[simp] theorem extendM_clusters (i : Nat) (b : Bytes) : (s.extendM i b).clusters = s.clusters := rfl
@[simp] theorem extendM_loupe (i : Nat) (b : Bytes) : (s.extendM i b).loupe = s.loupe := rfl
@[simp] theorem extendM_mem (i : Nat) (b : Bytes) : (s.extendM i b).mem = s.mem := rfl
@[simp] theorem extendM_work (i : Nat) (b : Bytes) : (s.extendM i b).work = s.work := rfl
@[simp] theorem extendM_net (i : Nat) (b : Bytes) : (s.extendM i b).net = s.net := rfl

@[simp] theorem zeroM_uptime (i : Nat) : (s.zeroM i).uptime = s.uptime := rfl
@[simp] theorem zeroM_freeCtr (i : Nat) : (s.zeroM i).freeCtr = s.freeCtr := rfl
@[simp] theorem zeroM_out (i : Nat) : (s.zeroM i).out = s.out := rfl
@[simp] theorem zeroM_xing (i : Nat) : (s.zeroM i).xing = s.xing := rfl
@[simp] theorem zeroM_fore (i : Nat) : (s.zeroM i).fore = s.fore := rfl
@[simp] theorem zeroM_errs (i : Nat) : (s.zeroM i).errs = s.errs := rfl
@[simp] theorem zeroM_host (i : Nat) : (s.zeroM i).host = s.host := rfl
@[simp] theorem zeroM_power (i : Nat) : (s.zeroM i).power = s.power := rfl
@[simp] theorem zeroM_startup (i : Nat) : (s.zeroM i).startup = s.startup := rfl
@[simp] theorem zeroM_signet (i : Nat) : (s.zeroM i).signet = s.signet := rfl
@[simp] theorem zeroM_board (i : Nat) : (s.zeroM i).board = s.board := rfl
@[simp] theorem zeroM_cores (i : Nat) : (s.zeroM i).cores = s.cores := rfl
@[simp] theorem zeroM_clusters (i : Nat) : (s.zeroM i).clusters = s.clusters := rfl
@[simp] theorem zeroM_loupe (i : Nat) : (s.zeroM i).loupe = s.loupe := rfl
@[simp] theorem zeroM_mem (i : Nat) : (s.zeroM i).mem = s.mem := rfl
@[simp] theorem zeroM_work (i : Nat) : (s.zeroM i).work = s.work := rfl
@[simp] theorem zeroM_net (i : Nat) : (s.zeroM i).net = s.net := rfl

/-! The wrapper of every command that acts on the device alone. -/

@[simp] theorem run_eq (t : State) (f : Device → Device) : t.run f = .next { t with dev := f t.dev } := rfl

end Sys2Proof.Laws
end

