-- ==== Sys2Proof/Laws/Access.lean ====
section
/-! SUPPORT. HBM by address: an address map that a legal segment table makes has one place for each address, so that a write of bytes is
read back and leaves every other byte; and what the operations around an access leave as it was. -/

namespace Sys2Proof.Laws
open Sys2Proof.Machine

/-! ## One place for each address (R267, R268) -/

/-- Every row of an accepted table is legal. -/
theorem segsOk_mem {l : List Seg} (h : segsOk l = true) {g : Seg} (hg : g ∈ l) : g.ok = true := by
  simp only [segsOk, Bool.and_eq_true, List.all_eq_true] at h
  exact h.1.1.2 g hg
/-- Two rows of an accepted table that overlap are one. -/
theorem segsOk_apart {l : List Seg} (h : segsOk l = true) {a b : Seg} (ha : a ∈ l) (hb : b ∈ l) (o : a.overlap b = true) : a = b := by
  simp only [segsOk, Bool.and_eq_true, List.all_eq_true] at h
  obtain ⟨i, hi, rfl⟩ := List.getElem_of_mem ha
  obtain ⟨j, hj, rfl⟩ := List.getElem_of_mem hb
  have k := h.2
  rcases Nat.lt_trichotomy i j with q | q | q
  · have := k j (by simpa using hj) i (by simpa using q)
    simp only [List.getElem?_eq_getElem hi, List.getElem?_eq_getElem hj] at this
    simp only [Seg.overlap] at this o
    simp at this o
    omega
  · subst q; rfl
  · have := k i (by simpa using hi) j (by simpa using q)
    simp only [List.getElem?_eq_getElem hi, List.getElem?_eq_getElem hj] at this
    rw [o] at this; cases this
/-- What a legal row says. -/
theorem Seg.ok_bounds {g : Seg} (h : g.ok = true) : g.base % 65536 = 0 ∧ g.u0 + g.height ≤ 4378147 ∧ 0 < g.pcCount ∧ g.pcFirst + g.pcCount ≤ 640 ∧
    (g.mode = 0 → g.pcFirst = 0 ∧ g.pcCount = 640) ∧ (g.mode = 1 → g.pcCount = 160) := by
  simp only [Seg.ok, Bool.and_eq_true, aligned, decide_eq_true_eq, beq_iff_eq] at h
  obtain ⟨⟨⟨⟨h1, h2⟩, h3⟩, h4⟩, h5⟩ := h
  split at h5
  · rename_i m; simp [m] at h5 ⊢; omega
  · rename_i m; simp [m] at h5 ⊢; omega
  · rename_i m; simp [m] at h5 ⊢; omega
  · cases h5
/-- The place of an address of a legal row. -/
theorem Seg.place_in {g : Seg} (h : g.ok = true) {a : Nat} (ha : g.base ≤ a ∧ a < g.base + g.bytes) :
    (g.pcFirst ≤ (g.place a).1 ∧ (g.place a).1 < g.pcFirst + g.pcCount) ∧ (g.u0 ≤ (g.place a).2.1 ∧ (g.place a).2.1 < g.u0 + g.height) ∧
    (g.place a).2.2 = a % 256 := by
  obtain ⟨h1, h2, h3, h4, h5, h6⟩ := Seg.ok_bounds h
  have hn : (a - g.base) / 256 < g.pcCount * g.height := by
    have := ha.2; simp only [Seg.bytes] at this
    exact Nat.div_lt_of_lt_mul (by rw [Nat.mul_comm]; omega)
  have hd : (a - g.base) / 256 / g.pcCount < g.height := Nat.div_lt_of_lt_mul hn
  have hm := Nat.mod_lt ((a - g.base) / 256) h3
  have hb : (a - g.base) % 256 = a % 256 := by omega
  simp only [Seg.place]
  split
  · rename_i m; obtain ⟨x, y⟩ := h5 m; rw [y] at hd hm ⊢; rw [x]; simp only; omega
  · rename_i m; have y := h6 m; rw [y] at hd hm ⊢; simp only; omega
  · generalize (a - g.base) / 256 / g.pcCount = d at *
    simp only; omega
theorem slot_inj (i j : Nat) (hi : i < 640) (hj : j < 640)
    (h : 160 * (i % 4) + 32 * (i / 4 % 5) + i / 20 = 160 * (j % 4) + 32 * (j / 4 % 5) + j / 20) : i = j := by
  have aux : ∀ x y z x' y' z' : Nat, x < 4 → y < 5 → z < 32 → x' < 4 → y' < 5 → z' < 32 →
      160 * x + 32 * y + z = 160 * x' + 32 * y' + z' → x = x' ∧ y = y' ∧ z = z' := by intros; omega
  have := aux _ _ _ _ _ _ (Nat.mod_lt _ (by omega)) (Nat.mod_lt _ (by omega)) (by omega) (Nat.mod_lt _ (by omega)) (Nat.mod_lt _ (by omega)) (by omega) h
  have e1 : i / 4 / 5 = i / 20 := Nat.div_div_eq_div_mul ..
  have e2 : j / 4 / 5 = j / 20 := Nat.div_div_eq_div_mul ..
  omega
theorem Seg.place_inj {g : Seg} (h : g.ok = true) {a b : Nat} (ha : g.base ≤ a) (hb : g.base ≤ b) (e : g.place a = g.place b) : a = b := by
  obtain ⟨h1, h2, h3, h4, h5, h6⟩ := Seg.ok_bounds h
  have key : (a - g.base) / 256 % g.pcCount = (b - g.base) / 256 % g.pcCount → (a - g.base) / 256 / g.pcCount = (b - g.base) / 256 / g.pcCount →
      (a - g.base) % 256 = (b - g.base) % 256 → a = b := by
    intro p q r
    have := Nat.div_add_mod ((a - g.base) / 256) g.pcCount
    have := Nat.div_add_mod ((b - g.base) / 256) g.pcCount
    rw [p, q] at *
    omega
  simp only [Seg.place] at e
  split at e
  · rename_i m; obtain ⟨x, y⟩ := h5 m; rw [y] at key; simp only [Prod.mk.injEq] at e
    refine key ?_ (by omega) (by omega)
    exact slot_inj _ _ (Nat.mod_lt _ (by omega)) (Nat.mod_lt _ (by omega)) e.1
  · rename_i m; have y := h6 m; rw [y] at key; simp only [Prod.mk.injEq] at e
    apply key <;> omega
  · simp only [Prod.mk.injEq] at e
    apply key <;> omega
theorem segOf_some {s : Device} {a : Nat} {g : Seg} (h : s.segOf a = some g) : g ∈ s.mem.segs ∧ g.base ≤ a ∧ a < g.base + g.bytes := by
  have := List.find?_some h; simp at this
  exact ⟨List.mem_of_find?_eq_some h, this⟩
/-- Two addresses with one place are one. -/
theorem place_apart {s : Device} (ok : segsOk s.mem.segs = true) {a b : Nat} {g h : Seg} (ha : s.segOf a = some g) (hb : s.segOf b = some h)
    (e : g.place a = h.place b) : a = b := by
  obtain ⟨m1, x1, y1⟩ := segOf_some ha
  obtain ⟨m2, x2, y2⟩ := segOf_some hb
  have p1 := Seg.place_in (segsOk_mem ok m1) ⟨x1, y1⟩
  have p2 := Seg.place_in (segsOk_mem ok m2) ⟨x2, y2⟩
  have : g = h := by
    refine segsOk_apart ok m1 m2 ?_
    rw [e] at p1
    simp only [Seg.overlap, Bool.or_eq_true, Bool.and_eq_true, decide_eq_true_eq]
    right; omega
  subst this
  exact Seg.place_inj (segsOk_mem ok m1) x1 x2 e
theorem hbmKeyOf_inj {s : Device} (ok : segsOk s.mem.segs = true) {a b : Nat} (e : s.hbmKeyOf a = s.hbmKeyOf b) : a = b := by
  simp only [Device.hbmKeyOf, hbmKey] at e
  rcases ha : s.segOf a with _ | g <;> rcases hb : s.segOf b with _ | h <;> simp only [ha, hb] at e
  · omega
  · obtain ⟨m2, x2, y2⟩ := segOf_some hb
    have p2 := Seg.place_in (segsOk_mem ok m2) ⟨x2, y2⟩
    have q2 := Seg.ok_bounds (segsOk_mem ok m2)
    omega
  · obtain ⟨m2, x2, y2⟩ := segOf_some ha
    have p2 := Seg.place_in (segsOk_mem ok m2) ⟨x2, y2⟩
    have q2 := Seg.ok_bounds (segsOk_mem ok m2)
    omega
  · refine place_apart ok ha hb ?_
    obtain ⟨m1, x1, y1⟩ := segOf_some ha
    obtain ⟨m2, x2, y2⟩ := segOf_some hb
    have p1 := Seg.place_in (segsOk_mem ok m1) ⟨x1, y1⟩
    have p2 := Seg.place_in (segsOk_mem ok m2) ⟨x2, y2⟩
    have q1 := Seg.ok_bounds (segsOk_mem ok m1)
    have q2 := Seg.ok_bounds (segsOk_mem ok m2)
    refine Prod.ext ?_ (Prod.ext ?_ ?_) <;> omega

/-! ## Reading after writing -/

/-- Two devices hold the same bytes at the same addresses. -/
def SameBytes (s t : Device) : Prop := t.mem.hbm = s.mem.hbm ∧ t.mem.segs = s.mem.segs ∧ t.mem.cm = s.mem.cm ∧ t.mem.clm = s.mem.clm

theorem SameBytes.refl (s : Device) : SameBytes s s := ⟨rfl, rfl, rfl, rfl⟩
theorem SameBytes.trans {s t u : Device} (a : SameBytes s t) (b : SameBytes t u) : SameBytes s u :=
  ⟨b.1.trans a.1, b.2.1.trans a.2.1, b.2.2.1.trans a.2.2.1, b.2.2.2.trans a.2.2.2⟩
theorem SameBytes.of_mem {s t : Device} (h : t.mem = s.mem) : SameBytes s t := by simp [SameBytes, h]
theorem SameBytes.foldl {α : Type} {f : Device → α → Device} (h : ∀ s x, SameBytes s (f s x)) (l : List α) (s : Device) :
    SameBytes s (l.foldl f s) := by
  induction l generalizing s with
  | nil => exact .refl s
  | cons x r ih => exact (h s x).trans (ih _)

/-- Where an address lies depends on the segment table alone. -/
theorem SameBytes.key {s t : Device} (h : SameBytes s t) (a : Nat) : t.hbmKeyOf a = s.hbmKeyOf a := by
  simp only [Device.hbmKeyOf, Device.segOf, h.2.1]
theorem SameBytes.byte {s t : Device} (h : SameBytes s t) (a : Nat) : t.hbmByte a = s.hbmByte a := by
  simp only [Device.hbmByte, h.key, h.1]

theorem hbmPut_parts (s : Device) (a : Nat) (b : Bytes) :
    (s.hbmPut a b).mem.segs = s.mem.segs ∧ (s.hbmPut a b).mem.cm = s.mem.cm ∧ (s.hbmPut a b).mem.clm = s.mem.clm := by
  induction b generalizing s a with
  | nil => exact ⟨rfl, rfl, rfl⟩
  | cons x r ih => exact ih _ _

/-- A write of bytes is what a read of each of its bytes then gives; every other byte is as it was. -/
theorem hbmByte_hbmPut {s : Device} (ok : segsOk s.mem.segs = true) (a : Nat) (b : Bytes) (x : Nat) :
    (s.hbmPut a b).hbmByte x = if a ≤ x ∧ x < a + b.length then b.getD (x - a) 0 else s.hbmByte x := by
  induction b generalizing s a with
  | nil => rw [if_neg (by simp only [List.length_nil]; omega)]; rfl
  | cons y r ih =>
    simp only [Device.hbmPut]
    rw [ih (s := { s with mem := { s.mem with hbm := memSet s.mem.hbm (s.hbmKeyOf a) y } }) ok]
    have e : Device.hbmByte { s with mem := { s.mem with hbm := memSet s.mem.hbm (s.hbmKeyOf a) y } } x = if x = a then y else s.hbmByte x := by
      have k : Device.hbmKeyOf { s with mem := { s.mem with hbm := memSet s.mem.hbm (s.hbmKeyOf a) y } } x = s.hbmKeyOf x := rfl
      simp only [Device.hbmByte, k]
      by_cases h : x = a
      · rw [if_pos h, h]; exact memGet_memSet_same ..
      · rw [if_neg h]; exact memGet_memSet_ne _ _ fun c => h (hbmKeyOf_inj ok c)
    rw [e]
    simp only [List.length_cons]
    by_cases h : x = a
    · subst h; simp
    · by_cases h2 : a + 1 ≤ x ∧ x < a + 1 + r.length
      · rw [if_pos h2, if_pos (by omega)]
        have : x - a = (x - (a + 1)) + 1 := by omega
        rw [this]; rfl
      · rw [if_neg h2, if_neg h, if_neg (by omega)]

/-- Bytes written are read back. -/
theorem hbmGet_hbmPut {s : Device} (ok : segsOk s.mem.segs = true) (a : Nat) (b : Bytes) : (s.hbmPut a b).hbmGet a b.length = b := by
  apply List.ext_getElem
  · simp [Device.hbmGet]
  · intro i h1 h2
    have := hbmByte_hbmPut ok a b (a + i)
    rw [if_pos (by omega)] at this
    simp only [Device.hbmGet, List.getElem_map, List.getElem_range]
    exact this.trans (by rw [Nat.add_sub_cancel_left, List.getD_eq_getElem _ _ h2])

/-- The canonical form of HBM is kept. -/
theorem hbmPut_wf {s : Device} (h : s.mem.hbm.wf = true) (a : Nat) (b : Bytes) : (s.hbmPut a b).mem.hbm.wf = true := by
  induction b generalizing s a with
  | nil => exact h
  | cons x r ih => exact ih (memSet_wf h _ _) (a + 1)

/-! ## What events leave -/

theorem sendMsix_mem (s : Device) (v : Nat) : (s.sendMsix v).mem = s.mem := by
  simp only [Device.sendMsix]; repeat' split
  all_goals rfl
theorem setCause_mem (s : Device) (b : Nat) : (s.setCause b).mem = s.mem := by
  simp only [Device.setCause]; split
  · rw [sendMsix_mem]
  · rfl
theorem record_mem (s : Device) (e : Ev) : (s.record e).mem = s.mem := by simp only [Device.record, setCause_mem]; rfl
theorem putSrc_mem (s : Device) (x : ErrSrc) : (s.putSrc x).mem = s.mem := rfl
theorem goFatal_mem (s : Device) : s.goFatal.mem = s.mem := by
  simp only [Device.goFatal]; split <;> rfl
theorem requestTest_mem (s : Device) (c u n e a k : Nat) : (s.requestTest c u n e a k).mem = s.mem := by
  simp only [Device.requestTest]; repeat' split
  all_goals first | rfl | (rw [record_mem]; rfl)
/-- An event leaves the memory system as it was. -/
theorem event_mem (s : Device) (e : Ev) : (s.event e).mem = s.mem := by
  simp only [Device.event]
  generalize hx : s.bump (O.errorClassCounts e.cls) = x
  have hm : x.mem = s.mem := by rw [← hx]; rfl
  repeat' split
  all_goals simp [goFatal_mem, requestTest_mem, putSrc_mem, record_mem, hm]

theorem ledgerFault_same (s : Device) (id k t o : Nat) : SameBytes s (s.ledgerFault id k t o) := by
  simp only [Device.ledgerFault]
  refine SameBytes.trans ?_ (SameBytes.of_mem (event_mem ..))
  exact ⟨rfl, rfl, rfl, rfl⟩
theorem outsideWrite_same (s : Device) (m a n : Nat) : SameBytes s (s.outsideWrite m a n) := by
  simp only [Device.outsideWrite]
  split
  · exact .refl s
  · split
    · exact ledgerFault_same ..
    · exact .refl s

/-! ## What the caches and the transactions leave -/

theorem setCache_same (s : Device) (k : Nat) (l : List CLine) : SameBytes s (s.setCache k l) := ⟨rfl, rfl, rfl, rfl⟩
theorem bump_same (s : Device) (o n : Nat) : SameBytes s (s.bump o n) := ⟨rfl, rfl, rfl, rfl⟩
theorem emit_same (s : Device) (x : Out) : SameBytes s (s.emit x) := ⟨rfl, rfl, rfl, rfl⟩
theorem answer_same (s : Device) (m : Nat) (st : Status) (b : Bytes) : SameBytes s (s.answer m st b) := emit_same ..
theorem cacheLine_same (s : Device) (l a n : Nat) (w r : Bool) : SameBytes s (s.cacheLine l a n w r) := ⟨rfl, rfl, rfl, rfl⟩
theorem cacheTouch_same (s : Device) (a n : Nat) (w r : Bool) : SameBytes s (s.cacheTouch a n w r) := .foldl (fun _ _ => cacheLine_same ..) _ _
theorem cachedGet_length (s : Device) (a n : Nat) : (s.cachedGet a n).length = n := by
  simp only [Device.cachedGet]; split <;> simp [Device.hbmGet]
theorem dirtyHit_same (s : Device) (a n : Nat) : SameBytes s (s.dirtyHit a n) := .foldl (fun _ _ => setCache_same ..) _ _

theorem txnView_mem (s : Device) (k : Nat) : (s.txnView k).mem = s.mem := by
  simp only [Device.txnView]; split <;> split <;> simp
theorem marksView_mem (s : Device) : s.marksView.mem = s.mem := by simp [Device.marksView, List.range_succ]
theorem setTxn_mem (s : Device) (k : Nat) (t : Txn) : (s.setTxn k t).mem = { s.mem with txns := tput s.mem.txns k t } := by
  simp [Device.setTxn, txnView_mem, marksView_mem]
theorem delTxn_mem (s : Device) (k : Nat) : (s.delTxn k).mem = { s.mem with txns := tdel s.mem.txns k } := by
  simp [Device.delTxn, txnView_mem, marksView_mem]
theorem setTxn_same (s : Device) (k : Nat) (t : Txn) : SameBytes s (s.setTxn k t) := by simp [SameBytes, setTxn_mem]
theorem dooms_same (s : Device) (l : Nat) (x : Option Nat) (r : Nat) : SameBytes s (s.dooms l x r) := by
  simp only [Device.dooms]; split
  · exact .refl s
  · exact .foldl (fun _ _ => setTxn_same ..) _ _
theorem doomRange_same (s : Device) (a n : Nat) (x : Option Nat) : SameBytes s (s.doomRange a n x) := .foldl (fun _ _ => dooms_same ..) _ _
theorem clearLost_same (s : Device) (a n : Nat) : SameBytes s (s.clearLost a n) := by
  simp only [Device.clearLost]; split
  · exact .refl s
  · exact ⟨rfl, rfl, rfl, rfl⟩

/-- A committed write of bytes: each is what a read then gives, and every other byte is as it was. -/
theorem stored_byte {s : Device} (ok : segsOk s.mem.segs = true) (a n : Nat) (b : Bytes) (x : Nat) :
    (s.stored a n b).hbmByte x = if a ≤ x ∧ x < a + b.length then b.getD (x - a) 0 else s.hbmByte x := by
  have d := doomRange_same s a n none
  have ok' : segsOk (s.doomRange a n none).mem.segs = true := by rw [d.2.1]; exact ok
  simp only [Device.stored, (clearLost_same ..).byte]
  rw [hbmByte_hbmPut ok', d.byte]
theorem stored_cores (s : Device) (a n : Nat) (b : Bytes) : (s.stored a n b).mem.cm = s.mem.cm ∧ (s.stored a n b).mem.clm = s.mem.clm := by
  have d := doomRange_same s a n none
  have c := clearLost_same ((s.doomRange a n none).hbmPut a b) a n
  have p := hbmPut_parts (s.doomRange a n none) a b
  exact ⟨(c.2.2.1.trans p.2.1).trans d.2.2.1, (c.2.2.2.trans p.2.2).trans d.2.2.2⟩

end Sys2Proof.Laws
end

