-- ==== Sys2Proof/Laws/Answer.lean ====
section
/-! SUPPORT. What a write of an object with a row of its own does: everything it can do, once. -/

namespace Sys2Proof.Laws
open Sys2Proof.Machine

/-- The unit takes the write. -/
theorem ownWrite_ok {s : State} {oid : Nat} {f : Device → Ans} {d : Device} (h : s.dev.accepts oid) (hf : f s.dev = d.okay) :
    s.run (fun d => d.ownWrite oid f) = s.wrote oid d := by
  simp [State.run, Device.ownWrite, h.1, h.2, hf, Device.okay, Ans.wrote, Ans.out, Ans.reply, State.wrote, State.to]

/-- The unit refuses the write: nothing changes but the answer. -/
theorem ownWrite_denied {s : State} {oid : Nat} {f : Device → Ans} {st : Status} {n : Nat} (h : s.dev.accepts oid)
    (hst : st ≠ .ok) (hf : f s.dev = s.dev.deny st n) :
    s.run (fun d => d.ownWrite oid f) = s.to (s.dev.emit (.reply st n)) := by
  simp [State.run, Device.ownWrite, h.1, h.2, hf, Device.deny, Ans.wrote, Ans.out, Ans.reply, State.to, hst]

/-- The device manager does not execute: nothing changes. -/
theorem ownWrite_idle {s : State} {oid : Nat} {f : Device → Ans} (h : s.dev.managerRuns = false) :
    s.run (fun d => d.ownWrite oid f) = s.to s.dev := by
  simp [State.run, Device.ownWrite, h, State.to]

/-- A check before the unit's own rule refuses the write (R50). -/
theorem ownWrite_checked {s : State} {oid : Nat} {f : Device → Ans} {st : Status} {n : Nat} (h : s.dev.managerRuns = true)
    (hc : s.dev.ownerChecks oid = some (st, n)) :
    s.run (fun d => d.ownWrite oid f) = s.to (s.dev.emit (.reply st n)) := by
  simp [State.run, Device.ownWrite, h, hc, Device.deny, Ans.out, Ans.reply, State.to]

end Sys2Proof.Laws
end

