-- ==== Sys2Proof/Laws/Exec.lean ====
section
/-! SUPPORT. What every command can do, once: all but four act on the device alone. -/

namespace Sys2Proof.Laws
open Sys2Proof.Machine

/-- A command that does not touch the flash changes the device alone, whatever the queue. -/
theorem exec_run (c : Instr) (h : c.touchesFlash = false) (s : State) :
    ∃ d, exec c s = .next { s with dev := d } ∧ ∀ q, exec c { s with pending := q } = .next { dev := d, flash := s.flash, pending := q } := by
  have k : ∀ f : Device → Device, ∃ d, s.run f = .next { s with dev := d } ∧
      ∀ q, State.run { s with pending := q } f = .next { dev := d, flash := s.flash, pending := q } := fun f => ⟨_, rfl, fun _ => rfl⟩
  cases c
  case flashOpComplete => cases h
  case sysRstNAssert => cases h
  case vddAonLoss => cases h
  case warmResetBegin => cases h
  case sleepExitComplete => simp only [exec, execSleepExitComplete]; exact k _
  all_goals exact ⟨_, rfl, fun _ => rfl⟩

/-- A command that touches the flash keeps its form and leaves the queue alone. -/
theorem exec_flash {c : Instr} (h : c.touchesFlash = true) {s t : State} (w : flashWf s.flash = true) (e : exec c s = .next t) :
    flashWf t.flash = true ∧ t.pending = s.pending := by
  cases c
  case flashOpComplete => exact execFlashOpComplete_flashWf w e
  case sysRstNAssert => exact restart_flashWf w e
  case vddAonLoss => exact restart_flashWf w e
  case warmResetBegin =>
    simp only [exec, execWarmResetBegin] at e
    split at e
    · exact restart_flashWf w e
    · cases e; exact ⟨w, rfl⟩
  all_goals cases h

end Sys2Proof.Laws
end

