-- ==== Sys2Proof/Laws/Motion.lean ====
section
/-! SUPPORT. What a search step of an encoder answers. -/

namespace Sys2Proof.Laws
open Machine

/-- A search step answers a candidate that may be chosen. -/
theorem pickVec_ok {cx cy : Nat} {b : PredBlock} {use : List Nat} {l : List MotionVec} {v : MotionVec} (h : pickVec cx cy b use l = some v) :
    vecOk cx cy b v = true ∧ v ∈ l := by
  simp only [pickVec] at h
  have := List.mem_filter.mp (List.mem_of_getElem? h)
  exact ⟨this.2, this.1⟩

/-- A search step with a candidate that may be chosen answers one. -/
theorem pickVec_some {cx cy : Nat} {b : PredBlock} {use : List Nat} {l : List MotionVec} {v : MotionVec} (m : v ∈ l) (h : vecOk cx cy b v = true) :
    ∃ w, pickVec cx cy b use l = some w := by
  have hm : v ∈ l.filter (vecOk cx cy b) := List.mem_filter.mpr ⟨m, h⟩
  simp only [pickVec]
  exact ⟨_, List.getElem?_eq_getElem (Nat.mod_lt _ (List.length_pos_of_mem hm))⟩

/-- A vector that stands still is one of the candidates. -/
theorem zero_mem_wholeVecs : ((0, 0) : MotionVec) ∈ wholeVecs := by
  simp only [wholeVecs, List.mem_flatMap, List.mem_map, List.mem_range]
  exact ⟨128, by omega, 256, by omega, by norm_num⟩

/-- So is the vector around which the quarter-sample search goes. -/
theorem self_mem_quarterVecs (v : MotionVec) : v ∈ quarterVecs v := by
  simp only [quarterVecs, List.mem_flatMap, List.mem_map, List.mem_range]
  exact ⟨3, by omega, 3, by omega, by simp⟩

/-- The vector of a block may be chosen. -/
theorem chooseVec_ok {cx cy : Nat} {b : PredBlock} {use : List Nat} {v : MotionVec} (h : chooseVec cx cy b use = some v) : vecOk cx cy b v = true := by
  obtain ⟨w, _, hv⟩ := Option.bind_eq_some_iff.mp h
  exact (pickVec_ok hv).1

/-- A block that may stand still gets a vector. -/
theorem chooseVec_some {cx cy : Nat} {b : PredBlock} {use : List Nat} (h : vecOk cx cy b (0, 0) = true) : ∃ v, chooseVec cx cy b use = some v := by
  obtain ⟨w, hw⟩ := pickVec_some (use := use) zero_mem_wholeVecs h
  obtain ⟨u, hu⟩ := pickVec_some (use := use) (self_mem_quarterVecs w) (pickVec_ok hw).1
  exact ⟨u, by rw [chooseVec, hw]; exact hu⟩

end Sys2Proof.Laws
end

