-- ==== Sys2Proof/Laws/Objects.lean ====
section
/-! SUPPORT. What an object holds after a write of an object: the value written at its own place, and at every other place what was
there. -/

namespace Sys2Proof.Laws
open Sys2Proof.Machine

variable (s : Device)

@[simp] theorem val_setVal_same (o : Nat) (v : Val) : (s.setVal o v).val o = v := by
  have := tgetD_tset_same s.objs o v (defaultVal o)
  simpa [Device.setVal, Device.val, tgetD] using this

theorem val_setVal_ne {o p : Nat} (v : Val) (h : p ≠ o) : (s.setVal o v).val p = s.val p := by
  simp only [Device.setVal, Device.val, tset]
  split
  · rw [tget_tdel_ne _ h]
  · rw [tget_tput_ne _ _ h]

/-- A read depends on the objects alone. -/
theorem num_of_objs {d e : Device} (h : d.objs = e.objs) (o : Nat) : d.num o = e.num o := by simp [Device.num, Device.val, h]
theorem bytes_of_objs {d e : Device} (h : d.objs = e.objs) (o : Nat) : d.bytes o = e.bytes o := by simp [Device.bytes, Device.val, h]

@[simp] theorem num_setNum_same (o n : Nat) : (s.setNum o n).num o = n := by simp [Device.num, Device.setNum]
theorem num_setNum_ne {o p : Nat} (n : Nat) (h : p ≠ o) : (s.setNum o n).num p = s.num p := by
  simp [Device.num, Device.setNum, val_setVal_ne s _ h]
theorem val_setNum_ne {o p : Nat} (n : Nat) (h : p ≠ o) : (s.setNum o n).val p = s.val p := val_setVal_ne s _ h
@[simp] theorem bytes_setBytes_same (o : Nat) (b : Bytes) : (s.setBytes o b).bytes o = b := by simp [Device.bytes, Device.setBytes]
theorem val_setBytes_ne {o p : Nat} (b : Bytes) (h : p ≠ o) : (s.setBytes o b).val p = s.val p := val_setVal_ne s _ h
theorem num_setBytes_ne {o p : Nat} (b : Bytes) (h : p ≠ o) : (s.setBytes o b).num p = s.num p := by
  simp [Device.num, val_setBytes_ne s b h]
theorem bytes_setNum_ne {o p : Nat} (n : Nat) (h : p ≠ o) : (s.setNum o n).bytes p = s.bytes p := by
  simp [Device.bytes, val_setNum_ne s n h]
theorem bytes_setBytes_ne {o p : Nat} (b : Bytes) (h : p ≠ o) : (s.setBytes o b).bytes p = s.bytes p := by
  simp [Device.bytes, val_setBytes_ne s b h]
theorem val_bump_ne {o p : Nat} (n : Nat) (h : p ≠ o) : (s.bump o n).val p = s.val p := val_setVal_ne s _ h
@[simp] theorem num_bump_same (o n : Nat) : (s.bump o n).num o = counted o (s.num o) n := by simp [Device.bump]
theorem num_bump_ne {o p : Nat} (n : Nat) (h : p ≠ o) : (s.bump o n).num p = s.num p := num_setNum_ne s _ h
@[simp] theorem val_emit (x : Out) (o : Nat) : (s.emit x).val o = s.val o := rfl
@[simp] theorem num_emit (x : Out) (o : Nat) : (s.emit x).num o = s.num o := rfl
@[simp] theorem bytes_emit (x : Out) (o : Nat) : (s.emit x).bytes o = s.bytes o := rfl

end Sys2Proof.Laws
end

