-- ==== Sys2Proof/Tests/Slice0.lean ====
section
/-! SUPPORT. Tests: the states in which the statements' hypotheses meet, and small checks of single steps. -/

set_option Elab.async false

namespace Sys2Proof.Tests
open Sys2Proof Sys2Proof.Machine Sys2Proof.Laws

/-- A device in READY with every domain on. -/
def base : Device :=
  { Device.reset with
    objs := (O.startupState, .num 7) :: (List.range 24).map fun k => (O.domainState k, .num 2)
    startup := { powered := true } }

/-- A state with that device, an empty flash and no command waiting. -/
def up : State := { dev := base, flash := {}, pending := [] }

/-- That state with some objects set. -/
def upWith (l : List (Nat × Nat)) : State :=
  { up with dev := { base with objs := l.foldl (fun m p => tput m p.1 (.num p.2)) base.objs } }

/-- Host queue 0 enabled, with one fetched command of an opcode. -/
def withCmd (op : Nat) (args : Bytes) : State :=
  let u := upWith [(O.queueState 0, 1), (O.cqEntries 0, 16), (O.sqEntries 0, 16)]
  { u with dev := { u.dev with host := { queues := [(0, { cmds := [{ id := 7, opcode := op, fence := false, args := args }] })] },
                               work := { jobs := [(0, { reg := [], recAddr := 0, lastT := 0, bufs := [{ space := 0, read := true, write := true, valid := true, base := 0, size := 65536 }] })],
                                         pools := [(0, { job := 0, frames := 4, layers := 1, treeLog2 := 4, framesBuf := 0, ptBuf := 0, metaBase := 0, treeBase := 0 })] } } }

/-- That command. -/
def cmd (op : Nat) (args : Bytes) : HostCmd := { id := 7, opcode := op, fence := false, args := args }

/-- The description of an object that exists. -/
def descOf (o : Nat) : ObjDesc :=
  match lookup o with
  | .found d => d
  | _ => { area := 0, node0 := 0, nodes := 0, obj0 := 0, banks := 0, elems := 0, name := "", ty := .u8, acc := .ro, src := .reset, dflt := .num 0, rng := .special,
           i3c := false, subs := false }

/-- The PCIe host channel is up, with administrator rights. -/
def pcieAdm : State :=
  let u := upWith [(O.bezelState, 1)]
  { u with dev := { u.dev with fore := { pcieAdmin := true } } }

/-- Job 0 occupies core 0 of cluster 0, whose state is x and whose memory is cm, at list entry 0; the job's buffer-table entry 0 is
core memory. -/
def onCore (x : CoreSt) (cm : Memory) : State :=
  let u := upWith [(O.coreOccupant 0 0, 0), (O.jobState 0, 3)]
  let j : Job := { reg := [], recAddr := 0, lastT := 0, bufs := [{ space := 0, read := true, write := true, valid := true, base := 0, size := 65536 }] }
  { u with dev := { u.dev with cores := [(0, x)], mem := { cm := cm }, work := { jobs := [(0, j)] } } }

/-- A job whose partition in cluster 0 is the first 64 KiB. -/
def partJob : Job := { reg := List.replicate 224 0 ++ [1], recAddr := 0, lastT := 0 }

/-- Job 0 is that job, and cluster 0 works. -/
def onCluster (x : ClusterSt) : State := { up with dev := { base with clusters := [(0, x)], work := { jobs := [(0, partJob)], parts := [(0, [{ job := 0, base := 0, size := 65536 }])] } } }

/-- Job 0 with a 64 KiB buffer in HBM, and a pool of two frames: header and frame records from address 0, page tables in the buffer, a prefix tree of
one bucket at 16384. -/
def pageJob : Job :=
  { reg := List.replicate 672 0 ++ [0, 32, 0, 0, 0, 0, 0, 0, 64], recAddr := 0, lastT := 0, bufs := [{ space := 2, read := true, write := true, valid := true, base := 8192, size := 16 }] }
def pagePool : Pool :=
  { job := 0, frames := 2, layers := 0, treeLog2 := 0, framesBuf := 0, ptBuf := 0, metaBase := 0, treeBase := 16384 }
/-- The bytes in memory, frame 1 the only one on the free list, slot 0 of every die the only one free. -/
def onPool (l : List (Nat × Bytes)) : State :=
  let u := upWith [(O.jobState 0, 5), (O.queueState 0, 1), (O.cqEntries 0, 16), (O.sqEntries 0, 16)]
  let m : MemSys :=
    { segs := [{ base := 0, mode := 0, system := false, pcFirst := 0, pcCount := 1, u0 := 0, height := 1 }]
      regions := [{ base := 0, size := 65536, kind := 0, job := 0 }]
      due := ((List.range 63).map fun k => { master := managerId, slot := k + 1, reason := 1 }) ++ (List.range 63).map fun k => { master := managerId, slot := 65 + k, reason := 1 } }
  let b : Device := { u.dev with mem := m, work := { jobs := [(0, pageJob)], pools := [(0, pagePool)] } }
  let g : List (Nat × Bytes) := [(0, [1]), (24, [1]), (8, [255, 255, 255]), (28, [255, 255, 255]), (16, [1]), (4128, ({} : FrameRec).encode)]
  { u with dev := (g ++ l).foldl (fun d x => d.hbmPut x.1 x.2) b }
/-- Frame 0 with a count, named by a tree node or by none, and by entry 0 with a fill count. -/
def frame0 (count node fill : Nat) : List (Nat × Bytes) :=
  [(4096, ({ count := count, st := 1, node := node } : FrameRec).encode), (8192, leBytes 8 ({ frame := 0, fill := fill, valid := true } : Pte).encode)]
/-- A step inside a transaction of control core 0 in slot 0: its result, if it does not stop. -/
def pageCtx : TxCtx := { key := 0, m := masterId 2 0 }
def inTxn (s : State) : Device := s.dev.setTxn 0 { master := masterId 2 0, openedAt := 0, limit := 1000000 }
def txOk {α : Type} (f : Tx α) (c : TxCtx) (s : Device) : Option α := match (f c s).2 with
  | .ok a => some a
  | .error _ => none
theorem tx_eq {α : Type} {f : Tx α} {c : TxCtx} {s : Device} {a : α} (h : txOk f c s = some a) : f c s = ((f c s).1, .ok a) := by
  unfold txOk at h
  split at h
  · rename_i b e; exact Prod.ext rfl (by rw [e]; simpa using h)
  · cases h

/-- OPEN where one slot is free. -/
def openAt (s : Device) (m k : Nat) : Ans × Option Nat :=
  let q := coordinator m
  match (if m = managerId then none else s.mem.due.find? fun d => d.master == m) with
  | some d => ({ s := { s with mem := { s.mem with due := s.mem.due.filter fun x => x.master != m } }, st := reasonStatus d.reason, detail := d.reason }, none)
  | none =>
    match (if m = managerId then none else (s.txnsOf m).find? fun t => t.2.state == TxnState.doomed) with
    | some (key, t) => ({ s := s.abortTxn key t t.reason, st := reasonStatus t.reason, detail := t.reason }, none)
    | none =>
    if !mayOpen m || s.isFrozen m || !s.claspUp || (if m = managerId then 8 else 1) ≤ (s.txnsOf m).length then (s.deny .state, none)
    else
      let s : Device := { s with freeCtr := s.freeCtr + 1 }
      ((s.setTxn (64 * q + k) { master := m, openedAt := s.uptime, limit := us (s.num O.txnTimeLimitUs) }).okay, some (64 * q + k))
theorem openAt_eq {s : Device} {m k : Nat} (h : s.freeSlots (coordinator m) = [k]) : s.txnOpenOp m = openAt s m k := by
  have e : ∀ n, [k][n % [k].length]? = some k := fun n => by simp [Nat.mod_one]
  simp only [Device.txnOpenOp, openAt, Device.choose, h, e]
  all_goals rfl

/-- The tree has one bucket, whatever the key; its first way is not valid. -/
def bucketOk (c : TxCtx) (s : Device) : Bool := match (txBucket pagePool 0 c s).2 with
  | .ok l => ((l.find? fun w => !w.2.valid).map fun w => w.1) == some 0
  | .error _ => false
theorem bucket_eq {c : TxCtx} {s : Device} (h : bucketOk c s = true) (k : Nat) :
    ∃ l n, txBucket pagePool k c s = ((txBucket pagePool 0 c s).1, .ok l) ∧ (l.find? fun w => !w.2.valid) = some (0, n) := by
  have e : txBucket pagePool k = txBucket pagePool 0 := by simp [txBucket, Pool.bucket, show pagePool.treeLog2 = 0 from rfl, Nat.mod_one]
  rw [e]
  unfold bucketOk at h
  split at h
  · rename_i l q
    cases f : l.find? fun w => !w.2.valid with
    | none => simp [f] at h
    | some w => exact ⟨l, w.2, Prod.ext rfl q, by rw [f] at h; rw [f, ← show w.1 = 0 by simpa using h]⟩
  · cases h

/-- An attempt where one slot is free, and whether it does what it is to do. -/
def tryAt {α : Type} (s : Device) (m k : Nat) (errs : List SymErr) (f : Tx α) : Device × TxEnd α :=
  match openAt s m k with
  | (a, none) => (a.s, .refused a.st a.detail)
  | (a, some key) => match f { key := key, m := m, errs := errs } a.s with
    | (_, .error .wait) => (s, .wait)
    | (d, .error (.abort r)) => (d.endKey key r, .ended r)
    | (d, .ok x) => match d.commitNow key with
      | none => (s, .wait)
      | some (0, d) => (d, .done x)
      | some (r, d) => (d, .ended r)
def pageOk : TxEnd PageRes → Bool
  | .done a => a.st == .ok
  | _ => false
theorem tryTx_at {α : Type} {s : Device} {m k : Nat} (h : s.freeSlots (coordinator m) = [k]) (errs : List SymErr) (f : Tx α) :
    s.tryTx m errs false f = tryAt s m k errs f := by
  simp only [Device.tryTx, openAt_eq h, tryAt, Bool.false_eq_true, if_false]
  all_goals
    rcases openAt s m k with ⟨a, _ | key⟩
    · rfl
    · rcases f { key := key, m := m, errs := errs } a.s with ⟨d, (_ | r) | x⟩
      · rfl
      · rfl
      · simp only
        rcases d.commitNow key with _ | ⟨_ | n, e⟩ <;> rfl
theorem runTx_done {α : Type} {n : Nat} {s e : Device} {p m : Nat} {errs : List SymErr} {f : Tx α} {r : α} (h : s.tryTx m errs false f = (e, .done r)) :
    Device.runTx n s p m 0 errs f = (e, .done r) := by
  cases n <;> simp [Device.runTx, h, retries]
theorem page_runs {s : Device} {m k : Nat} {f : Tx PageRes} (h : s.freeSlots (coordinator m) = [k]) (g : pageOk (tryAt s m k [] f).2 = true) (n p : Nat) :
    ∃ r e, Device.runTx n s p m 0 [] f = (e, .done r) ∧ r.st = .ok := by
  cases q : tryAt s m k [] f with
  | mk e t => cases t with
    | done r => exact ⟨r, e, runTx_done ((tryTx_at h _ _).trans q), by rw [q] at g; simpa [pageOk] using g⟩
    | _ => rw [q] at g; simp [pageOk] at g

def relOk : TxEnd (PageRes × Nat) → Bool
  | .done a => a.2 == 0
  | _ => false
theorem rel_runs {s : Device} {m k : Nat} {f : Tx (PageRes × Nat)} (h : s.freeSlots (coordinator m) = [k]) (g : relOk (tryAt s m k [] f).2 = true) (n p : Nat) :
    ∃ r e, Device.runTx n s p m 0 [] f = (e, .done r) ∧ r.2 = 0 := by
  cases q : tryAt s m k [] f with
  | mk e t => cases t with
    | done r => exact ⟨r, e, runTx_done ((tryTx_at h _ _).trans q), by rw [q] at g; simpa [relOk] using g⟩
    | _ => rw [q] at g; simp [relOk] at g
theorem release_one {s e : Device} {p m : Nat} {x : Pool} {j : Job} {pt b : Nat} {r : PageRes × Nat}
    (h : Device.runTx (s.num O.opRetryLimit) s p m 0 [] (txRelease p x j pt b (x.ptes j pt)) = (e, .done r)) (hr : r.2 ≤ b)
    (hb : b < x.ptes j pt := by decide +kernel) :
    s.opRelease p m x j pt b [] [] = some { s := r.1.done (e.unstall m), detail := 0 + r.1.detail } := by
  have a : ¬ x.ptes j pt ≤ b := by omega
  simp [Device.opRelease, Device.release256, a, h, hr]

/-- An attempt of a COW where one slot is free. -/
def cowAt (s : Device) (r : CowRun) (m k : Nat) (x : Pool) (j : Job) : Device × TxEnd (Option (Status × Nat)) :=
  match openAt s m k with
  | (a, none) => (a.s, .refused a.st a.detail)
  | (a, some key) => match txCow x j r.pt r.b { key := key, m := m, errs := [] } a.s with
    | (_, .error .wait) => (s, .wait)
    | (d, .error (.abort k)) => (d.endKey key k, .ended k)
    | (d, .ok (.copy f g k)) =>
      ({ d with work := { d.work with cows := d.work.cows ++ [{ r with key := key, master := m, frame := f, target := g, moved := k }] } }, .done none)
    | (d, .ok (.over st k)) => match d.commitNow key with
      | none => (s, .wait)
      | some (0, d) => (d, .done (some (st, k)))
      | some (e, d) => (d, .ended e)
theorem cowAt_eq {s : Device} {r : CowRun} {m k : Nat} {x : Pool} {j : Job} (h : s.freeSlots (coordinator m) = [k]) : s.cowTry r m x j [] = cowAt s r m k x j := by
  simp only [Device.cowTry, openAt_eq h, cowAt]
  all_goals
    rcases openAt s m k with ⟨a, _ | key⟩
    · rfl
    · simp only
      rcases txCow x j r.pt r.b { key := key, m := m } a.s with ⟨d, (_ | n) | (⟨st, n⟩ | ⟨f, g, n⟩)⟩
      · rfl
      · rfl
      · simp only
        rcases d.commitNow key with _ | ⟨_ | n, e⟩ <;> rfl
      · rfl
def cowCopies : TxEnd (Option (Status × Nat)) → Bool
  | .done none => true
  | _ => false
def cowNone : TxEnd (Option (Status × Nat)) → Bool
  | .done (some (.ok, 0)) => true
  | _ => false
theorem cow_copies {s : Device} {r : CowRun} {m k : Nat} {x : Pool} {j : Job} (h : s.freeSlots (coordinator m) = [k]) (g : cowCopies (cowAt s r m k x j).2 = true) (n : Nat) :
    ∃ d, Device.cowStart n s r m x j [] = .copies d := by
  cases q : cowAt s r m k x j with
  | mk e t =>
    rw [q] at g
    have u := (cowAt_eq (r := r) (x := x) (j := j) h).trans q
    match t, g with
    | .done none, _ => exact ⟨e, by cases n <;> simp [Device.cowStart, u, retries]⟩
theorem cow_alone {s : Device} {r : CowRun} {m k : Nat} {x : Pool} {j : Job} (h : s.freeSlots (coordinator m) = [k]) (g : cowNone (cowAt s r m k x j).2 = true) (n : Nat) :
    ∃ a, Device.cowStart n s r m x j [] = .answer a ∧ a.st = .ok := by
  cases q : cowAt s r m k x j with
  | mk e t =>
    rw [q] at g
    have u := (cowAt_eq (r := r) (x := x) (j := j) h).trans q
    match t, g with
    | .done (some (.ok, 0)), _ => cases n <;> exact ⟨_, by simp [Device.cowStart, u, retries]; rfl, rfl⟩

def copyRun : CowRun := { key := 0, master := masterId 2 0, pool := 0, pt := 0, b := 0, frame := 0, target := 1, moved := 0, retries := 0, host := none }
/-- That copy is in progress, its transaction in slot 0. -/
def onCow : State :=
  let u := onPool (frame0 2 0xFFFFFFFF 64)
  { u with dev := { (u.dev.setTxn 0 { master := masterId 2 0, openedAt := 0, limit := 1000000 }) with work := { u.dev.work with cows := [copyRun] } } }
def commits (s : Device) (key : Nat) : Bool := match s.commitNow key with
  | some (0, _) => true
  | _ => false
theorem commit_of {s : Device} {key : Nat} (h : commits s key = true) : ∃ d, s.commitNow key = some (0, d) := by
  unfold commits at h
  split at h
  · rename_i d e; exact ⟨d, e⟩
  · cases h

/-- The pool with a command of queue 0. -/
def poolCmd (op : Nat) (args : Bytes) (l : List (Nat × Bytes)) : State :=
  let u := onPool l
  { u with dev := { u.dev with host := (withCmd op args).dev.host } }
theorem ans_of {s e : Device} {n m : Nat} {x : Pool} {f : Tx PageRes} {r : PageRes} (h : Device.runTx (s.num O.opRetryLimit) s n m 0 [] f = (e, .done r)) :
    s.pageOp1 n m 0 [] x f = some { s := r.done (e.unstall m), st := r.st, detail := r.detail } := by
  simp [Device.pageOp1, pageEnd, h]

/-- A running job with core 0 of cluster 0, 64 KiB of HBM space at address 0, and a step of one lengths-table entry there. -/
def stepJob : Job :=
  { reg := List.replicate 160 0 ++ [1] ++ List.replicate 519 0 ++ [0, 0, 1], recAddr := 0, lastT := 0, slots := [0]
    cur := some { desc := List.replicate 8 0 ++ [1], t := 1, startAt := 0, next := 0, lenStatus := [0] } }

/-- That job runs in slot 0; its lengths-table entry has 64 new tokens of 64. -/
def onWalk (w : List Walk) (x : CoreSt) : State :=
  let u := upWith [(O.jobState 0, 3), (O.coreOccupant 0 0, 0)]
  let b : Device := { u.dev with cores := [(0, x)], work := { jobs := [(0, stepJob)], walks := [(0, w)] } }
  { u with dev := b.spacePut stepJob 0 [64, 0, 0, 0, 0, 0, 0, 0, 0, 0, 0, 0, 64] }

/-- Job 0 with core 0, one schedule entry at offset 0 of its HBM space, and a step that has not started it. -/
def schedReg : Bytes := List.replicate 28 0 ++ [1] ++ List.replicate 21 0 ++ [1] ++ List.replicate 13 0 ++ [128] ++ List.replicate 95 0 ++ [1] ++
  List.replicate 505 0 ++ [16] ++ List.replicate 13 0 ++ [0, 0, 1]
def schedStep : StepRun := { desc := [], t := 1, startAt := 0, next := 0 }
def schedJob (r : StepRun) : Job := { reg := schedReg, recAddr := 0, lastT := 0, cur := some r }
def onSched (r : StepRun) (m : List (Nat × Bytes)) : State :=
  let u := upWith [(O.jobState 0, 3), (O.coreOccupant 0 0, 0)]
  let b : Device := { u.dev with work := { jobs := [(0, schedJob r)] }, mem := { segs := [{ base := 0, mode := 0, system := false, pcFirst := 0, pcCount := 1, u0 := 0, height := 1 }] } }
  { u with dev := m.foldl (fun (d : Device) p => d.spacePut (schedJob r) p.1 p.2) b }

/-- Update unit 0 has a run of job 0 over group 0 with the given pass; the group has 32 parameters and no blocks on stack 0 but its last
stack. -/
def unitRun (pass n : Nat) (ph : UpdPhase) : UpdRun :=
  { job := 0, entry := 0, t := 1, list := [(0, pass)], groups := [(0, leBytes 8 n)], clip := 0, phase := ph }
def runStep : StepRun := { schedStep with next := 1, running := [{ idx := 0, kind := 5, units := [0] }] }
def onUnit (r : UpdRun) : State :=
  let u := onSched runStep []
  { u with dev := { u.dev with work := { u.dev.work with upd := [(0, [r])] } } }

/-- With no other transaction in its slots, a commit of a transaction that tracks nothing goes through. -/
theorem blockWrite_alone (s : Device) (u : Nat) (r : UpdRun) (x : Job) (key : Nat) (t : Txn) (h : s.mem.txns = [(key, t)]) (hd : t.state = .opened)
    (ht : t.tracked = []) : ∃ w, s.blockWrite u r x key t = some (0, w) := by
  simp only [Device.blockWrite]
  generalize ((List.range 131072).zip (s.blockIn r x u r.k).out).map _ ++ _ = all
  generalize linesOf (stateAt x r.desc u r.k) 131072 ++ linesOf (stampAt x r.desc u r.k) 4 = wr
  generalize List.foldl (fun (m : Memory) (q : Nat × Byte) => memSet m q.1 q.2) [] all = m
  generalize List.map (fun (q : Nat × Byte) => q.1) all = ms
  have e1 : (s.setTxn key { t with written := wr, buf := m, masks := ms }).mem.txns = [(key, { t with written := wr, buf := m, masks := ms })] := by
    simp [setTxn_mem, h, tput]
  generalize s.setTxn key { t with written := wr, buf := m, masks := ms } = s1 at e1 ⊢
  have e2 : tget? s1.mem.txns key = some { t with written := wr, buf := m, masks := ms } := by simp [e1, tget?]
  have p : ∀ q, s1.prepare key { t with written := wr, buf := m, masks := ms } q = .yes := by
    intro q
    simp [Device.prepare, ht, Device.wLocked, Device.rLocked, e1]
  have g : ∀ q, s1.engineTaken q key = false := by
    intro q
    simp [Device.engineTaken, e1]
  have f : ∀ l : List Nat, (l.findSome? fun q => if s1.engineTaken q key then some none else match s1.prepare key { t with written := wr, buf := m, masks := ms } q with
      | .no r => some (some r) | .wait => some none | .yes => none) = none := by
    intro l
    induction l with
    | nil => rfl
    | cons q l ih => rw [List.findSome?_cons, p, g]; exact ih
  have b : (({ t with written := wr, buf := m, masks := ms } : Txn).state == TxnState.doomed) = false := by simp [hd]
  simp only [Device.commitNow, e2, b, if_neg (Bool.false_ne_true)]
  split
  · rename_i h0; exact absurd (h0.symm.trans (f _)) (Option.some_ne_none _)
  · rename_i r0 h0; exact absurd (h0.symm.trans (f _)) (Option.some_ne_none _)
  · exact ⟨_, rfl⟩

def readRun : UpdRun := { unitRun 0 163840 .read with txn := some 0 }
def onRead (p : UpdPhase) : State :=
  let u := onUnit { readRun with phase := p }
  { u with dev := { u.dev with mem := { u.dev.mem with txns := [(0, { master := masterId 7 0, openedAt := 0, limit := 5 })] } } }

/-- A segment of one pseudo-channel at address 0, and a region in it. -/
def memBase : MemSys :=
  { segs := [{ base := 0, mode := 0, system := false, pcFirst := 0, pcCount := 1, u0 := 0, height := 1 }], regions := [{ base := 0, size := 65536, kind := 0, job := 0 }] }
def onMem (l : List (Nat × Nat)) (f : MemSys → MemSys) : State :=
  let u := upWith l
  { u with dev := { u.dev with mem := f memBase } }

/-- Port 0, up, in Ethernet (1) or native (2) mode. -/
def onPort (mode : Nat) (p : Port) : State :=
  let u := upWith [(O.portMode 0, mode), (O.portState 0, 2), (O.portLanes 0, 1), (O.ctxState 3, 0)]
  { u with dev := { u.dev with net := { u.dev.net with ports := [(0, p)] } } }

/-- Context 3 is open on port 0 with the peer context 0 at address 0, and has one window of 64 KiB in HBM. -/
def onCtx (c : Ctx) (p : Port) : State :=
  let u := upWith [(O.portMode 0, 1), (O.portState 0, 2), (O.portLanes 0, 1), (O.ctxState 3, 2)]
  let o := tput (tput u.dev.objs (O.ctxConfig 3) (.bytes (List.replicate 64 0))) (O.ctxWindows 3) (.bytes ([2, 7] ++ List.replicate 19 0 ++ [1, 0, 0]))
  { u with dev := { u.dev with uptime := 1000000, objs := o, mem := memBase, net := { u.dev.net with ports := tset [] 0 p {}, ctxs := tset [] 3 c {} } } }
def pkt (type : Nat) : RxIn := { pkt := { type := type, gen := 1, dst := 3, payLen := 128, payload := List.replicate 128 0, last := true, first := true }, bufs := 1, ip := List.replicate 16 0, udpSrc := 0xC000, ce := false, mac := 0 }
def openCtx : Ctx := { gen := 2, peerGen := some 1, sentLimit := 10 }

/-- A plan of job 0 with one step, of the operation given, from 128 bytes of buffer 0 of the job in HBM; its context is 3, or none for a
local step. -/
def planOf (op ctx : Nat) : PlanRun := { id := 5, job := 0, number := 0, entry := none, running := true, steps := [leBytes 8 (op * 2 ^ 60 + ctx * 2 ^ 44 + 0xFFF * 2 ^ 32) ++ List.replicate 20 0 ++ [128, 0, 0, 0]] }
def onPlan (p : PlanRun) (waits : List (Nat × PlanWait)) (started : Nat) : State :=
  let u := onCtx openCtx {}
  { u with dev := { u.dev with work := { u.dev.work with jobs := [(0, pageJob)] }, net := { u.dev.net with plans := [{ p with waits := waits, started := started }] } } }

/-- A configuration of a text stream: work slots at offset 16,384 of the job's HBM space, its ring at 0; and one of an encode stream, its
source ring at 0, its output at 65,536. -/
def textCfg : Bytes :=
    [3, 0, 0, 1, 3, 0, 0, 0, 3, 0, 1, 0, 1, 0, 0, 0, 1, 0, 1, 0, 1, 0, 0, 0, 4, 0, 0, 0, 0, 0, 0, 0, 64, 0, 0, 0, 1, 0, 1, 0, 1, 1, 0,
    0, 0, 0, 0, 0, 0, 0, 0, 0, 0, 0, 0, 0, 0, 0, 0, 0, 0, 0, 0, 0, 0, 0, 0, 0, 0, 0, 0, 0, 64, 31, 0, 0, 16, 0, 16, 0, 16, 0, 1, 0, 0,
    0, 0, 0, 0, 0, 122, 68, 1, 0, 0, 0, 100, 0, 0, 0, 0, 0, 0, 0, 0, 0, 0, 0, 0, 0, 0, 0, 2, 0, 0, 0, 0, 0, 0, 0, 0, 0, 0, 0, 0, 0, 0,
    0, 0, 64, 0, 0, 0, 0, 0, 0, 64, 0, 0, 0, 0, 0, 0, 0]
def packCfg : Bytes := textCfg.set 100 10
def encCfg : Bytes :=
    [0, 0, 0, 1, 128, 0, 128, 0, 1, 0, 0, 0, 1, 0, 0, 0, 1, 0, 0, 0, 100, 0, 0, 0, 10, 0, 0, 0, 0, 0, 0, 0, 0, 0, 0, 0, 0, 0, 0, 0, 2,
    0, 0, 0, 0, 0, 0, 0, 0, 0, 1, 0, 0, 0, 0, 0, 0, 0, 16, 0, 0, 0, 0, 0]
/-- Job 0 with 16 MiB of HBM space at 0. -/
def mediaJob : Job := { reg := List.replicate 160 0 ++ [1] ++ List.replicate 522 0 ++ [1], recAddr := 0, lastT := 0 }
/-- Stream 0 of complex 0 in a state, and its context 3. -/
def onStream (st : Nat) (c : Bytes) (t : StreamSt) : State :=
  let u := upWith [(O.streamState 0 0, st), (O.jobState 0, 3), (O.portMode 0, 1), (O.portLanes 0, 1)]
  let o := tput (tput u.dev.objs (O.streamConfig 0 0) (.bytes c)) (O.ctxConfig 3) (.bytes ([0, 0, 0, 0, 0, 2] ++ List.replicate 58 0))
  { u with dev := { u.dev with uptime := 1000000, objs := o, mem := { memBase with regions := [] }, work := { jobs := [(0, mediaJob)] }
                               net := { u.dev.net with streams := [(0, t)] } } }
def onEnc (st : Nat) (e : EncSt) (mem : List (Nat × Bytes)) : State :=
  let u := upWith [(O.encodeState 0 0, st), (O.jobState 0, 3), (O.encodeCodecs, 15)]
  let b : Device := { u.dev with uptime := 1000000, objs := tput u.dev.objs (O.encodeConfig 0 0) (.bytes encCfg), mem := { memBase with regions := [] }, work := { jobs := [(0, mediaJob)] }
                                 net := { u.dev.net with encs := [(0, e)] } }
  { u with dev := mem.foldl (fun (d : Device) p => d.spacePut mediaJob p.1 p.2) b }
def smp (st : SampStage) : Sample := { seq := 0, hdr := [0, 0, 0, 0, 0, 0, 0, 1], stage := st, ended := true }

/-- A registration record (Table 16.2): class 0, a replica, one of a group of one, two schedule entries at offset 65536 of the 128 KiB of
HBM space from address 0. -/
def recReg : Bytes := [1, 0, 1, 1, 1, 0, 0, 0, 0, 0, 1] ++ List.replicate 5 0 ++ [232, 3] ++ List.replicate 10 0 ++ [2, 0, 0, 0, 0, 0, 1] ++
  List.replicate 647 0 ++ [2] ++ List.replicate 341 0

/-- Job slot 0 in a state, with the record at 256 KiB and its schedule, REDUCE and END, in place. -/
def onSlot (code : Nat) (l : List (Nat × Nat)) : State :=
  let u := upWith ([(O.jobState 0, code), (O.registrationAddress 0, 262144), (O.savePoolBytes, 65536)] ++ l)
  let b : Device := { u.dev with mem := { segs := [{ base := 0, mode := 0, system := false, pcFirst := 0, pcCount := 640, u0 := 0, height := 4 }] } }
  let d := ((b.hbmPut 262144 recReg).hbmPut 65543 [64]).hbmPut 65559 [128]
  { u with dev := { d with work := { d.work with jobs := if code = 0 then [] else [(0, { reg := recReg, recAddr := 262144, lastT := 0 })] } } }

/-- Core 0, held by job 0, is being handed over from job 0. -/
def onHand (st : HandStage) (into : Option Nat) : State :=
  let u := onSlot 3 [(O.coreOccupant 0 0, 0)]
  { u with dev := { u.dev with uptime := 1000000, work := { u.dev.work with hands := [(0, { out := some 0, into := into, stage := st, since := 0 })] } } }

/-- D3 with the default segment table, and two fences switched. -/
def fenced : Device := { base with mem := { segs := defaultSegs, fences := [{ p := 146, band := 0, start := 0, switched := some 1 },
  { p := 525, band := 1, start := 0, switched := some 2 }] } }


theorem witness_domainOn : ∃ (s : State) (d : Fin 24),
    4 ≤ d.val ∧ s.dev.accepts (O.domainControl d) ∧ s.dev.power.trans = .none ∧ s.dev.num O.powerState ≤ 1 ∧ s.dev.domainOn 1 = true ∧ s.dev.domainOn 2 = true ∧ s.dev.domainOn 3 = true ∧ s.dev.num (O.domainState d) = 0 :=
  ⟨upWith [(O.domainState 9, 0)], 9, by decide +kernel⟩

theorem witness_domainOff : ∃ (s : State) (d : Fin 24),
    4 ≤ d.val ∧ s.dev.accepts (O.domainControl d) ∧ s.dev.power.trans = .none ∧ s.dev.num O.powerState ≤ 1 ∧ s.dev.domainOn 1 = true ∧ s.dev.domainOn 2 = true ∧ s.dev.domainOn 3 = true ∧ s.dev.num (O.domainState d) = 2 ∧ (s.dev.opOf d).move = none ∧ s.dev.domainBlocker d = none :=
  ⟨up, 9, by decide +kernel⟩

theorem witness_domainOnComplete : ∃ (s : State) (d : Fin 24),
    4 ≤ d.val ∧ s.dev.num (O.domainState d) = 1 :=
  ⟨upWith [(O.domainState 9, 1)], 9, by decide +kernel⟩

theorem witness_domainOffComplete : ∃ (s : State) (d : Fin 24),
    4 ≤ d.val ∧ s.dev.num (O.domainState d) = 3 :=
  ⟨upWith [(O.domainState 9, 3)], 9, by decide +kernel⟩

theorem witness_locketBad : ∃ (s : Device) (_off : BitVec 16),
    bit (s.num O.locketValid) 2 = true :=
  ⟨(upWith [(O.locketValid, 4)]).dev, 8, by decide +kernel⟩

theorem witness_domainOnBad : ∃ (s : State) (d : Fin 24) (_off : BitVec 16),
    4 ≤ d.val ∧ s.dev.num (O.domainState d) = 1 :=
  ⟨upWith [(O.domainState 9, 1)], 9, 0, by decide +kernel⟩

theorem witness_domainOffBad : ∃ (s : State) (d : Fin 24) (_off : BitVec 16),
    4 ≤ d.val ∧ s.dev.num (O.domainState d) = 3 :=
  ⟨upWith [(O.domainState 9, 3)], 9, 0, by decide +kernel⟩

theorem witness_crystalStable : ∃ (s : State),
    s.dev.startupCode = suXtal ∧ s.dev.startup.powered = true ∧ s.dev.num O.crystalStatus = 0 :=
  ⟨upWith [(O.startupState, 1)], by decide +kernel⟩

theorem witness_crystalAbsent : ∃ (s : State),
    s.dev.startupCode = suXtal ∧ s.dev.startup.powered = true ∧ s.dev.num O.crystalStatus = 0 :=
  ⟨upWith [(O.startupState, 1)], by decide +kernel⟩

theorem witness_rcRetrim : ∃ (s : State) (_n : BitVec 16),
    s.dev.trimReference ≠ 0 ∧ s.dev.domainOn 0 = true :=
  ⟨upWith [(O.crystalStatus, 1)], 5, by decide +kernel⟩

theorem witness_clockEnableWrite : ∃ (s : State) (i : Fin 46) (v : BitVec 32),
    s.dev.accepts (O.clockEnables i) ∧ 12 ≤ i.val ∧ i.val ≤ 15 ∧ v = 1 ∧ s.dev.num (O.clockEnables i) = 1 :=
  ⟨upWith [(O.clockEnables 12, 1)], 12, 1, by decide +kernel⟩

theorem witness_opRequest : ∃ (s : State) (i : Fin 16) (_p : Fin 8),
    s.dev.accepts (O.opRequest i) :=
  ⟨up, 3, 5, by decide +kernel⟩

theorem witness_opMoveLockDone : ∃ (s : State) (i : Fin 16) (m : OpMove),
    (s.dev.opOf (8 + i)).move = some m ∧ m.lockDone = false ∧ m.start + 500 ≤ s.dev.uptime ∧ m.src < m.dst :=
  ⟨{ up with dev := { base with uptime := 500, power := { ops := [(9, { move := some { src := 0, dst := 3, start := 0, rampStart := none } })] } } }, 1, { src := 0, dst := 3, start := 0, rampStart := none }, by decide +kernel⟩

theorem witness_opMoveRampDone : ∃ (s : State) (i : Fin 16) (m : OpMove) (t : Nat),
    (s.dev.opOf (8 + i)).move = some m ∧ m.rampStart = some t ∧ m.rampDone = false ∧ t + rampTime m.src m.dst ≤ s.dev.uptime ∧ m.src < m.dst :=
  ⟨{ up with dev := { base with uptime := 50000, power := { ops := [(9, { move := some { src := 0, dst := 3, start := 0, rampStart := some 500 } })] } } }, 1, { src := 0, dst := 3, start := 0, rampStart := some 500 }, 500, by decide +kernel⟩

theorem witness_thermalEvaluation : ∃ (s : State) (_q : Fin 4) (_l : List (BitVec 16)),
    s.dev.domainOn 0 = true :=
  ⟨up, 0, [], by decide +kernel⟩

theorem witness_thermalTrip : ∃ (s : State) (_q : Fin 4) (_k : Fin 8) (v : BitVec 16),
    440 ≤ v.toInt ∧ s.dev.domainOn 0 = true ∧ s.dev.power.trip = false :=
  ⟨up, 0, 0, 440, by decide +kernel⟩

theorem witness_powerEvaluation : ∃ (s : State) (mw : BitVec 32),
    1000 * s.dev.num O.powerLimitW ≤ mw.toNat :=
  ⟨up, 3000000, by decide +kernel⟩

theorem witness_requestRun : ∃ (s : State),
    s.dev.accepts O.powerStateRequest ∧ s.dev.power.trans = .none ∧ s.dev.startupCode = suReady ∧ s.dev.num O.powerState = 1 :=
  ⟨upWith [(O.powerState, 1)], by decide +kernel⟩

theorem witness_requestIdle : ∃ (s : State),
    s.dev.accepts O.powerStateRequest ∧ s.dev.power.trans = .none ∧ s.dev.startupCode = suReady ∧ s.dev.num O.powerState = 0 :=
  ⟨up, by decide +kernel⟩

theorem witness_requestSleep : ∃ (s : State),
    s.dev.accepts O.powerStateRequest ∧ s.dev.power.trans = .none ∧ s.dev.startupCode = suReady ∧ s.dev.num O.powerState = 0 ∧ s.dev.sleepBlocker = none :=
  ⟨up, by decide +kernel⟩

theorem witness_requestDeep : ∃ (s : State),
    s.dev.accepts O.powerStateRequest ∧ s.dev.power.trans = .none ∧ s.dev.startupCode = suReady ∧ s.dev.num O.powerState = 0 ∧ s.dev.deepBlocker = none :=
  ⟨up, by decide +kernel⟩

theorem witness_islandGate : ∃ (s : State) (i : Fin 20) (t : Nat),
    s.dev.num O.powerState = 1 ∧ s.dev.domainOn (islandDomain (14 + i)) = true ∧ s.dev.islandBusy (14 + i) = false ∧ s.dev.xing = [] ∧ tget? s.dev.power.idleSince (14 + i) = some t ∧ t + us (s.dev.num O.idleGateUs) ≤ s.dev.uptime ∧ s.dev.power.gated.contains (14 + i.val) = false :=
  ⟨let u := upWith [(O.powerState, 1)]; { u with dev := { u.dev with uptime := 100000000, power := { idleSince := [(17, 5)] } } }, 3, 5, by decide +kernel⟩

theorem witness_idleAutoExpiry : ∃ (s : State),
    s.dev.num O.idleAutoMs ≠ 0 ∧ s.dev.num O.powerState = 0 ∧ s.dev.power.trans = .none ∧ s.dev.startupCode = suReady ∧ s.dev.jobsBusy = false ∧ s.dev.mediaBusy = false ∧ s.dev.power.autoSince + ms (s.dev.num O.idleAutoMs) ≤ s.dev.uptime :=
  ⟨let u := upWith [(O.idleAutoMs, 1)]; { u with dev := { u.dev with uptime := 25000 } }, by decide +kernel⟩

theorem witness_sleepEntryComplete : ∃ (s : State),
    s.dev.power.trans = .entering 2 ∧ s.dev.installsWait = false :=
  ⟨{ up with dev := { base with power := { trans := .entering 2 } } }, by decide +kernel⟩

theorem witness_sleepExit : ∃ (s : State),
    s.dev.num O.powerState = 2 ∧ s.dev.power.trans = .none ∧ s.dev.power.wakeHeld = true :=
  ⟨let u := upWith [(O.powerState, 2)]; { u with dev := { u.dev with power := { wakeHeld := true } } }, by decide +kernel⟩

theorem witness_sleepExitComplete : ∃ (s : State) (k : Nat),
    s.dev.power.trans = .exiting k ∧ s.dev.num O.powerState = 2 :=
  ⟨let u := upWith [(O.powerState, 2)]; { u with dev := { u.dev with power := { trans := .exiting 0 } } }, 0, by decide +kernel⟩

theorem witness_deepEntryComplete : ∃ (s : State),
    s.dev.power.trans = .entering 3 ∧ s.dev.installsWait = false :=
  ⟨{ up with dev := { base with power := { trans := .entering 3 } } }, by decide +kernel⟩

theorem witness_wakeAinTrip : ∃ (s : State) (mv : BitVec 16),
    s.dev.domainOn 0 = true ∧ s.dev.power.ainArmed = true ∧ s.dev.num O.wakeAinPolarity = 0 ∧ 10 * s.dev.ainThreshold < (mv.toNat : Int) :=
  ⟨upWith [(O.wakeAinPolarity, 0)], 60000, by decide +kernel⟩

theorem witness_wakeAinRearm : ∃ (s : State) (mv : BitVec 16),
    s.dev.domainOn 0 = true ∧ s.dev.power.ainArmed = false ∧ s.dev.num O.wakeAinPolarity = 0 ∧ (mv.toNat : Int) < 10 * ainRearm 0 (s.dev.num O.wakeAinThreshold) (s.dev.num O.wakeAinHysteresis) :=
  ⟨let u := upWith [(O.wakeAinThreshold, 100), (O.wakeAinPolarity, 0)]; { u with dev := { u.dev with power := { ainArmed := false } } }, 0, by decide +kernel⟩

theorem witness_wakeNLow : ∃ (s : State),
    s.dev.num O.powerState = 2 ∧ s.dev.power.trans = .none ∧ s.dev.power.wakeHeld = false ∧ s.dev.power.pendingWakes = [] ∧ bit (s.dev.num O.wakeEnable) 2 = true ∧ s.dev.power.wakeNDriven = false :=
  ⟨upWith [(O.powerState, 2), (O.wakeEnable, 0xFF)], by decide +kernel⟩

theorem witness_wakeFrame : ∃ (s : State) (mac : BitVec 48) (p : Bytes),
    s.dev.num O.powerState = 2 ∧ s.dev.power.trans = .none ∧ s.dev.power.wakeHeld = false ∧ s.dev.power.pendingWakes = [] ∧ bit (s.dev.num O.wakeEnable) 4 = true ∧ wolAt (beBytes 6 mac.toNat) (s.dev.bytes O.wakeFramePassword) p = true :=
  ⟨upWith [(O.powerState, 2), (O.wakeEnable, 0xFF)], 1, List.replicate 6 0xFF ++ (List.replicate 16 [0, 0, 0, 0, 0, 1]).flatten, by decide +kernel⟩

theorem witness_wakeTimer : ∃ (s : State),
    s.dev.power.timerArmed = true ∧ s.dev.num O.wakeTimer ≠ 0 ∧ s.dev.num O.wakeTimer ≤ s.dev.uptime :=
  ⟨let u := upWith [(O.wakeTimer, 7)]; { u with dev := { u.dev with uptime := 7, power := { timerArmed := true } } }, by decide +kernel⟩

theorem witness_locketClear : ∃ (s : State),
    s.dev.accepts O.locketClear :=
  ⟨up, by decide +kernel⟩

theorem witness_vddAonRise : ∃ (s : State),
    s.dev.startup.powered = false ∧ s.dev.startup.sysRstLow = false :=
  ⟨State.reset, by decide +kernel⟩

theorem witness_vddAonLoss : ∃ (s : State),
    s.dev.startup.flashOp = none :=
  ⟨up, by decide +kernel⟩

theorem witness_sysRstNAssert : ∃ (s : State),
    s.dev.startup.flashOp = none ∧ s.dev.startup.powered = true :=
  ⟨up, by decide +kernel⟩

theorem witness_sysRstNRelease : ∃ (s : State),
    s.dev.startup.sysRstLow = true ∧ s.dev.startup.powered = true ∧ s.dev.startup.powerOn = false :=
  ⟨{ up with dev := { base with startup := { powered := true, sysRstLow := true } } }, by decide +kernel⟩

theorem witness_railSample : ∃ (s : State) (_mv : List (BitVec 16)),
    s.dev.startup.powered = true :=
  ⟨up, [], by decide +kernel⟩

theorem witness_railsGood : ∃ (s : State),
    s.dev.step3Rails = true ∧ s.dev.startup.powered = true ∧ s.dev.startup.sysRstLow = false ∧ s.dev.startupCode = suXtal ∧ s.dev.num O.crystalStatus = 1 :=
  ⟨let u := upWith [(O.startupState, 1), (O.crystalStatus, 1)]; { u with dev := { u.dev with board := { rails := [(0, { good := true }), (1, { good := true }), (2, { good := true }), (3, { good := true }), (17, { good := true }), (18, { good := true })] } } }, by decide +kernel⟩

theorem witness_rcTrimComplete : ∃ (s : State) (_n : BitVec 16),
    s.dev.startupCode = suRcTrim ∧ s.dev.domainOn 1 = true ∧ s.dev.trimReference = 0 :=
  ⟨upWith [(O.startupState, 2)], 0, by decide +kernel⟩

theorem witness_fuseLoadFails : ∃ (s : State) (w : List FuseWord) (i : Nat),
    s.dev.startupCode = suFuseLoad ∧ w.findIdx? (·.uncorrectable) = some i :=
  ⟨upWith [(O.startupState, 3)], [{ value := 0, corrected := false, uncorrectable := true }], 0, by decide +kernel⟩

theorem witness_fuseLoadComplete : ∃ (s : State) (w : List FuseWord),
    s.dev.startupCode = suFuseLoad ∧ w.findIdx? (·.uncorrectable) = none ∧ bits ((s.dev.fuseShadow w).fuse 0) 31 16 ≠ 0 :=
  ⟨upWith [(O.startupState, 3)], [{ value := 65536, corrected := false, uncorrectable := false }], by decide +kernel⟩

theorem witness_imageSlotChecked : ∃ (s : State) (k : Fin 2) (n : FlashId),
    s.dev.startupCode = suImageLoad ∧ 0x4000000 ≤ n.bytes.toNat ∧ n.unsupported = false ∧ s.dev.startup.slotsLeft = [k.val, 1 - k.val] :=
  ⟨let u := upWith [(O.startupState, 4)]; { u with dev := { u.dev with startup := { powered := true, slotsLeft := [0, 1] } } }, 0, { bytes := 0x4000000, profile := true }, by decide +kernel⟩

theorem witness_slotBackgroundCheck : ∃ (s : State) (k : Fin 2),
    s.dev.startupCode = suReady ∧ k.val ∈ s.dev.startup.slotsLeft ∧ s.dev.slotCode (s.slotImage k) true = 3 :=
  ⟨{ up with dev := { base with startup := { powered := true, slotsLeft := [1] } } }, 1, by decide +kernel⟩

theorem witness_configureComplete : ∃ (s : State) (d : Device),
    s.dev.startupCode = suConfigure ∧ s.dev.startup.holding = false ∧ (imgRecords s.dev.startup.image).2 = true ∧ applyRecords s.dev 0 (imgRecords s.dev.startup.image).1 = (d, none) ∧ (imgRecords s.dev.startup.image).1.length = imgRecCount s.dev.startup.image :=
  ⟨upWith [(O.startupState, 5)], (upWith [(O.startupState, 5)]).dev, by decide +kernel⟩

theorem witness_configureFails : ∃ (s : State) (d : Device) (n : Nat),
    s.dev.startupCode = suConfigure ∧ s.dev.startup.holding = false ∧ applyRecords s.dev 0 (imgRecords s.dev.startup.image).1 = (d, some n) :=
  ⟨{ up with dev := { base with objs := tput base.objs O.startupState (.num 5), startup := { powered := true, image := List.replicate 20 0 ++ [32, 0, 0, 0, 0, 0, 0, 0, 8] ++ List.replicate 11 0 } } }, ({ up with dev := { base with objs := tput base.objs O.startupState (.num 5), startup := { powered := true, image := List.replicate 20 0 ++ [32, 0, 0, 0, 0, 0, 0, 0, 8] ++ List.replicate 11 0 } } } : State).dev, 0, by decide +kernel⟩

theorem witness_configureRelease : ∃ (s : State),
    s.dev.accepts O.configureRelease ∧ s.dev.startup.holding = true :=
  ⟨{ up with dev := { base with startup := { powered := true, holding := true } } }, by decide +kernel⟩

theorem witness_trainComplete : ∃ (s : State) (ids : List (Option (BitVec 32))),
    s.dev.startupCode = suTrain ∧ (s.dev.trained [] ids).trainBlocked = none :=
  ⟨upWith [(O.startupState, 6)], [], by decide +kernel⟩

theorem witness_warmResetKind1 : ∃ (s : State) (n : BitVec 32),
    s.dev.accepts O.resetRequest ∧ n ≠ 0 ∧ s.dev.startupCode = suReady ∧ s.dev.power.trans = .none ∧ n.toNat ≠ s.dev.num O.lastResetNonce :=
  ⟨up, 5, by decide +kernel⟩

theorem witness_warmResetKind2 : ∃ (s : State) (n : BitVec 32),
    s.dev.accepts O.resetRequest ∧ n ≠ 0 ∧ s.dev.startupCode = suReady ∧ s.dev.power.trans = .none ∧ n.toNat ≠ s.dev.num O.lastResetNonce :=
  ⟨up, 5, by decide +kernel⟩

theorem witness_warmResetKind3 : ∃ (s : State) (n : BitVec 32),
    s.dev.accepts O.resetRequest ∧ n ≠ 0 ∧ s.dev.startupCode = suReady ∧ s.dev.power.trans = .none ∧ n.toNat ≠ s.dev.num O.lastResetNonce :=
  ⟨up, 5, by decide +kernel⟩

theorem witness_warmResetBegin : ∃ (s : State) (r : ResetReq),
    s.dev.resetDue = some r ∧ r.kind ≠ 3 ∧ s.dev.endAllTxns.installsWait = false :=
  ⟨{ up with dev := { base with uptime := 25000, startup := { powered := true, resetReq := some { kind := 1, nonce := 5, at_ := 0 } } } }, { kind := 1, nonce := 5, at_ := 0 }, by decide +kernel⟩

theorem witness_deepExit : ∃ (s : State),
    s.dev.num O.powerState = 3 ∧ s.dev.power.wakeHeld = true ∧ s.dev.power.trans = .none :=
  ⟨let u := upWith [(O.powerState, 3)]; { u with dev := { u.dev with power := { wakeHeld := true } } }, by decide +kernel⟩

theorem witness_flashDataWrite : ∃ (s : State) (b : Bytes),
    s.dev.accepts O.flashData ∧ s.dev.startupCode = suConfigure ∧ b ≠ [] ∧ b.length ≤ 4096 ∧ s.dev.num O.flashOffset + b.length ≤ s.dev.flashLimit ∧ s.dev.startup.flashOp = none :=
  ⟨upWith [(O.startupState, 5)], [7], by decide +kernel⟩

theorem witness_flashErase : ∃ (s : State) (a : BitVec 32),
    s.dev.accepts O.flashErase ∧ s.dev.startupCode = suConfigure ∧ a.toNat < s.dev.flashLimit ∧ s.dev.startup.flashOp = none :=
  ⟨upWith [(O.startupState, 5)], 7, by decide +kernel⟩

theorem witness_flashOpComplete : ∃ (s : State) (op : FlashOp),
    s.dev.startup.flashOp = some op :=
  ⟨{ up with dev := { base with startup := { powered := true, flashOp := some (.erase 0) } } }, .erase 0, by decide +kernel⟩

theorem witness_i3cPointerWrite : ∃ (s : State) (_o : BitVec 32),
    s.dev.i3cUp = true :=
  ⟨up, 5, by decide +kernel⟩

theorem witness_i3cWakeCommand : ∃ (s : State),
    s.dev.i3cUp = true ∧ s.dev.startup.sysRstLow = false :=
  ⟨up, by decide +kernel⟩

theorem witness_i3cIgnoredWrite : ∃ (s : State) (b : Bytes),
    s.dev.i3cUp = true ∧ b.length ≠ 4 ∧ b ≠ [0x57#8] :=
  ⟨up, [], by decide +kernel⟩

theorem witness_i3cDynamicAddress : ∃ (s : State) (_a : BitVec 7),
    s.dev.i3cUp = true :=
  ⟨up, 9, by decide +kernel⟩

theorem witness_i3cEntdaa : ∃ (s : State) (_a : BitVec 7),
    s.dev.i3cUp = true :=
  ⟨up, 9, by decide +kernel⟩

theorem witness_i3cIbi : ∃ (s : State),
    s.dev.i3cUp = true ∧ s.dev.flag O.i3cIbiEnable = true ∧ s.dev.board.dynAddr ≠ 0 ∧ s.dev.ibiEvents ≠ 0 ∧ s.dev.board.lastIbi = none :=
  ⟨let u := upWith [(O.i3cIbiEnable, 1)]; { u with dev := { u.dev with board := { dynAddr := 9 } } }, by decide +kernel⟩

theorem witness_i3cRead : ∃ (s : State),
    s.dev.domainOn 0 = true ∧ s.dev.i3cUp = true :=
  ⟨up, by decide +kernel⟩

theorem witness_extest : ∃ (s : State),
    s.dev.startup.powered = true ∧ s.dev.scanAvailable = true ∧ s.dev.pinsMayBeTaken = true ∧ s.dev.startup.sysRstLow = false :=
  ⟨upWith [(O.startupState, 10), (O.debugScope, 8)], by decide +kernel⟩

theorem witness_extestPulse : ∃ (s : State),
    s.dev.startup.powered = true ∧ s.dev.scanAvailable = true ∧ s.dev.pinsMayBeTaken = true ∧ s.dev.startup.sysRstLow = false :=
  ⟨upWith [(O.startupState, 10), (O.debugScope, 8)], by decide +kernel⟩

theorem witness_extestTrain : ∃ (s : State),
    s.dev.startup.powered = true ∧ s.dev.scanAvailable = true ∧ s.dev.pinsMayBeTaken = true ∧ s.dev.startup.sysRstLow = false :=
  ⟨upWith [(O.startupState, 10), (O.debugScope, 8)], by decide +kernel⟩

theorem witness_highz : ∃ (s : State),
    s.dev.startup.powered = true ∧ s.dev.scanAvailable = true ∧ s.dev.pinsMayBeTaken = true ∧ s.dev.startup.sysRstLow = false :=
  ⟨upWith [(O.startupState, 10), (O.debugScope, 8)], by decide +kernel⟩

theorem witness_clamp : ∃ (s : State),
    s.dev.startup.powered = true ∧ s.dev.scanAvailable = true ∧ s.dev.pinsMayBeTaken = true ∧ s.dev.startup.sysRstLow = false :=
  ⟨upWith [(O.startupState, 10), (O.debugScope, 8)], by decide +kernel⟩

theorem witness_idcode : ∃ (s : State),
    s.dev.startup.powered = true :=
  ⟨up, by decide +kernel⟩

theorem witness_bypass : ∃ (s : State),
    s.dev.startup.powered = true :=
  ⟨up, by decide +kernel⟩

theorem witness_samplePreload : ∃ (s : State),
    s.dev.startup.powered = true ∧ s.dev.scanAvailable = true :=
  ⟨upWith [(O.debugScope, 8)], by decide +kernel⟩

theorem witness_debugAccess : ∃ (s : State) (_c : Fin 32),
    s.dev.startup.powered = true ∧ bit (s.dev.num O.debugScope) 0 = true :=
  ⟨upWith [(O.debugScope, 1)], 3, by decide +kernel⟩

theorem witness_trace : ∃ (s : State),
    s.dev.startup.powered = true ∧ bit (s.dev.num O.debugScope) 4 = true :=
  ⟨upWith [(O.debugScope, 16)], by decide +kernel⟩

theorem witness_mfgTest : ∃ (s : State),
    s.dev.startup.powered = true ∧ bit (s.dev.num O.debugScope) 5 = true :=
  ⟨upWith [(O.debugScope, 32)], by decide +kernel⟩

theorem witness_testLogicReset : ∃ (s : State),
    s.dev.startup.powered = true :=
  ⟨up, by decide +kernel⟩

theorem witness_gpioFunctionWrite : ∃ (s : State) (n : Fin 16) (f : Byte),
    s.dev.accepts (O.gpioFunction n) ∧ f.toNat ≤ 7 ∧ f ≠ 0 ∧ s.dev.num (O.gpioFunction n) ≠ 0 :=
  ⟨upWith [(O.gpioFunction 3, 1)], 3, 2, by decide +kernel⟩

theorem witness_gpioPulseEdge : ∃ (s : State) (n : Fin 16),
    s.dev.num (O.gpioFunction n) = 6 ∧ s.dev.managerRuns = true :=
  ⟨upWith [(O.gpioFunction 3, 6)], 3, by decide +kernel⟩

theorem witness_perstNAssert : ∃ (s : State),
    s.dev.domainOn 1 = true :=
  ⟨up, by decide +kernel⟩

theorem witness_perstNDeassert : ∃ (s : State),
    s.dev.fuseLoadEnded = true ∧ s.dev.domainOn 1 = true ∧ s.dev.startup.powered = true :=
  ⟨up, by decide +kernel⟩

theorem witness_hotReset : ∃ (s : State),
    s.dev.domainOn 1 = true :=
  ⟨up, by decide +kernel⟩

theorem witness_functionLevelReset : ∃ (s : State),
    s.dev.domainOn 1 = true :=
  ⟨up, by decide +kernel⟩

theorem witness_pcieLinkUp : ∃ (s : State) (_r : Fin 6) (_w : Fin 3),
    s.dev.host.training = true ∧ bit (s.dev.num O.refclkPresent) 1 = true :=
  ⟨let u := upWith [(O.refclkPresent, 2)]; { u with dev := { u.dev with host := { training := true } } }, 3, 2, by decide +kernel⟩

theorem witness_pcieConfigurationRequest : ∃ (s : State),
    s.dev.num O.linkRate ≠ 0 ∧ s.dev.num O.bezelState = 1 :=
  ⟨upWith [(O.linkRate, 4), (O.bezelState, 1)], by decide +kernel⟩

theorem witness_pcieConfigurationRetry : ∃ (s : State),
    s.dev.num O.linkRate ≠ 0 ∧ s.dev.num O.bezelState ≠ 1 ∧ s.dev.startupCode ≠ suImageFail ∧ s.dev.host.firstConfigDone = false :=
  ⟨upWith [(O.linkRate, 4)], by decide +kernel⟩

theorem witness_msixTableWrite : ∃ (s : State) (v : Fin 64) (_a : BitVec 64) (_d : BitVec 32),
    v.val ∈ s.dev.host.pba :=
  ⟨{ up with dev := { base with host := { pba := [3] } } }, 3, 16, 1, by decide +kernel⟩

theorem witness_causeMaskWrite : ∃ (s : State) (v : BitVec 32),
    gainsPending s.dev.host.causeMask (v.toNat % 128) s.dev.host.cause 7 = true :=
  ⟨{ up with dev := { base with host := { cause := 4 } } }, 4, by decide +kernel⟩

theorem witness_doorbellMaskWrite : ∃ (s : State) (r : Fin 34) (v : BitVec 32),
    gainsPending (s.dev.bell r).mask (v.toNat % 2 ^ 31) (s.dev.bell r).status 31 = true :=
  ⟨{ up with dev := { base with host := { bells := [(3, { status := 16 })] } } }, 3, 16, by decide +kernel⟩

theorem witness_mailboxSend : ∃ (s : State) (a : BitVec 16) (r : Fin 34) (w : BitVec 64) (n : Nat),
    s.dev.domainOn (receiverDomain r) = true ∧ s.dev.findRow a.toNat r = some n ∧ (s.dev.box n).lastTag ≠ some (bits w.toNat 63 48) ∧ (s.dev.box n).full = false :=
  ⟨upWith [(O.mbSender 0, 0x800), (O.mbReceiver 0, 1), (O.mbBit 0, 5), (O.mbEnable 0, 1)], 0x800, 1, 99, 0, by decide +kernel⟩

theorem witness_mailboxSendOff : ∃ (s : State) (a : BitVec 16) (r : Fin 34) (_w : BitVec 64) (n : Nat),
    s.dev.domainOn (receiverDomain r) = false ∧ s.dev.findRow a.toNat r = some n :=
  ⟨let u := upWith [(O.mbSender 0, 0x800), (O.mbReceiver 0, 2), (O.mbBit 0, 5), (O.mbEnable 0, 1)]; { u with dev := { u.dev with objs := tput u.dev.objs (O.domainState (receiverDomain 2)) (.num 0) } }, 0x800, 2, 99, 0, by decide +kernel⟩

theorem witness_mailboxSendOffNone : ∃ (s : State) (a : BitVec 16) (r : Fin 34) (_w : BitVec 64),
    s.dev.domainOn (receiverDomain r) = false ∧ s.dev.findRow a.toNat r = none :=
  ⟨let u := upWith [(O.mbSender 0, 0x800), (O.mbReceiver 0, 2), (O.mbBit 0, 5), (O.mbEnable 0, 1)]; { u with dev := { u.dev with objs := tput u.dev.objs (O.domainState (receiverDomain 2)) (.num 0) } }, 0x801, 2, 99, by decide +kernel⟩

theorem witness_mailboxSendNone : ∃ (s : State) (a : BitVec 16) (r : Fin 34) (_w : BitVec 64),
    s.dev.domainOn (receiverDomain r) = true ∧ s.dev.findRow a.toNat r = none :=
  ⟨upWith [(O.mbSender 0, 0x800), (O.mbReceiver 0, 1), (O.mbBit 0, 5), (O.mbEnable 0, 1)], 0x801, 1, 99, by decide +kernel⟩

theorem witness_mailboxSendDuplicate : ∃ (s : State) (a : BitVec 16) (r : Fin 34) (w : BitVec 64) (n : Nat),
    s.dev.domainOn (receiverDomain r) = true ∧ s.dev.findRow a.toNat r = some n ∧ (s.dev.box n).lastTag = some (bits w.toNat 63 48) :=
  ⟨let u := upWith [(O.mbSender 0, 0x800), (O.mbReceiver 0, 1), (O.mbBit 0, 5), (O.mbEnable 0, 1)]; { u with dev := { u.dev with host := { u.dev.host with boxes := [(0, { lastTag := some 0 })] } } }, 0x800, 1, 99, 0, by decide +kernel⟩

theorem witness_mailboxSendOverrun : ∃ (s : State) (a : BitVec 16) (r : Fin 34) (w : BitVec 64) (n : Nat),
    s.dev.domainOn (receiverDomain r) = true ∧ s.dev.findRow a.toNat r = some n ∧ (s.dev.box n).lastTag ≠ some (bits w.toNat 63 48) ∧ (s.dev.box n).full = true :=
  ⟨let u := upWith [(O.mbSender 0, 0x800), (O.mbReceiver 0, 1), (O.mbBit 0, 5), (O.mbEnable 0, 1)]; { u with dev := { u.dev with host := { u.dev.host with boxes := [(0, { full := true })] } } }, 0x800, 1, 99, 0, by decide +kernel⟩

theorem witness_sharedMailboxSend : ∃ (s : State) (_a : BitVec 16) (r : Fin 34) (_w : BitVec 64),
    s.dev.domainOn (receiverDomain r) = true ∧ (tgetD s.dev.host.shared r.val {}).full = false :=
  ⟨up, 16, 0, 99, by decide +kernel⟩

theorem witness_sharedMailboxCollision : ∃ (s : State) (_a : BitVec 16) (r : Fin 34) (_w : BitVec 64),
    s.dev.domainOn (receiverDomain r) = true ∧ (tgetD s.dev.host.shared r.val {}).full = true :=
  ⟨{ up with dev := { base with host := { shared := [(0, { full := true })] } } }, 16, 0, 99, by decide +kernel⟩

theorem witness_sharedMailboxOff : ∃ (s : State) (_a : BitVec 16) (r : Fin 34) (_w : BitVec 64),
    s.dev.domainOn (receiverDomain r) = false :=
  ⟨let u := upWith [(O.mbSender 0, 0x800), (O.mbReceiver 0, 2), (O.mbBit 0, 5), (O.mbEnable 0, 1)]; { u with dev := { u.dev with objs := tput u.dev.objs (O.domainState (receiverDomain 2)) (.num 0) } }, 16, 2, 99, by decide +kernel⟩

theorem witness_mailboxConsume : ∃ (s : State) (r : Fin 34) (b : Fin 28) (n : Nat),
    s.dev.findSlot r b = some n :=
  ⟨upWith [(O.mbSender 0, 0x800), (O.mbReceiver 0, 1), (O.mbBit 0, 5), (O.mbEnable 0, 1)], 1, 5, 0, by decide +kernel⟩

theorem witness_mailboxConsumeUnbound : ∃ (s : State) (r : Fin 34) (b : Fin 28),
    s.dev.findSlot r b = none :=
  ⟨up, 1, 5, by decide +kernel⟩

theorem witness_mailboxFlagClear : ∃ (s : State) (r : Fin 34) (b : Fin 28) (n : Nat),
    s.dev.findSlot r b = some n :=
  ⟨upWith [(O.mbSender 0, 0x800), (O.mbReceiver 0, 1), (O.mbBit 0, 5), (O.mbEnable 0, 1)], 1, 5, 0, by decide +kernel⟩

theorem witness_mailboxFlagClearUnbound : ∃ (s : State) (r : Fin 34) (b : Fin 28),
    s.dev.findSlot r b = none :=
  ⟨up, 1, 5, by decide +kernel⟩

theorem witness_sendStatusOverrunClear : ∃ (s : State) (a : BitVec 16) (r : Fin 34) (n : Nat),
    s.dev.domainOn (receiverDomain r) = true ∧ s.dev.findRow a.toNat r = some n :=
  ⟨upWith [(O.mbSender 0, 0x800), (O.mbReceiver 0, 1), (O.mbBit 0, 5), (O.mbEnable 0, 1)], 0x800, 1, 0, by decide +kernel⟩

theorem witness_sendStatusClearNone : ∃ (s : State) (a : BitVec 16) (r : Fin 34),
    s.dev.domainOn (receiverDomain r) = true ∧ s.dev.findRow a.toNat r = none :=
  ⟨upWith [(O.mbSender 0, 0x800), (O.mbReceiver 0, 1), (O.mbBit 0, 5), (O.mbEnable 0, 1)], 0x801, 1, by decide +kernel⟩

theorem witness_sendStatusClearOff : ∃ (s : State) (_a : BitVec 16) (r : Fin 34),
    s.dev.domainOn (receiverDomain r) = false :=
  ⟨let u := upWith [(O.mbSender 0, 0x800), (O.mbReceiver 0, 2), (O.mbBit 0, 5), (O.mbEnable 0, 1)]; { u with dev := { u.dev with objs := tput u.dev.objs (O.domainState (receiverDomain 2)) (.num 0) } }, 0x800, 2, by decide +kernel⟩

theorem witness_sendStatusRead : ∃ (s : State) (_p : Fin 64) (r : Fin 34),
    s.dev.domainOn (receiverDomain r) = true :=
  ⟨up, 0, 1, by decide +kernel⟩

theorem witness_sendSlotRead : ∃ (s : State) (_p : Fin 64) (r : Fin 34) (k : Fin 3),
    s.dev.domainOn (receiverDomain r) = true ∧ k ≠ 1 :=
  ⟨up, 0, 1, 0, by decide +kernel⟩

theorem witness_sendStatusReadOff : ∃ (s : State) (_p : Fin 64) (r : Fin 34) (_k : Fin 3),
    s.dev.domainOn (receiverDomain r) = false :=
  ⟨let u := upWith [(O.mbSender 0, 0x800), (O.mbReceiver 0, 2), (O.mbBit 0, 5), (O.mbEnable 0, 1)]; { u with dev := { u.dev with objs := tput u.dev.objs (O.domainState (receiverDomain 2)) (.num 0) } }, 0, 2, 1, by decide +kernel⟩

theorem witness_mbEnable : ∃ (s : State) (n : Fin 256),
    s.dev.accepts (O.mbEnable n) ∧ s.dev.flag (O.mbEnable n) = true :=
  ⟨upWith [(O.mbEnable 3, 1)], 3, by decide +kernel⟩

theorem witness_mbBind : ∃ (s : State) (n : Fin 256),
    s.dev.accepts (O.mbEnable n) ∧ s.dev.flag (O.mbEnable n) = false ∧ (s.dev.mbRow n).2.2.1 ≤ 27 ∧ ownReceiver (s.dev.mbRow n).1 ≠ some (s.dev.mbRow n).2.1 ∧ s.dev.findRow (s.dev.mbRow n).1 (s.dev.mbRow n).2.1 = none ∧ s.dev.findSlot (s.dev.mbRow n).2.1 (s.dev.mbRow n).2.2.1 = none :=
  ⟨upWith [(O.mbSender 3, 0x800), (O.mbReceiver 3, 1), (O.mbBit 3, 5)], 3, by decide +kernel⟩

theorem witness_crossingDeliver : ∃ (s : State) (x : Fin 66) (dir : Fin 2) (cls : Fin 4) (hop : Fin 2) (f : Flit),
    headOf (s.dev.crossing x dir).fifo cls hop = some f ∧ 33 ≤ x.val ∧ s.dev.runs (crossingTo x dir) = true ∧ s.dev.islandStopped (crossingDest x dir) = false ∧ s.dev.islandStopped (crossingSource x dir) = false :=
  ⟨{ up with dev := { base with xing := [(67, { fifo := [{ cls := 0, hop := 0, master := 1, data := [] }] })] } }, 33, 1, 0, 0, { cls := 0, hop := 0, master := 1, data := [] }, by decide +kernel⟩

theorem witness_crossingEnter : ∃ (s : State) (x : Fin 66) (dir : Fin 2) (cls : Fin 4) (_hop : Fin 2) (m : BitVec 16) (data : Bytes) (d : Device),
    x.val < 28 ∧ s.dev.runs (islandDomain (crossingSource x dir)) = true ∧ s.dev.islandStopped (crossingSource x dir) = false ∧ s.dev.domainOn (crossingTo x dir) = true ∧ s.dev.flitIn x dir { cls := cls, hop := 0, master := m.toNat, data := data.take 128 } = some d :=
  ⟨up, 0, 0, 0, 0, 5, [], (base.flitIn 0 0 { cls := 0, hop := 0, master := 5, data := [] }).getD base, by decide +kernel⟩

theorem witness_assayTestStart : ∃ (s : State) (die : Fin 4) (r : AssayReq),
    s.dev.managerRuns = true ∧ tget? s.dev.errs.running die.val = none ∧ s.dev.errs.pending.find? (fun r => r.die == die.val) = some r ∧ s.dev.testMayStart r = true :=
  ⟨{ up with dev := { base with errs := { pending := [{ unit := 5, node := 0xA3, elem := 0, die := 1, addr := 0, cause := 1 }] } } }, 1, { unit := 5, node := 0xA3, elem := 0, die := 1, addr := 0, cause := 1 }, by decide +kernel⟩

theorem witness_assayTestPassed : ∃ (s : State) (die : Fin 4) (r : AssayReq),
    tget? s.dev.errs.running die.val = some r :=
  ⟨{ up with dev := { base with errs := { running := [(1, { unit := 5, node := 0xA3, elem := 0, die := 1, addr := 0, cause := 1 })] } } }, 1, { unit := 5, node := 0xA3, elem := 0, die := 1, addr := 0, cause := 1 }, by decide +kernel⟩

theorem witness_fuseBurnComplete : ∃ (s : State) (w : Nat) (r : List Nat) (i : Nat),
    s.dev.errs.burns = w :: r ∧ (List.range 48).find? (fun i => s.dev.fuse (96 + i) == 0) = some i :=
  ⟨{ up with dev := { base with errs := { burns := [0x40000000] } } }, 0x40000000, [], 0, by decide +kernel⟩

theorem witness_lockstepMismatch : ∃ (s : State),
    s.dev.domainOn 1 = true :=
  ⟨up, by decide +kernel⟩

theorem witness_attestRequest : ∃ (s : State) (_ch : Chan) (n : Bytes),
    s.dev.accepts O.attestNonce ∧ n.length = 32 :=
  ⟨up, .pcie, List.replicate 32 7, by decide +kernel⟩

theorem witness_rollbackCommit : ∃ (s : State) (n : BitVec 16),
    s.dev.accepts O.rollbackCommit ∧ s.dev.num O.rollbackCounter < n.toNat ∧ n.toNat ≤ s.dev.imageRollback :=
  ⟨upWith [(O.imageSlotUsed, 0), (O.slotAntiRollback 0, 5)], 5, by decide +kernel⟩

theorem witness_debugToken : ∃ (s : State) (_t : Bytes),
    s.dev.accepts O.debugToken :=
  ⟨up, [], by decide +kernel⟩

theorem witness_debugLock : ∃ (s : State),
    s.dev.accepts O.debugLock :=
  ⟨up, by decide +kernel⟩

theorem witness_debugExpiry : ∃ (s : State),
    s.dev.num O.debugExpiry ≠ 0 ∧ s.dev.num O.debugExpiry ≤ s.dev.uptime :=
  ⟨let u := upWith [(O.debugExpiry, 5)]; { u with dev := { u.dev with uptime := 5 } }, by decide +kernel⟩

theorem witness_entropyHealthTest : ∃ (s : State),
    s.dev.num O.entropyState = 1 ∧ 1023 ≤ s.dev.signet.healthyRun :=
  ⟨let u := upWith [(O.entropyState, 1)]; { u with dev := { u.dev with signet := { healthyRun := 1023 } } }, by decide +kernel⟩

theorem witness_queueEnable : ∃ (s : State) (q : Fin 64),
    s.dev.accepts (O.queueEnable q) ∧ s.dev.num (O.queueState q) = 0 ∧ s.dev.queueConfigOk q = true :=
  ⟨upWith [(O.sqEntries 0, 16), (O.cqEntries 0, 16), (O.cqVector 0, 2)], 0, by decide +kernel⟩

theorem witness_queueDisable : ∃ (s : State) (q : Fin 64),
    s.dev.accepts (O.queueEnable q) ∧ s.dev.num (O.queueState q) = 1 :=
  ⟨upWith [(O.queueState 3, 1)], 3, by decide +kernel⟩

theorem witness_queueThaw : ∃ (s : State) (q : Fin 64) (d : Device),
    s.dev.accepts (O.queueThaw q) ∧ s.dev.num (O.queueState q) = 4 ∧ s.dev.thaw (masterId 0 q) = d.okay :=
  ⟨let u := upWith [(O.queueState 3, 4)]; { u with dev := { u.dev with errs := { frozen := [{ master := masterId 0 3, seq := 1, time := 0 }] } } }, 3, (let u := upWith [(O.queueState 3, 4)]; (({ u.dev with errs := { frozen := [{ master := masterId 0 3, seq := 1, time := 0 }] } } : Device).thaw (masterId 0 3)).s), by decide +kernel⟩

theorem witness_sqTailDoorbell : ∃ (s : State) (q : Fin 64) (v : BitVec 32),
    s.dev.domainOn 1 = true ∧ s.dev.num (O.queueState q) ≠ 0 ∧ v.toNat < s.dev.sqEntries q :=
  ⟨upWith [(O.queueState 0, 1), (O.sqEntries 0, 16)], 0, 15, by decide +kernel⟩

theorem witness_cqHeadDoorbell : ∃ (s : State) (q : Fin 64) (v : BitVec 32),
    s.dev.domainOn 1 = true ∧ s.dev.num (O.queueState q) ≠ 0 ∧ v.toNat < s.dev.cqEntries q :=
  ⟨upWith [(O.queueState 0, 1), (O.cqEntries 0, 16)], 0, 15, by decide +kernel⟩

theorem witness_sqFetch : ∃ (s : State) (q : Fin 64) (_entries : List Bytes),
    s.dev.managerRuns = true ∧ s.dev.fetchTurn = some q.val :=
  ⟨let u := upWith [(O.queueState 0, 1), (O.sqEntries 0, 16)]; { u with dev := { u.dev with host := { queues := [(0, { sqTail := 1 })] } } }, 0, [[]], by decide +kernel⟩

theorem witness_nop : ∃ (s : State) (q : Fin 64) (c : HostCmd),
    s.dev.hostTakes q 0x00 c :=
  ⟨withCmd 0x00 [], 0, cmd 0x00 [], by decide +kernel⟩

theorem witness_step : ∃ (s : State) (q : Fin 64) (c : HostCmd) (x : Job),
    s.dev.hostTakes q 0x01 c ∧ (s.dev.startCmd q c).resident (stepSlot (padTo 64 (slice c.args 8 48))) = true ∧ (s.dev.startCmd q c).job? (stepSlot (padTo 64 (slice c.args 8 48))) = some x ∧ x.stepExtents (padTo 64 (slice c.args 8 48)) = true ∧ (s.dev.startCmd q c).jobCode (stepSlot (padTo 64 (slice c.args 8 48))) ≠ jsFrozen ∧ x.pending.length < 4 ∧ x.expects (padTo 64 (slice c.args 8 48)) = true :=
  ⟨let u := withCmd 0x01 []; { u with dev := { u.dev with objs := (O.jobState 0, .num 5) :: u.dev.objs, work := { u.dev.work with jobs := [(0, { reg := [], recAddr := 0, lastT := 4294967295, bufs := [{ space := 0, read := true, write := true, valid := true, base := 0, size := 65536 }] })] } } }, 0, cmd 0x01 [], { reg := [], recAddr := 0, lastT := 4294967295, bufs := [{ space := 0, read := true, write := true, valid := true, base := 0, size := 65536 }] }, by decide +kernel⟩

theorem witness_txnOpen : ∃ (s : State) (q : Fin 64) (c : HostCmd),
    s.dev.hostTakes q 0x10 c ∧ s.dev.domainOn 3 = true ∧ ((s.dev.startCmd q c).mem.due.find? fun d => d.master == masterId 0 q) = none ∧ (s.dev.startCmd q c).isFrozen (masterId 0 q) = false ∧ (s.dev.startCmd q c).claspUp = true ∧ (s.dev.startCmd q c).txnsOf (masterId 0 q) = [] ∧ (s.dev.startCmd q c).freeSlots 0 ≠ [] :=
  ⟨withCmd 0x10 [], 0, cmd 0x10 [], by decide +kernel⟩

theorem witness_txnRead : ∃ (s : State) (q : Fin 64) (c : HostCmd),
    s.dev.hostTakes q 0x11 c ∧ s.dev.domainOn 3 = true ∧ ((s.dev.startCmd q c).txnRead (masterId 0 q) 0 (leAt c.args 8 8) (leAt c.args 16 1) false).1.st = .ok ∧ ((s.dev.startCmd q c).txnRead (masterId 0 q) 0 (leAt c.args 8 8) (leAt c.args 16 1) false).2.2 = false :=
  ⟨(let u := withCmd 0x11 [0,0,0,0,0,0,0,0,0,0,0,0,0,0,0,0,32]; { u with dev := { u.dev with mem := { ({ segs := [{ base := 0, mode := 0, system := false, pcFirst := 0, pcCount := 1, u0 := 0, height := 1 }] } : MemSys) with regions := [{ base := 0, size := 65536, kind := 0, job := 0 }], txns := [(0, { master := masterId 0 0, openedAt := 0, limit := 1000000 })] } } }), 0, cmd 0x11 [0,0,0,0,0,0,0,0,0,0,0,0,0,0,0,0,32], by decide +kernel⟩

theorem witness_txnWrite : ∃ (s : State) (q : Fin 64) (c : HostCmd) (data : Bytes) (key : Nat) (t : Txn) (b : List (Nat × Byte)),
    s.dev.hostTakes q 0x12 c ∧ s.dev.domainOn 3 = true ∧ 1 ≤ leAt c.args 16 2 ∧ leAt c.args 8 8 % 128 + leAt c.args 16 2 ≤ 128 ∧ (s.dev.startCmd q c).txnGate (masterId 0 q) 0 = .inr (key, t) ∧ (s.dev.startCmd q c).lineInRegion (leAt c.args 8 8 / 128) = true ∧ (t.written.length + (if t.written.contains (leAt c.args 8 8 / 128) then [] else [leAt c.args 8 8 / 128]).length) ≤ 2048 ∧ b = ((List.range (leAt c.args 16 2)).map fun i => (leAt c.args 8 8 + i, data.getD i 0)) :=
  ⟨(let u := withCmd 0x12 [0,0,0,0,0,0,0,0,0,0,0,0,0,0,0,0,8]; { u with dev := { u.dev with mem := { ({ segs := [{ base := 0, mode := 0, system := false, pcFirst := 0, pcCount := 1, u0 := 0, height := 1 }] } : MemSys) with regions := [{ base := 0, size := 65536, kind := 0, job := 0 }], txns := [(0, { master := masterId 0 0, openedAt := 0, limit := 1000000 })] } } }), 0, cmd 0x12 [0,0,0,0,0,0,0,0,0,0,0,0,0,0,0,0,8], [], 0, { master := masterId 0 0, openedAt := 0, limit := 1000000 }, ((List.range 8).map fun i => (i, 0)), by decide +kernel⟩

theorem witness_hostTxnCommit : ∃ (s : State) (q : Fin 64) (c : HostCmd) (key : Nat) (t : Txn),
    s.dev.hostTakes q 0x13 c ∧ s.dev.domainOn 3 = true ∧ (s.dev.startCmd q c).txnGate (masterId 0 q) 0 = .inr (key, t) ∧ (s.dev.startCmd q c).partsOf t ≠ [] :=
  ⟨(let u := withCmd 0x13 []; { u with dev := { u.dev with mem := { ({ segs := [{ base := 0, mode := 0, system := false, pcFirst := 0, pcCount := 1, u0 := 0, height := 1 }] } : MemSys) with regions := [{ base := 0, size := 65536, kind := 0, job := 0 }], txns := [(0, { master := masterId 0 0, openedAt := 0, limit := 1000000, written := [0], masks := [0] })] } } }), 0, cmd 0x13 [], 0, { master := masterId 0 0, openedAt := 0, limit := 1000000, written := [0], masks := [0] }, by decide +kernel⟩

theorem witness_hostTxnAbort : ∃ (s : State) (q : Fin 64) (c : HostCmd) (key : Nat) (t : Txn),
    s.dev.hostTakes q 0x14 c ∧ s.dev.domainOn 3 = true ∧ (s.dev.startCmd q c).dueFor (masterId 0 q) 0 = none ∧ (s.dev.startCmd q c).txnFor (masterId 0 q) 0 = some (key, t) ∧ t.state = .opened :=
  ⟨(let u := withCmd 0x14 []; { u with dev := { u.dev with mem := { ({ segs := [{ base := 0, mode := 0, system := false, pcFirst := 0, pcCount := 1, u0 := 0, height := 1 }] } : MemSys) with regions := [{ base := 0, size := 65536, kind := 0, job := 0 }], txns := [(0, { master := masterId 0 0, openedAt := 0, limit := 1000000 })] } } }), 0, cmd 0x14 [], 0, { master := masterId 0 0, openedAt := 0, limit := 1000000 }, by decide +kernel⟩

theorem witness_completionPost : ∃ (s : State) (q : Fin 64) (c : Compl) (r : List Compl),
    (s.dev.hq q).posting = c :: r ∧ s.dev.managerRuns = true ∧ s.dev.num (O.queueState q) ≠ 0 ∧ s.dev.cqEntries q ≠ 0 ∧ ((s.dev.hq q).cqTail + 1) % s.dev.cqEntries q ≠ (s.dev.hq q).cqHead :=
  ⟨let u := upWith [(O.queueState 0, 1), (O.cqEntries 0, 16)]; { u with dev := { u.dev with host := { queues := [(0, { posting := [{ id := 7, status := .ok }] })] } } }, 0, { id := 7, status := .ok }, [], by decide +kernel⟩

theorem witness_commandTimeout : ∃ (s : State) (q : Fin 64) (id : BitVec 32) (c : HostCmd),
    ((s.dev.hq q).cmds.find? fun (c : HostCmd) => c.id == id.toNat && !c.gone && !c.timedOut) = some c ∧ s.dev.managerRuns = true ∧ s.dev.cmdRetrying q c = false ∧ c.hold = none ∧ c.paused = 0 ∧ c.fetched + ms (s.dev.num O.commandTimeoutMs) ≤ s.dev.uptime :=
  ⟨let u := withCmd 0x00 []; { u with dev := { u.dev with uptime := 1000000000000 } }, 0, 7, cmd 0x00 [], by decide +kernel⟩

theorem witness_commandTimeoutForeri : ∃ (s : State) (ch : Option Chan) (id : BitVec 32) (w : Waiting),
    s.dev.managerRuns = true ∧ s.dev.fore.engine = [w] ∧ w.is ch id.toNat = true ∧ w.since + ms (s.dev.num O.commandTimeoutMs) ≤ s.dev.uptime :=
  ⟨{ up with dev := { base with uptime := 1000000000000, fore := { engine := [{ ch := some .pcie, rid := 7, req := .read 0, since := 0 }] } } }, some .pcie, 7, { ch := some .pcie, rid := 7, req := .read 0, since := 0 }, by decide +kernel⟩

theorem witness_hostMemoryError : ∃ (s : State) (q : Fin 64),
    s.dev.domainOn 1 = true ∧ s.dev.num (O.queueState q) = 1 :=
  ⟨upWith [(O.queueState 0, 1)], 0, by decide +kernel⟩

theorem witness_bar2Read : ∃ (s : State) (off : BitVec 26) (n : BitVec 13),
    s.dev.domainOn 1 = true ∧ s.dev.runs 3 = true ∧ 0 < n.toNat ∧ off.toNat + n.toNat ≤ 0x4000000 ∧ s.dev.mapCheck (s.dev.num O.bar2Base + off.toNat) n.toNat = 0 ∧ s.dev.ownWaits barMaster (s.dev.num O.bar2Base + off.toNat) n.toNat = false ∧ s.dev.mustWait (s.dev.num O.bar2Base + off.toNat) (.read n.toNat) none = false ∧ s.dev.hbmBlocked (s.dev.num O.bar2Base + off.toNat) n.toNat false = false :=
  ⟨let u := upWith []; { u with dev := { u.dev with mem := { segs := [{ base := 0, mode := 0, system := false, pcFirst := 0, pcCount := 1, u0 := 0, height := 1 }] } } }, 0, 8, by decide +kernel⟩

theorem witness_bar2Write : ∃ (s : State) (off : BitVec 26) (data : Bytes),
    s.dev.domainOn 1 = true ∧ s.dev.runs 3 = true ∧ 0 < data.length ∧ off.toNat + data.length ≤ 0x4000000 ∧ s.dev.mapCheck (s.dev.num O.bar2Base + off.toNat) data.length = 0 ∧ s.dev.ownWaits barMaster (s.dev.num O.bar2Base + off.toNat) data.length = false ∧ s.dev.mustWait (s.dev.num O.bar2Base + off.toNat) (.write data) none = false ∧ s.dev.hbmBlocked (s.dev.num O.bar2Base + off.toNat) data.length true = false :=
  ⟨let u := upWith []; { u with dev := { u.dev with mem := { segs := [{ base := 0, mode := 0, system := false, pcFirst := 0, pcCount := 1, u0 := 0, height := 1 }] } } }, 0, [1, 2], by decide +kernel⟩

theorem witness_masterThaw : ∃ (s : State) (m : BitVec 16),
    s.dev.accepts O.masterThaw ∧ masterExists m.toNat = true ∧ masterClass m.toNat ∉ [5, 8, 15] ∧ s.dev.isFrozen m.toNat = true :=
  ⟨let u := upWith []; { u with dev := { u.dev with errs := { frozen := [{ master := masterId 0 3, seq := 1, time := 0 }] } } }, 3, by decide +kernel⟩

theorem witness_read : ∃ (s : State) (ch : Chan) (rid : BitVec 32) (oid : BitVec 32) (b : Bytes),
    s.dev.serves ch rid.toNat (.read oid) ∧ (s.dev.accepted ch rid.toNat).readFor ch oid.toNat = .inr b ∧ (O.flashData == oid.toNat) = false :=
  ⟨pcieAdm, .pcie, 1, 0xA0002000, ((pcieAdm.dev.accepted .pcie 1).readFor .pcie 0xA0002000).elim (fun _ => []) id, by decide +kernel⟩

theorem witness_readMulti : ∃ (s : State) (ch : Chan) (rid : BitVec 32) (l : List (BitVec 32)),
    s.dev.serves ch rid.toNat (.readMulti l) ∧ l ≠ [] ∧ l.length ≤ 64 ∧ (l.map (·.toNat)).contains O.flashData = false :=
  ⟨pcieAdm, .pcie, 1, [5], by decide +kernel⟩

theorem witness_readFlash : ∃ (_s : State) (_ch : Chan) (_rid : BitVec 32) (oid : BitVec 32),
    oid.toNat = O.flashData :=
  ⟨pcieAdm, .pcie, 1, 0x10002100, by decide +kernel⟩

theorem witness_readMultiFlash : ∃ (_s : State) (_ch : Chan) (_rid : BitVec 32) (l : List (BitVec 32)),
    (l.map (·.toNat)).contains O.flashData = true :=
  ⟨pcieAdm, .pcie, 1, [0x10002100], by decide +kernel⟩

theorem witness_describe : ∃ (s : State) (ch : Chan) (rid : BitVec 32) (oid : BitVec 32) (d : ObjDesc),
    s.dev.serves ch rid.toNat (.describe oid) ∧ lookup oid.toNat = .found d ∧ ((s.dev.accepted ch rid.toNat).rights ch).read = true ∧ ((s.dev.accepted ch rid.toNat).pageOf oid.toNat d).isSome = true :=
  ⟨pcieAdm, .pcie, 1, 0xA0002000, descOf 0xA0002000, by decide +kernel⟩

theorem witness_write : ∃ (s : State) (ch : Chan) (rid : BitVec 32) (i : Item),
    s.dev.serves ch rid.toNat (.write false i) ∧ (s.dev.accepted ch rid.toNat).firstBad ch false 0 [i] = none ∧ ((s.dev.accepted ch rid.toNat).writeItems ch 0 [i]).2 = none :=
  ⟨pcieAdm, .pcie, 1, { oid := 0xA0002000, ty := 3, value := [0, 0, 0, 50] }, by decide +kernel⟩

theorem witness_writeMulti : ∃ (s : State) (ch : Chan) (rid : BitVec 32) (l : List Item),
    s.dev.serves ch rid.toNat (.writeMulti false l) ∧ l ≠ [] ∧ l.length ≤ 64 ∧ (s.dev.accepted ch rid.toNat).firstBad ch false 0 l = none ∧ ((s.dev.accepted ch rid.toNat).writeItems ch 0 l).2 = none :=
  ⟨pcieAdm, .pcie, 1, [{ oid := 0xA0002000, ty := 3, value := [0, 0, 0, 50] }], by decide +kernel⟩

theorem witness_writeStaged : ∃ (s : State) (ch : Chan) (rid : BitVec 32) (i : Item) (t : DictTxn),
    s.dev.serves ch rid.toNat (.write true i) ∧ ((s.dev.accepted ch rid.toNat).rights ch).txn = true ∧ ((s.dev.accepted ch rid.toNat).chanSt ch).txn = some t ∧ ((s.dev.accepted ch rid.toNat).setChanSt ch { (s.dev.accepted ch rid.toNat).chanSt ch with txn := some { t with lastReq := (s.dev.accepted ch rid.toNat).uptime } }).firstBad ch true 0 [i] = none ∧ t.staged.length < 256 ∧ (t.staged.map fun y => y.item.value.length).sum + i.value.length ≤ 16384 :=
  ⟨(let u := pcieAdm; { u with dev := u.dev.setChanSt .pcie { u.dev.chanSt .pcie with txn := some { lastReq := 0 } } }), .pcie, 1, { oid := 0xA0002000, ty := 3, value := [0, 0, 0, 50] }, { lastReq := 0 }, by decide +kernel⟩

theorem witness_txnBegin : ∃ (s : State) (ch : Chan) (rid : BitVec 32) ,
    s.dev.serves ch rid.toNat (.txnBegin) ∧ ((s.dev.accepted ch rid.toNat).rights ch).txn = true ∧ ((s.dev.accepted ch rid.toNat).chanSt ch).txn = none ∧ (s.dev.accepted ch rid.toNat).startupCode = suReady ∧ (s.dev.accepted ch rid.toNat).runs 3 = true :=
  ⟨pcieAdm, .pcie, 1, by decide +kernel⟩

theorem witness_txnAbort : ∃ (s : State) (ch : Chan) (rid : BitVec 32) (t : DictTxn),
    s.dev.serves ch rid.toNat (.txnAbort) ∧ ((s.dev.accepted ch rid.toNat).rights ch).txn = true ∧ ((s.dev.accepted ch rid.toNat).chanSt ch).txn = some t :=
  ⟨(let u := pcieAdm; { u with dev := u.dev.setChanSt .pcie { u.dev.chanSt .pcie with txn := some { lastReq := 0 } } }), .pcie, 1, { lastReq := 0 }, by decide +kernel⟩

theorem witness_txnCommit : ∃ (s : State) (ch : Chan) (rid : BitVec 32) (t : DictTxn),
    s.dev.serves ch rid.toNat .txnCommit ∧ ((s.dev.accepted ch rid.toNat).rights ch).txn = true ∧ ((s.dev.accepted ch rid.toNat).chanSt ch).txn = some t ∧ (s.dev.accepted ch rid.toNat).isFrozen managerId = false ∧ (s.dev.accepted ch rid.toNat).claspUp = true ∧ ((s.dev.accepted ch rid.toNat).txnsOf managerId).length < 8 ∧ (s.dev.accepted ch rid.toNat).freeSlots 0 ≠ [] ∧ (∀ n ∈ (s.dev.accepted ch rid.toNat).freeSlots 0, ((((s.dev.queued ch rid.toNat .txnCommit).choose ((s.dev.queued ch rid.toNat .txnCommit).freeSlots 0)).2.setTxn n { master := managerId, openedAt := (s.dev.queued ch rid.toNat .txnCommit).uptime, limit := us ((s.dev.queued ch rid.toNat .txnCommit).num O.txnTimeLimitUs) }).commitIn ch t n).isSome = true) :=
  ⟨(let u := pcieAdm; { u with dev := u.dev.setChanSt .pcie { u.dev.chanSt .pcie with txn := some { lastReq := 0 } } }), .pcie, 1, { lastReq := 0 }, by decide +kernel⟩

theorem witness_commitTakes : ∃ (d e : Device) (ch : Chan) (t : DictTxn) (n : Nat),
    (t.lines.any fun l => d.wLocked l (some n)) = false ∧ d.shadowStop (tgetD d.mem.txns n { master := managerId, openedAt := d.uptime, limit := 0 }) t.lines = 0 ∧ ((t.lines.foldl (fun (d : Device) l => d.cacheTouch (128 * l) 128 false) d).setTxn n { (tgetD d.mem.txns n { master := managerId, openedAt := d.uptime, limit := 0 }) with tracked := t.lines, written := t.lines }).staleItem 0 t.staged = none ∧ (((t.lines.foldl (fun (d : Device) l => d.cacheTouch (128 * l) 128 false) d).setTxn n { (tgetD d.mem.txns n { master := managerId, openedAt := d.uptime, limit := 0 }) with tracked := t.lines, written := t.lines }).writeItems ch 0 (t.staged.map fun y => y.item)).2 = none ∧ ((t.lines.foldl (fun (d : Device) l => d.cacheTouch (128 * l) 128 false) d).setTxn n { (tgetD d.mem.txns n { master := managerId, openedAt := d.uptime, limit := 0 }) with tracked := t.lines, written := t.lines }).commitNow n = some (0, e) :=
  ⟨(pcieAdm.dev.setTxn 0 { master := managerId, openedAt := 0, limit := 0 }), (let d := pcieAdm.dev.setTxn 0 { master := managerId, openedAt := 0, limit := 0 }; let d := d.setTxn 0 { tgetD d.mem.txns 0 { master := managerId, openedAt := d.uptime, limit := 0 } with tracked := [], written := [] }; ((d.commitNow 0).getD (0, d)).2), .pcie, { lastReq := 0 }, 0, by decide +kernel⟩

theorem witness_close : ∃ (s : State) (rid : BitVec 32) (n : Fin 16),
    s.dev.serves (.session n) rid.toNat .close :=
  ⟨(let u := upWith [(O.refclkPresent, 64)]; { u with dev := { u.dev with fore := { sessions := [(3, { phase := .isOpen, sid := 5, role := 2 })] } } }), 1, 3, by decide +kernel⟩

theorem witness_closePcie : ∃ (s : State) (rid : BitVec 32),
    s.dev.serves .pcie rid.toNat .close :=
  ⟨pcieAdm, 1, by decide +kernel⟩

theorem witness_subscribe : ∃ (s : State) (ch : Chan) (rid : BitVec 32) (o : BitVec 32) (m : Byte) (p i : BitVec 16) (v : Ty × Bytes) (d : ObjDesc),
    s.dev.serves ch rid.toNat (.subscribe o m p i) ∧ ((s.dev.accepted ch rid.toNat).rights ch).sub = true ∧ (s.dev.accepted ch rid.toNat).readObj ((s.dev.accepted ch rid.toNat).rights ch).reading ((s.dev.accepted ch rid.toNat).chanSt ch).report o.toNat = .inr v ∧ lookup o.toNat = .found d ∧ ((m.toNat = 0 ∧ d.subs = true) ∨ m.toNat = 1) ∧ 10 ≤ p.toNat ∧ p.toNat ≤ 60000 ∧ i.toNat ≤ 60000 ∧ ((s.dev.accepted ch rid.toNat).chanSt ch).subs.length < 64 :=
  ⟨pcieAdm, .pcie, 1, 0xA0002000, 1, 1000, 0, ((pcieAdm.dev.accepted .pcie 1).readObj ((pcieAdm.dev.accepted .pcie 1).rights .pcie).reading none 0xA0002000).elim (fun _ => (.u8, [])) id, descOf 0xA0002000, by decide +kernel⟩

theorem witness_unsubscribe : ∃ (s : State) (ch : Chan) (rid : BitVec 32) (n : Byte),
    s.dev.serves ch rid.toNat (.unsubscribe n) ∧ (((s.dev.accepted ch rid.toNat).chanSt ch).subs.any fun y => y.num == n.toNat) = true :=
  ⟨(let u := pcieAdm; { u with dev := u.dev.setChanSt .pcie { u.dev.chanSt .pcie with subs := [{ num := 5, oid := 0, periodic := true, periodMs := 10, minMs := 0, lastSent := none, lastVal := .bytes [], start := 0 }] } }), .pcie, 1, 5, by decide +kernel⟩

theorem witness_auth : ∃ (s : State) (rid : BitVec 32) (n : Fin 16) (g t : Bytes),
    s.dev.serves (.session n) rid.toNat (.auth g t) ∧ ((s.dev.accepted (.session n) rid.toNat).sess n).phase = .pending :=
  ⟨(let u := upWith [(O.refclkPresent, 64)]; { u with dev := { u.dev with fore := { sessions := [(3, { phase := .pending, sid := 5, role := 2 })] } } }), 1, 3, [], [], by decide +kernel⟩

theorem witness_hello : ∃ (s : State) (_rid : BitVec 32) (r : Byte) (k n _e : Bytes) (j : Nat),
    s.dev.mgmtUp = true ∧ s.dev.fore.engine = [] ∧ s.dev.keptHello n = none ∧ r.toNat ≤ 2 ∧ s.dev.num O.entropyState ≠ 1 ∧ s.dev.freeSessions ≠ [] ∧ (r = 0 → s.dev.observers.length < 8) ∧ s.dev.fore.nextSid ≤ 0xFFFEFFFF ∧ (if r = 0 then some 0xFF else s.dev.findKey r.toNat k) = some j :=
  ⟨upWith [(O.refclkPresent, 64)], 1, 0, [], [], [], 255, by decide +kernel⟩

theorem witness_foreriSegment : ∃ (s : State) (b : Bytes) (ch : Chan),
    s.dev.mgmtUp = true ∧ s.dev.sessionOf (beAt b 8 4) = some ch ∧ s.dev.expireChan (some ch) = s.dev ∧ 24 ≤ b.length ∧ headerFault b false = none ∧ beAt b 7 1 = 1 ∧ beAt b 6 1 = 0 ∧ bit (beAt b 4 1) 4 = false ∧ b.length = 24 + beAt b 16 2 :=
  ⟨let u := upWith [(O.refclkPresent, 64)]; { u with dev := { u.dev with fore := { sessions := [(0, { phase := .isOpen, sid := 5 })] } } }, [0x46, 0x52, 1, 0x10, 0, 0, 0, 1, 0, 0, 0, 5, 0, 0, 0, 1, 0, 0, 0, 0, 0, 0, 0, 0], .session 0, by decide +kernel⟩

theorem witness_reassemblyTimeout : ∃ (s : State) (ch : Chan) (rid : BitVec 32) (y : Reasm),
    s.dev.managerRuns = true ∧ (s.dev.chanSt ch).reasm = [y] ∧ y.rid = rid.toNat ∧ y.firstAt + ms 50 ≤ s.dev.uptime :=
  ⟨{ up with dev := { base with uptime := 10000000, fore := { chans := [(16, { reasm := [{ op := 1, rid := 1, bodyLen := 0, segCount := 2, sid := 0, firstAt := 0, segs := [], tag := [], flags := 0 }] })] } } }, .pcie, 1, { op := 1, rid := 1, bodyLen := 0, segCount := 2, sid := 0, firstAt := 0, segs := [], tag := [], flags := 0 }, by decide +kernel⟩

theorem witness_notifyOnChange : ∃ (s : State) (ch : Chan) (num : Byte) (y : Sub) (v : Ty × Bytes),
    ((s.dev.chanSt ch).subs.find? fun y => y.num == num.toNat && !y.periodic) = some y ∧ s.dev.subValue ch y.oid = some v ∧ s.dev.chanUp ch = true ∧ y.lastVal ≠ .bytes v.2 ∧ y.lastSent = none :=
  ⟨let u := upWith [(O.bezelState, 1)]; { u with dev := { u.dev with fore := { pcieAdmin := true, chans := [(16, { subs := [{ num := 1, oid := O.startupState, periodic := false, periodMs := 0, minMs := 0, lastSent := none, lastVal := .num 0, start := 0 }] })] } } }, .pcie, 1, { num := 1, oid := O.startupState, periodic := false, periodMs := 0, minMs := 0, lastSent := none, lastVal := .num 0, start := 0 }, (.enum8, [7]), by decide +kernel⟩

theorem witness_notifyPeriodic : ∃ (s : State) (ch : Chan) (num : Byte) (y : Sub) (v : Ty × Bytes),
    ((s.dev.chanSt ch).subs.find? fun y => y.num == num.toNat && y.periodic) = some y ∧ s.dev.subValue ch y.oid = some v ∧ s.dev.chanUp ch = true ∧ y.lastSent.getD y.start + ms y.periodMs ≤ s.dev.uptime :=
  ⟨let u := upWith [(O.bezelState, 1)]; { u with dev := { u.dev with fore := { pcieAdmin := true, chans := [(16, { subs := [{ num := 1, oid := O.startupState, periodic := true, periodMs := 0, minMs := 0, lastSent := none, lastVal := .num 0, start := 0 }] })] } } }, .pcie, 1, { num := 1, oid := O.startupState, periodic := true, periodMs := 0, minMs := 0, lastSent := none, lastVal := .num 0, start := 0 }, (.enum8, [7]), by decide +kernel⟩

theorem witness_authTimeout : ∃ (s : State) (n : Fin 16),
    s.dev.managerRuns = true ∧ (s.dev.sess n).phase = .pending ∧ (s.dev.sess n).since + ms 5000 ≤ s.dev.uptime ∧ s.dev.fore.engine = [] :=
  ⟨{ up with dev := { base with uptime := 1000000000, fore := { sessions := [(3, { phase := .pending })] } } }, 3, by decide +kernel⟩

theorem witness_sessionIdleTimeout : ∃ (s : State) (n : Fin 16),
    s.dev.managerRuns = true ∧ (s.dev.sess n).phase = .isOpen ∧ (s.dev.sess n).lastReq + ms (1000 * s.dev.num O.sessionIdleTimeoutS) ≤ s.dev.uptime :=
  ⟨{ up with dev := { base with uptime := 1000000000000, fore := { sessions := [(3, { phase := .isOpen })] } } }, 3, by decide +kernel⟩

theorem witness_txnIdleTimeout : ∃ (s : State) (ch : Chan) (t : DictTxn),
    (s.dev.chanSt ch).txn = some t ∧ s.dev.managerRuns = true ∧ t.lastReq + ms (s.dev.num O.txnIdleTimeoutMs) ≤ s.dev.uptime :=
  ⟨{ up with dev := { base with uptime := 1000000000000, fore := { chans := [(16, { txn := some { lastReq := 0 } })] } } }, .pcie, { lastReq := 0 }, by decide +kernel⟩

theorem witness_registerWrite : ∃ (s : State) (ch : Chan) (i : Item) (d : ObjDesc),
    s.dev.chanUp ch = true ∧ s.dev.known ch = true ∧ (∀ n : Fin 16, ch = .session n → (s.dev.sess n.val).phase = .isOpen) ∧ s.dev.checkItem ch false i = .inr d :=
  ⟨pcieAdm, .pcie, { oid := BitVec.ofNat 32 O.sessionIdleTimeoutS, ty := 3, value := [0, 0, 1, 0] }, (match lookup O.sessionIdleTimeoutS with | .found d => d | _ => ⟨0, 0, 0, 0, 0, 0, "", .u8, .ro, .reset, .num 0, .any, false, false⟩), by decide +kernel⟩

theorem witness_foreriSlotSubmit : ∃ (s : State) (k : Fin 8) (len : BitVec 16) (_a : Bytes),
    s.dev.pcieUp = true ∧ (tgetD s.dev.host.slots k.val {}).st = .idle ∧ 24 ≤ len.toNat ∧ len.toNat ≤ 8216 :=
  ⟨pcieAdm, 2, 24, [], by decide +kernel⟩

theorem witness_foreriSlotFree : ∃ (s : State) (k : Fin 8),
    s.dev.pcieUp = true ∧ (tgetD s.dev.host.slots k.val {}).st = .ready :=
  ⟨let u := upWith [(O.bezelState, 1)]; { u with dev := { u.dev with host := { slots := [(2, { st := .ready })] } } }, 2, by decide +kernel⟩

theorem witness_mma : ∃ (s : State) (c : Fin 32) (k : Fin 16) (j a : Nat),
    s.dev.seqReady (coreNo c k) = true ∧ s.dev.listEntry (coreNo c k) (s.dev.core (coreNo c k)).pc = (1, j, a) ∧ (s.dev.core (coreNo c k)).arrayWaits < 4 ∧ aligned a 128 = true ∧ a + 128 ≤ cmBytes ∧ leAt (s.dev.cmGet (coreNo c k) a 128) 7 1 = 0x10 ∧ (Mma.decode (s.dev.cmGet (coreNo c k) a 128)).formOk = true ∧ ((Mma.decode (s.dev.cmGet (coreNo c k) a 128)).acc == 1) = (s.dev.core (coreNo c k)).chainHeld ∧ (Mma.decode (s.dev.cmGet (coreNo c k) a 128)).fn ≠ 8 ∧ beyondCm (Mma.decode (s.dev.cmGet (coreNo c k) a 128)).extents = false :=
  ⟨onCore { seq := .run } [(7, 16), (8, 128), (131, 64), (133, 4), (134, 2), (135, 16), (145, 128), (150, 16), (153, 1), (169, 128), (174, 32), (177, 1)], 0, 0, 0, 128, by decide +kernel⟩

theorem witness_arrayComputeEnd : ∃ (s : State) (c : Fin 32) (k : Fin 16) (_u _v : BitVec 32) (m : Mma) (rest : List Mma) (b : Bank) (l : List Bank),
    s.dev.coreLive (coreNo c k) = true ∧ s.dev.arrayMay (coreNo c k) = true ∧ (s.dev.core (coreNo c k)).arrayQ = m :: rest ∧ (s.dev.core (coreNo c k)).bankFor m = some (b, l) :=
  ⟨onCore { arrayQ := [{ mRows := 1, nCols := 1, k := 1, acc := 0, fn := 0, dest := 0, polyBase := 0, a := { fmt := 1, r0Count := 1 }, b := { fmt := 1, r0Count := 1 }, x := {}, out := {} }] } [], 0, 0, 1, 2, { mRows := 1, nCols := 1, k := 1, acc := 0, fn := 0, dest := 0, polyBase := 0, a := { fmt := 1, r0Count := 1 }, b := { fmt := 1, r0Count := 1 }, x := {}, out := {} }, [], {}, [{}], by decide +kernel⟩

theorem witness_drainStart : ∃ (s : State) (c : Fin 32) (k : Fin 16) (i : Nat) (m : Mma),
    s.dev.coreLive (coreNo c k) = true ∧ ((s.dev.core (coreNo c k)).banks.any fun b => b.st == BankState.draining) = false ∧ (s.dev.core (coreNo c k)).queue.length < 8 ∧ ((s.dev.core (coreNo c k)).banks.findIdx? fun b => b.st == BankState.full) = some i ∧ ((s.dev.core (coreNo c k)).banks.getD i {}).cmd = some m ∧ (s.dev.core (coreNo c k)).queue.length < s.dev.num (O.queuePeak (coreNo c k / 16) (coreNo c k % 16)) :=
  ⟨let u := onCore { banks := [{ st := .full, cmd := some ({ mRows := 1, nCols := 1, k := 1, acc := 0, fn := 0, dest := 0, polyBase := 0, a := { fmt := 1, r0Count := 1 }, b := { fmt := 1, r0Count := 1 }, x := {}, out := {} }) }, {}] } []; { u with dev := { u.dev with objs := (O.queuePeak 0 0, .num 3) :: u.dev.objs } }, 0, 0, 0, { mRows := 1, nCols := 1, k := 1, acc := 0, fn := 0, dest := 0, polyBase := 0, a := { fmt := 1, r0Count := 1 }, b := { fmt := 1, r0Count := 1 }, x := {}, out := {} }, by decide +kernel⟩

theorem witness_drainEnd : ∃ (s : State) (c : Fin 32) (k : Fin 16) (i : Nat) (m : Mma),
    s.dev.coreLive (coreNo c k) = true ∧ ((s.dev.core (coreNo c k)).banks.findIdx? fun b => b.st == BankState.draining) = some i ∧ ((s.dev.core (coreNo c k)).banks.getD i {}).cmd = some m :=
  ⟨onCore { banks := [{ st := .draining, cmd := some ({ mRows := 1, nCols := 1, k := 1, acc := 0, fn := 0, dest := 0, polyBase := 0, a := { fmt := 1, r0Count := 1 }, b := { fmt := 1, r0Count := 1 }, x := {}, out := {} }) }, {}] } [], 0, 0, 0, { mRows := 1, nCols := 1, k := 1, acc := 0, fn := 0, dest := 0, polyBase := 0, a := { fmt := 1, r0Count := 1 }, b := { fmt := 1, r0Count := 1 }, x := {}, out := {} }, by decide +kernel⟩

theorem witness_directStoreEnd : ∃ (s : State) (c : Fin 32) (k : Fin 16) (e : QEntry) (rest : List QEntry),
    s.dev.coreLive (coreNo c k) = true ∧ (s.dev.core (coreNo c k)).queue = e :: rest ∧ e.filled = true ∧ e.cmd.dest = 1 :=
  ⟨onCore { queue := [{ filled := true, cmd := { mRows := 1, nCols := 1, k := 1, acc := 0, fn := 0, dest := 1, polyBase := 0, a := { fmt := 1, r0Count := 1 }, b := { fmt := 1, r0Count := 1 }, x := {}, out := {} } }] } [], 0, 0, { filled := true, cmd := { mRows := 1, nCols := 1, k := 1, acc := 0, fn := 0, dest := 1, polyBase := 0, a := { fmt := 1, r0Count := 1 }, b := { fmt := 1, r0Count := 1 }, x := {}, out := {} } }, [], by decide +kernel⟩

theorem witness_fence : ∃ (s : State) (c : Fin 32) (k : Fin 16) (j a : Nat),
    s.dev.seqReady (coreNo c k) = true ∧ s.dev.listEntry (coreNo c k) (s.dev.core (coreNo c k)).pc = (2, j, a) :=
  ⟨onCore { seq := .run } [(7, 32)], 0, 0, 0, 0, by decide +kernel⟩

theorem witness_fenceRelease : ∃ (s : State) (c : Fin 32) (k : Fin 16),
    s.dev.coreLive (coreNo c k) = true ∧ s.dev.coreHeld (coreNo c k) = false ∧ (s.dev.core (coreNo c k)).seq = .fence ∧ (s.dev.core (coreNo c k)).fenceMet = true :=
  ⟨onCore { seq := .fence } [], 0, 0, by decide +kernel⟩

theorem witness_dma : ∃ (s : State) (c : Fin 32) (k : Fin 16) (j a : Nat),
    s.dev.seqReady (coreNo c k) = true ∧ s.dev.listEntry (coreNo c k) (s.dev.core (coreNo c k)).pc = (3, j, a) ∧ (tgetD (s.dev.core (coreNo c k)).dma j {}).queue.length < 16 ∧ aligned a 64 = true ∧ a + 64 ≤ cmBytes :=
  ⟨onCore { seq := .run } [(7, 52), (8, 64)], 0, 0, 1, 64, by decide +kernel⟩

theorem witness_waitDma : ∃ (s : State) (c : Fin 32) (k : Fin 16) (j a : Nat),
    s.dev.seqReady (coreNo c k) = true ∧ s.dev.listEntry (coreNo c k) (s.dev.core (coreNo c k)).pc = (4, j, a) ∧ (s.dev.advance (coreNo c k)).dmaCount (coreNo c k) j < a :=
  ⟨onCore { seq := .run } [(7, 68), (8, 5)], 0, 0, 1, 5, by decide +kernel⟩

theorem witness_waitDmaRelease : ∃ (s : State) (c : Fin 32) (k : Fin 16) (j a : Nat),
    (s.dev.core (coreNo c k)).seq = .waitDma j a ∧ s.dev.coreLive (coreNo c k) = true ∧ s.dev.coreHeld (coreNo c k) = false ∧ a ≤ s.dev.dmaCount (coreNo c k) j :=
  ⟨onCore { seq := .waitDma 1 0 } [], 0, 0, 1, 0, by decide +kernel⟩

theorem witness_vector : ∃ (s : State) (c : Fin 32) (k : Fin 16) (j a : Nat),
    s.dev.seqReady (coreNo c k) = true ∧ s.dev.listEntry (coreNo c k) (s.dev.core (coreNo c k)).pc = (5, j, a) ∧ (s.dev.core (coreNo c k)).vq.length < 4 ∧ aligned a 64 = true ∧ a + 192 ≤ cmBytes ∧ leAt (s.dev.cmGet (coreNo c k) a 192) 7 1 = 0x20 ∧ (VCmd.decode (s.dev.cmGet (coreNo c k) a 192)).formOk = true ∧ (s.dev.core (coreNo c k)).kindsOk (VCmd.decode (s.dev.cmGet (coreNo c k) a 192)) = true ∧ (VCmd.decode (s.dev.cmGet (coreNo c k) a 192)).argsOk = true ∧ (s.dev.polyTables (coreNo c k) (VCmd.decode (s.dev.cmGet (coreNo c k) a 192)).polyAddrs).isSome = true ∧ beyondCm (s.dev.vExtents (coreNo c k) (VCmd.decode (s.dev.cmGet (coreNo c k) a 192))) = false :=
  ⟨onCore { seq := .run } [(7, 80), (8, 192), (196, 34), (197, 16), (198, 128), (199, 32), (215, 1)], 0, 0, 0, 192, by decide +kernel⟩

theorem witness_listEnds : ∃ (s : State) (c : Fin 32) (k : Fin 16) (j a : Nat),
    s.dev.seqReady (coreNo c k) = true ∧ s.dev.listEntry (coreNo c k) (s.dev.core (coreNo c k)).pc = (6, j, a) :=
  ⟨onCore { seq := .run } [(7, 96)], 0, 0, 0, 0, by decide +kernel⟩

theorem witness_vectorPassStart : ∃ (s : State) (c : Fin 32) (k : Fin 16) (v : VCmd),
    s.dev.coreLive (coreNo c k) = true ∧ s.dev.coreHeld (coreNo c k) = false ∧ (s.dev.core (coreNo c k)).vq.head? = some v ∧ (s.dev.core (coreNo c k)).vrun = none ∧ (s.dev.core (coreNo c k)).sourceThere v = true ∧ v.src ≠ 3 :=
  ⟨onCore { vq := [{ src := 2, srcReg := 0, rows := 1, cols := 1, stages := [], keepReg := 0, keep := false, store := false, aux := false, causal := false, segment := false, rowBase := 0, colBase := 0, sSrc := {}, sAux := {}, sOut := {}, causalOffset := 0, rowSeg := 0, colSeg := 0, kh := 0, kw := 0, sx := 0, dy := 0, dx := 0, cpg := 1, fresh := false, tapBase := 0 }] } [], 0, 0, { src := 2, srcReg := 0, rows := 1, cols := 1, stages := [], keepReg := 0, keep := false, store := false, aux := false, causal := false, segment := false, rowBase := 0, colBase := 0, sSrc := {}, sAux := {}, sOut := {}, causalOffset := 0, rowSeg := 0, colSeg := 0, kh := 0, kw := 0, sx := 0, dy := 0, dx := 0, cpg := 1, fresh := false, tapBase := 0 }, by decide +kernel⟩

theorem witness_vectorPassEnd : ∃ (s : State) (c : Fin 32) (k : Fin 16) (_w _o : BitVec 32) (_r : Fin 64) (v : VCmd) (t : Nat),
    s.dev.coreLive (coreNo c k) = true ∧ (s.dev.core (coreNo c k)).vq.head? = some v ∧ (s.dev.core (coreNo c k)).vrun = some t :=
  ⟨onCore { vq := [{ src := 2, srcReg := 0, rows := 1, cols := 1, stages := [], keepReg := 0, keep := false, store := false, aux := false, causal := false, segment := false, rowBase := 0, colBase := 0, sSrc := {}, sAux := {}, sOut := {}, causalOffset := 0, rowSeg := 0, colSeg := 0, kh := 0, kw := 0, sx := 0, dy := 0, dx := 0, cpg := 1, fresh := false, tapBase := 0 }], vrun := some 0 } [], 0, 0, 0, 0, 0, { src := 2, srcReg := 0, rows := 1, cols := 1, stages := [], keepReg := 0, keep := false, store := false, aux := false, causal := false, segment := false, rowBase := 0, colBase := 0, sSrc := {}, sAux := {}, sOut := {}, causalOffset := 0, rowSeg := 0, colSeg := 0, kh := 0, kw := 0, sx := 0, dy := 0, dx := 0, cpg := 1, fresh := false, tapBase := 0 }, 0, by decide +kernel⟩

theorem witness_cmemScrub : ∃ (s : State) (c : Fin 32) (_k : Fin 16) (_h : List EccHit),
    s.dev.runs (clusterDomain c) = true :=
  ⟨up, 0, 0, [], by decide +kernel⟩

theorem witness_dmaCopy : ∃ (s : State) (c : Fin 32) (k : Fin 16) (j : Fin 4) (raw : Bytes) (job : Nat) (x : Job),
    (s.dev.chan (coreNo c k) j).queue.head? = some raw ∧ s.dev.occupant (coreNo c k) = some job ∧ s.dev.job? job = some x ∧ s.dev.coreLive (coreNo c k) = true ∧ s.dev.coreHeld (coreNo c k) = false ∧ s.dev.num (O.dmaState (coreNo c k / 16) (dmaEl (coreNo c k) j)) = 0 ∧ (s.dev.chan (coreNo c k) j).active = none ∧ (s.dev.chan (coreNo c k) j).halted = false ∧ (Desc.decode raw).op = 1 ∧ (Desc.decode raw).formFault = none ∧ (Desc.decode raw).violates x = none ∧ s.dev.dmaHold (coreNo c k) j x (Desc.decode raw) = none ∧ (((Desc.decode raw).streams x).find? fun t => (s.dev.hbmStreamBad t).1 || (s.dev.hbmStreamBad t).2) = none :=
  ⟨onCore { dma := [(1, { queue := [[0, 0, 0, 0, 0, 0, 0, 1, 0, 0, 0, 0, 0, 0, 0, 0, 0, 16, 0, 0, 0, 0, 0, 0, 1, 0, 0, 0, 64]] })] } [], 0, 0, 1, [0, 0, 0, 0, 0, 0, 0, 1, 0, 0, 0, 0, 0, 0, 0, 0, 0, 16, 0, 0, 0, 0, 0, 0, 1, 0, 0, 0, 64], 0, { reg := [], recAddr := 0, lastT := 0, bufs := [{ space := 0, read := true, write := true, valid := true, base := 0, size := 65536 }] }, by decide +kernel⟩

theorem witness_dmaConvert : ∃ (s : State) (c : Fin 32) (k : Fin 16) (j : Fin 4) (raw : Bytes) (job : Nat) (x : Job),
    (s.dev.chan (coreNo c k) j).queue.head? = some raw ∧ s.dev.occupant (coreNo c k) = some job ∧ s.dev.job? job = some x ∧ s.dev.coreLive (coreNo c k) = true ∧ s.dev.coreHeld (coreNo c k) = false ∧ s.dev.num (O.dmaState (coreNo c k / 16) (dmaEl (coreNo c k) j)) = 0 ∧ (s.dev.chan (coreNo c k) j).active = none ∧ (s.dev.chan (coreNo c k) j).halted = false ∧ (Desc.decode raw).op = 2 ∧ (Desc.decode raw).formFault = none ∧ (Desc.decode raw).violates x = none ∧ s.dev.dmaHold (coreNo c k) j x (Desc.decode raw) = none ∧ (((Desc.decode raw).streams x).find? fun t => (s.dev.hbmStreamBad t).1 || (s.dev.hbmStreamBad t).2) = none :=
  ⟨onCore { dma := [(1, { queue := [[0, 0, 0, 0, 0, 0, 0, 2, 0, 0, 0, 0, 0, 0, 0, 0, 0, 16, 0, 0, 0, 0, 0, 0, 1, 0, 0, 0, 64]] })] } [], 0, 0, 1, [0, 0, 0, 0, 0, 0, 0, 2, 0, 0, 0, 0, 0, 0, 0, 0, 0, 16, 0, 0, 0, 0, 0, 0, 1, 0, 0, 0, 64], 0, { reg := [], recAddr := 0, lastT := 0, bufs := [{ space := 0, read := true, write := true, valid := true, base := 0, size := 65536 }] }, by decide +kernel⟩

theorem witness_dmaFill : ∃ (s : State) (c : Fin 32) (k : Fin 16) (j : Fin 4) (raw : Bytes) (job : Nat) (x : Job),
    (s.dev.chan (coreNo c k) j).queue.head? = some raw ∧ s.dev.occupant (coreNo c k) = some job ∧ s.dev.job? job = some x ∧ s.dev.coreLive (coreNo c k) = true ∧ s.dev.coreHeld (coreNo c k) = false ∧ s.dev.num (O.dmaState (coreNo c k / 16) (dmaEl (coreNo c k) j)) = 0 ∧ (s.dev.chan (coreNo c k) j).active = none ∧ (s.dev.chan (coreNo c k) j).halted = false ∧ (Desc.decode raw).op = 3 ∧ (Desc.decode raw).formFault = none ∧ (Desc.decode raw).violates x = none ∧ s.dev.dmaHold (coreNo c k) j x (Desc.decode raw) = none ∧ (((Desc.decode raw).streams x).find? fun t => (s.dev.hbmStreamBad t).1 || (s.dev.hbmStreamBad t).2) = none :=
  ⟨onCore { dma := [(1, { queue := [[0, 0, 0, 0, 0, 0, 0, 3, 0, 0, 0, 0, 0, 0, 0, 0, 0, 16, 0, 0, 0, 0, 0, 0, 1, 0, 0, 0, 64]] })] } [], 0, 0, 1, [0, 0, 0, 0, 0, 0, 0, 3, 0, 0, 0, 0, 0, 0, 0, 0, 0, 16, 0, 0, 0, 0, 0, 0, 1, 0, 0, 0, 64], 0, { reg := [], recAddr := 0, lastT := 0, bufs := [{ space := 0, read := true, write := true, valid := true, base := 0, size := 65536 }] }, by decide +kernel⟩

theorem witness_dmaDescriptorComplete : ∃ (s : State) (c : Fin 32) (k : Fin 16) (j : Fin 4) (raw : Bytes) (t job : Nat) (x : Job),
    (s.dev.chan (coreNo c k) j).queue.head? = some raw ∧ (s.dev.chan (coreNo c k) j).active = some t ∧ s.dev.occupant (coreNo c k) = some job ∧ s.dev.job? job = some x ∧ s.dev.coreLive (coreNo c k) = true ∧ s.dev.dmaWaits (Desc.decode raw) x = false ∧ s.dev.bufOn (x.buf (Desc.decode raw).srcBuf) = true ∧ (s.dev.unstall (dmaMaster (coreNo c k) j)).dmaBadRow (Desc.decode raw) x = none :=
  ⟨onCore { dma := [(1, { queue := [[0, 0, 0, 0, 0, 0, 0, 1, 0, 0, 0, 0, 0, 0, 0, 0, 0, 16, 0, 0, 0, 0, 0, 0, 1, 0, 0, 0, 64]], active := some 0 })] } [], 0, 0, 1, [0, 0, 0, 0, 0, 0, 0, 1, 0, 0, 0, 0, 0, 0, 0, 0, 0, 16, 0, 0, 0, 0, 0, 0, 1, 0, 0, 0, 64], 0, 0, { reg := [], recAddr := 0, lastT := 0, bufs := [{ space := 0, read := true, write := true, valid := true, base := 0, size := 65536 }] }, by decide +kernel⟩

theorem witness_dmaHalts : ∃ (s : Device) (n j : Nat) (raw : Bytes) (t job r : Nat) (x : Job),
    (s.chan n j).queue.head? = some raw ∧ (s.chan n j).active = some t ∧ s.occupant n = some job ∧ s.job? job = some x ∧ s.dmaWaits (Desc.decode raw) x = false ∧ s.bufOn (x.buf (Desc.decode raw).srcBuf) = true ∧ (s.unstall (dmaMaster n j)).dmaBadRow (Desc.decode raw) x = none ∧ r < (Desc.decode raw).rows :=
  ⟨(onCore { dma := [(1, { queue := [[0, 0, 0, 0, 0, 0, 0, 1, 0, 0, 0, 0, 0, 0, 0, 0, 0, 16, 0, 0, 0, 0, 0, 0, 1, 0, 0, 0, 64]], active := some 0 })] } []).dev, 0, 1, [0, 0, 0, 0, 0, 0, 0, 1, 0, 0, 0, 0, 0, 0, 0, 0, 0, 16, 0, 0, 0, 0, 0, 0, 1, 0, 0, 0, 64], 0, 0, 0, { reg := [], recAddr := 0, lastT := 0, bufs := [{ space := 0, read := true, write := true, valid := true, base := 0, size := 65536 }] }, by decide +kernel⟩

theorem witness_windowMax : ∃ (s : State) (c : Fin 32) (b : Bytes),
    s.dev.ctrlWorks c = true ∧ (s.dev.clu c).port = [] ∧ b.length = 64 ∧ (s.dev.clu c).winQ.length < 9 ∧ (WinCmd.decode b).op = 0 ∧ leAt b 7 1 = 0x30 ∧ (WinCmd.decode b).headOk = true ∧ (WinCmd.decode b).mapsOk = true ∧ (WinCmd.decode b).geomOk = true ∧ (WinCmd.decode b).cycles ≤ 30000 ∧ ((WinCmd.decode b).touches.any fun r => !s.dev.inPart c (WinCmd.decode b).job r) = false :=
  ⟨onCluster {}, 0, [0, 0, 0, 0, 136, 8, 1, 48, 0, 0, 16, 0, 1, 0, 0, 0, 0, 0, 0, 0, 0, 0, 0, 0, 0, 0, 16, 0, 1, 0, 1, 0, 0, 0, 0, 0, 0, 64, 0, 0, 0, 0, 0, 0, 0, 0, 8, 0, 0, 0, 16, 0, 1, 0, 1, 0, 0, 0, 0, 0, 0, 64, 0, 0], by decide +kernel⟩

theorem witness_windowAvg : ∃ (s : State) (c : Fin 32) (b : Bytes),
    s.dev.ctrlWorks c = true ∧ (s.dev.clu c).port = [] ∧ b.length = 64 ∧ (s.dev.clu c).winQ.length < 9 ∧ (WinCmd.decode b).op = 1 ∧ leAt b 7 1 = 0x30 ∧ (WinCmd.decode b).headOk = true ∧ (WinCmd.decode b).mapsOk = true ∧ (WinCmd.decode b).geomOk = true ∧ (WinCmd.decode b).cycles ≤ 30000 ∧ ((WinCmd.decode b).touches.any fun r => !s.dev.inPart c (WinCmd.decode b).job r) = false :=
  ⟨onCluster {}, 0, [0, 0, 0, 0, 136, 8, 33, 48, 0, 0, 16, 0, 1, 0, 0, 0, 0, 0, 0, 0, 0, 0, 0, 0, 0, 0, 16, 0, 1, 0, 1, 0, 0, 0, 0, 0, 0, 64, 0, 0, 0, 0, 0, 0, 0, 0, 8, 0, 0, 0, 16, 0, 1, 0, 1, 0, 0, 0, 0, 0, 0, 64, 0, 0], by decide +kernel⟩

theorem witness_windowMaxIdx : ∃ (s : State) (c : Fin 32) (b : Bytes),
    s.dev.ctrlWorks c = true ∧ (s.dev.clu c).port = [] ∧ b.length = 64 ∧ (s.dev.clu c).winQ.length < 9 ∧ (WinCmd.decode b).op = 2 ∧ leAt b 7 1 = 0x30 ∧ (WinCmd.decode b).headOk = true ∧ (WinCmd.decode b).mapsOk = true ∧ (WinCmd.decode b).geomOk = true ∧ (WinCmd.decode b).cycles ≤ 30000 ∧ ((WinCmd.decode b).touches.any fun r => !s.dev.inPart c (WinCmd.decode b).job r) = false :=
  ⟨onCluster {}, 0, [0, 0, 0, 0, 136, 8, 65, 48, 0, 0, 16, 0, 1, 0, 0, 0, 0, 0, 0, 0, 0, 0, 0, 0, 0, 0, 16, 0, 1, 0, 1, 0, 0, 0, 0, 0, 0, 64, 0, 0, 0, 0, 0, 0, 0, 0, 8, 0, 0, 0, 16, 0, 1, 0, 1, 0, 0, 0, 0, 0, 0, 64, 0, 0], by decide +kernel⟩

theorem witness_windowMaxBwd : ∃ (s : State) (c : Fin 32) (b : Bytes),
    s.dev.ctrlWorks c = true ∧ (s.dev.clu c).port = [] ∧ b.length = 64 ∧ (s.dev.clu c).winQ.length < 9 ∧ (WinCmd.decode b).op = 3 ∧ leAt b 7 1 = 0x30 ∧ (WinCmd.decode b).headOk = true ∧ (WinCmd.decode b).mapsOk = true ∧ (WinCmd.decode b).geomOk = true ∧ (WinCmd.decode b).cycles ≤ 30000 ∧ ((WinCmd.decode b).touches.any fun r => !s.dev.inPart c (WinCmd.decode b).job r) = false :=
  ⟨onCluster {}, 0, [0, 0, 0, 0, 136, 8, 97, 48, 0, 0, 16, 0, 1, 0, 0, 0, 0, 0, 0, 0, 0, 0, 8, 0, 0, 0, 16, 0, 1, 0, 1, 0, 0, 0, 0, 0, 0, 64, 0, 0, 0, 0, 0, 0, 0, 0, 0, 0, 0, 0, 16, 0, 1, 0, 1, 0, 0, 0, 0, 0, 0, 64, 0, 0], by decide +kernel⟩

theorem witness_windowAvgBwd : ∃ (s : State) (c : Fin 32) (b : Bytes),
    s.dev.ctrlWorks c = true ∧ (s.dev.clu c).port = [] ∧ b.length = 64 ∧ (s.dev.clu c).winQ.length < 9 ∧ (WinCmd.decode b).op = 4 ∧ leAt b 7 1 = 0x30 ∧ (WinCmd.decode b).headOk = true ∧ (WinCmd.decode b).mapsOk = true ∧ (WinCmd.decode b).geomOk = true ∧ (WinCmd.decode b).cycles ≤ 30000 ∧ ((WinCmd.decode b).touches.any fun r => !s.dev.inPart c (WinCmd.decode b).job r) = false :=
  ⟨onCluster {}, 0, [0, 0, 0, 0, 136, 8, 129, 48, 0, 0, 16, 0, 1, 0, 0, 0, 0, 0, 0, 0, 0, 0, 8, 0, 0, 0, 16, 0, 1, 0, 1, 0, 0, 0, 0, 0, 0, 64, 0, 0, 0, 0, 0, 0, 0, 0, 0, 0, 0, 0, 16, 0, 1, 0, 1, 0, 0, 0, 0, 0, 0, 64, 0, 0], by decide +kernel⟩

theorem witness_windowCommandEnd : ∃ (s : State) (c : Fin 32) (_w : BitVec 32) (x : WinCmd) (rest : List WinCmd),
    s.dev.works (clusterDomain c) = true ∧ (s.dev.clu c).winQ = x :: rest :=
  ⟨onCluster { winQ := [{ op := 0, kh := 1, kw := 1, sh := 1, sw := 1, padT := 0, padL := 0, padB := 0, padR := 0, countPad := false, job := 0, rowFirst := 0, rowCount := 0, indexBase := 0, inM := { base := 0, scaleBase := 0, fmt := 0, block := 0, height := 1, width := 1, channels := 1, rowPitch := 64, numeric := 0 }, outM := { base := 0, scaleBase := 0, fmt := 0, block := 0, height := 1, width := 1, channels := 1, rowPitch := 64, numeric := 0 } }] }, 0, 0, { op := 0, kh := 1, kw := 1, sh := 1, sw := 1, padT := 0, padL := 0, padB := 0, padR := 0, countPad := false, job := 0, rowFirst := 0, rowCount := 0, indexBase := 0, inM := { base := 0, scaleBase := 0, fmt := 0, block := 0, height := 1, width := 1, channels := 1, rowPitch := 64, numeric := 0 }, outM := { base := 0, scaleBase := 0, fmt := 0, block := 0, height := 1, width := 1, channels := 1, rowPitch := 64, numeric := 0 } }, [], by decide +kernel⟩

theorem witness_cameoStem : ∃ (s : State) (c : Fin 32) (b : Bytes),
    s.dev.ctrlWorks c = true ∧ (s.dev.clu c).port = [] ∧ b.length = 96 ∧ (s.dev.clu c).camQ.length < 9 ∧ (CameoCmd.decode b).mode = 0 ∧ leAt b 7 1 = 0x31 ∧ (CameoCmd.decode b).headOk = true ∧ (CameoCmd.decode b).mapsOk = true ∧ (CameoCmd.decode b).geomOk = true ∧ (CameoCmd.decode b).cycles ≤ 30000 ∧ ((CameoCmd.decode b).touches.any fun r => !s.dev.inPart c (CameoCmd.decode b).job r) = false :=
  ⟨onCluster {}, 0, [32, 0, 0, 0, 0, 73, 4, 49, 0, 0, 16, 0, 1, 0, 0, 0, 0, 2, 0, 0, 0, 0, 0, 0, 0, 0, 16, 0, 1, 0, 1, 0, 0, 0, 0, 0, 0, 64, 0, 0, 0, 0, 0, 0, 0, 0, 8, 0, 0, 0, 16, 0, 1, 0, 1, 0, 0, 0, 0, 0, 0, 64, 0, 0, 0, 0, 0, 0, 0, 0, 0, 0, 0, 0, 0, 0, 0, 0, 0, 0, 0, 0, 0, 0, 0, 0, 0, 0, 0, 0, 0, 0, 0, 0, 0, 0], by decide +kernel⟩

theorem witness_cameoHead : ∃ (s : State) (c : Fin 32) (b : Bytes),
    s.dev.ctrlWorks c = true ∧ (s.dev.clu c).port = [] ∧ b.length = 96 ∧ (s.dev.clu c).camQ.length < 9 ∧ (CameoCmd.decode b).mode = 1 ∧ leAt b 7 1 = 0x31 ∧ (CameoCmd.decode b).headOk = true ∧ (CameoCmd.decode b).mapsOk = true ∧ (CameoCmd.decode b).geomOk = true ∧ (CameoCmd.decode b).cycles ≤ 30000 ∧ ((CameoCmd.decode b).touches.any fun r => !s.dev.inPart c (CameoCmd.decode b).job r) = false :=
  ⟨onCluster {}, 0, [32, 0, 0, 0, 0, 73, 68, 49, 0, 0, 16, 0, 1, 0, 0, 0, 0, 2, 0, 0, 0, 0, 0, 0, 0, 0, 16, 0, 1, 0, 1, 0, 0, 0, 0, 0, 0, 64, 0, 0, 0, 0, 0, 0, 0, 0, 8, 0, 0, 0, 16, 0, 1, 0, 1, 0, 0, 0, 0, 0, 0, 64, 0, 0, 0, 0, 0, 0, 0, 0, 0, 0, 0, 0, 0, 0, 0, 0, 0, 0, 0, 0, 0, 0, 0, 0, 0, 0, 0, 0, 0, 0, 0, 0, 0, 0], by decide +kernel⟩

theorem witness_cameoStemWgrad : ∃ (s : State) (c : Fin 32) (b : Bytes),
    s.dev.ctrlWorks c = true ∧ (s.dev.clu c).port = [] ∧ b.length = 96 ∧ (s.dev.clu c).camQ.length < 9 ∧ (CameoCmd.decode b).mode = 2 ∧ leAt b 7 1 = 0x31 ∧ (CameoCmd.decode b).headOk = true ∧ (CameoCmd.decode b).mapsOk = true ∧ (CameoCmd.decode b).geomOk = true ∧ (CameoCmd.decode b).cycles ≤ 30000 ∧ ((CameoCmd.decode b).touches.any fun r => !s.dev.inPart c (CameoCmd.decode b).job r) = false :=
  ⟨onCluster {}, 0, [32, 0, 0, 0, 0, 73, 132, 49, 0, 0, 16, 0, 1, 0, 0, 0, 0, 2, 0, 0, 0, 0, 0, 0, 0, 0, 16, 0, 1, 0, 1, 0, 0, 0, 0, 0, 0, 64, 0, 0, 0, 2, 0, 0, 0, 0, 8, 0, 0, 0, 16, 0, 1, 0, 1, 0, 0, 0, 0, 0, 0, 64, 0, 0, 0, 0, 0, 0, 0, 0, 0, 0, 0, 0, 0, 0, 0, 0, 0, 0, 0, 0, 0, 0, 0, 0, 0, 0, 0, 0, 0, 0, 0, 0, 0, 0], by decide +kernel⟩

theorem witness_cameoCommandEnd : ∃ (s : State) (c : Fin 32) (_w : BitVec 32) (x : CameoCmd) (rest : List CameoCmd),
    s.dev.works (clusterDomain c) = true ∧ (s.dev.clu c).camQ = x :: rest :=
  ⟨onCluster { camQ := [{ mode := 0, kh := 1, kw := 1, sh := 1, sw := 1, padT := 0, padL := 0, padB := 0, padR := 0, coFirst := 0, coCount := 0, job := 0, rowFirst := 0, rowCount := 0, weightBase := 0, bias := false, biasBase := 0, a := { base := 0, scaleBase := 0, fmt := 0, block := 0, height := 1, width := 1, channels := 1, rowPitch := 64, numeric := 0 }, b := { base := 0, scaleBase := 0, fmt := 0, block := 0, height := 1, width := 1, channels := 1, rowPitch := 64, numeric := 0 } }] }, 0, 0, { mode := 0, kh := 1, kw := 1, sh := 1, sw := 1, padT := 0, padL := 0, padB := 0, padR := 0, coFirst := 0, coCount := 0, job := 0, rowFirst := 0, rowCount := 0, weightBase := 0, bias := false, biasBase := 0, a := { base := 0, scaleBase := 0, fmt := 0, block := 0, height := 1, width := 1, channels := 1, rowPitch := 64, numeric := 0 }, b := { base := 0, scaleBase := 0, fmt := 0, block := 0, height := 1, width := 1, channels := 1, rowPitch := 64, numeric := 0 } }, [], by decide +kernel⟩

theorem witness_clmemScrub : ∃ (s : State) (c : Fin 32) (_h : List EccHit),
    s.dev.runs (clusterDomain c) = true :=
  ⟨up, 0, [], by decide +kernel⟩

theorem witness_txTakes : ∃ (x : Pool) (c : TxCtx) (s s1 s2 s3 s4 s5 s6 : Device) (pins : List Nat) (k g : Nat) (r : FrameRec),
    txPins x c s = (s1, .ok pins) ∧ txReap reapMost x pins c s1 = (s2, .ok k) ∧ txLe x.freeHeadAt 4 c s2 = (s3, .ok g) ∧ g % 2 ^ 24 ≠ listEnd ∧ txFrame x g c s3 = (s4, .ok r) ∧ txUnlink x.freeHeadAt x.freeTailAt r c s4 = (s5, .ok ()) ∧ txSetFrame x g { r with count := 1, st := 1, next := listEnd, node := 0xFFFFFFFF } c s5 = (s6, .ok ()) := by
  exact ⟨pagePool, pageCtx, inTxn (onPool []), _, _, _, _, _, _, [], 0, 1, {}, tx_eq (by decide +kernel), tx_eq (by decide +kernel), tx_eq (by decide +kernel), by decide +kernel, tx_eq (by decide +kernel), tx_eq (by decide +kernel), tx_eq (by decide +kernel)⟩

theorem witness_txReaps : ∃ (n : Nat) (x : Pool) (c : TxCtx) (s s1 s2 s3 s4 s5 : Device) (pins : List Nat) (h k : Nat) (r : FrameRec),
    txLe x.limboHeadAt 4 c s = (s1, .ok h) ∧ h % 2 ^ 24 ≠ listEnd ∧ txFrame x h c s1 = (s2, .ok r) ∧ (pins.all fun v => decide (r.tag < v)) = true ∧ txUnlink x.limboHeadAt x.limboTailAt r c s2 = (s3, .ok ()) ∧ txAppend x x.freeHeadAt x.freeTailAt h { r with st := 0 } c s3 = (s4, .ok ()) ∧ txReap n x pins c s4 = (s5, .ok k) := by
  exact ⟨4, pagePool, pageCtx, inTxn (onPool [(8, [0, 0, 0]), (28, [0, 0, 0]), (4096, ({ st := 2, tag := 3 } : FrameRec).encode)]), _, _, _, _, _, [7], 0, 0, { st := 2, tag := 3 }, tx_eq (by decide +kernel), by decide +kernel, tx_eq (by decide +kernel), by decide +kernel, tx_eq (by decide +kernel), tx_eq (by decide +kernel), tx_eq (by decide +kernel)⟩

theorem witness_txUnrefShared : ∃ (x : Pool) (f : Nat) (c : TxCtx) (s s1 s2 : Device) (r : FrameRec),
    txFrame x f c s = (s1, .ok r) ∧ 1 < r.count ∧ txSetFrame x f { r with count := r.count - 1 } c s1 = (s2, .ok ()) := by
  exact ⟨pagePool, 0, pageCtx, inTxn (onPool (frame0 2 0xFFFFFFFF 64)), _, _, { count := 2, st := 1 }, tx_eq (by decide +kernel), by decide +kernel, tx_eq (by decide +kernel)⟩

theorem witness_txUnrefLast : ∃ (x : Pool) (f : Nat) (c : TxCtx) (s s1 s2 s3 s4 : Device) (r : FrameRec) (e : Nat),
    txFrame x f c s = (s1, .ok r) ∧ r.count ≤ 1 ∧ txLe x.epochAt 8 c s1 = (s2, .ok e) ∧ txAppend x x.limboHeadAt x.limboTailAt f { r with count := 0, st := 2, tag := e } c s2 = (s3, .ok ()) ∧ txPutLe x.epochAt 8 (e + 1) c s3 = (s4, .ok ()) := by
  exact ⟨pagePool, 0, pageCtx, inTxn (onPool (frame0 1 0xFFFFFFFF 64)), _, _, _, _, { count := 1, st := 1 }, 1, tx_eq (by decide +kernel), by decide +kernel, tx_eq (by decide +kernel), tx_eq (by decide +kernel), tx_eq (by decide +kernel)⟩

theorem witness_txAllocs : ∃ (_p : Nat) (x : Pool) (j : Job) (pt b : Nat) (c : TxCtx) (s s1 s2 s3 : Device) (e : Pte) (g k : Nat),
    b < 32768 ∧ txPte x j pt b c s = (s1, .ok e) ∧ e.valid = false ∧ txTake x c s1 = (s2, .ok (some g, k)) ∧ txSetPte x j pt b { frame := g, fill := 0, valid := true } c s2 = (s3, .ok ()) := by
  exact ⟨0, pagePool, pageJob, 0, 0, pageCtx, inTxn (onPool []), _, _, _, { frame := 0, fill := 0, valid := false }, 1, 0, by decide +kernel, tx_eq (by decide +kernel), by decide +kernel, tx_eq (by decide +kernel), tx_eq (by decide +kernel)⟩

theorem witness_txAllocNone : ∃ (_p : Nat) (x : Pool) (j : Job) (pt b : Nat) (c : TxCtx) (s s1 s2 : Device) (e : Pte) (k : Nat),
    b < 32768 ∧ txPte x j pt b c s = (s1, .ok e) ∧ e.valid = false ∧ txTake x c s1 = (s2, .ok (none, k)) := by
  exact ⟨0, pagePool, pageJob, 0, 0, pageCtx, inTxn (onPool [(0, [255, 255, 255]), (24, [255, 255, 255])]), _, _, { frame := 0, fill := 0, valid := false }, 0, by decide +kernel, tx_eq (by decide +kernel), by decide +kernel, tx_eq (by decide +kernel)⟩

theorem witness_txLooks : ∃ (_p root : Nat) (x : Pool) (j : Job) (pt b : Nat) (c : TxCtx) (s s1 s2 s3 : Device) (t : Bytes) (e : Pte) (pf pk : Nat) (ways : List (Nat × Node)),
    txPte x j pt b c s = (s1, .ok e) ∧ e.valid = false ∧ txParent root x j pt b c s1 = (s2, .ok (some (pf, pk))) ∧ txBucket x (blockKey pk t) c s2 = (s3, .ok ways) := by
  have e0 := tx_eq (f := txPte pagePool pageJob 0 0) (c := pageCtx) (s := inTxn (onPool [])) (a := { frame := 0, fill := 0, valid := false }) (by decide +kernel)
  obtain ⟨l, n, e, -⟩ := bucket_eq (c := pageCtx) (s := (txPte pagePool pageJob 0 0 pageCtx (inTxn (onPool []))).1) (by decide +kernel) (blockKey 0 [])
  exact ⟨0, 0, pagePool, pageJob, 0, 0, pageCtx, inTxn (onPool []), _, _, _, [], _, listEnd, 0, l, e0, rfl, rfl, e⟩

theorem witness_txHit : ∃ (_p : Nat) (x : Pool) (j : Job) (pt b : Nat) (c : TxCtx) (pf key : Nat) (t : Bytes) (ways : List (Nat × Node)) (s s1 s2 s3 : Device) (w : Nat × Node) (r : FrameRec),
    ((sameKey key ways).find? fun w => confirmed pf t w.2) = some w ∧ txFrame x w.2.frame c s = (s1, .ok r) ∧ txSetFrame x w.2.frame { r with count := r.count + 1 } c s1 = (s2, .ok ()) ∧ txSetPte x j pt b { frame := w.2.frame, fill := 64, valid := true } c s2 = (s3, .ok ()) := by
  exact ⟨0, pagePool, pageJob, 0, 0, pageCtx, 9, 5, [], [(0, { key := 5, frame := 0, parent := 8, children := 0, valid := true, tokens := [] }), (1, { key := 5, frame := 0, parent := 9, children := 0, valid := true, tokens := [] })], inTxn (onPool [(4096, ({ count := 1, st := 1 } : FrameRec).encode)]), _, _, _, (1, { key := 5, frame := 0, parent := 9, children := 0, valid := true, tokens := [] }), { count := 1, st := 1 }, by decide +kernel, tx_eq (by decide +kernel), tx_eq (by decide +kernel), tx_eq (by decide +kernel)⟩

theorem witness_txMiss : ∃ (_p : Nat) (_x : Pool) (_j : Job) (_pt _b : Nat) (_c : TxCtx) (pf key : Nat) (t : Bytes) (ways : List (Nat × Node)) (_s : Device),
    ((sameKey key ways).find? fun w => confirmed pf t w.2) = none := by
  exact ⟨0, pagePool, pageJob, 0, 0, pageCtx, 9, 5, [], [(0, { key := 5, frame := 0, parent := 8, children := 0, valid := true, tokens := [] })], inTxn (onPool []), by decide +kernel⟩

theorem witness_txInserts : ∃ (_p root : Nat) (x : Pool) (j : Job) (pt b : Nat) (c : TxCtx) (s s1 s2 s3 s4 s5 s6 s7 : Device) (t : Bytes) (e : Pte) (r : FrameRec) (pf pk i : Nat) (ways : List (Nat × Node)) (n : Node),
    txPte x j pt b c s = (s1, .ok e) ∧ e.valid = true ∧ e.fill = 64 ∧ txFrame x e.frame c s1 = (s2, .ok r) ∧ r.inTree = false ∧ txParent root x j pt b c s2 = (s3, .ok (some (pf, pk))) ∧ txBucket x (blockKey pk t) c s3 = (s4, .ok ways) ∧ (ways.find? fun w => !w.2.valid) = some (i, n) ∧ txSetNode x i { key := blockKey pk t, frame := e.frame, parent := pf, children := 0, valid := true, tokens := t } c s4 = (s5, .ok ()) ∧ txChildren x pf true c s5 = (s6, .ok ()) ∧ txSetFrame x e.frame { r with count := r.count + 1, node := i } c s6 = (s7, .ok ()) := by
  let s0 := inTxn (onPool (frame0 1 0xFFFFFFFF 64))
  have e0 := tx_eq (f := txPte pagePool pageJob 0 0) (c := pageCtx) (s := s0) (a := { frame := 0, fill := 64, valid := true }) (by decide +kernel)
  have e1 := tx_eq (f := txFrame pagePool 0) (c := pageCtx) (s := (txPte pagePool pageJob 0 0 pageCtx s0).1) (a := { count := 1, st := 1 }) (by decide +kernel)
  obtain ⟨l, n, e, q⟩ := bucket_eq (c := pageCtx) (s := (txFrame pagePool 0 pageCtx (txPte pagePool pageJob 0 0 pageCtx s0).1).1) (by decide +kernel) (blockKey 0 [])
  exact ⟨0, 0, pagePool, pageJob, 0, 0, pageCtx, s0, _, _, _, _, _, _, _, [], _, _, listEnd, 0, 0, l, n, e0, rfl, rfl, e1, rfl, rfl, e, q, tx_eq (by decide +kernel), rfl, tx_eq (by decide +kernel)⟩

theorem witness_txFills : ∃ (x : Pool) (j : Job) (pt b : Nat) (c : TxCtx) (s s1 s2 s3 : Device) (n : Nat) (e : Pte) (r : FrameRec),
    txPte x j pt b c s = (s1, .ok e) ∧ e.valid = true ∧ e.fill ≤ n ∧ txFrame x e.frame c s1 = (s2, .ok r) ∧ r.count ≤ 1 ∧ n ≤ 64 ∧ txSetPte x j pt b { e with fill := n } c s2 = (s3, .ok ()) := by
  exact ⟨pagePool, pageJob, 0, 0, pageCtx, inTxn (onPool (frame0 1 0xFFFFFFFF 3)), _, _, _, 5, { frame := 0, fill := 3, valid := true }, { count := 1, st := 1 }, tx_eq (by decide +kernel), by decide +kernel, by decide +kernel, tx_eq (by decide +kernel), by decide +kernel, by decide +kernel, tx_eq (by decide +kernel)⟩

theorem witness_txPrunes : ∃ (_p : Nat) (x : Pool) (f : Nat) (c : TxCtx) (s s1 s2 s3 s4 s5 s6 : Device) (r : FrameRec) (n : Node) (k : Nat),
    f < x.frames ∧ txFrame x f c s = (s1, .ok r) ∧ r.inTree = true ∧ txNode x r.node c s1 = (s2, .ok n) ∧ n.children = 0 ∧ txSetNode x r.node { n with valid := false } c s2 = (s3, .ok ()) ∧ txChildren x n.parent false c s3 = (s4, .ok ()) ∧ txSetFrame x f { r with node := 0xFFFFFFFF } c s4 = (s5, .ok ()) ∧ txUnref x f c s5 = (s6, .ok k) := by
  exact ⟨0, pagePool, 0, pageCtx, inTxn (onPool (frame0 1 0 64 ++ [(16392, [0, 0, 0, 0, 255, 255, 255, 0, 0, 0, 1])])), _, _, _, _, _, _, { count := 1, st := 1, node := 0 }, { key := 0, frame := 0, parent := listEnd, children := 0, valid := true, tokens := List.replicate 256 0 }, 1, by decide +kernel, tx_eq (by decide +kernel), by decide +kernel, tx_eq (by decide +kernel), by decide +kernel, tx_eq (by decide +kernel), tx_eq (by decide +kernel), tx_eq (by decide +kernel), tx_eq (by decide +kernel)⟩

theorem witness_txCows : ∃ (x : Pool) (j : Job) (pt b : Nat) (c : TxCtx) (s s1 s2 s3 s4 s5 : Device) (e : Pte) (r : FrameRec) (g k u : Nat),
    txPte x j pt b c s = (s1, .ok e) ∧ e.valid = true ∧ txFrame x e.frame c s1 = (s2, .ok r) ∧ 1 < r.count ∧ txTake x c s2 = (s3, .ok (some g, k)) ∧ txSetPte x j pt b { e with frame := g } c s3 = (s4, .ok ()) ∧ txUnref x e.frame c s4 = (s5, .ok u) := by
  exact ⟨pagePool, pageJob, 0, 0, pageCtx, inTxn (onPool (frame0 2 0xFFFFFFFF 64)), _, _, _, _, _, { frame := 0, fill := 64, valid := true }, { count := 2, st := 1 }, 1, 0, 0, tx_eq (by decide +kernel), by decide +kernel, tx_eq (by decide +kernel), by decide +kernel, tx_eq (by decide +kernel), tx_eq (by decide +kernel), tx_eq (by decide +kernel)⟩

theorem witness_txEdits : ∃ (x : Pool) (j : Job) (pt : Nat) (c : TxCtx) (s s1 s2 s3 s4 s5 : Device) (_a : Nat × Nat) (i : Nat) (old w : Pte) (r : FrameRec) (k : Nat),
    txPte x j pt i c s = (s1, .ok old) ∧ (old == w) = false ∧ w.valid = true ∧ txFrame x w.frame c s1 = (s2, .ok r) ∧ txSetFrame x w.frame { r with count := r.count + 1 } c s2 = (s3, .ok ()) ∧ txSetPte x j pt i w c s3 = (s4, .ok ()) ∧ old.valid = true ∧ txUnref x old.frame c s4 = (s5, .ok k) := by
  exact ⟨pagePool, pageJob, 0, pageCtx, inTxn (onPool (frame0 2 0xFFFFFFFF 64)), _, _, _, _, _, (0, 0), 0, { frame := 0, fill := 64, valid := true }, { frame := 1, fill := 0, valid := true }, {}, 0, tx_eq (by decide +kernel), by decide +kernel, by decide +kernel, tx_eq (by decide +kernel), tx_eq (by decide +kernel), tx_eq (by decide +kernel), by decide +kernel, tx_eq (by decide +kernel)⟩

theorem witness_alloc : ∃ (s : State) (c : Fin 32) (p : Fin 8) (t : BitVec 64) (b : BitVec 32) (k : Met (BitVec 16)) (x : Pool) (j : Job) (r : PageRes) (e : Device),
    s.dev.ctrlWorks c = true ∧ s.dev.claspUp = true ∧ s.dev.isFrozen (masterId 2 c) = false ∧ s.dev.copying (masterId 2 c) = false ∧ s.dev.pool? p = some x ∧ s.dev.job? x.job = some j ∧ b.toNat < 32768 ∧ t.toNat + 8 * (b.toNat + 1) ≤ (x.pts j).size ∧ Device.runTx (s.dev.num O.opRetryLimit) s.dev p (masterId 2 c) k.val.toNat k.errs (txAlloc p x j t.toNat b.toNat) = (e, .done r) ∧ r.st = .ok := by
  have q := page_runs (s := (onPool []).dev) (m := masterId 2 0) (k := 0) (f := txAlloc 0 pagePool pageJob 0 0) (by decide +kernel) (by decide +kernel) ((onPool []).dev.num O.opRetryLimit) 0
  obtain ⟨r, e, h, g⟩ := q
  exact ⟨onPool [], 0, 0, 0, 0, { val := 0 }, pagePool, pageJob, r, e, by decide +kernel, by decide +kernel, by decide +kernel, by decide +kernel, by decide +kernel, by decide +kernel, by decide +kernel, by decide +kernel, h, g⟩

theorem witness_lookup : ∃ (s : State) (c : Fin 32) (p : Fin 8) (t : BitVec 64) (b : BitVec 32) (w : Bytes) (k : Met (BitVec 16)) (x : Pool) (j : Job) (r : PageRes) (e : Device),
    s.dev.ctrlWorks c = true ∧ s.dev.claspUp = true ∧ s.dev.isFrozen (masterId 2 c) = false ∧ s.dev.copying (masterId 2 c) = false ∧ s.dev.pool? p = some x ∧ s.dev.job? x.job = some j ∧ t.toNat + 8 * (b.toNat + 1) ≤ (x.pts j).size ∧ Device.runTx (s.dev.num O.opRetryLimit) s.dev p (masterId 2 c) k.val.toNat k.errs (txLookup p (s.dev.num (O.treeRootKey p)) x j t.toNat b.toNat (padTo 256 w)) = (e, .done r) ∧ r.st = .ok := by
  have e0 : ∀ k, txBucket pagePool k = txBucket pagePool 0 := fun k => by simp [txBucket, Pool.bucket, show pagePool.treeLog2 = 0 from rfl, Nat.mod_one]
  have q := page_runs (s := (onPool []).dev) (m := masterId 2 0) (k := 0) (f := txLookup 0 ((onPool []).dev.num (O.treeRootKey 0)) pagePool pageJob 0 0 (padTo 256 [])) (by decide +kernel) (by simp only [txLookup, e0]; decide +kernel) ((onPool []).dev.num O.opRetryLimit) 0
  obtain ⟨r, e, h, g⟩ := q
  exact ⟨onPool [], 0, 0, 0, 0, [], { val := 0 }, pagePool, pageJob, r, e, by decide +kernel, by decide +kernel, by decide +kernel, by decide +kernel, by decide +kernel, by decide +kernel, by decide +kernel, h, g⟩

theorem witness_insert : ∃ (s : State) (c : Fin 32) (p : Fin 8) (t : BitVec 64) (b : BitVec 32) (w : Bytes) (k : Met (BitVec 16)) (x : Pool) (j : Job) (r : PageRes) (e : Device),
    s.dev.ctrlWorks c = true ∧ s.dev.claspUp = true ∧ s.dev.isFrozen (masterId 2 c) = false ∧ s.dev.copying (masterId 2 c) = false ∧ s.dev.pool? p = some x ∧ s.dev.job? x.job = some j ∧ t.toNat + 8 * (b.toNat + 1) ≤ (x.pts j).size ∧ Device.runTx (s.dev.num O.opRetryLimit) s.dev p (masterId 2 c) k.val.toNat k.errs (txInsert p (s.dev.num (O.treeRootKey p)) x j t.toNat b.toNat (padTo 256 w)) = (e, .done r) ∧ r.st = .ok := by
  have e0 : ∀ k, txBucket pagePool k = txBucket pagePool 0 := fun k => by simp [txBucket, Pool.bucket, show pagePool.treeLog2 = 0 from rfl, Nat.mod_one]
  have q := page_runs (s := (onPool (frame0 1 0xFFFFFFFF 64)).dev) (m := masterId 2 0) (k := 0) (f := txInsert 0 ((onPool (frame0 1 0xFFFFFFFF 64)).dev.num (O.treeRootKey 0)) pagePool pageJob 0 0 (padTo 256 [])) (by decide +kernel) (by simp only [txInsert, e0]; decide +kernel) ((onPool (frame0 1 0xFFFFFFFF 64)).dev.num O.opRetryLimit) 0
  obtain ⟨r, e, h, g⟩ := q
  exact ⟨onPool (frame0 1 0xFFFFFFFF 64), 0, 0, 0, 0, [], { val := 0 }, pagePool, pageJob, r, e, by decide +kernel, by decide +kernel, by decide +kernel, by decide +kernel, by decide +kernel, by decide +kernel, by decide +kernel, h, g⟩

theorem witness_fill : ∃ (s : State) (c : Fin 32) (p : Fin 8) (t : BitVec 64) (b : BitVec 32) (n : BitVec 8) (k : Met (BitVec 16)) (x : Pool) (j : Job) (r : PageRes) (e : Device),
    s.dev.ctrlWorks c = true ∧ s.dev.claspUp = true ∧ s.dev.isFrozen (masterId 2 c) = false ∧ s.dev.copying (masterId 2 c) = false ∧ s.dev.pool? p = some x ∧ s.dev.job? x.job = some j ∧ t.toNat + 8 * (b.toNat + 1) ≤ (x.pts j).size ∧ Device.runTx (s.dev.num O.opRetryLimit) s.dev p (masterId 2 c) k.val.toNat k.errs (txFill x j t.toNat b.toNat n.toNat) = (e, .done r) ∧ r.st = .ok := by
  have q := page_runs (s := (onPool (frame0 1 0xFFFFFFFF 3)).dev) (m := masterId 2 0) (k := 0) (f := txFill pagePool pageJob 0 0 5) (by decide +kernel) (by decide +kernel) ((onPool (frame0 1 0xFFFFFFFF 3)).dev.num O.opRetryLimit) 0
  obtain ⟨r, e, h, g⟩ := q
  exact ⟨onPool (frame0 1 0xFFFFFFFF 3), 0, 0, 0, 0, 5, { val := 0 }, pagePool, pageJob, r, e, by decide +kernel, by decide +kernel, by decide +kernel, by decide +kernel, by decide +kernel, by decide +kernel, by decide +kernel, h, g⟩

theorem witness_prune : ∃ (s : State) (c : Fin 32) (p : Fin 8) (f : BitVec 24) (k : Met (BitVec 16)) (x : Pool) (j : Job) (r : PageRes) (e : Device),
    s.dev.ctrlWorks c = true ∧ s.dev.claspUp = true ∧ s.dev.isFrozen (masterId 2 c) = false ∧ s.dev.copying (masterId 2 c) = false ∧ s.dev.pool? p = some x ∧ s.dev.job? x.job = some j ∧ Device.runTx (s.dev.num O.opRetryLimit) s.dev p (masterId 2 c) k.val.toNat k.errs (txPrune p x f.toNat) = (e, .done r) ∧ r.st = .ok := by
  have q := page_runs (s := (onPool (frame0 1 0 64 ++ [(16392, [0, 0, 0, 0, 255, 255, 255, 0, 0, 0, 1])])).dev) (m := masterId 2 0) (k := 0) (f := txPrune 0 pagePool 0) (by decide +kernel) (by decide +kernel) ((onPool (frame0 1 0 64 ++ [(16392, [0, 0, 0, 0, 255, 255, 255, 0, 0, 0, 1])])).dev.num O.opRetryLimit) 0
  obtain ⟨r, e, h, g⟩ := q
  exact ⟨onPool (frame0 1 0 64 ++ [(16392, [0, 0, 0, 0, 255, 255, 255, 0, 0, 0, 1])]), 0, 0, 0, { val := 0 }, pagePool, pageJob, r, e, by decide +kernel, by decide +kernel, by decide +kernel, by decide +kernel, by decide +kernel, by decide +kernel, h, g⟩

theorem witness_pageRelease : ∃ (s : State) (c : Fin 32) (p : Fin 8) (t : BitVec 64) (b : BitVec 32) (k : Met (List (BitVec 16))) (x : Pool) (j : Job) (a : Ans),
    s.dev.ctrlWorks c = true ∧ s.dev.claspUp = true ∧ s.dev.isFrozen (masterId 2 c) = false ∧ s.dev.copying (masterId 2 c) = false ∧ s.dev.pool? p = some x ∧ s.dev.job? x.job = some j ∧ t.toNat + 8 ≤ (x.pts j).size ∧ s.dev.opRelease p (masterId 2 c) x j t.toNat b.toNat (k.val.map fun n => n.toNat) k.errs = some a ∧ a.st = .ok := by
  obtain ⟨r, e, h, g⟩ := rel_runs (show (onPool (frame0 1 0xFFFFFFFF 3)).dev.freeSlots (coordinator (masterId 2 0)) = [0] by decide +kernel) (f := txRelease 0 pagePool pageJob 0 0 2) (by decide +kernel)
    ((onPool (frame0 1 0xFFFFFFFF 3)).dev.num O.opRetryLimit) 0
  exact ⟨onPool (frame0 1 0xFFFFFFFF 3), 0, 0, 0, 0, { val := [] }, pagePool, pageJob, _, by decide +kernel, by decide +kernel, by decide +kernel, by decide +kernel, by decide +kernel, by decide +kernel, by decide +kernel,
    release_one h (show r.2 ≤ 0 by omega), rfl⟩

theorem witness_releases : ∃ (_n : Nat) (s e : Device) (p m : Nat) (x : Pool) (j : Job) (pt b hi : Nat) (lost : List Nat) (errs : List SymErr) (_got : Nat) (r : PageRes × Nat),
    b < hi ∧ Device.runTx (s.num O.opRetryLimit) s p m (lost.headD 0) errs (txRelease p x j pt b hi) = (e, .done r) := by
  obtain ⟨r, e, h, g⟩ := rel_runs (show (onPool (frame0 1 0xFFFFFFFF 3)).dev.freeSlots (coordinator (masterId 2 0)) = [0] by decide +kernel) (f := txRelease 0 pagePool pageJob 0 0 2) (by decide +kernel)
    ((onPool (frame0 1 0xFFFFFFFF 3)).dev.num O.opRetryLimit) 0
  exact ⟨128, (onPool (frame0 1 0xFFFFFFFF 3)).dev, e, 0, masterId 2 0, pagePool, pageJob, 0, 0, 2, [], [], 0, r, by decide, h⟩

theorem witness_cow : ∃ (s : State) (c : Fin 32) (p : Fin 8) (t : BitVec 64) (b : Met (BitVec 32)) (x : Pool) (j : Job) (d : Device),
    s.dev.ctrlWorks c = true ∧ s.dev.claspUp = true ∧ s.dev.isFrozen (masterId 2 c) = false ∧ s.dev.copying (masterId 2 c) = false ∧ s.dev.pool? p = some x ∧ s.dev.job? x.job = some j ∧ t.toNat + 8 * (b.val.toNat + 1) ≤ (x.pts j).size ∧ s.dev.opCow p (masterId 2 c) x j t.toNat b.val.toNat none b.errs = .copies d := by
  obtain ⟨d, h⟩ := cow_copies (r := { key := 0, master := masterId 2 0, pool := 0, pt := 0, b := 0, frame := 0, target := 0, moved := 0, retries := 0, host := none }) (show (onPool (frame0 2 0xFFFFFFFF 64)).dev.freeSlots (coordinator (masterId 2 0)) = [0] by decide +kernel) (x := pagePool) (j := pageJob) (by decide +kernel) ((onPool (frame0 2 0xFFFFFFFF 64)).dev.num O.opRetryLimit)
  exact ⟨onPool (frame0 2 0xFFFFFFFF 64), 0, 0, 0, { val := 0 }, pagePool, pageJob, d, by decide +kernel, by decide +kernel, by decide +kernel, by decide +kernel, by decide +kernel, by decide +kernel, by decide +kernel, h⟩

theorem witness_cowAlone : ∃ (s : State) (c : Fin 32) (p : Fin 8) (t : BitVec 64) (b : Met (BitVec 32)) (x : Pool) (j : Job) (a : Ans),
    s.dev.ctrlWorks c = true ∧ s.dev.claspUp = true ∧ s.dev.isFrozen (masterId 2 c) = false ∧ s.dev.copying (masterId 2 c) = false ∧ s.dev.pool? p = some x ∧ s.dev.job? x.job = some j ∧ t.toNat + 8 * (b.val.toNat + 1) ≤ (x.pts j).size ∧ s.dev.opCow p (masterId 2 c) x j t.toNat b.val.toNat none b.errs = .answer a ∧ a.st = .ok := by
  obtain ⟨a, h, g⟩ := cow_alone (r := { key := 0, master := masterId 2 0, pool := 0, pt := 0, b := 0, frame := 0, target := 0, moved := 0, retries := 0, host := none }) (show (onPool (frame0 1 0xFFFFFFFF 64)).dev.freeSlots (coordinator (masterId 2 0)) = [0] by decide +kernel) (x := pagePool) (j := pageJob) (by decide +kernel) ((onPool (frame0 1 0xFFFFFFFF 64)).dev.num O.opRetryLimit)
  exact ⟨onPool (frame0 1 0xFFFFFFFF 64), 0, 0, 0, { val := 0 }, pagePool, pageJob, a, by decide +kernel, by decide +kernel, by decide +kernel, by decide +kernel, by decide +kernel, by decide +kernel, by decide +kernel, h, g⟩

theorem witness_cowOpens : ∃ (s d : Device) (r : CowRun) (m key f g k : Nat) (x : Pool) (j : Job) (errs : List SymErr) (a : Ans),
    s.txnOpenOp m = (a, some key) ∧ txCow x j r.pt r.b { key := key, m := m, errs := errs } a.s = (d, .ok (.copy f g k)) := by
  have e := openAt_eq (s := (onPool (frame0 2 0xFFFFFFFF 64)).dev) (m := masterId 2 0) (k := 0) (by decide +kernel)
  exact ⟨(onPool (frame0 2 0xFFFFFFFF 64)).dev, _, { key := 0, master := masterId 2 0, pool := 0, pt := 0, b := 0, frame := 0, target := 0, moved := 0, retries := 0, host := none }, masterId 2 0, 0, 0, 1, 0, pagePool, pageJob, [], (openAt (onPool (frame0 2 0xFFFFFFFF 64)).dev (masterId 2 0) 0).1, e.trans (Prod.ext rfl (by decide +kernel)), tx_eq (by decide +kernel)⟩

theorem witness_cowCopyEnd : ∃ (s : State) (i : BitVec 8) (r : CowRun) (x : Pool) (j : Job) (d : Device),
    s.dev.work.cows[i.toNat]? = some r ∧ s.dev.claspUp = true ∧ s.dev.pool? r.pool = some x ∧ s.dev.job? x.job = some j ∧ s.dev.copyWaits x j r.frame r.target = false ∧ s.dev.copyBlocked x j r.frame r.target = false ∧ ((s.dev.cowGone r).copyFrame x j r.frame r.target).commitNow r.key = some (0, d) ∧ r.host = none ∧ r.forWrite = false := by
  obtain ⟨d, h⟩ := commit_of (show commits (((onCow).dev.cowGone copyRun).copyFrame pagePool pageJob 0 1) 0 = true by decide +kernel)
  exact ⟨onCow, 0, copyRun, pagePool, pageJob, d, by decide +kernel, by decide +kernel, by decide +kernel, by decide +kernel, by decide +kernel, by decide +kernel, h, rfl, rfl⟩

theorem witness_pageOp : ∃ (s : State) (q : Fin 64) (c : HostCmd) (t : PageMet) (x : Job) (p : Pool) (a : Ans),
    s.dev.hostTakes q 0x02 c ∧ s.dev.queueCopies q = false ∧ (s.dev.startCmd q c).hostPool (leAt c.args 9 1) (leAt c.args 10 1) = some (x, p) ∧ (s.dev.startCmd q c).pageOpStop s.dev q c x p = none ∧ leAt c.args 8 1 ≠ 4 ∧ (s.dev.startCmd q c).pageOpAns q c x p (t.conflicts.map fun k => k.toNat) t.tokens t.errs = some a ∧ a.st = .ok := by
  have d : ((poolCmd 0x02 [0,0,0,0,0,0,0,0,5,0,0,0,0,0,0,0,0,0,0,0,0,0,0,0,9] (frame0 1 0xFFFFFFFF 3)).dev.startCmd 0 (cmd 0x02 [0,0,0,0,0,0,0,0,5,0,0,0,0,0,0,0,0,0,0,0,0,0,0,0,9])).freeSlots (coordinator (masterId 0 0)) = [0] := by decide +kernel
  obtain ⟨r, e, h, g⟩ := page_runs d (f := txFill pagePool pageJob 0 0 9) (by decide +kernel) (((poolCmd 0x02 [0,0,0,0,0,0,0,0,5,0,0,0,0,0,0,0,0,0,0,0,0,0,0,0,9] (frame0 1 0xFFFFFFFF 3)).dev.startCmd 0 (cmd 0x02 [0,0,0,0,0,0,0,0,5,0,0,0,0,0,0,0,0,0,0,0,0,0,0,0,9])).num O.opRetryLimit) 0
  have k : leAt [0,0,0,0,0,0,0,0,5,0,0,0,0,0,0,0,0,0,0,0,0,0,0,0,9] 8 1 = 5 := by decide +kernel
  refine ⟨poolCmd 0x02 [0,0,0,0,0,0,0,0,5,0,0,0,0,0,0,0,0,0,0,0,0,0,0,0,9] (frame0 1 0xFFFFFFFF 3), 0, cmd 0x02 [0,0,0,0,0,0,0,0,5,0,0,0,0,0,0,0,0,0,0,0,0,0,0,0,9], {}, pageJob, pagePool, { s := r.done (e.unstall (masterId 0 0)), st := r.st, detail := r.detail }, by decide +kernel, by decide +kernel, by decide +kernel, by decide +kernel, by decide +kernel, (?_ : _ = some _), g⟩
  simp only [Device.pageOpAns, cmd, k]
  exact ans_of h

theorem witness_pageOpCow : ∃ (s : State) (q : Fin 64) (c : HostCmd) (t : PageMet) (x : Job) (p : Pool) (d : Device),
    s.dev.hostTakes q 0x02 c ∧ s.dev.queueCopies q = false ∧ (s.dev.startCmd q c).hostPool (leAt c.args 9 1) (leAt c.args 10 1) = some (x, p) ∧ (s.dev.startCmd q c).pageOpStop s.dev q c x p = none ∧ leAt c.args 8 1 = 4 ∧ (s.dev.startCmd q c).opCow (leAt c.args 10 1) (masterId 0 q) p x (leAt c.args 16 8) (leAt c.args 12 4) (some (q.val, c.id)) t.errs = .copies d := by
  have d : ((poolCmd 0x02 [0,0,0,0,0,0,0,0,4] (frame0 2 0xFFFFFFFF 64)).dev.startCmd 0 (cmd 0x02 [0,0,0,0,0,0,0,0,4])).freeSlots (coordinator (masterId 0 0)) = [0] := by decide +kernel
  obtain ⟨a, h⟩ := cow_copies (r := { key := 0, master := masterId 0 0, pool := 0, pt := 0, b := 0, frame := 0, target := 0, moved := 0, retries := 0, host := some (0, 7) }) d (x := pagePool) (j := pageJob) (by decide +kernel)
    (((poolCmd 0x02 [0,0,0,0,0,0,0,0,4] (frame0 2 0xFFFFFFFF 64)).dev.startCmd 0 (cmd 0x02 [0,0,0,0,0,0,0,0,4])).num O.opRetryLimit)
  exact ⟨poolCmd 0x02 [0,0,0,0,0,0,0,0,4] (frame0 2 0xFFFFFFFF 64), 0, cmd 0x02 [0,0,0,0,0,0,0,0,4], {}, pageJob, pagePool, a, by decide +kernel, by decide +kernel, by decide +kernel, by decide +kernel, by decide +kernel, h⟩

theorem witness_pageOpCowAlone : ∃ (s : State) (q : Fin 64) (c : HostCmd) (t : PageMet) (x : Job) (p : Pool) (a : Ans),
    s.dev.hostTakes q 0x02 c ∧ s.dev.queueCopies q = false ∧ (s.dev.startCmd q c).hostPool (leAt c.args 9 1) (leAt c.args 10 1) = some (x, p) ∧ (s.dev.startCmd q c).pageOpStop s.dev q c x p = none ∧ leAt c.args 8 1 = 4 ∧ (s.dev.startCmd q c).opCow (leAt c.args 10 1) (masterId 0 q) p x (leAt c.args 16 8) (leAt c.args 12 4) (some (q.val, c.id)) t.errs = .answer a ∧ a.st = .ok := by
  have d : ((poolCmd 0x02 [0,0,0,0,0,0,0,0,4] (frame0 1 0xFFFFFFFF 64)).dev.startCmd 0 (cmd 0x02 [0,0,0,0,0,0,0,0,4])).freeSlots (coordinator (masterId 0 0)) = [0] := by decide +kernel
  obtain ⟨a, h, g⟩ := cow_alone (r := { key := 0, master := masterId 0 0, pool := 0, pt := 0, b := 0, frame := 0, target := 0, moved := 0, retries := 0, host := some (0, 7) }) d (x := pagePool) (j := pageJob) (by decide +kernel)
    (((poolCmd 0x02 [0,0,0,0,0,0,0,0,4] (frame0 1 0xFFFFFFFF 64)).dev.startCmd 0 (cmd 0x02 [0,0,0,0,0,0,0,0,4])).num O.opRetryLimit)
  exact ⟨poolCmd 0x02 [0,0,0,0,0,0,0,0,4] (frame0 1 0xFFFFFFFF 64), 0, cmd 0x02 [0,0,0,0,0,0,0,0,4], {}, pageJob, pagePool, a, by decide +kernel, by decide +kernel, by decide +kernel, by decide +kernel, by decide +kernel, h, g⟩

theorem witness_ptEdit : ∃ (s : State) (q : Fin 64) (c : HostCmd) (t : Met (BitVec 16)) (x : Job) (p : Pool) (a : Ans),
    s.dev.hostTakes q 0x03 c ∧ (s.dev.startCmd q c).hostPool (leAt c.args 8 1) (leAt c.args 9 1) = some (x, p) ∧ (s.dev.startCmd q c).ptEditStop s.dev q c x p = none ∧ (s.dev.startCmd q c).pageOp1 (leAt c.args 9 1) (masterId 0 q) t.val.toNat t.errs p (txEdit (leAt c.args 9 1) p x (leAt c.args 16 8) ((s.dev.startCmd q c).ptEditList c x)) = some a ∧ a.st = .ok := by
  have d : ((poolCmd 0x03 [0,0,0,0,0,0,0,0,0,0,1] (frame0 1 0xFFFFFFFF 3)).dev.startCmd 0 (cmd 0x03 [0,0,0,0,0,0,0,0,0,0,1])).freeSlots (coordinator (masterId 0 0)) = [0] := by decide +kernel
  obtain ⟨r, e, h, g⟩ := page_runs d (f := txEdit 0 pagePool pageJob 0 (((poolCmd 0x03 [0,0,0,0,0,0,0,0,0,0,1] (frame0 1 0xFFFFFFFF 3)).dev.startCmd 0 (cmd 0x03 [0,0,0,0,0,0,0,0,0,0,1])).ptEditList (cmd 0x03 [0,0,0,0,0,0,0,0,0,0,1]) pageJob)) (by decide +kernel) (((poolCmd 0x03 [0,0,0,0,0,0,0,0,0,0,1] (frame0 1 0xFFFFFFFF 3)).dev.startCmd 0 (cmd 0x03 [0,0,0,0,0,0,0,0,0,0,1])).num O.opRetryLimit) 0
  exact ⟨poolCmd 0x03 [0,0,0,0,0,0,0,0,0,0,1] (frame0 1 0xFFFFFFFF 3), 0, cmd 0x03 [0,0,0,0,0,0,0,0,0,0,1], { val := 0 }, pageJob, pagePool, _, by decide +kernel, by decide +kernel, by decide +kernel, ans_of h, g⟩

theorem witness_haloReady : ∃ (s : State) (c : Fin 32) (b : Bytes) (p ph : Nat) (x : HaloCh),
    s.dev.ctrlWorks c = true ∧ (s.dev.clu c).port = [] ∧ b.length = 16 ∧ (HaloCmd.decode b).op = 1 ∧ s.dev.haloEnd c (HaloCmd.decode b).ch = some (p, ph, x) ∧ x.job = (HaloCmd.decode b).job ∧ p = c.val ∧ ph = (HaloCmd.decode b).ch ∧ x.token (HaloCmd.decode b).slot = .home :=
  ⟨{ up with dev := { base with clusters := [(0, { halo := [(0, { job := 0, cons := 5, consCh := 1, t0 := .home, t1 := .home })] })] } }, 0, [0, 0, 0, 0, 0, 0, 0, 16, 0, 0, 0, 0, 0, 0, 0, 0], 0, 0, { job := 0, cons := 5, consCh := 1, t0 := .home, t1 := .home }, by decide +kernel⟩

theorem witness_haloReturn : ∃ (s : State) (c : Fin 32) (b : Bytes) (p ph : Nat) (x : HaloCh),
    s.dev.ctrlWorks c = true ∧ (s.dev.clu c).port = [] ∧ b.length = 16 ∧ (HaloCmd.decode b).op = 2 ∧ s.dev.haloEnd c (HaloCmd.decode b).ch = some (p, ph, x) ∧ x.job = (HaloCmd.decode b).job ∧ ¬ (p = c.val ∧ ph = (HaloCmd.decode b).ch) ∧ x.token (HaloCmd.decode b).slot = .ready :=
  ⟨{ up with dev := { base with clusters := [(5, { halo := [(0, { job := 0, cons := 0, consCh := 0, t0 := .ready, t1 := .home })] })] } }, 0, [0, 0, 0, 0, 0, 0, 0, 32, 0, 0, 0, 0, 0, 0, 0, 0], 5, 0, { job := 0, cons := 0, consCh := 0, t0 := .ready, t1 := .home }, by decide +kernel⟩

theorem witness_haloGate : ∃ (s : State) (c : Fin 32) (b : Bytes) (j : Job),
    s.dev.ctrlWorks c = true ∧ (s.dev.clu c).port = [] ∧ b.length = 16 ∧ (HaloCmd.decode b).op = 3 ∧ (HaloCmd.decode b).condCount ≤ 4 ∧ s.dev.job? (HaloCmd.decode b).job = some j ∧ coreNo c (HaloCmd.decode b).core ∈ j.cores ∧ ((HaloCmd.decode b).conds.all (s.dev.condOwn c (HaloCmd.decode b).job)) = true ∧ (s.dev.core (coreNo c (HaloCmd.decode b).core)).gates.length < 4 :=
  ⟨{ up with dev := { base with work := { jobs := [(0, { reg := List.replicate 160 0 ++ [1], recAddr := 0, lastT := 0 })] } } }, 0, [0, 0, 0, 0, 0, 0, 0, 48, 0, 0, 0, 0, 0, 0, 0, 0], { reg := List.replicate 160 0 ++ [1], recAddr := 0, lastT := 0 }, by decide +kernel⟩

theorem witness_portHolds : ∃ (s : Device) (c : Nat) (p : PortCmd),
    s.ctrlWorks c = true ∧ (s.clu c).port = [] ∧ s.portFull c p = true :=
  ⟨{ base with clusters := [(0, { winQ := List.replicate 9 (WinCmd.decode []) })] }, 0, { unit := .window, job := 0, data := [] }, by decide +kernel⟩

theorem witness_portGoesOn : ∃ (s : Device) (c : Nat) (p : PortCmd),
    s.ctrlWorks c = true ∧ (s.clu c).port = [p] ∧ s.portFull c p = false :=
  ⟨{ base with clusters := [(0, { port := [{ unit := .window, job := 0, data := [] }] })] }, 0, { unit := .window, job := 0, data := [] }, by decide +kernel⟩

theorem witness_haloTokenArrival : ∃ (s : State) (c : Fin 32) (h : Fin 64) (i : Fin 2) (x : HaloCh),
    tget? (s.dev.clu c).halo h.val = some x ∧ x.token i = .toConsumer ∧ s.dev.works (clusterDomain x.cons) = true ∧ s.dev.tokenDue (c.val, h.val, i.val) (c.val, x.cons) = true :=
  ⟨{ up with dev := { base with clusters := [(0, { halo := [(0, { job := 0, cons := 5, consCh := 1, t0 := .toConsumer, t1 := .home })], flying := [(0, 0, 0)] })] } }, 0, 0, 0, { job := 0, cons := 5, consCh := 1, t0 := .toConsumer, t1 := .home }, by decide +kernel⟩

theorem witness_tokenHome : ∃ (s : State) (c : Fin 32) (h : Fin 64) (i : Fin 2) (x : HaloCh),
    tget? (s.dev.clu c).halo h.val = some x ∧ x.token i = .toProducer ∧ s.dev.works (clusterDomain c) = true ∧ s.dev.tokenDue (c.val, h.val, i.val) (x.cons, c.val) = true :=
  ⟨{ up with dev := { base with clusters := [(0, { halo := [(0, { job := 0, cons := 5, consCh := 1, t0 := .toProducer, t1 := .home })] }), (5, { flying := [(0, 0, 0)] })] } }, 0, 0, 0, { job := 0, cons := 5, consCh := 1, t0 := .toProducer, t1 := .home }, by decide +kernel⟩

theorem witness_gateStart : ∃ (s : State) (c : Fin 32) (k : Fin 16) (g : Gate) (rest : List Gate),
    (s.dev.core (coreNo c k)).gates = g :: rest ∧ s.dev.coreRuns (coreNo c k) = true ∧ s.dev.occupant (coreNo c k) = some g.job ∧ tget? s.dev.work.hands (coreNo c k) = none ∧ (s.dev.core (coreNo c k)).seq = .idle ∧ g.conds.all (s.dev.condHolds c) = true :=
  ⟨onCore { gates := [{ job := 0, list := 64, conds := [] }] } [], 0, 0, { job := 0, list := 64, conds := [] }, [], by decide +kernel⟩

theorem witness_walkStart : ∃ (s : State) (c : Fin 32) (b : Bytes) (j : Job) (r : StepRun) (w : Walk),
    s.dev.walkable c (recF b 0 34 30) = true ∧ b.length = 64 ∧ s.dev.job? (recF b 0 34 30) = some j ∧ j.cur = some r ∧ s.dev.recOk c b j r = true ∧ recF b 1 31 0 < ((s.dev.lenEntry j r (recF b 1 63 48)).qLen + 63) / 64 ∧ lenStatus j (s.dev.lenEntry j r (recF b 1 63 48)) = 0 ∧ s.dev.walk? c (recF b 0 38 35) = none ∧ s.dev.walkOf c b j r = some w :=
  ⟨onWalk [] {}, 0, [0, 0, 32, 0, 0, 0, 128, 64, 0, 0, 0, 0, 0, 0, 0, 0, 0, 0, 0, 0, 0, 0, 0, 0, 0, 0, 0, 0, 0, 0, 0, 0, 0, 0, 0, 0, 0, 0, 0, 0, 0, 0, 0, 0, 0, 0, 0, 0, 0, 0, 0, 0, 0, 0, 0, 0, 0, 0, 0, 0, 0, 0, 0, 0], stepJob, { desc := List.replicate 8 0 ++ [1], t := 1, startAt := 0, next := 0, lenStatus := [0] }, { words := [0, 0, 32, 0, 0, 0, 128, 64, 0, 0, 0, 0, 0, 0, 0, 0, 0, 0, 0, 0, 0, 0, 0, 0, 0, 0, 0, 0, 0, 0, 0, 0, 0, 0, 0, 0, 0, 0, 0, 0, 0, 0, 0, 0, 0, 0, 0, 0, 0, 0, 0, 0, 0, 0, 0, 0, 0, 0, 0, 0, 0, 0, 0, 0], job := 0, core := 0, qLen := 64, ctxLen := 64, pt := 0, stage := .blocks, emitted := 0, started := 0, last := 1 }, by decide +kernel⟩

theorem witness_walkPinDone : ∃ (s : State) (c : Fin 32) (k : Fin 16) (w : Walk),
    s.dev.walk? c k = some w ∧ s.dev.walkable c w.job = true ∧ w.stage = .pinning ∧ (s.dev.core (coreNo c k)).gates.length < 4 :=
  ⟨onWalk [{ words := [0, 0, 32, 0, 0, 0, 0, 64, 0, 0, 0, 0, 0, 0, 0, 0, 0, 0, 0, 0, 0, 0, 0, 0, 0, 0, 0, 0, 0, 0, 0, 0, 0, 0, 0, 0, 0, 0, 0, 0, 0, 0, 0, 0, 0, 0, 0, 0, 0, 0, 0, 0, 0, 0, 0, 0, 0, 0, 0, 0, 0, 0, 0, 0], job := 0, core := 0, qLen := 64, ctxLen := 64, pt := 0, stage := .pinning, emitted := 0, started := 0, last := 1 }] {}, 0, 0, { words := [0, 0, 32, 0, 0, 0, 0, 64, 0, 0, 0, 0, 0, 0, 0, 0, 0, 0, 0, 0, 0, 0, 0, 0, 0, 0, 0, 0, 0, 0, 0, 0, 0, 0, 0, 0, 0, 0, 0, 0, 0, 0, 0, 0, 0, 0, 0, 0, 0, 0, 0, 0, 0, 0, 0, 0, 0, 0, 0, 0, 0, 0, 0, 0], job := 0, core := 0, qLen := 64, ctxLen := 64, pt := 0, stage := .pinning, emitted := 0, started := 0, last := 1 }, by decide +kernel⟩

theorem witness_walkBlockStart : ∃ (s : State) (c : Fin 32) (k : Fin 16) (w : Walk),
    s.dev.walk? c k = some w ∧ s.dev.walkable c w.job = true ∧ w.stage = .blocks ∧ w.emitted = w.started ∧ w.emitted < w.last :=
  ⟨onWalk [{ words := [0, 0, 32, 0, 0, 0, 128, 64, 0, 0, 0, 0, 0, 0, 0, 0, 0, 0, 0, 0, 0, 0, 0, 0, 0, 0, 0, 0, 0, 0, 0, 0, 0, 0, 0, 0, 0, 0, 0, 0, 0, 0, 0, 0, 0, 0, 0, 0, 0, 0, 0, 0, 0, 0, 0, 0, 0, 0, 0, 0, 0, 0, 0, 0], job := 0, core := 0, qLen := 64, ctxLen := 64, pt := 0, stage := .blocks, emitted := 0, started := 0, last := 1 }] {}, 0, 0, { words := [0, 0, 32, 0, 0, 0, 128, 64, 0, 0, 0, 0, 0, 0, 0, 0, 0, 0, 0, 0, 0, 0, 0, 0, 0, 0, 0, 0, 0, 0, 0, 0, 0, 0, 0, 0, 0, 0, 0, 0, 0, 0, 0, 0, 0, 0, 0, 0, 0, 0, 0, 0, 0, 0, 0, 0, 0, 0, 0, 0, 0, 0, 0, 0], job := 0, core := 0, qLen := 64, ctxLen := 64, pt := 0, stage := .blocks, emitted := 0, started := 0, last := 1 }, by decide +kernel⟩

theorem witness_walkNextBlock : ∃ (s : State) (c : Fin 32) (k : Fin 16) (w : Walk),
    s.dev.walk? c k = some w ∧ s.dev.walkable c w.job = true ∧ w.stage = .blocks ∧ w.emitted ≠ w.started ∧ w.emitted = w.last ∧ s.dev.channelDone (coreNo c k) = true ∧ s.dev.coreThrough (coreNo c k) = true :=
  ⟨onWalk [{ words := [0, 0, 32, 0, 0, 0, 128, 64, 0, 0, 0, 0, 0, 0, 0, 0, 0, 0, 0, 0, 0, 0, 0, 0, 0, 0, 0, 0, 0, 0, 0, 0, 0, 0, 0, 0, 0, 0, 0, 0, 0, 0, 0, 0, 0, 0, 0, 0, 0, 0, 0, 0, 0, 0, 0, 0, 0, 0, 0, 0, 0, 0, 0, 0], job := 0, core := 0, qLen := 64, ctxLen := 64, pt := 0, stage := .blocks, emitted := 1, started := 0, last := 1 }] {}, 0, 0, { words := [0, 0, 32, 0, 0, 0, 128, 64, 0, 0, 0, 0, 0, 0, 0, 0, 0, 0, 0, 0, 0, 0, 0, 0, 0, 0, 0, 0, 0, 0, 0, 0, 0, 0, 0, 0, 0, 0, 0, 0, 0, 0, 0, 0, 0, 0, 0, 0, 0, 0, 0, 0, 0, 0, 0, 0, 0, 0, 0, 0, 0, 0, 0, 0], job := 0, core := 0, qLen := 64, ctxLen := 64, pt := 0, stage := .blocks, emitted := 1, started := 0, last := 1 }, by decide +kernel⟩

theorem witness_walkPinRelease : ∃ (s : State) (c : Fin 32) (k : Fin 16) (w : Walk),
    s.dev.walk? c k = some w ∧ s.dev.ctrlWorks c = true ∧ w.paged = true ∧ w.stage = .blocks ∧ w.emitted = w.last ∧ s.dev.channelDone (coreNo c k) = true :=
  ⟨onWalk [{ words := [0, 0, 32, 0, 0, 0, 0, 64, 0, 0, 0, 0, 0, 0, 0, 0, 0, 0, 0, 0, 0, 0, 0, 0, 0, 0, 0, 0, 0, 0, 0, 0, 0, 0, 0, 0, 0, 0, 0, 0, 0, 0, 0, 0, 0, 0, 0, 0, 0, 0, 0, 0, 0, 0, 0, 0, 0, 0, 0, 0, 0, 0, 0, 0], job := 0, core := 0, qLen := 64, ctxLen := 64, pt := 0, stage := .blocks, emitted := 1, started := 1, last := 1 }] {}, 0, 0, { words := [0, 0, 32, 0, 0, 0, 0, 64, 0, 0, 0, 0, 0, 0, 0, 0, 0, 0, 0, 0, 0, 0, 0, 0, 0, 0, 0, 0, 0, 0, 0, 0, 0, 0, 0, 0, 0, 0, 0, 0, 0, 0, 0, 0, 0, 0, 0, 0, 0, 0, 0, 0, 0, 0, 0, 0, 0, 0, 0, 0, 0, 0, 0, 0], job := 0, core := 0, qLen := 64, ctxLen := 64, pt := 0, stage := .blocks, emitted := 1, started := 1, last := 1 }, by decide +kernel⟩

theorem witness_walkUnpinsLast : ∃ (s : Device) (c : Nat) (w : Walk),
    s.walksOf c = [w] ∧ w.paged = true :=
  ⟨(onWalk [{ words := [0, 0, 32, 0, 0, 0, 0, 64, 0, 0, 0, 0, 0, 0, 0, 0, 0, 0, 0, 0, 0, 0, 0, 0, 0, 0, 0, 0, 0, 0, 0, 0, 0, 0, 0, 0, 0, 0, 0, 0, 0, 0, 0, 0, 0, 0, 0, 0, 0, 0, 0, 0, 0, 0, 0, 0, 0, 0, 0, 0, 0, 0, 0, 0], job := 0, core := 0, qLen := 64, ctxLen := 64, pt := 0, stage := .blocks, emitted := 1, started := 1, last := 1 }] {}).dev, 0, { words := [0, 0, 32, 0, 0, 0, 0, 64, 0, 0, 0, 0, 0, 0, 0, 0, 0, 0, 0, 0, 0, 0, 0, 0, 0, 0, 0, 0, 0, 0, 0, 0, 0, 0, 0, 0, 0, 0, 0, 0, 0, 0, 0, 0, 0, 0, 0, 0, 0, 0, 0, 0, 0, 0, 0, 0, 0, 0, 0, 0, 0, 0, 0, 0], job := 0, core := 0, qLen := 64, ctxLen := 64, pt := 0, stage := .blocks, emitted := 1, started := 1, last := 1 }, by decide +kernel⟩

theorem witness_unpins : ∃ (s : Device) (c p : Nat) (x : Pool),
    s.pool? p = some x ∧ s.pin c p ≠ 0 ∧ s.mustWait (x.pinAt c) (.write (leBytes 8 0)) none = false :=
  ⟨(onPool [(128, [1])]).dev, 0, 0, pagePool, by decide +kernel⟩

theorem witness_walkFinalStart : ∃ (s : State) (c : Fin 32) (k : Fin 16) (w : Walk),
    s.dev.walk? c k = some w ∧ s.dev.walkable c w.job = true ∧ w.started = w.last ∧ w.stage = .draining ∧ s.dev.coreThrough (coreNo c k) = true :=
  ⟨onWalk [{ words := [0, 0, 32, 0, 0, 0, 128, 64, 0, 0, 0, 0, 0, 0, 0, 0, 0, 0, 0, 0, 0, 0, 0, 0, 0, 0, 0, 0, 0, 0, 0, 0, 0, 0, 0, 0, 0, 0, 0, 0, 0, 0, 0, 0, 0, 0, 0, 0, 0, 0, 0, 0, 0, 0, 0, 0, 0, 0, 0, 0, 0, 0, 0, 0], job := 0, core := 0, qLen := 64, ctxLen := 64, pt := 0, stage := .draining, emitted := 1, started := 1, last := 1 }] {}, 0, 0, { words := [0, 0, 32, 0, 0, 0, 128, 64, 0, 0, 0, 0, 0, 0, 0, 0, 0, 0, 0, 0, 0, 0, 0, 0, 0, 0, 0, 0, 0, 0, 0, 0, 0, 0, 0, 0, 0, 0, 0, 0, 0, 0, 0, 0, 0, 0, 0, 0, 0, 0, 0, 0, 0, 0, 0, 0, 0, 0, 0, 0, 0, 0, 0, 0], job := 0, core := 0, qLen := 64, ctxLen := 64, pt := 0, stage := .draining, emitted := 1, started := 1, last := 1 }, by decide +kernel⟩

theorem witness_walkFinalPlain : ∃ (s : State) (c : Fin 32) (k : Fin 16) (w : Walk),
    s.dev.walk? c k = some w ∧ s.dev.walkable c w.job = true ∧ w.started = w.last ∧ w.stage = .blocks ∧ w.paged = false ∧ s.dev.coreThrough (coreNo c k) = true :=
  ⟨onWalk [{ words := [0, 0, 32, 0, 0, 0, 128, 64, 0, 0, 0, 0, 0, 0, 0, 0, 0, 0, 0, 0, 0, 0, 0, 0, 0, 0, 0, 0, 0, 0, 0, 0, 0, 0, 0, 0, 0, 0, 0, 0, 0, 0, 0, 0, 0, 0, 0, 0, 0, 0, 0, 0, 0, 0, 0, 0, 0, 0, 0, 0, 0, 0, 0, 0], job := 0, core := 0, qLen := 64, ctxLen := 64, pt := 0, stage := .blocks, emitted := 1, started := 1, last := 1 }] {}, 0, 0, { words := [0, 0, 32, 0, 0, 0, 128, 64, 0, 0, 0, 0, 0, 0, 0, 0, 0, 0, 0, 0, 0, 0, 0, 0, 0, 0, 0, 0, 0, 0, 0, 0, 0, 0, 0, 0, 0, 0, 0, 0, 0, 0, 0, 0, 0, 0, 0, 0, 0, 0, 0, 0, 0, 0, 0, 0, 0, 0, 0, 0, 0, 0, 0, 0], job := 0, core := 0, qLen := 64, ctxLen := 64, pt := 0, stage := .blocks, emitted := 1, started := 1, last := 1 }, by decide +kernel⟩

theorem witness_walkMergeStart : ∃ (s : State) (c : Fin 32) (k : Fin 16) (_a : BitVec 22) (d : PartId × Nat),
    (s.dev.work.done.find? fun d => d.1.part == 0 && d.2 == coreNo c k && s.dev.partsDone d.1) = some d ∧ s.dev.walkable c d.1.job = true ∧ (s.dev.core (coreNo c k)).gates.length < 4 :=
  ⟨let u := onWalk [] {}; { u with dev := { u.dev with work := { u.dev.work with done := [({ job := 0, entry := 0, tile := 0, part := 0, parts := 2 }, 0), ({ job := 0, entry := 0, tile := 0, part := 1, parts := 2 }, 1)] } } }, 0, 0, 64, ({ job := 0, entry := 0, tile := 0, part := 0, parts := 2 }, 0), by decide +kernel⟩

theorem witness_gather : ∃ (s : State) (j : Fin 32) (x : Job) (r : StepRun) (a : Nat),
    s.dev.nextEntry j 1 = some (x, r, a) :=
  ⟨onSched schedStep [(0, [0, 0, 0, 0, 0, 0, 0, 16, 0, 0, 0, 0, 0, 0, 0, 0])], 0, schedJob schedStep, schedStep, 0, by decide +kernel⟩

theorem witness_reduce : ∃ (s : State) (j : Fin 32) (x : Job) (r : StepRun) (a : Nat),
    s.dev.nextEntry j 4 = some (x, r, a) :=
  ⟨onSched schedStep [(0, [0, 0, 0, 0, 0, 0, 0, 64, 0, 0, 0, 0, 0, 0, 0, 0])], 0, schedJob schedStep, schedStep, 0, by decide +kernel⟩

theorem witness_update : ∃ (s : State) (j : Fin 32) (x : Job) (r : StepRun) (a : Nat),
    s.dev.nextEntry j 5 = some (x, r, a) ∧ ((s.dev.updateReads x (bits a 47 0)).any fun p => s.dev.spaceWaits x p.1 p.2 false) = false ∧ ((s.dev.updateReads x (bits a 47 0)).any fun p => s.dev.spaceBlocked x p.1 p.2 false) = false :=
  ⟨onSched schedStep [(0, [0, 0, 0, 0, 0, 0, 0, 80, 64, 0, 0, 0, 0, 0, 0, 0]), (64, [0, 0, 0, 0, 1]), (128, [32, 0, 0, 0, 0, 0, 4, 0])], 0, schedJob schedStep, schedStep, 64, by decide +kernel⟩

theorem witness_release : ∃ (s : State) (j : Fin 32) (x : Job) (r : StepRun) (a : Nat),
    s.dev.nextEntry j 6 = some (x, r, a) :=
  ⟨onSched schedStep [(0, [0, 0, 0, 0, 0, 0, 0, 96, 0, 0, 0, 0, 0, 0, 0, 0])], 0, schedJob schedStep, schedStep, 0, by decide +kernel⟩

theorem witness_scheduleEnd : ∃ (s : State) (j : Fin 32) (x : Job) (r : StepRun) (a : Nat),
    s.dev.nextEntry j 8 = some (x, r, a) ∧ r.running = [] :=
  ⟨onSched schedStep [(0, [0, 0, 0, 0, 0, 0, 0, 128, 0, 0, 0, 0, 0, 0, 0, 0])], 0, schedJob schedStep, schedStep, 0, by decide +kernel⟩

theorem witness_fwd : ∃ (s : State) (j : Fin 32) (x : Job) (r : StepRun) (a : Nat),
    s.dev.nextEntry j 2 = some (x, r, a) ∧ x.inSpace (bits a 47 0) (8 * x.cores.length) = true ∧ ((s.dev.startTable x (bits a 47 0)).any fun p => 4 ≤ (s.dev.core p.1).gates.length) = false :=
  ⟨onSched schedStep [(0, [0, 0, 0, 0, 0, 0, 0, 32, 64, 0, 0, 0, 0, 0, 0, 0]), (64, [64])], 0, schedJob schedStep, schedStep, 64, by decide +kernel⟩

theorem witness_bwd : ∃ (s : State) (j : Fin 32) (x : Job) (r : StepRun) (a : Nat),
    s.dev.nextEntry j 3 = some (x, r, a) ∧ x.inSpace (bits a 47 0) (8 * x.cores.length) = true ∧ ((s.dev.startTable x (bits a 47 0)).any fun p => 4 ≤ (s.dev.core p.1).gates.length) = false :=
  ⟨onSched schedStep [(0, [0, 0, 0, 0, 0, 0, 0, 48, 64, 0, 0, 0, 0, 0, 0, 0]), (64, [64])], 0, schedJob schedStep, schedStep, 64, by decide +kernel⟩

theorem witness_dispatch : ∃ (s : State) (j : Fin 32) (x : Job) (r : StepRun) (a : Nat),
    s.dev.nextEntry j 7 = some (x, r, a) ∧ (((s.dev.beginEntry j x r 7).dispatchExtents x (bits a 47 0)).any fun e => !x.inSpace e.1 e.2) = false ∧ (((s.dev.beginEntry j x r 7).dispatchExtents x (bits a 47 0)).any fun e => (s.dev.beginEntry j x r 7).spaceBlocked x e.1 e.2 false) = false ∧ ((s.dev.beginEntry j x r 7).dispatchIn x (bits a 47 0)).ok = true :=
  ⟨onSched schedStep [(0, [0, 0, 0, 0, 0, 0, 0, 112, 0, 4, 0, 0, 0, 0, 0, 0]), (1024, [1, 0, 0, 0, 0, 0, 0, 1, 0, 8, 0, 0, 0, 0, 0, 0, 0, 12, 0, 0, 0, 0, 0, 0, 0, 32, 0, 0, 0, 0, 0, 0]), (2048, [0]), (3072, [1, 0, 0, 0, 1, 0, 0, 0, 0, 16, 0, 0, 0, 0, 0, 0])], 0, schedJob schedStep, schedStep, 1024, by decide +kernel⟩

theorem witness_scheduleEntryComplete : ∃ (s : State) (j : Fin 32) (i : BitVec 16) (x : Job) (r : StepRun) (e : EntryRun),
    s.dev.job? j = some x ∧ x.cur = some r ∧ r.entry? i.toNat = some e ∧ e.cores = [] ∧ e.units = [] ∧ e.plan = none ∧ s.dev.works 1 = true :=
  ⟨onSched { schedStep with next := 1, running := [{ idx := 0, kind := 8 }] } [], 0, 0, schedJob { schedStep with next := 1, running := [{ idx := 0, kind := 8 }] }, { schedStep with next := 1, running := [{ idx := 0, kind := 8 }] }, { idx := 0, kind := 8 }, by decide +kernel⟩

theorem witness_stepBoundary : ∃ (s : State) (j : Fin 32) (x : Job) (r : StepRun),
    s.dev.job? j = some x ∧ x.cur = some r ∧ s.dev.works 1 = true ∧ r.next = x.entries ∧ r.running = [] ∧ r.stop = none ∧ r.boundary = 0 ∧ s.dev.drainedJob j x = true :=
  ⟨onSched { schedStep with next := 1 } [], 0, schedJob { schedStep with next := 1 }, { schedStep with next := 1 }, by decide +kernel⟩

theorem witness_patchApply : ∃ (s : State) (j : Fin 32) (x : Job) (r : StepRun),
    s.dev.job? j = some x ∧ x.cur = some r ∧ s.dev.works 1 = true ∧ r.boundary = 2 ∧ s.dev.holdsAll j x = true :=
  ⟨onSched { schedStep with next := 1, boundary := 2 } [], 0, schedJob { schedStep with next := 1, boundary := 2 }, { schedStep with next := 1, boundary := 2 }, by decide +kernel⟩

theorem witness_normPass : ∃ (s : State) (u : Fin 20) (errs : List SymErr) (d : Device) (r : UpdRun) (x : Job) (c : StepRun),
    s.dev.unitWorks u = true ∧ s.dev.nextRun u 1 = some (r, x, c) ∧ entryFailed c r = false ∧ s.dev.statWaits u 1 r x = false ∧ ((s.dev.unstall (masterId 7 u)).readErrs u (r.ranges x u 1) errs) = (false, d) :=
  ⟨onUnit (unitRun 1 32 .idle), 0, [], (onUnit (unitRun 1 32 .idle)).dev, unitRun 1 32 .idle, schedJob runStep, runStep, by decide +kernel⟩

theorem witness_trustPass : ∃ (s : State) (u : Fin 20) (errs : List SymErr) (d : Device) (r : UpdRun) (x : Job) (c : StepRun),
    s.dev.unitWorks u = true ∧ s.dev.nextRun u 2 = some (r, x, c) ∧ entryFailed c r = false ∧ s.dev.statWaits u 2 r x = false ∧ ((s.dev.unstall (masterId 7 u)).readErrs u (r.ranges x u 2) errs) = (false, d) ∧ d.stamped u r x = false :=
  ⟨onUnit (unitRun 2 32 .idle), 0, [], (onUnit (unitRun 2 32 .idle)).dev, unitRun 2 32 .idle, schedJob runStep, runStep, by decide +kernel⟩

theorem witness_applyPass : ∃ (s : State) (u : Fin 20) (_errs : List SymErr) (r : UpdRun) (x : Job) (c : StepRun),
    s.dev.unitWorks u = true ∧ s.dev.nextRun u 0 = some (r, x, c) ∧ r.phase = .idle ∧ entryFailed c r = false ∧ r.k < (runOf r.desc u).2 :=
  ⟨onUnit (unitRun 0 163840 .idle), 0, [], unitRun 0 163840 .idle, schedJob runStep, runStep, by decide +kernel⟩

theorem witness_blockOpens : ∃ (s : Device) (u : Nat) (_r : UpdRun) (_x : Job) (_errs : List SymErr) (a : Ans) (key : Nat),
    s.txnOpenOp (masterId 7 u) = (a, some key) := by
  have e := openAt_eq (s := (onPool []).dev) (m := masterId 7 0) (k := 0) (by decide +kernel)
  exact ⟨(onPool []).dev, 0, unitRun 0 163840 .idle, pageJob, [], (openAt (onPool []).dev (masterId 7 0) 0).1, 0, e.trans (Prod.ext rfl (by decide +kernel))⟩

theorem witness_blockReads : ∃ (s e : Device) (u : Nat) (r : UpdRun) (x : Job) (errs : List SymErr) (key : Nat) (t : Txn) (v : StampVerdict),
    s.blockTxn u r = .inl (key, t) ∧ stampVerdict (leNat (s.cachedGet (stampAt x r.desc u r.k) 4)) r.t = v ∧ ((r.blockRanges x u v).any fun p => s.mustWait p.1 (.read p.2) (some key)) = false ∧ (v == StampVerdict.update && grpRule r.desc == 4 && s.spaceWaits x (grpStat r.desc + 160) 8 false) = false ∧ s.unstall (masterId 7 u) = s ∧ s.trackLimit t ((r.blockRanges x u v).flatMap fun p => linesOf p.1 p.2) = 0 ∧ s.readErrs u (r.blockRanges x u v) errs = (false, e) := by
  exact ⟨(onRead .opened).dev, (onRead .opened).dev, 0, { readRun with phase := .opened }, schedJob runStep, [], 0, { master := masterId 7 0, openedAt := 0, limit := 5 }, .update,
    by decide +kernel, by decide +kernel, by decide +kernel, by decide +kernel, by decide +kernel, by decide +kernel, by decide +kernel⟩

theorem witness_blockSkips : ∃ (s : Device) (_u : Nat) (_r : UpdRun) (_x : Job) (key : Nat) (t : Txn),
    tget? s.mem.txns key = some t :=
  ⟨(onRead .read).dev, 0, readRun, schedJob runStep, 0, { master := masterId 7 0, openedAt := 0, limit := 5 }, by decide +kernel⟩

theorem witness_blockRefuses : ∃ (s : Device) (_u : Nat) (_r : UpdRun) (_x : Job) (key : Nat) (t : Txn),
    tget? s.mem.txns key = some t :=
  ⟨(onRead .read).dev, 0, readRun, schedJob runStep, 0, { master := masterId 7 0, openedAt := 0, limit := 5 }, by decide +kernel⟩

theorem witness_updateBlockCommit : ∃ (s : State) (u : Fin 20) (key : Nat) (t : Txn) (w : Device) (r : UpdRun) (x : Job) (c : StepRun),
    s.dev.unitWorks u = true ∧ s.dev.nextRun u 0 = some (r, x, c) ∧ r.phase = .read ∧ s.dev.blockTxn u r = .inl (key, t) ∧ s.dev.blockWrite u r x key t = some (0, w) := by
  obtain ⟨w, h⟩ := blockWrite_alone (onRead .read).dev 0 readRun (schedJob runStep) 0 { master := masterId 7 0, openedAt := 0, limit := 5 } rfl rfl rfl
  exact ⟨onRead .read, 0, 0, { master := masterId 7 0, openedAt := 0, limit := 5 }, w, readRun, schedJob runStep, runStep, by decide +kernel, by decide +kernel, by decide +kernel, by decide +kernel, h⟩

theorem witness_slotWaitRetry : ∃ (s : State) (u : Fin 20) (_errs : List SymErr) (r : UpdRun) (x : Job) (c : StepRun),
    s.dev.unitWorks u = true ∧ s.dev.nextRun u 0 = some (r, x, c) ∧ r.phase = .slotWait ∧ r.since + us 1 ≤ s.dev.uptime :=
  ⟨(let u := onUnit (unitRun 0 163840 .slotWait); { u with dev := { u.dev with uptime := 100 } }), 0, [], unitRun 0 163840 .slotWait, schedJob runStep, runStep, by decide +kernel⟩

theorem witness_cachedRead : ∃ (s : State) (m : BitVec 16) (a : BitVec 40) (n : BitVec 16) (errs : List SymErr),
    s.dev.reaches m.toNat a.toNat (.read n.toNat) errs :=
  ⟨onMem [] id, 0x2000, 0, 32, [], by decide +kernel⟩

theorem witness_cachedWrite : ∃ (s : State) (m : BitVec 16) (a : BitVec 40) (data : Bytes) (errs : List SymErr),
    s.dev.reaches m.toNat a.toNat (.write data) errs :=
  ⟨onMem [] id, 0x2000, 0, [1, 2, 3], [], by decide +kernel⟩

theorem witness_atomicFetchAdd : ∃ (s : State) (m : BitVec 16) (a : BitVec 40) (wide : Bool) (v : BitVec 64) (errs : List SymErr),
    s.dev.reaches m.toNat a.toNat (.fetchAdd wide v.toNat) errs :=
  ⟨onMem [] id, 0x2000, 0, true, 5, [], by decide +kernel⟩

theorem witness_atomicCas : ∃ (s : State) (m : BitVec 16) (a : BitVec 40) (wide : Bool) (cmp new : BitVec 64) (errs : List SymErr),
    s.dev.reaches m.toNat a.toNat (.cas wide (if wide then cmp.toNat else cmp.toNat % 4294967296) new.toNat) errs ∧ leNat ((s.dev.cacheTouch a.toNat (if wide then 8 else 4) true true).cachedGet a.toNat (if wide then 8 else 4)) = (if wide then cmp.toNat else cmp.toNat % 4294967296) :=
  ⟨onMem [] id, 0x2000, 0, true, 0, 7, [], by decide +kernel⟩

theorem witness_casKeeps : ∃ (s : State) (m : BitVec 16) (a : BitVec 40) (wide : Bool) (cmp new : BitVec 64) (errs : List SymErr),
    s.dev.reaches m.toNat a.toNat (.cas wide (if wide then cmp.toNat else cmp.toNat % 4294967296) new.toNat) errs ∧ leNat ((s.dev.cacheTouch a.toNat (if wide then 8 else 4) true true).cachedGet a.toNat (if wide then 8 else 4)) ≠ (if wide then cmp.toNat else cmp.toNat % 4294967296) :=
  ⟨onMem [] id, 0x2000, 0, true, 1, 7, [], by decide +kernel⟩

theorem witness_atomicFadd : ∃ (s : State) (m : BitVec 16) (a : BitVec 40) (ty : Fin 6) (vals : List (BitVec 64)) (errs : List SymErr),
    s.dev.reaches m.toNat a.toNat (.fadd ty.val (vals.map fun v => v.toNat % 256 ^ tyBytes ty.val)) errs :=
  ⟨onMem [] id, 0x2000, 0, 4, [1], [], by decide +kernel⟩

theorem witness_atomicMax : ∃ (s : State) (m : BitVec 16) (a : BitVec 40) (ty : Fin 6) (vals : List (BitVec 64)) (errs : List SymErr),
    s.dev.reaches m.toNat a.toNat (.max ty.val (vals.map fun v => v.toNat % 256 ^ tyBytes ty.val)) errs :=
  ⟨onMem [] id, 0x2000, 0, 0, [1], [], by decide +kernel⟩

theorem witness_atomicMin : ∃ (s : State) (m : BitVec 16) (a : BitVec 40) (ty : Fin 6) (vals : List (BitVec 64)) (errs : List SymErr),
    s.dev.reaches m.toNat a.toNat (.min ty.val (vals.map fun v => v.toNat % 256 ^ tyBytes ty.val)) errs :=
  ⟨onMem [] id, 0x2000, 0, 0, [1], [], by decide +kernel⟩

theorem witness_atomicCopy64 : ∃ (s : State) (m : BitVec 16) (a : BitVec 40) (src : BitVec 40) (errs : List SymErr),
    s.dev.reaches m.toNat a.toNat (.copy64 src.toNat) errs ∧ s.dev.mapCheck src.toNat 8 = 0 ∧ s.dev.hbmBlocked src.toNat 8 false = false :=
  ⟨onMem [] id, 0x2000, 0, 8, [], by decide +kernel⟩

theorem witness_uncachedAccess : ∃ (s : State) (m : BitVec 16) (a : BitVec 40) (n : BitVec 16) (errs : List SymErr),
    masterExists m.toNat = true ∧ s.dev.isFrozen m.toNat = false ∧ s.dev.domainOn 3 = true ∧ s.dev.runs 3 = true ∧ s.dev.mapCheck a.toNat n.toNat = 0 ∧ s.dev.inRegion a.toNat n.toNat = false ∧ errsIn a.toNat n.toNat errs = [] ∧ s.dev.hbmBlocked a.toNat n.toNat false = false :=
  ⟨onMem [] fun m => { m with regions := [] }, 0x2000, 0, 32, [], by decide +kernel⟩

theorem witness_uncachedWrite : ∃ (s : State) (m : BitVec 16) (a : BitVec 40) (_n : BitVec 16) (d : Bytes) (errs : List SymErr),
    masterExists m.toNat = true ∧ s.dev.isFrozen m.toNat = false ∧ s.dev.domainOn 3 = true ∧ s.dev.runs 3 = true ∧ s.dev.mapCheck a.toNat d.length = 0 ∧ s.dev.inRegion a.toNat d.length = false ∧ errsPart a.toNat d.length errs = [] ∧ s.dev.hbmBlocked a.toNat d.length true = false :=
  ⟨onMem [] fun m => { m with regions := [] }, 0x2000, 0, 32, [1, 2], [], by decide +kernel⟩

theorem witness_uncachedRegion : ∃ (s : State) (m : BitVec 16) (a : BitVec 40) (n : BitVec 16) (w : Option Bytes) (_errs : List SymErr),
    masterExists m.toNat = true ∧ s.dev.isFrozen m.toNat = false ∧ s.dev.domainOn 3 = true ∧ s.dev.runs 3 = true ∧ s.dev.mapCheck a.toNat (match w with | some d => d.length | none => n.toNat) = 0 ∧ s.dev.inRegion a.toNat (match w with | some d => d.length | none => n.toNat) = true :=
  ⟨onMem [] id, 0x2000, 0, 32, none, [], by decide +kernel⟩

theorem witness_refresh : ∃ (s : State) (_k : Fin 20),
    s.dev.hbmRuns = true :=
  ⟨up, 0, by decide +kernel⟩

theorem witness_retrainPeriodExpiry : ∃ (s : State) (p : Fin 640),
    s.dev.hbmRuns = true ∧ s.dev.trainedAt p + ms (s.dev.num O.retrainPeriodMs) ≤ s.dev.uptime :=
  ⟨upWith [(O.retrainPeriodMs, 0)], 0, by decide +kernel⟩

theorem witness_retrainTemperatureTrigger : ∃ (s : State) (_k : Fin 20) (_temp : BitVec 16),
    s.dev.hbmRuns = true :=
  ⟨up, 0, 0, by decide +kernel⟩

theorem witness_retrainErrorRateTrigger : ∃ (s : State) (_p : Fin 640) (rate : BitVec 32),
    s.dev.hbmRuns = true ∧ s.dev.num O.retrainCorrectedRate < rate.toNat :=
  ⟨upWith [(O.retrainCorrectedRate, 0)], 0, 1, by decide +kernel⟩

theorem witness_triggerQueues : ∃ (d : Device) (p : Nat) (a b : List (Nat × Nat)),
    d.pcSt p = 0 ∧ d.retrainWaiting (p / 160) = a ++ b ∧ (∀ x ∈ a ++ b, x.1 ≠ p) ∧ (∀ x ∈ a, x.2 < d.uptime ∨ x.1 < p) ∧ (∀ x ∈ b, d.uptime ≤ x.2 ∧ p ≤ x.1) :=
  ⟨(onMem [] fun m => { m with retrainQ := [(0, [(2, 0), (4, 0)])] }).dev, 3, [(2, 0)], [(4, 0)], by decide +kernel⟩

theorem witness_retrainStart : ∃ (s : State) (q : Fin 4) (p w : Nat) (r : List (Nat × Nat)),
    s.dev.hbmRuns = true ∧ tget? s.dev.mem.retrainNow q.val = none ∧ ((s.dev.retrainWaiting q).dropWhile fun x => s.dev.pcSt x.1 != 0) = (p, w) :: r :=
  ⟨onMem [] fun m => { m with retrainQ := [(0, [(3, 5)])] }, 0, 3, 5, [], by decide +kernel⟩

theorem witness_retrainSuccess : ∃ (s : State) (q : Fin 4) (p t : Nat),
    tget? s.dev.mem.retrainNow q.val = some (p, t) ∧ s.dev.hbmRuns = true ∧ s.dev.uptime ≤ t + us 38 :=
  ⟨onMem [] fun m => { m with retrainNow := [(0, (3, 0))] }, 0, 3, 0, by decide +kernel⟩

theorem witness_retrainTimeout : ∃ (s : State) (q : Fin 4) (p t : Nat),
    tget? s.dev.mem.retrainNow q.val = some (p, t) ∧ s.dev.hbmRuns = true ∧ t + us 38 ≤ s.dev.uptime :=
  ⟨(let u := onMem [] fun m => { m with retrainNow := [(0, (3, 0))] }; { u with dev := { u.dev with uptime := 1000 } }), 0, 3, 0, by decide +kernel⟩

theorem witness_fenceBegins : ∃ (d : Device) (p _addr _cause : Nat),
    d.pcSt p ≠ 2 ∧ d.pcSt p ≠ 3 ∧ d.pcSt p ≠ 4 ∧ d.mem.fences.length < 2 :=
  ⟨base, 0, 0, 0, by decide +kernel⟩

theorem witness_fenceCopyStart : ∃ (s : State) (k : Fin 2) (f : Fence),
    (s.dev.mem.fences.find? fun f => f.band == k.val) = some f ∧ s.dev.hbmRuns = true ∧ f.live = true ∧ f.copying = false ∧ (∀ g ∈ s.dev.mem.fences, f.band ≤ g.band ∨ g.live = false) :=
  ⟨onMem [] fun m => { m with fences := [{ p := 5, band := 0, start := 0 }] }, 0, { p := 5, band := 0, start := 0 }, by decide +kernel⟩

theorem witness_fenceCopyEnd : ∃ (s : State) (k : Fin 2) (lost : List (BitVec 23 × Bool)) (f : Fence),
    (s.dev.mem.fences.find? fun f => f.band == k.val) = some f ∧ s.dev.hbmRuns = true ∧ f.live = true ∧ f.copying = true ∧ s.dev.lockedOn f.p = false ∧ s.dev.mem.lostLines.length + (f.lostItems s.dev.mem.fences lost).length ≤ 4096 :=
  ⟨onMem [] fun m => { m with fences := [{ p := 5, band := 0, start := 0, copying := true }] }, 0, [], { p := 5, band := 0, start := 0, copying := true }, by decide +kernel⟩

theorem witness_hbmScrub : ∃ (s : State) (p : Fin 640) (u : BitVec 23) (_errs : List SymErr),
    s.dev.hbmRuns = true ∧ u.toNat < 4378147 ∧ s.dev.pcSt (s.dev.finalPlace p u.toNat).1 ≠ 4 ∧ s.dev.scrubDone p u.toNat = false :=
  ⟨up, 0, 0, [], by decide +kernel⟩

theorem witness_stackThermalLimit : ∃ (s : State) (_k : Fin 20) (_temp : BitVec 16),
    s.dev.domainOn 3 = true :=
  ⟨up, 0, 0, by decide +kernel⟩

theorem witness_segmentTableWrite : ∃ (s : State) (v : Bytes),
    s.dev.accepts O.segmentTable ∧ (s.dev.inSafe = true ∨ s.dev.startupCode = suConfigure) ∧ segTableOk v = true :=
  ⟨upWith [(O.startupState, 5)], beBytes 2 4 ++ beBytes 2 32 ++ (defaultSegs.take 4).flatMap Seg.encode, by decide +kernel⟩

theorem witness_claspOpen : ∃ (s : State) (m : BitVec 16),
    s.dev.domainOn 3 = true ∧ (s.dev.mem.due.find? fun d => d.master == m.toNat) = none ∧ m.toNat ≠ managerId ∧ mayOpen m.toNat = true ∧ s.dev.isFrozen m.toNat = false ∧ s.dev.claspUp = true ∧ s.dev.txnsOf m.toNat = [] ∧ s.dev.freeSlots (coordinator m.toNat) ≠ [] :=
  ⟨onMem [] id, 0x2000, by decide +kernel⟩

theorem witness_prepare : ∃ (s : State) (q : Fin 4) (n : Fin 64) (d : Fin 4) (t : Txn),
    tget? s.dev.mem.txns (64 * q.val + n.val) = some t ∧ t.state = .preparing ∧ t.part d.val = some .todo ∧ (∀ p ∈ t.parts, d.val ≤ p.1 ∨ p.2 = .counted) ∧ s.dev.runs 3 = true ∧ s.dev.engineTaken d.val (64 * q.val + n.val) = false ∧ s.dev.prepare (64 * q.val + n.val) t d.val = .yes :=
  ⟨(let u := onMem [] fun m => { m with txns := [(0, { master := 0x2000, openedAt := 0, limit := 5, state := .preparing, written := [0], masks := [0], parts := [(0, .todo)] })] }; { u with dev := { u.dev with uptime := 1000000 } }), 0, 0, 0, { master := 0x2000, openedAt := 0, limit := 5, state := .preparing, written := [0], masks := [0], parts := [(0, .todo)] }, by decide +kernel⟩

theorem witness_prepareResume : ∃ (s : State) (q : Fin 4) (n : Fin 64) (d : Fin 4) (t : Txn) (since : Nat),
    tget? s.dev.mem.txns (64 * q.val + n.val) = some t ∧ t.part d.val = some (.waiting since) ∧ s.dev.runs 3 = true ∧ s.dev.prepare (64 * q.val + n.val) t d.val = .yes :=
  ⟨(let u := onMem [] fun m => { m with txns := [(0, { master := 0x2000, openedAt := 0, limit := 5, state := .preparing, written := [0], masks := [0], parts := [(0, .waiting 3)] })] }; { u with dev := { u.dev with uptime := 1000000 } }), 0, 0, 0, { master := 0x2000, openedAt := 0, limit := 5, state := .preparing, written := [0], masks := [0], parts := [(0, .waiting 3)] }, 3, by decide +kernel⟩

theorem witness_prepareNo : ∃ (s : State) (q : Fin 4) (n : Fin 64) (d : Fin 4) (t : Txn) (why : Nat),
    tget? s.dev.mem.txns (64 * q.val + n.val) = some t ∧ t.state = .preparing ∧ t.part d.val = some .todo ∧ (∀ p ∈ t.parts, d.val ≤ p.1 ∨ p.2 = .counted) ∧ s.dev.runs 3 = true ∧ s.dev.engineTaken d.val (64 * q.val + n.val) = false ∧ s.dev.prepare (64 * q.val + n.val) t d.val = .no why :=
  ⟨(let u := onMem [] fun m => { m with txns := [(0, { master := 0x2000, openedAt := 0, limit := 5, state := .preparing, written := [0], tracked := [0], stale := [0], masks := [0], parts := [(0, .todo)] })] }; { u with dev := { u.dev with uptime := 1000000 } }), 0, 0, 0, { master := 0x2000, openedAt := 0, limit := 5, state := .preparing, written := [0], tracked := [0], stale := [0], masks := [0], parts := [(0, .todo)] }, 1, by decide +kernel⟩

theorem witness_prepareWaits : ∃ (s : State) (q : Fin 4) (n : Fin 64) (d : Fin 4) (t : Txn),
    tget? s.dev.mem.txns (64 * q.val + n.val) = some t ∧ t.state = .preparing ∧ t.part d.val = some .todo ∧ (∀ p ∈ t.parts, d.val ≤ p.1 ∨ p.2 = .counted) ∧ s.dev.runs 3 = true ∧ s.dev.engineTaken d.val (64 * q.val + n.val) = false ∧ s.dev.prepare (64 * q.val + n.val) t d.val = .wait :=
  ⟨(let u := onMem [] fun m => { m with txns := [(0, { master := 0x2000, openedAt := 0, limit := 5, state := .preparing, written := [0], masks := [0], parts := [(0, .todo)] }), (1, { master := 0x2000, openedAt := 0, limit := 5, state := .preparing, written := [0], masks := [0], parts := [(0, .yes)] })] }; { u with dev := { u.dev with uptime := 1000000 } }), 0, 0, 0, { master := 0x2000, openedAt := 0, limit := 5, state := .preparing, written := [0], masks := [0], parts := [(0, .todo)] }, by decide +kernel⟩

theorem witness_lockWaitLimit : ∃ (s : State) (q : Fin 4) (n : Fin 64) (d : Fin 4) (t : Txn) (since : Nat),
    tget? s.dev.mem.txns (64 * q.val + n.val) = some t ∧ t.part d.val = some (.waiting since) ∧ s.dev.runs 3 = true ∧ since + us (s.dev.num O.txnLockWaitLimitUs) < s.dev.uptime :=
  ⟨(let u := onMem [] fun m => { m with txns := [(0, { master := 0x2000, openedAt := 0, limit := 5, state := .preparing, written := [0], masks := [0], parts := [(0, .waiting 3)] })] }; { u with dev := { u.dev with uptime := 1000000 } }), 0, 0, 0, { master := 0x2000, openedAt := 0, limit := 5, state := .preparing, written := [0], masks := [0], parts := [(0, .waiting 3)] }, 3, by decide +kernel⟩

theorem witness_vote : ∃ (s : State) (q : Fin 4) (n : Fin 64) (d : Fin 4) (t : Txn),
    tget? s.dev.mem.txns (64 * q.val + n.val) = some t ∧ s.dev.runs 3 = true ∧ t.state = .preparing ∧ t.part d.val = some .yes ∧ ((t.setPart d.val .counted).parts.all fun p => p.2 == .counted) = true :=
  ⟨(let u := onMem [] fun m => { m with txns := [(0, { master := 0x2000, openedAt := 0, limit := 5, state := .preparing, written := [0], masks := [0], parts := [(0, .yes)] })] }; { u with dev := { u.dev with uptime := 1000000 } }), 0, 0, 0, { master := 0x2000, openedAt := 0, limit := 5, state := .preparing, written := [0], masks := [0], parts := [(0, .yes)] }, by decide +kernel⟩

theorem witness_voteNo : ∃ (s : State) (q : Fin 4) (n : Fin 64) (d : Fin 4) (t : Txn) (why : Nat),
    tget? s.dev.mem.txns (64 * q.val + n.val) = some t ∧ s.dev.runs 3 = true ∧ t.state = .preparing ∧ t.part d.val = some (.no why) :=
  ⟨(let u := onMem [] fun m => { m with txns := [(0, { master := 0x2000, openedAt := 0, limit := 5, state := .preparing, written := [0], masks := [0], parts := [(0, .no 2)] })] }; { u with dev := { u.dev with uptime := 1000000 } }), 0, 0, 0, { master := 0x2000, openedAt := 0, limit := 5, state := .preparing, written := [0], masks := [0], parts := [(0, .no 2)] }, 2, by decide +kernel⟩

theorem witness_voteCounts : ∃ (s : State) (q : Fin 4) (n : Fin 64) (d : Fin 4) (t : Txn),
    tget? s.dev.mem.txns (64 * q.val + n.val) = some t ∧ s.dev.runs 3 = true ∧ t.state = .preparing ∧ t.part d.val = some .yes ∧ ((t.setPart d.val .counted).parts.all fun p => p.2 == .counted) = false :=
  ⟨(let u := onMem [] fun m => { m with txns := [(0, { master := 0x2000, openedAt := 0, limit := 5, state := .preparing, written := [0], masks := [0], parts := [(0, .yes), (1, .todo)] })] }; { u with dev := { u.dev with uptime := 1000000 } }), 0, 0, 0, { master := 0x2000, openedAt := 0, limit := 5, state := .preparing, written := [0], masks := [0], parts := [(0, .yes), (1, .todo)] }, by decide +kernel⟩

theorem witness_install : ∃ (s : State) (q : Fin 4) (n : Fin 64) (d : Fin 4) (t : Txn),
    tget? s.dev.mem.txns (64 * q.val + n.val) = some t ∧ s.dev.runs 3 = true ∧ t.state = .installing ∧ t.part d.val = some .counted :=
  ⟨(let u := onMem [] fun m => { m with txns := [(0, { master := 0x2000, openedAt := 0, limit := 5, state := .installing, written := [0], masks := [0], parts := [(0, .counted)] })] }; { u with dev := { u.dev with uptime := 1000000 } }), 0, 0, 0, { master := 0x2000, openedAt := 0, limit := 5, state := .installing, written := [0], masks := [0], parts := [(0, .counted)] }, by decide +kernel⟩

theorem witness_installReport : ∃ (s : State) (q : Fin 4) (n : Fin 64) (d : Fin 4) (t : Txn),
    tget? s.dev.mem.txns (64 * q.val + n.val) = some t ∧ s.dev.runs 3 = true ∧ t.part d.val = some .installed ∧ ((t.setPart d.val .reported).parts.all fun p => p.2 == .reported) = true :=
  ⟨(let u := onMem [] fun m => { m with txns := [(0, { master := 0x2000, openedAt := 0, limit := 5, state := .installing, written := [0], masks := [0], parts := [(0, .installed)] })] }; { u with dev := { u.dev with uptime := 1000000 } }), 0, 0, 0, { master := 0x2000, openedAt := 0, limit := 5, state := .installing, written := [0], masks := [0], parts := [(0, .installed)] }, by decide +kernel⟩

theorem witness_txnTimeLimit : ∃ (s : State) (q : Fin 4) (n : Fin 64) (t : Txn),
    tget? s.dev.mem.txns (64 * q.val + n.val) = some t ∧ s.dev.runs 3 = true ∧ t.state = .opened ∧ t.openedAt + t.limit < s.dev.uptime :=
  ⟨(let u := onMem [] fun m => { m with txns := [(0, { master := 0x2000, openedAt := 0, limit := 5, state := .opened, written := [0], masks := [0], parts := [] })] }; { u with dev := { u.dev with uptime := 1000000 } }), 0, 0, { master := 0x2000, openedAt := 0, limit := 5, state := .opened, written := [0], masks := [0], parts := [] }, by decide +kernel⟩

theorem witness_claspAbort : ∃ (s : State) (m : BitVec 16) (slot : BitVec 8) (key : Nat) (t : Txn),
    s.dev.domainOn 3 = true ∧ s.dev.dueFor m.toNat slot.toNat = none ∧ s.dev.txnFor m.toNat slot.toNat = some (key, t) ∧ t.state = .opened :=
  ⟨onMem [] fun m => { m with txns := [(0, { master := 0x2000, openedAt := 0, limit := 5, state := .opened, written := [0], masks := [], parts := [] })] }, 0x2000, 0, 0, { master := 0x2000, openedAt := 0, limit := 5, state := .opened, written := [0], masks := [], parts := [] }, by decide +kernel⟩

theorem witness_claspCommit : ∃ (s : State) (m : BitVec 16) (slot : BitVec 8) (key : Nat) (t : Txn),
    s.dev.domainOn 3 = true ∧ s.dev.txnGate m.toNat slot.toNat = .inr (key, t) ∧ s.dev.partsOf t ≠ [] :=
  ⟨onMem [] fun m => { m with txns := [(0, { master := 0x2000, openedAt := 0, limit := 5, state := .opened, written := [0], masks := [], parts := [] })] }, 0x2000, 0, 0, { master := 0x2000, openedAt := 0, limit := 5, state := .opened, written := [0], masks := [], parts := [] }, by decide +kernel⟩

theorem witness_commitNothing : ∃ (s : State) (m : BitVec 16) (slot : BitVec 8) (key : Nat) (t : Txn),
    s.dev.domainOn 3 = true ∧ s.dev.txnGate m.toNat slot.toNat = .inr (key, t) ∧ s.dev.partsOf t = [] :=
  ⟨onMem [] fun m => { m with txns := [(0, { master := 0x2000, openedAt := 0, limit := 5, state := .opened, written := [], masks := [], parts := [] })] }, 0x2000, 0, 0, { master := 0x2000, openedAt := 0, limit := 5, state := .opened, written := [], masks := [], parts := [] }, by decide +kernel⟩

theorem witness_claspRead : ∃ (s : State) (m : BitVec 16) (slot : BitVec 8) (a : BitVec 40) (whole : Bool) (errs : List SymErr) (key k b : Nat) (t : Txn),
    s.dev.domainOn 3 = true ∧ s.dev.txnGate m.toNat slot.toNat = .inr (key, t) ∧ k = (if whole then 128 else 32) ∧ b = a.toNat / k * k ∧ s.dev.lineInRegion (b / 128) = true ∧ s.dev.trackLimit t (linesOf b k) = 0 ∧ errsIn b k errs = [] ∧ s.dev.hbmBlocked b k false = false ∧ s.dev.mustWait b (.read k) (some key) = false ∧ s.dev.ownWaits m.toNat b k = false :=
  ⟨onMem [] fun m => { m with txns := [(0, { master := 0x2000, openedAt := 0, limit := 5, state := .opened, written := [0], masks := [], parts := [] })] }, 0x2000, 0, 64, false, [], 0, 32, 64, { master := 0x2000, openedAt := 0, limit := 5, state := .opened, written := [0], masks := [], parts := [] }, by decide +kernel⟩

theorem witness_claspWrite : ∃ (s : State) (m : BitVec 16) (slot : BitVec 8) (line : BitVec 33) (data : Bytes) (mask : BitVec 128) (key : Nat) (t : Txn) (b : List (Nat × Byte)),
    s.dev.domainOn 3 = true ∧ s.dev.txnGate m.toNat slot.toNat = .inr (key, t) ∧ b = (((List.range 128).filter fun i => mask.getLsbD i).map fun i => (128 * line.toNat + i, data.getD i 0)) ∧ s.dev.lineInRegion line.toNat = true ∧ (if t.written.contains line.toNat then t.written else t.written ++ [line.toNat]).length ≤ 2048 :=
  ⟨onMem [] fun m => { m with txns := [(0, { master := 0x2000, openedAt := 0, limit := 5, state := .opened, written := [0], masks := [], parts := [] })] }, 0x2000, 0, 0, [7], 1, 0, { master := 0x2000, openedAt := 0, limit := 5, state := .opened, written := [0], masks := [], parts := [] }, [(0, 7)], by decide +kernel⟩

theorem witness_handoffRetry : ∃ (s : State) (q : Fin 4) (a : Fin 1024) (b : Nat) (r : List Nat) (d : Device),
    (s.dev.poolCh q a).handoffs = b :: r ∧ s.dev.domainOn 1 = true ∧ (a.val, b) ∈ s.dev.handoffTurn q ∧ s.dev.tryHandoff q a b = some d :=
  ⟨(let d := (((upWith [(O.channelHeld 0 1, 1), (O.channelCap 0 1, 1), (O.channelCap 0 2, 1)]).dev.setPoolCh 0 1 { handoffs := [2] }).setPoolCh 0 2 {}); ({ up with dev := d } : State)), 0, 1, 2, [], ((let d := (((upWith [(O.channelHeld 0 1, 1), (O.channelCap 0 1, 1), (O.channelCap 0 2, 1)]).dev.setPoolCh 0 1 { handoffs := [2] }).setPoolCh 0 2 {}); ({ up with dev := d } : State)).dev.tryHandoff 0 1 2).getD base, by decide +kernel⟩

theorem witness_ledgerAudit : ∃ (s : State) (kind : Fin 8) (inst : BitVec 12) (l : Ledger),
    tget? s.dev.mem.ledgers (ledgerId kind inst.toNat) = some l ∧ l.audit = none ∧ s.dev.runs (ledgerDomain (ledgerId kind inst.toNat)) = true ∧ twoSided (ledgerId kind inst.toNat) = true ∧ l.auditDue ≤ s.dev.uptime :=
  ⟨onMem [] fun m => { m with ledgers := [(ledgerId 2 0, { free := 32 })] }, 2, 0, { free := 32 }, by decide +kernel⟩

theorem witness_auditSum : ∃ (s : State) (kind : Fin 8) (inst : BitVec 12) (l : Ledger),
    tget? s.dev.mem.ledgers (ledgerId kind inst.toNat) = some l ∧ l.audit = none ∧ s.dev.runs (ledgerDomain (ledgerId kind inst.toNat)) = true ∧ twoSided (ledgerId kind inst.toNat) = false ∧ ((s.dev.auditBegins (ledgerId kind inst.toNat)).ledgerCounts (ledgerId kind inst.toNat)).1 + ((s.dev.auditBegins (ledgerId kind inst.toNat)).ledgerCounts (ledgerId kind inst.toNat)).2.1 + ((s.dev.auditBegins (ledgerId kind inst.toNat)).ledgerCounts (ledgerId kind inst.toNat)).2.2.1 + ((s.dev.auditBegins (ledgerId kind inst.toNat)).ledgerCounts (ledgerId kind inst.toNat)).2.2.2 = (s.dev.auditBegins (ledgerId kind inst.toNat)).ledgerTotal (ledgerId kind inst.toNat) ∧ l.auditDue ≤ s.dev.uptime :=
  ⟨onMem [] fun m => { m with ledgers := [(ledgerId 4 0, { free := 64 })] }, 4, 0, { free := 64 }, by decide +kernel⟩

theorem witness_auditSumWrong : ∃ (s : State) (kind : Fin 8) (inst : BitVec 12) (l : Ledger),
    tget? s.dev.mem.ledgers (ledgerId kind inst.toNat) = some l ∧ l.audit = none ∧ s.dev.runs (ledgerDomain (ledgerId kind inst.toNat)) = true ∧ twoSided (ledgerId kind inst.toNat) = false ∧ ((s.dev.auditBegins (ledgerId kind inst.toNat)).ledgerCounts (ledgerId kind inst.toNat)).1 + ((s.dev.auditBegins (ledgerId kind inst.toNat)).ledgerCounts (ledgerId kind inst.toNat)).2.1 + ((s.dev.auditBegins (ledgerId kind inst.toNat)).ledgerCounts (ledgerId kind inst.toNat)).2.2.1 + ((s.dev.auditBegins (ledgerId kind inst.toNat)).ledgerCounts (ledgerId kind inst.toNat)).2.2.2 ≠ (s.dev.auditBegins (ledgerId kind inst.toNat)).ledgerTotal (ledgerId kind inst.toNat) ∧ l.auditDue ≤ s.dev.uptime :=
  ⟨onMem [(O.poolSharedFree 0, 5)] fun m => { m with ledgers := [(ledgerId 1 0, {})] }, 1, 0, {}, by decide +kernel⟩

theorem witness_auditMarkerArrival : ∃ (s : State) (kind : Fin 8) (inst : BitVec 12) (l : Ledger) (m t : Nat),
    tget? s.dev.mem.ledgers (ledgerId kind inst.toNat) = some l ∧ l.audit = some (.marker m t) ∧ ((ledgerIslands (ledgerId kind inst.toNat)).any s.dev.islandStopped) = false ∧ m ≤ (s.dev.credit (ledgerId kind inst.toNat)).received ∧ s.dev.markerThrough (ledgerId kind inst.toNat) = true :=
  ⟨onMem [] fun m => { m with ledgers := [(ledgerId 2 0, { free := 32, audit := some (.marker 0 0) })] }, 2, 0, { free := 32, audit := some (.marker 0 0) }, 0, 0, by decide +kernel⟩

theorem witness_auditReplyJudged : ∃ (s : State) (kind : Fin 8) (inst : BitVec 12) (l : Ledger) (m f t : Nat),
    tget? s.dev.mem.ledgers (ledgerId kind inst.toNat) = some l ∧ l.audit = some (.reply m m f t) ∧ ((ledgerIslands (ledgerId kind inst.toNat)).any s.dev.islandStopped) = false ∧ f ≤ m ∧ m - f ≤ (s.dev.setCredit (ledgerId kind inst.toNat) { s.dev.credit (ledgerId kind inst.toNat) with back := max (s.dev.credit (ledgerId kind inst.toNat)).back (min f (s.dev.credit (ledgerId kind inst.toNat)).returned) }).ledgerTotal (ledgerId kind inst.toNat) ∧ ledgerId kind inst.toNat / 4096 ≠ 5 ∧ s.dev.markerThrough (ledgerId kind inst.toNat) = true :=
  ⟨onMem [] fun m => { m with ledgers := [(ledgerId 2 0, { free := 32, audit := some (.reply 0 0 0 0) })] }, 2, 0, { free := 32, audit := some (.reply 0 0 0 0) }, 0, 0, 0, by decide +kernel⟩

theorem witness_auditStall : ∃ (s : State) (kind : Fin 8) (inst : BitVec 12) (l : Ledger) (m t : Nat),
    tget? s.dev.mem.ledgers (ledgerId kind inst.toNat) = some l ∧ l.audit = some (.marker m t) ∧ ((ledgerIslands (ledgerId kind inst.toNat)).any s.dev.islandStopped) = false ∧ t + us (s.dev.num O.auditStallLimitUs) < s.dev.uptime :=
  ⟨(let u := onMem [(O.auditStallLimitUs, 1)] fun m => { m with ledgers := [(ledgerId 2 0, { free := 32, audit := some (.marker 0 0) })] }; { u with dev := { u.dev with uptime := 1000000 } }), 2, 0, { free := 32, audit := some (.marker 0 0) }, 0, 0, by decide +kernel⟩

theorem witness_portModeWrite : ∃ (s : State) (l : Fin 96) (mode : BitVec 8),
    s.dev.accepts (O.portMode l) ∧ (mode.toNat = 1 ∨ mode.toNat = 2) ∧ bit (s.dev.num (O.clockEnables (12 + l.val / 24))) 0 = true ∧ s.dev.portCtxs l = [] ∧ s.dev.num (O.portMode l) ≠ 0 ∧ mode.toNat ≠ s.dev.num (O.portMode l) :=
  ⟨upWith [(O.portMode 0, 1), (O.clockEnables 12, 1)], 0, 2, by decide +kernel⟩

theorem witness_portOff : ∃ (s : State) (l : Fin 96) (mode : BitVec 8),
    s.dev.accepts (O.portMode l) ∧ mode.toNat = 0 ∧ bit (s.dev.num (O.clockEnables (12 + l.val / 24))) 0 = true ∧ s.dev.portCtxs l = [] ∧ s.dev.num (O.portMode l) ≠ 0 ∧ s.dev.chHeld (l / 24) (s.dev.port l).pool = 0 :=
  ⟨upWith [(O.portMode 0, 1), (O.clockEnables 12, 1)], 0, 0, by decide +kernel⟩

theorem witness_portClaims : ∃ (s : State) (l : Fin 96) (mode : BitVec 8) (d : Device),
    s.dev.accepts (O.portMode l) ∧ (mode.toNat = 1 ∨ mode.toNat = 2) ∧ bit (s.dev.num (O.clockEnables (12 + l.val / 24))) 0 = true ∧ s.dev.portCtxs l = [] ∧ s.dev.num (O.portMode l) = 0 ∧ l.val % s.dev.num (O.portLanes l) = 0 ∧ ((s.dev.portLanesOf l).any s.dev.laneFailed) = false ∧ (s.dev.claim ((s.dev.portLanesOf l).map fun x => O.laneState x) (O.portMode l) 0xFFFFFFFF).1 = d ∧ (s.dev.claim ((s.dev.portLanesOf l).map fun x => O.laneState x) (O.portMode l) 0xFFFFFFFF).2 = none ∧ d.channelFree (l / 24) (s.dev.num (O.rxReserve l)) :=
  ⟨(upWith [(O.clockEnables 12, 1), (O.portLanes 0, 1), (O.rxCap 0, 4)]), 0, 1, ((upWith [(O.clockEnables 12, 1), (O.portLanes 0, 1), (O.rxCap 0, 4)]).dev.claim [O.laneState 0] (O.portMode 0) 0xFFFFFFFF).1, by decide +kernel⟩

theorem witness_portTrainingComplete : ∃ (s : State) (l : Fin 96) (native : Bool),
    s.dev.runs 2 = true ∧ s.dev.portOn l = true ∧ s.dev.num (O.portState l) = 1 ∧ (s.dev.num (O.portMode l) ≠ 2 ∨ native = true) ∧ ((s.dev.portLanesOf l).any s.dev.laneFailed) = false ∧ bit (s.dev.num O.refclkPresent) (2 + l.val / 24) = true :=
  ⟨upWith [(O.portMode 0, 1), (O.portState 0, 1), (O.refclkPresent, 0xFFFF)], 0, false, by decide +kernel⟩

theorem witness_portDown : ∃ (s : State) (l : Fin 96),
    s.dev.portOn l = true ∧ s.dev.num (O.portState l) = 2 :=
  ⟨onPort 1 {}, 0, by decide +kernel⟩

theorem witness_linkAck : ∃ (s : State) (l : Fin 96) (_seq : BitVec 16),
    s.dev.portUp l = true ∧ s.dev.num (O.portMode l) = 2 :=
  ⟨(let u := onPort 2 {  }; { u with dev := { u.dev with uptime := 100000 } }), 0, 1, by decide +kernel⟩

theorem witness_linkReplay : ∃ (s : State) (l : Fin 96) (_seq : BitVec 16),
    s.dev.portUp l = true ∧ s.dev.num (O.portMode l) = 2 :=
  ⟨(let u := onPort 2 {  }; { u with dev := { u.dev with uptime := 100000 } }), 0, 1, by decide +kernel⟩

theorem witness_linkAckTimer : ∃ (s : State) (l : Fin 96),
    s.dev.portUp l = true ∧ s.dev.num (O.portMode l) = 2 ∧ (s.dev.port l).unacked = true ∧ (s.dev.port l).ackAt + us 1 ≤ s.dev.uptime :=
  ⟨(let u := onPort 2 { unacked := true }; { u with dev := { u.dev with uptime := 100000 } }), 0, by decide +kernel⟩

theorem witness_linkEpisodeTimeout : ∃ (s : State) (l : Fin 96) (t : Nat),
    (s.dev.port l).episode = some t ∧ t + us 8 ≤ s.dev.uptime :=
  ⟨(let u := onPort 2 { episode := some 0 }; { u with dev := { u.dev with uptime := 100000 } }), 0, 0, by decide +kernel⟩

theorem witness_pfcPauseExpiry : ∃ (s : State) (l : Fin 96) (i : Fin 8) (t : Nat),
    tget? (s.dev.port l).paused i.val = some t ∧ t ≤ s.dev.uptime :=
  ⟨(let u := onPort 1 { paused := [(3, 5)] }; { u with dev := { u.dev with uptime := 100000 } }), 0, 3, 5, by decide +kernel⟩

theorem witness_pfcXoffRepeat : ∃ (s : State) (l : Fin 96),
    s.dev.portUp l = true ∧ s.dev.pfcOn l = true ∧ (s.dev.port l).xoff = true ∧ (s.dev.port l).xoffAt + us 10 ≤ s.dev.uptime :=
  ⟨(let u := onPort 1 { xoff := true }; { u with dev := { u.dev with uptime := 100000, objs := tput u.dev.objs (O.pfcMask 0) (.num 255) } }), 0, by decide +kernel⟩

theorem witness_frameReceive : ∃ (s : State) (l : Fin 96) (f : RxFrame),
    s.dev.portUp l = true ∧ (s.dev.port l).held = [] ∧ s.dev.num (O.portMode l) ≠ 2 ∧ f.fcsGood = true :=
  ⟨(let u := onPort 1 {  }; { u with dev := { u.dev with uptime := 100000 } }), 0, { fcsGood := true, startGood := true, control := false, linkSeq := 0, size := 64, dst := 0, src := 0, tags := [], etherType := 0, payload := [] }, by decide +kernel⟩

theorem witness_frameBad : ∃ (s : State) (l : Fin 96) (f : RxFrame),
    s.dev.portUp l = true ∧ s.dev.num (O.portMode l) ≠ 2 ∧ f.fcsGood = false ∧ (s.dev.port l).held = [] :=
  ⟨(let u := onPort 1 {  }; { u with dev := { u.dev with uptime := 100000 } }), 0, { fcsGood := false, startGood := true, control := false, linkSeq := 0, size := 64, dst := 0, src := 0, tags := [], etherType := 0, payload := [] }, by decide +kernel⟩

theorem witness_frameInOrder : ∃ (s : State) (l : Fin 96) (f : RxFrame),
    s.dev.portUp l = true ∧ s.dev.num (O.portMode l) = 2 ∧ f.fcsGood = true ∧ f.startGood = true ∧ f.control = false ∧ (s.dev.port l).resync = false ∧ seq16 f.linkSeq.toNat (s.dev.port l).rxNext = 0 ∧ (s.dev.port l).held = [] :=
  ⟨(let u := onPort 2 {  }; { u with dev := { u.dev with uptime := 100000 } }), 0, { fcsGood := true, startGood := true, control := false, linkSeq := 0, size := 64, dst := 0, src := 0, tags := [], etherType := 0, payload := [] }, by decide +kernel⟩

theorem witness_frameGap : ∃ (s : State) (l : Fin 96) (f : RxFrame),
    s.dev.portUp l = true ∧ s.dev.num (O.portMode l) = 2 ∧ f.fcsGood = true ∧ f.startGood = true ∧ f.control = false ∧ (s.dev.port l).resync = false ∧ 0 < seq16 f.linkSeq.toNat (s.dev.port l).rxNext ∧ seq16 f.linkSeq.toNat (s.dev.port l).rxNext < 32768 ∧ (s.dev.port l).episode = none ∧ (s.dev.port l).held = [] :=
  ⟨(let u := onPort 2 {  }; { u with dev := { u.dev with uptime := 100000 } }), 0, { fcsGood := true, startGood := true, control := false, linkSeq := 5, size := 64, dst := 0, src := 0, tags := [], etherType := 0, payload := [] }, by decide +kernel⟩

theorem witness_tagOfPort : ∃ (_d : Device) (_l : Nat) (f : RxFrame) (t : BitVec 16),
    f.etherType.toNat ≠ 0x8808 ∧ f.tags = [t] :=
  ⟨base, 0, { fcsGood := true, startGood := true, control := false, linkSeq := 0, size := 64, dst := 0, src := 0, tags := [5], etherType := 0, payload := [] }, 5, by decide +kernel⟩

theorem witness_frameHeld : ∃ (s : State) (l : Fin 96) (_f : RxFrame),
    s.dev.runs 2 = true ∧ s.dev.portOn l = true ∧ s.dev.num (O.portState l) = 2 ∧ s.dev.islandStopped (10 + l / 24) = true :=
  ⟨(let u := onPort 1 {}; { u with dev := { u.dev with power := { u.dev.power with gated := [10] } } }), 0, { fcsGood := true, startGood := true, control := false, linkSeq := 0, size := 64, dst := 0, src := 0, tags := [], etherType := 0, payload := [] }, by decide +kernel⟩

theorem witness_frameWaits : ∃ (d : Device) (l : Nat) (f : RxFrame),
    d.portUp l = true ∧ (d.port l).held = [f] :=
  ⟨(onPort 1 { held := [{ fcsGood := true, startGood := true, control := false, linkSeq := 0, size := 64, dst := 0, src := 0, tags := [], etherType := 0, payload := [] }] }).dev, 0, { fcsGood := true, startGood := true, control := false, linkSeq := 0, size := 64, dst := 0, src := 0, tags := [], etherType := 0, payload := [] }, by decide +kernel⟩

theorem witness_brodluWrite : ∃ (s : State) (l : Fin 96) (r : RxIn) (d : Device),
    s.dev.portUp l = true ∧ ((s.dev.linkResumes l).drainPort l).rxHead l 1 = some (r, d) ∧ d.receives l r :=
  ⟨onCtx openCtx { rxq := [pkt 1] }, 0, pkt 1, (onCtx openCtx {}).dev, by decide +kernel⟩

theorem witness_brodluReduce : ∃ (s : State) (l : Fin 96) (r : RxIn) (d : Device),
    s.dev.portUp l = true ∧ ((s.dev.linkResumes l).drainPort l).rxHead l 2 = some (r, d) ∧ d.receives l r :=
  ⟨onCtx openCtx { rxq := [pkt 2] }, 0, pkt 2, (onCtx openCtx {}).dev, by decide +kernel⟩

theorem witness_brodluSend : ∃ (s : State) (l : Fin 96) (r : RxIn) (d : Device),
    s.dev.portUp l = true ∧ ((s.dev.linkResumes l).drainPort l).rxHead l 3 = some (r, d) ∧ d.receives l r :=
  ⟨onCtx openCtx { rxq := [pkt 3] }, 0, pkt 3, (onCtx openCtx {}).dev, by decide +kernel⟩

theorem witness_brodluDict : ∃ (s : State) (l : Fin 96) (r : RxIn) (d : Device),
    s.dev.portUp l = true ∧ ((s.dev.linkResumes l).drainPort l).rxHead l 4 = some (r, d) ∧ d.receives l r :=
  ⟨onCtx openCtx { rxq := [pkt 4] }, 0, pkt 4, (onCtx openCtx {}).dev, by decide +kernel⟩

theorem witness_brodluFin : ∃ (s : State) (l : Fin 96) (r : RxIn) (d : Device),
    s.dev.portUp l = true ∧ ((s.dev.linkResumes l).drainPort l).rxHead l 8 = some (r, d) ∧ d.receives l r :=
  ⟨onCtx openCtx { rxq := [pkt 8] }, 0, pkt 8, (onCtx openCtx {}).dev, by decide +kernel⟩

theorem witness_brodluAck : ∃ (s : State) (l : Fin 96) (r : RxIn) (d : Device),
    s.dev.rxHead l 5 = some (r, d) ∧ (d.rxFree l r.bufs).refusal l r.pkt.dst r = none :=
  ⟨onCtx openCtx { rxq := [pkt 5] }, 0, pkt 5, (onCtx openCtx {}).dev, by decide +kernel⟩

theorem witness_brodluNak : ∃ (s : State) (l : Fin 96) (r : RxIn) (d : Device),
    s.dev.rxHead l 6 = some (r, d) ∧ (d.rxFree l r.bufs).ctxSt r.pkt.dst = 2 ∧ (d.rxFree l r.bufs).ctxPort r.pkt.dst = l.val ∧ (d.rxFree l r.bufs).fromPeer r.pkt.dst r = true :=
  ⟨onCtx openCtx { rxq := [pkt 6] }, 0, pkt 6, (onCtx openCtx {}).dev, by decide +kernel⟩

theorem witness_brodluSync : ∃ (s : State) (l : Fin 96) (r : RxIn) (d : Device),
    s.dev.rxHead l 7 = some (r, d) ∧ ((d.rxFree l r.bufs).ctxSt r.pkt.dst = 1 ∨ (d.rxFree l r.bufs).ctxSt r.pkt.dst = 2) ∧ (d.rxFree l r.bufs).ctxDatagram r.pkt.dst = false ∧ (d.rxFree l r.bufs).ctxPort r.pkt.dst = l.val ∧ (d.rxFree l r.bufs).fromPeer r.pkt.dst r = true :=
  ⟨onCtx openCtx { rxq := [pkt 7] }, 0, pkt 7, (onCtx openCtx {}).dev, by decide +kernel⟩

theorem witness_packetTransmit : ∃ (s : State) (l : Fin 96),
    s.dev.portUp l = true ∧ (s.dev.port l).held = [] ∧ (s.dev.port l).outq = [] ∧ s.dev.maySend l 9216 = true :=
  ⟨onCtx openCtx {}, 0, by decide +kernel⟩

theorem witness_transmitHead : ∃ (d : Device) (n : Nat) (p : Packet) (rest : List Packet) (ch : Nat) (e : Device),
    (d.ctx n).queue = p :: rest ∧ (d.ctx n).pool = some ch ∧ d.ctxDatagram n = false ∧ d.poolTake (d.ctxPort n / 24) ch (max 1 ((p.payload.length + 4095) / 4096)) = (true, e) ∧ e.ctxDatagram n = false :=
  ⟨(let u := onCtx { openCtx with pool := some 0, queue := [(pkt 1).pkt] } {}; { u.dev with objs := tput u.dev.objs (O.channelCap 0 0) (.num 4) }), 3, (pkt 1).pkt, [], 0, ((let u := onCtx { openCtx with pool := some 0, queue := [(pkt 1).pkt] } {}; ({ u.dev with objs := tput u.dev.objs (O.channelCap 0 0) (.num 4) } : Device)).poolTake 0 0 1).2, by decide +kernel⟩

theorem witness_ctxClose : ∃ (s : State) (n : Fin 4096),
    s.dev.accepts (O.ctxControl n) ∧ s.dev.ctxSt n = 2 :=
  ⟨onCtx openCtx {}, 3, by decide +kernel⟩

theorem witness_ctxCloseFailed : ∃ (s : State) (n : Fin 4096),
    s.dev.accepts (O.ctxControl n) ∧ s.dev.ctxSt n = 3 :=
  ⟨(let u := onCtx openCtx {}; { u with dev := { u.dev with objs := tput u.dev.objs (O.ctxState 3) (.num 3) } }), 3, by decide +kernel⟩

theorem witness_ctxOpenReliable : ∃ (s : State) (n : Fin 4096),
    s.dev.accepts (O.ctxControl n) ∧ s.dev.ctxSt n = 0 ∧ (s.dev.ctx n).closedAt = none ∧ s.dev.portOn (s.dev.ctxPort n) = true ∧ s.dev.channelFree (s.dev.ctxPort n / 24) (s.dev.ctxCfg n 34 2) ∧ s.dev.ctxDatagram n = false :=
  ⟨(let u := onCtx {} {}; { u with dev := { u.dev with objs := tput (tput u.dev.objs (O.ctxState 3) (.num 0)) (O.ctxConfig 3) (.bytes (List.replicate 37 0 ++ [4] ++ List.replicate 26 0)) } }), 3, by decide +kernel⟩

theorem witness_ctxOpenDatagram : ∃ (s : State) (n : Fin 4096),
    s.dev.accepts (O.ctxControl n) ∧ s.dev.ctxSt n = 0 ∧ (s.dev.ctx n).closedAt = none ∧ s.dev.portOn (s.dev.ctxPort n) = true ∧ s.dev.channelFree (s.dev.ctxPort n / 24) (s.dev.ctxCfg n 34 2) ∧ s.dev.ctxDatagram n = true :=
  ⟨(let u := onCtx {} {}; { u with dev := { u.dev with objs := tput (tput u.dev.objs (O.ctxState 3) (.num 0)) (O.ctxConfig 3) (.bytes ([0, 0, 1] ++ List.replicate 34 0 ++ [4] ++ List.replicate 26 0)) } }), 3, by decide +kernel⟩

theorem witness_ctxThaw : ∃ (s : State) (n : Fin 4096) (d : Device),
    s.dev.accepts (O.ctxThaw n) ∧ s.dev.ctxSt n = 4 ∧ s.dev.thaw (masterId 4 n) = d.okay :=
  ⟨(let u := onCtx openCtx {}; { u with dev := { u.dev with uptime := 1000000, objs := tput u.dev.objs (O.ctxState 3) (.num 4), errs := { frozen := [{ master := masterId 4 3, seq := 1, time := 0 }] } } }), 3, (let u := onCtx openCtx {}; (({ u.dev with uptime := 1000000, objs := tput u.dev.objs (O.ctxState 3) (.num 4), errs := { frozen := [{ master := masterId 4 3, seq := 1, time := 0 }] } } : Device).thaw (masterId 4 3)).s), by decide +kernel⟩

theorem witness_syncInterval : ∃ (s : State) (n : Fin 4096),
    s.dev.runs 2 = true ∧ s.dev.ctxSt n = 1 ∧ (s.dev.ctx n).lastSync + us 100 ≤ s.dev.uptime :=
  ⟨(let u := onCtx {  } {}; { u with dev := { u.dev with objs := tput u.dev.objs (O.ctxState 3) (.num 1) } }), 3, by decide +kernel⟩

theorem witness_syncTimeout : ∃ (s : State) (n : Fin 4096),
    s.dev.runs 2 = true ∧ s.dev.ctxSt n = 1 ∧ (s.dev.ctx n).openedAt + ms (s.dev.num O.syncTimeoutMs) ≤ s.dev.uptime :=
  ⟨(let u := onCtx {} {}; { u with dev := { u.dev with objs := tput (tput u.dev.objs (O.ctxState 3) (.num 1)) O.syncTimeoutMs (.num 1) } }), 3, by decide +kernel⟩

theorem witness_ackDelayTimer : ∃ (s : State) (n : Fin 4096) (t : Nat),
    (s.dev.ctx n).ackDue = some t ∧ s.dev.runs 2 = true ∧ s.dev.ctxSt n = 2 ∧ t ≤ s.dev.uptime :=
  ⟨(let u := onCtx { ackDue := some 5 } {}; { u with dev := { u.dev with objs := tput u.dev.objs (O.ctxState 3) (.num 2) } }), 3, 5, by decide +kernel⟩

theorem witness_retransmitTimeout : ∃ (s : State) (n : Fin 4096) (u : Unacked) (rest : List Unacked),
    (s.dev.ctx n).unacked = u :: rest ∧ s.dev.runs 2 = true ∧ s.dev.ctxSt n = 2 ∧ (s.dev.port (s.dev.ctxPort n)).episode = none ∧ u.timerAt + us (rtoUs u.tries) ≤ s.dev.uptime ∧ u.tries < 6 :=
  ⟨(let u := onCtx { unacked := [{ pkt := { type := 1 }, timerAt := 0 }] } {}; { u with dev := { u.dev with objs := tput u.dev.objs (O.ctxState 3) (.num 2) } }), 3, { pkt := { type := 1 }, timerAt := 0 }, [], by decide +kernel⟩

theorem witness_retransmitGivesUp : ∃ (s : State) (n : Fin 4096) (u : Unacked) (rest : List Unacked),
    (s.dev.ctx n).unacked = u :: rest ∧ s.dev.runs 2 = true ∧ s.dev.ctxSt n = 2 ∧ (s.dev.port (s.dev.ctxPort n)).episode = none ∧ u.timerAt + us (rtoUs u.tries) ≤ s.dev.uptime ∧ 6 ≤ u.tries :=
  ⟨(let u := onCtx { unacked := [{ pkt := { type := 1 }, timerAt := 0, tries := 6 }] } {}; { u with dev := { u.dev with objs := tput u.dev.objs (O.ctxState 3) (.num 2) } }), 3, { pkt := { type := 1 }, timerAt := 0, tries := 6 }, [], by decide +kernel⟩

theorem witness_noBufferRetry : ∃ (s : State) (n : Fin 4096) (u : Unacked),
    s.dev.dueAgain n = some u ∧ s.dev.runs 2 = true ∧ s.dev.ctxSt n = 2 :=
  ⟨(let u := onCtx { peerLimit := 9, unacked := [{ pkt := { type := 1 }, timerAt := 0, retryAt := some 5 }] } {}; { u with dev := { u.dev with objs := tput u.dev.objs (O.ctxState 3) (.num 2) } }), 3, { pkt := { type := 1 }, timerAt := 0, retryAt := some 5 }, by decide +kernel⟩

theorem witness_rateControlPeriod : ∃ (s : State),
    s.dev.runs 2 = true ∧ s.dev.net.rcAt + us (s.dev.num O.rcPeriodUs) ≤ s.dev.uptime :=
  ⟨onCtx openCtx {}, by decide +kernel⟩

theorem witness_put : ∃ (s : State) (id : BitVec 32) (p : PlanRun) (x : Job) (t : PlanStep),
    s.dev.planReady id.toNat (fun t => t.op == 1 && !t.isLocal) = some (p, x, t) ∧ s.dev.bufWaits (x.buf t.src) t.srcOff t.length false = false ∧ s.dev.bufOn (x.buf t.src) = true ∧ s.dev.bufBlocked (x.buf t.src) t.srcOff t.length false = false :=
  ⟨onPlan (planOf 1 3) [] 0, 5, planOf 1 3, pageJob, (planOf 1 3).step 0, by decide +kernel⟩

theorem witness_putAdd : ∃ (s : State) (id : BitVec 32) (p : PlanRun) (x : Job) (t : PlanStep),
    s.dev.planReady id.toNat (fun t => t.op == 2 && !t.isLocal) = some (p, x, t) ∧ s.dev.bufWaits (x.buf t.src) t.srcOff t.length false = false ∧ s.dev.bufOn (x.buf t.src) = true ∧ s.dev.bufBlocked (x.buf t.src) t.srcOff t.length false = false :=
  ⟨onPlan (planOf 2 3) [] 0, 5, planOf 2 3, pageJob, (planOf 2 3).step 0, by decide +kernel⟩

theorem witness_localStep : ∃ (s : State) (id : BitVec 32) (p : PlanRun) (x : Job) (t : PlanStep),
    s.dev.planReady id.toNat (PlanStep.isLocal) = some (p, x, t) ∧ s.dev.bufWaits (x.buf t.src) t.srcOff t.length false = false ∧ s.dev.bufOn (x.buf t.src) = true ∧ s.dev.bufBlocked (x.buf t.src) t.srcOff t.length false = false ∧ s.dev.bufWaits (x.buf t.window) t.dstOff t.length true = false ∧ s.dev.bufOn (x.buf t.window) = true ∧ s.dev.bufBlocked (x.buf t.window) t.dstOff t.length true = false :=
  ⟨onPlan (planOf 1 4095) [] 0, 5, planOf 1 4095, pageJob, (planOf 1 4095).step 0, by decide +kernel⟩

theorem witness_waitIn : ∃ (s : State) (id : BitVec 32) (p : PlanRun) (x : Job) (t : PlanStep),
    s.dev.planReady id.toNat (fun t => t.op == 3) = some (p, x, t) :=
  ⟨onPlan (planOf 3 3) [] 0, 5, planOf 3 3, pageJob, (planOf 3 3).step 0, by decide +kernel⟩

theorem witness_planStepComplete : ∃ (s : State) (id : BitVec 32) (_i : Fin 4096) (p : PlanRun),
    s.dev.plan? id.toNat = some p ∧ s.dev.works 2 = true ∧ p.running = true :=
  ⟨onPlan (planOf 1 0xFFF) [(0, .nothing)] 1, 5, 0, { planOf 1 0xFFF with waits := [(0, .nothing)], started := 1 }, by decide +kernel⟩

theorem witness_streamOpen : ∃ (s : State) (m : Fin 4) (n : Fin 64) (x : Job) (c : Bytes) (d : Device),
    s.dev.accepts (O.streamControl m n) ∧ s.dev.resident (leAt (s.dev.sCfg (64 * m.val + n.val)) 2 1) = true ∧ s.dev.streamSt (64 * m.val + n.val) = 0 ∧ c = s.dev.sCfg (64 * m.val + n.val) ∧ s.dev.job? (leAt c 2 1) = some x ∧ streamCfgOk c = true ∧ s.dev.ctxDelivery (leAt c 4 2) = 2 ∧ s.dev.ctxPort (leAt c 4 2) / 24 = m.val ∧ s.dev.ctxJob (leAt c 4 2) = leAt c 2 1 ∧ largestSize c ≤ leAt c 136 4 ∧ (s.dev.plainExtent x (leAt c 104 8) (4096 + leAt c 112 4 * strandStride c) && s.dev.plainExtent x (leAt c 128 8) (leAt c 3 1 * leAt c 136 4) && (leAt c 120 8 == 0 || s.dev.plainExtent x (leAt c 120 8) (16 * 139264))) = true ∧ (s.dev.claim [O.ctxState (leAt c 4 2), O.streamState m n] (O.streamControl m n) 0xFFFFFFFF).1 = d ∧ (s.dev.claim [O.ctxState (leAt c 4 2), O.streamState m n] (O.streamControl m n) 0xFFFFFFFF).2 = none ∧ d.channelFree m (leAt c 6 2) :=
  ⟨onStream 0 textCfg {  }, 0, 0, mediaJob, textCfg, ((onStream 0 textCfg {}).dev.claim [O.ctxState 3, O.streamState 0 0] (O.streamControl 0 0) 0xFFFFFFFF).1, by decide +kernel⟩

theorem witness_streamClose : ∃ (s : State) (m : Fin 4) (n : Fin 64),
    s.dev.accepts (O.streamControl m n) ∧ s.dev.streamSt (64 * m.val + n.val) = 1 :=
  ⟨onStream 1 textCfg {  }, 0, 0, by decide +kernel⟩

theorem witness_streamFlush : ∃ (s : State) (m : Fin 4) (n : Fin 64),
    s.dev.accepts (O.streamControl m n) ∧ s.dev.streamSt (64 * m.val + n.val) = 1 :=
  ⟨onStream 1 textCfg {  }, 0, 0, by decide +kernel⟩

theorem witness_streamThaw : ∃ (s : State) (m : Fin 4) (n : Fin 64) (d : Device),
    s.dev.accepts (O.streamThaw m n) ∧ s.dev.streamSt (64 * m.val + n.val) = 3 ∧ s.dev.thaw (masterId 6 (64 * m.val + n.val)) = d.okay :=
  ⟨(let u := onStream 3 textCfg {  }; { u with dev := { u.dev with errs := { frozen := [{ master := masterId 6 0, seq := 1, time := 0 }] } } }), 0, 0, (let u := onStream 3 textCfg {  }; (({ u.dev with errs := { frozen := [{ master := masterId 6 0, seq := 1, time := 0 }] } } : Device).thaw (masterId 6 0)).s), by decide +kernel⟩

theorem witness_encodeThaw : ∃ (s : State) (m : Fin 4) (n : Fin 64) (d : Device),
    s.dev.accepts (O.encodeThaw m n) ∧ s.dev.encSt (64 * m.val + n.val) = 3 ∧ s.dev.thaw (masterId 6 (64 * m.val + n.val)) = d.okay :=
  ⟨(let u := onEnc 3 {} []; { u with dev := { u.dev with errs := { frozen := [{ master := masterId 6 0, seq := 1, time := 0 }] } } }), 0, 0, (let u := onEnc 3 {} []; (({ u.dev with errs := { frozen := [{ master := masterId 6 0, seq := 1, time := 0 }] } } : Device).thaw (masterId 6 0)).s), by decide +kernel⟩

theorem witness_streamCloseComplete : ∃ (s : State) (m : Fin 4) (n : Fin 64),
    s.dev.works (mediaDomain m) = true ∧ s.dev.streamSt (64 * m.val + n.val) = 2 ∧ (s.dev.stream (64 * m.val + n.val)).records = [] ∧ (s.dev.stream (64 * m.val + n.val)).openStrand = none ∧ (s.dev.stream (64 * m.val + n.val)).closed = [] :=
  ⟨onStream 2 textCfg {  }, 0, 0, by decide +kernel⟩

theorem witness_recordArrival : ∃ (s : State) (m : Fin 4) (n : Fin 64) (p : Piece) (rest : List Piece),
    (s.dev.stream (64 * m.val + n.val)).inq = p :: rest ∧ p.need = 0 ∧ s.dev.streamWorks m (64 * m.val + n.val) = true ∧ p.first = true :=
  ⟨onStream 1 textCfg { inq := [{ first := true, last := true, data := [], bufs := 1 }] }, 0, 0, { first := true, last := true, data := [], bufs := 1 }, [], by decide +kernel⟩

theorem witness_recordLater : ∃ (s : State) (m : Fin 4) (n : Fin 64) (p : Piece) (rest : List Piece),
    (s.dev.stream (64 * m.val + n.val)).inq = p :: rest ∧ p.need = 0 ∧ s.dev.streamWorks m (64 * m.val + n.val) = true ∧ p.first = false :=
  ⟨onStream 1 textCfg { inq := [{ first := false, last := true, data := [], bufs := 1 }] }, 0, 0, { first := false, last := true, data := [], bufs := 1 }, [], by decide +kernel⟩

theorem witness_recordTaken : ∃ (d : Device) (k : Nat) (p : Piece),
    (d.stream k).records = [] ∧ d.structural k p.data = none :=
  ⟨(onStream 1 textCfg {}).dev, 0, { first := true, last := true, data := [0, 0, 0, 0, 0, 0, 0, 1] ++ List.replicate 24 0, bufs := 1 }, by decide +kernel⟩

theorem witness_recordRefused : ∃ (d : Device) (k code : Nat) (p : Piece) (st : Status),
    (d.stream k).records = [] ∧ d.structural k p.data = some (st, code) :=
  ⟨(onStream 1 textCfg {}).dev, 0, 2, { first := true, last := true, data := [], bufs := 1 }, .malformed, by decide +kernel⟩

theorem witness_workSlotGrant : ∃ (s : State) (m : Fin 4) (n : Fin 64) (y : Sample) (i : Nat),
    s.dev.slotWaiter (64 * m.val + n.val) = some y ∧ s.dev.freeWorkSlot (64 * m.val + n.val) = some i ∧ s.dev.streamWorks m (64 * m.val + n.val) = true :=
  ⟨onStream 1 textCfg { records := [smp .waitSlot] }, 0, 0, smp .waitSlot, 0, by decide +kernel⟩

theorem witness_decodeDispatch : ∃ (s : State) (m : Fin 4) (k : Fin 4) (e : Nat),
    s.dev.freeEngine m k = some e ∧ s.dev.works (mediaDomain m) = true :=
  ⟨up, 0, 0, 0, by decide +kernel⟩

theorem witness_liveFirst : ∃ (d : Device) (m kind _e : Nat) (p : Nat × Sample),
    d.queueHead m kind true = some p :=
  ⟨(onStream 1 ((textCfg.set 1 1).set 0 0) { records := [{ seq := 0, hdr := [0, 0, 0, 0, 0, 0, 1, 1], stage := .queued }] }).dev, 0, 1, 8, (0, { seq := 0, hdr := [0, 0, 0, 0, 0, 0, 1, 1], stage := .queued }), by decide +kernel⟩

theorem witness_decodeComplete : ∃ (s : State) (m : Fin 4) (e : Fin 17) (d : Decoded) (u : Bool) (j : EngineJob) (y : Sample),
    (s.dev.engine m e).now = some j ∧ s.dev.sample? j.stream j.seq = some y ∧ s.dev.works (mediaDomain m) = true ∧ s.dev.streamSt j.stream ≠ 3 ∧ s.dev.inTime y = true ∧ (y.ended || d.outside y.codec || u) = true :=
  ⟨(let u := onStream 1 textCfg { records := [smp .decoding] }; { u with dev := { u.dev with net := { u.dev.net with engines := [(0, { now := some { stream := 0, seq := 0, live := false, start := 0 } })] } } }), 0, 0, { unsupported := false, width := 0, height := 0, frames := 0, samples := 0, channels := 0, rate := 0, depth := 8, float := false, planes := 1, subX := 1, subY := 1, ycbcr := false, matrix := 0, data := [], damage := [] }, false, { stream := 0, seq := 0, live := false, start := 0 }, smp .decoding, by decide +kernel⟩

theorem witness_decodeDeadline : ∃ (s : State) (m : Fin 4) (n : Fin 64) (q : BitVec 32) (y : Sample) (t : Nat),
    s.dev.sample? (64 * m.val + n.val) q.toNat = some y ∧ y.deadline = some t ∧ s.dev.works (mediaDomain m) = true ∧ y.stage = .decoding ∧ t ≤ s.dev.uptime :=
  ⟨(let u := onStream 1 textCfg { records := [{ smp .decoding with deadline := some 5 }] }; { u with dev := { u.dev with net := { u.dev.net with engines := [(0, { now := some { stream := 0, seq := 0, live := false, start := 0 } })] } } }), 0, 0, 0, { smp .decoding with deadline := some 5 }, 5, by decide +kernel⟩

theorem witness_lcSwitch : ∃ (s : State) (m : Fin 4) (e : Fin 17) (j : EngineJob) (p : Nat × Sample),
    (s.dev.engine m e).now = some j ∧ (e.val < 8 ∨ e.val = 16) ∧ j.live = false ∧ s.dev.works (mediaDomain m) = true ∧ s.dev.queueHead m (if e.val < 8 then 0 else 3) true = some p :=
  ⟨(let u := onStream 1 (textCfg.set 1 1) { records := [{ seq := 0, hdr := [0, 0, 0, 0, 0, 0, 3, 1], stage := .queued }] }; { u with dev := { u.dev with net := { u.dev.net with engines := [(0, { now := some { stream := 0, seq := 0, live := false, start := 0 } })] } } }), 0, 0, { stream := 0, seq := 0, live := false, start := 0 }, (0, { seq := 0, hdr := [0, 0, 0, 0, 0, 0, 3, 1], stage := .queued }), by decide +kernel⟩

theorem witness_samplePlace : ∃ (s : State) (m : Fin 4) (n : Fin 64) (y : Sample) (rest : List Sample),
    (s.dev.stream (64 * m.val + n.val)).records = y :: rest ∧ (y.stage = .ready ∨ y.stage = .failed) ∧ s.dev.streamWorks m (64 * m.val + n.val) = true :=
  ⟨onStream 1 textCfg { records := [smp .ready] }, 0, 0, smp .ready, [], by decide +kernel⟩

theorem witness_packTimeout : ∃ (s : State) (m : Fin 4) (n : Fin 64) (d : Strand),
    (s.dev.stream (64 * m.val + n.val)).openStrand = some d ∧ leAt (s.dev.sCfg (64 * m.val + n.val)) 100 4 ≠ 0 ∧ s.dev.works (mediaDomain m) = true ∧ s.dev.streamSt (64 * m.val + n.val) ≠ 3 ∧ d.firstAt + us (leAt (s.dev.sCfg (64 * m.val + n.val)) 100 4) ≤ s.dev.uptime :=
  ⟨onStream 1 packCfg { openStrand := some { number := 0 } }, 0, 0, { number := 0 }, by decide +kernel⟩

theorem witness_strandWrite : ∃ (s : State) (m : Fin 4) (n : Fin 64) (d : Strand) (rest : List Strand) (x : Job) (t : Nat),
    (s.dev.stream (64 * m.val + n.val)).closed = d :: rest ∧ s.dev.job? (leAt (s.dev.sCfg (64 * m.val + n.val)) 2 1) = some x ∧ s.dev.streamWorks m (64 * m.val + n.val) = true ∧ s.dev.spaceLe x (leAt (s.dev.sCfg (64 * m.val + n.val)) 104 8 + 8) 8 = t ∧ (s.dev.stream (64 * m.val + n.val)).lastTail ≤ t ∧ t ≤ d.number ∧ d.number - t < leAt (s.dev.sCfg (64 * m.val + n.val)) 112 4 :=
  ⟨onStream 1 textCfg { closed := [{ number := 0 }] }, 0, 0, { number := 0 }, [], mediaJob, 0, by decide +kernel⟩

theorem witness_splitRatioUpdate : ∃ (s : State) (m : Fin 4),
    s.dev.works (mediaDomain m) = true ∧ tgetD s.dev.net.splitAt m.val 0 + us (s.dev.num O.splitPeriodUs) ≤ s.dev.uptime :=
  ⟨(let u := onStream 1 textCfg {}; { u with dev := { u.dev with uptime := 10000000000 } }), 0, by decide +kernel⟩

theorem witness_encodeOpen : ∃ (s : State) (m : Fin 4) (n : Fin 64) (x : Job) (c : Bytes) (d : Device),
    s.dev.accepts (O.encodeControl m n) ∧ c = s.dev.eCfg (64 * m.val + n.val) ∧ s.dev.resident (leAt c 2 1) = true ∧ s.dev.encSt (64 * m.val + n.val) = 0 ∧ s.dev.job? (leAt c 2 1) = some x ∧ encCfgOk c = true ∧ bit (s.dev.num O.encodeCodecs) (leAt c 0 1) = true ∧ leAt c 60 1 = 0 ∧ (s.dev.plainExtent x (leAt c 32 8) (4096 + leAt c 40 4 * encStride c) && s.dev.plainExtent x (leAt c 48 8) (leAt c 56 4 + 64)) = true ∧ (s.dev.claim [O.streamState m n] (O.encodeControl m n) 0xFFFFFFFF).1 = d ∧ (s.dev.claim [O.streamState m n] (O.encodeControl m n) 0xFFFFFFFF).2 = none :=
  ⟨onEnc 0 {  } [], 0, 0, mediaJob, encCfg, ((onEnc 0 {} []).dev.claim [O.streamState 0 0] (O.encodeControl 0 0) 0xFFFFFFFF).1, by decide +kernel⟩

theorem witness_encodeClose : ∃ (s : State) (m : Fin 4) (n : Fin 64),
    s.dev.accepts (O.encodeControl m n) ∧ s.dev.encSt (64 * m.val + n.val) = 1 :=
  ⟨onEnc 1 {  } [], 0, 0, by decide +kernel⟩

theorem witness_sourceHeadPoll : ∃ (s : State) (m : Fin 4) (n : Fin 64) (x : Job) (h : Nat),
    s.dev.job? (leAt (s.dev.eCfg (64 * m.val + n.val)) 2 1) = some x ∧ s.dev.works (mediaDomain m) = true ∧ s.dev.encSt (64 * m.val + n.val) = 1 ∧ s.dev.spaceLe x (leAt (s.dev.eCfg (64 * m.val + n.val)) 32 8) 8 = h ∧ (s.dev.enc (64 * m.val + n.val)).head < h ∧ h - (s.dev.enc (64 * m.val + n.val)).seen ≤ leAt (s.dev.eCfg (64 * m.val + n.val)) 40 4 :=
  ⟨onEnc 1 {  } [(0, [1])], 0, 0, mediaJob, 1, by decide +kernel⟩

theorem witness_encodeFrameStart : ∃ (s : State) (m : Fin 4) (k e : Nat) (f : EncFrame),
    s.dev.encPick m = some k ∧ s.dev.freeEncoder m = some e ∧ s.dev.works (mediaDomain m) = true ∧ s.dev.encNext k = some f ∧ (s.dev.encRead k f).isSome = true :=
  ⟨onEnc 1 { frames := [{ number := 0, arrivedAt := 0 }] } [], 0, 0, 14, { number := 0, arrivedAt := 0 }, by decide +kernel⟩

theorem witness_encodeFrameEnd : ∃ (s : State) (m : Fin 4) (n : Fin 64) (f : EncFrame),
    s.dev.works (mediaDomain m) = true ∧ (s.dev.encSt (64 * m.val + n.val) = 1 ∨ s.dev.encSt (64 * m.val + n.val) = 2) ∧ (s.dev.enc (64 * m.val + n.val)).encoding = some f :=
  ⟨onEnc 1 { encoding := some { number := 0, arrivedAt := 0 } } [], 0, 0, { number := 0, arrivedAt := 0 }, by decide +kernel⟩

theorem witness_frameDeadline : ∃ (s : State) (m : Fin 4) (n : Fin 64) (f : EncFrame),
    s.dev.encNext (64 * m.val + n.val) = some f ∧ s.dev.works (mediaDomain m) = true ∧ s.dev.encLate (64 * m.val + n.val) f = true ∧ (s.dev.encRead (64 * m.val + n.val) f).isSome = true :=
  ⟨(let u := onEnc 1 { frames := [{ number := 0, arrivedAt := 0 }] } []; { u with dev := { u.dev with objs := tput u.dev.objs (O.encodeConfig 0 0) (.bytes ((encCfg.set 1 1).set 28 200)) } }), 0, 0, { number := 0, arrivedAt := 0 }, by decide +kernel⟩

theorem witness_register : ∃ (s : State) (j : Fin 32),
    s.dev.accepts (O.jobControl j) ∧ s.dev.startupCode = suReady ∧ s.dev.jobCode j = jsFree ∧ s.dev.domainOn 3 = true ∧ s.dev.hbmIn (s.dev.num (O.registrationAddress j)) 1024 = true ∧ s.dev.hbmBlocked (s.dev.num (O.registrationAddress j)) 1024 false = false ∧ (s.dev.recordJob (s.dev.num (O.registrationAddress j))).badField (s.dev.num O.commandTimeoutMs) = none ∧ s.dev.spaceBlocked (s.dev.recordJob (s.dev.num (O.registrationAddress j))) ((s.dev.recordJob (s.dev.num (O.registrationAddress j))).at_ 32 8) (16 * (s.dev.recordJob (s.dev.num (O.registrationAddress j))).entries) false = false ∧ s.dev.scheduleBad (s.dev.recordJob (s.dev.num (O.registrationAddress j))) = none :=
  ⟨onSlot 0 [], 0, by decide +kernel⟩

theorem witness_jobAdmit : ∃ (s : State) (j : Fin 32) (x : Job),
    s.dev.accepts (O.jobControl j) ∧ s.dev.startupCode = suReady ∧ (s.dev.jobCode j = jsRegistered ∨ s.dev.jobCode j = jsSuspended) ∧ s.dev.job? j = some x ∧ s.dev.domainOn 3 = true ∧ s.dev.admitBad j x = none :=
  ⟨onSlot 1 [], 0, { reg := recReg, recAddr := 262144, lastT := 0 }, by decide +kernel⟩

theorem witness_leave : ∃ (s : State) (j : Fin 32),
    s.dev.accepts (O.jobControl j) ∧ s.dev.startupCode = suReady ∧ (s.dev.jobCode j = jsReady ∨ s.dev.jobCode j = jsStopped ∨ s.dev.jobCode j = jsFrozen) :=
  ⟨onSlot 2 [], 0, by decide +kernel⟩

theorem witness_suspend : ∃ (s : State) (j : Fin 32),
    s.dev.accepts (O.jobControl j) ∧ s.dev.startupCode = suReady ∧ (s.dev.jobCode j = jsReady ∨ s.dev.jobCode j = jsStopped ∨ s.dev.jobCode j = jsFrozen) :=
  ⟨onSlot 2 [], 0, by decide +kernel⟩

theorem witness_deregister : ∃ (s : State) (j : Fin 32),
    s.dev.accepts (O.jobControl j) ∧ s.dev.startupCode = suReady ∧ (s.dev.jobCode j = jsRegistered ∨ s.dev.jobCode j = jsSuspended) :=
  ⟨onSlot 1 [], 0, by decide +kernel⟩

theorem witness_jobThaw : ∃ (s : State) (j : Fin 32) (d : Device),
    s.dev.accepts (O.jobThaw j) ∧ s.dev.startupCode = suReady ∧ s.dev.jobCode j = jsFrozen ∧ s.dev.thaw (masterId 1 j) = d.okay :=
  ⟨(let u := onSlot 9 []; { u with dev := { u.dev with errs := { frozen := [{ master := masterId 1 0, seq := 1, time := 0 }] } } }), 0, ((let u := onSlot 9 []; (({ u.dev with errs := { frozen := [{ master := masterId 1 0, seq := 1, time := 0 }] } } : Device).thaw (masterId 1 0)).s)), by decide +kernel⟩

theorem witness_stepSubmit : ∃ (s : State) (j : Fin 32) (d : Bytes) (x : Job),
    s.dev.accepts (O.stepSubmit j) ∧ s.dev.startupCode = suReady ∧ d.length = 64 ∧ stepSlot d = j ∧ (s.dev.resident j && s.dev.jobCode j != jsFrozen) = true ∧ s.dev.job? j = some x ∧ x.pending.length < 4 ∧ x.expects d = true ∧ x.stepExtents d = true :=
  ⟨onSlot 2 [], 0, (leBytes 8 1 ++ List.replicate 56 0), { reg := recReg, recAddr := 262144, lastT := 0 }, by decide +kernel⟩

theorem witness_stepStart : ∃ (s : State) (j : Fin 32) (conf : List (List (BitVec 16))) (x : Job) (w : StepWait) (rest : List StepWait) (d : Device),
    s.dev.job? j = some x ∧ x.pending = w :: rest ∧ s.dev.stepMay j x = true ∧ s.dev.stepLocked x w.desc = false ∧ ((s.dev.stepBegin j x w rest).coresIdle j x).stepBlocked x w.desc = false ∧ ((s.dev.stepBegin j x w rest).coresIdle j x).stepSlotsAndLengths j x (s.dev.stepRun w) (conf.map fun l => l.map fun v => v.toNat) = some d := by
  obtain ⟨d, h⟩ := Option.isSome_iff_exists.mp (show (((((let u := onSlot 2 []; ({ u with dev := { u.dev with work := { u.dev.work with jobs := [(0, { reg := recReg, recAddr := 262144, lastT := 1, pending := [({ desc := (leBytes 8 1 ++ List.replicate 56 0), queue := none } : StepWait)] })] } } } : State))).dev.stepBegin 0 { reg := recReg, recAddr := 262144, lastT := 1, pending := [({ desc := (leBytes 8 1 ++ List.replicate 56 0), queue := none } : StepWait)] } ({ desc := (leBytes 8 1 ++ List.replicate 56 0), queue := none } : StepWait) []).coresIdle 0 { reg := recReg, recAddr := 262144, lastT := 1, pending := [({ desc := (leBytes 8 1 ++ List.replicate 56 0), queue := none } : StepWait)] }).stepSlotsAndLengths 0 { reg := recReg, recAddr := 262144, lastT := 1, pending := [({ desc := (leBytes 8 1 ++ List.replicate 56 0), queue := none } : StepWait)] } (((let u := onSlot 2 []; ({ u with dev := { u.dev with work := { u.dev.work with jobs := [(0, { reg := recReg, recAddr := 262144, lastT := 1, pending := [({ desc := (leBytes 8 1 ++ List.replicate 56 0), queue := none } : StepWait)] })] } } } : State))).dev.stepRun ({ desc := (leBytes 8 1 ++ List.replicate 56 0), queue := none } : StepWait)) []).isSome = true by decide +kernel)
  exact ⟨(let u := onSlot 2 []; ({ u with dev := { u.dev with work := { u.dev.work with jobs := [(0, { reg := recReg, recAddr := 262144, lastT := 1, pending := [({ desc := (leBytes 8 1 ++ List.replicate 56 0), queue := none } : StepWait)] })] } } } : State)), 0, [], { reg := recReg, recAddr := 262144, lastT := 1, pending := [({ desc := (leBytes 8 1 ++ List.replicate 56 0), queue := none } : StepWait)] }, ({ desc := (leBytes 8 1 ++ List.replicate 56 0), queue := none } : StepWait), [], d, by decide +kernel, by decide +kernel, by decide +kernel, by decide +kernel, by decide +kernel, h⟩

theorem witness_sliceEnd : ∃ (s : State) (j : Fin 32) (x : Job),
    s.dev.job? j = some x ∧ s.dev.sliceOver j x = true ∧ (s.dev.residents.foldl Device.lcTurn s.dev).leavesCores j = false :=
  ⟨(let u := onSlot 3 []; { u with dev := { u.dev with work := { u.dev.work with jobs := [(0, { reg := [1, 0, 1], recAddr := 0, lastT := 0, sliceLen := 5, sliceUsed := 5 })] } } }), 0, { reg := [1, 0, 1], recAddr := 0, lastT := 0, sliceLen := 5, sliceUsed := 5 }, by decide +kernel⟩

theorem witness_cheapPointReached : ∃ (s : State) (c : Fin 32) (k : Fin 16) (h : Hand) (a : Nat),
    s.dev.hand? (coreNo c k) = some h ∧ h.out = some a ∧ h.stage = .toCheap ∧ s.dev.atCheap (coreNo c k) = true ∧ s.dev.coreRests (coreNo c k) = true ∧ (s.dev.core (coreNo c k)).banksFree = true ∧ s.dev.jobTxnsOver a = true ∧ s.dev.runs 1 = true ∧ s.dev.runs (clusterDomain c) = true ∧ s.dev.recordValid (some a) (coreNo c k) = false :=
  ⟨onHand .toCheap none, 0, 0, { out := some 0, into := none, stage := .toCheap, since := 0 }, 0, by decide +kernel⟩

theorem witness_cheapPointReachedSaved : ∃ (s : State) (c : Fin 32) (k : Fin 16) (h : Hand) (a : Nat),
    s.dev.hand? (coreNo c k) = some h ∧ h.out = some a ∧ h.stage = .toCheap ∧ s.dev.atCheap (coreNo c k) = true ∧ s.dev.coreRests (coreNo c k) = true ∧ (s.dev.core (coreNo c k)).banksFree = true ∧ s.dev.jobTxnsOver a = true ∧ s.dev.runs 1 = true ∧ s.dev.runs (clusterDomain c) = true ∧ s.dev.recordValid (some a) (coreNo c k) = true :=
  ⟨(let u := onHand .toCheap none; { u with dev := { u.dev with work := { u.dev.work with jobs := [(0, { reg := recReg, recAddr := 0, lastT := 0, recs := [(0, { core := {}, full := true, ranges := [], gates := [] })] })] } } }), 0, 0, { out := some 0, into := none, stage := .toCheap, since := 0 }, 0, by decide +kernel⟩

theorem witness_cheapPointTimeout : ∃ (s : State) (c : Fin 32) (k : Fin 16) (h : Hand) (a : Nat),
    s.dev.hand? (coreNo c k) = some h ∧ h.out = some a ∧ h.stage = .toCheap ∧ h.since + us (s.dev.num O.cheapPointWaitUs) ≤ s.dev.uptime ∧ s.dev.runs 1 = true :=
  ⟨onHand .toCheap none, 0, 0, { out := some 0, into := none, stage := .toCheap, since := 0 }, 0, by decide +kernel⟩

theorem witness_coreSaveComplete : ∃ (s : State) (c : Fin 32) (k : Fin 16) (h : Hand),
    s.dev.hand? (coreNo c k) = some h ∧ (h.stage = .saving ∨ (h.stage = .full ∧ s.dev.coreStill (coreNo c k) = true ∧ (match h.out with | some a => s.dev.jobTxnsOver a | none => true) = true)) ∧ s.dev.runs 1 = true ∧ s.dev.runs 3 = true :=
  ⟨onHand .full none, 0, 0, { out := some 0, into := none, stage := .full, since := 0 }, by decide +kernel⟩

theorem witness_coreClearComplete : ∃ (s : State) (c : Fin 32) (k : Fin 16) (h : Hand) (a : Nat),
    s.dev.hand? (coreNo c k) = some h ∧ h.out = some a ∧ h.stage = .clearing ∧ s.dev.runs 1 = true ∧ s.dev.runs (clusterDomain c) = true :=
  ⟨onHand .clearing none, 0, 0, { out := some 0, into := none, stage := .clearing, since := 0 }, 0, by decide +kernel⟩

theorem witness_coreRestoreComplete : ∃ (s : State) (c : Fin 32) (k : Fin 16) (h : Hand) (b : Nat),
    s.dev.hand? (coreNo c k) = some h ∧ h.into = some b ∧ h.stage = .restoring ∧ s.dev.runs 1 = true ∧ s.dev.runs 3 = true ∧ s.dev.runs (clusterDomain c) = true :=
  ⟨onHand .restoring (some 1), 0, 0, { out := some 0, into := some 1, stage := .restoring, since := 0 }, 1, by decide +kernel⟩

theorem witness_commandRunLimit : ∃ (s : State) (u : RunUnit) (st _rows : BitVec 32) (j t : Nat),
    s.dev.running u = some (j, t) ∧ t + us 200 + st.toNat ≤ s.dev.uptime :=
  ⟨(let u := onHand .toCheap none; { u with dev := u.dev.setCore 0 { u.dev.core 0 with vrun := some 0 } }), .vector 0 0, 0, 0, 0, 0, by decide +kernel⟩

theorem witness_jobWatchdogExpiry : ∃ (s : State) (j : Fin 32) (x : Job) (r : StepRun),
    s.dev.job? j = some x ∧ x.cur = some r ∧ s.dev.works 1 = true ∧ s.dev.jobRetrying j = false ∧ (s.dev.dogResumed x).dogLen + (s.dev.dogResumed x).dogPaused ≤ s.dev.dogCount x ∧ s.dev.jobCode j = jsRunning :=
  ⟨(let u := onSlot 3 []; { u with dev := { u.dev with work := { u.dev.work with jobs := [(0, { reg := recReg, recAddr := 0, lastT := 0, cur := some schedStep, dogUsed := 9, dogLen := 5 })] } } }), 0, { reg := recReg, recAddr := 0, lastT := 0, cur := some schedStep, dogUsed := 9, dogLen := 5 }, schedStep, by decide +kernel⟩

theorem witness_watchdogPause : ∃ (s : State) (j : Fin 32) (x : Job) (r : StepRun),
    s.dev.job? j = some x ∧ x.cur = some r ∧ s.dev.works 1 = true ∧ s.dev.jobRetrying j = true ∧ x.dogPaused + s.dev.dogPause x < x.dogLen ∧ x.dogHold = none :=
  ⟨(let u := onSlot 3 []; { u with dev := { u.dev with work := { u.dev.work with jobs := [(0, { reg := recReg, recAddr := 0, lastT := 0, cur := some schedStep, dogUsed := 9, dogLen := 5 })], upd := [(0, [unitRun 0 32 .slotWait])] } } }), 0, { reg := recReg, recAddr := 0, lastT := 0, cur := some schedStep, dogUsed := 9, dogLen := 5 }, schedStep, by decide +kernel⟩

theorem witness_DomainOffRefused : ∃ (s : State) (d : Fin 24), 4 ≤ d.val ∧ s.dev.accepts (O.domainControl d) ∧ s.dev.power.trans = .none ∧
    s.dev.num O.powerState ≤ 1 ∧ s.dev.domainOn 1 = true ∧ s.dev.domainOn 2 = true ∧ s.dev.domainOn 3 = true ∧ s.dev.num (O.domainState d) = 2 ∧
    (s.dev.opOf d).move = none ∧ ∃ t ∈ s.dev.mem.txns, masterDomain t.2.master = some d.val :=
  ⟨{ up with dev := { base with mem := { txns := [(0, { master := masterId 2 0, openedAt := 0, limit := 5 })] } } }, 8, by decide +kernel⟩

theorem witness_ConversionExact : ∃ (k : Nat) (f : Fmt) (raw : Nat), fmtOf k = some f ∧ raw < 2 ^ f.w ∧ (f.decode raw).finite = true ∧
    (f.isInt = true → raw ≠ 2 ^ (f.w - 1)) ∧ raw = 0x7BFF := ⟨2, fmt! 2, 0x7BFF, by decide +kernel⟩

theorem witness_NoSharedPlace : segsOk fenced.mem.segs = true ∧ fencesOk fenced.mem.fences = true ∧ (fenced.segOf 0x1234567880).isSome = true ∧
    (fenced.segOf 0xB100000000).isSome = true := by decide +kernel

theorem witness_Translation : (fenced.segOf 0x1234567880).any (fun g => g.mode == 0) = true ∧ (fenced.segOf 0x5800000000).any (fun g => g.mode == 1) = true ∧
    (fenced.segOf 0xB100000000).any (fun g => g.mode == 2) = true := by decide +kernel

/-- The worked example of R268: A = 0x12_3456_7880 lies on pseudo-channel 146, granule 477,218, byte 128, home die Q0. -/
theorem test_translate : ({ base with mem := { segs := defaultSegs } } : Device).finalOf 0x1234567880 = (146, 477218) ∧
    ({ base with mem := { segs := defaultSegs } } : Device).homeDie 0x1234567880 = 0 := by decide +kernel

/-- The worked example of R287: with fence 0 on 146 the granule moves to pseudo-channel 525, granule 4,378,893. -/
theorem test_fenced : ({ base with mem := { segs := defaultSegs, fences := [{ p := 146, band := 0, start := 0, switched := some 1 }] } } : Device).finalOf
    0x1234567880 = (525, 4378893) := by decide +kernel

/-- The worked example of R275: data 1 has check bits 0x2053; a fault of value 6 on symbol 20 is corrected. -/
theorem test_symbol_code : checkBits 1 = 0x2053 ∧ syndrome [(20, 6)] = (6, 6, 0xB, 0xA) ∧ decodeSyndrome (syndrome [(20, 6)]) = .correct 20 6 := by
  decide +kernel

theorem witness_StoreFrame : segsOk fenced.mem.segs = true ∧ fenced.reaches 0x2000 0 (.write [1, 2]) [] ∧ fenced.reaches 0x2000 0 (.fetchAdd true 1) [] := by
  decide +kernel

theorem witness_StepRunsFront : ∃ (s : State) (c : Instr) (rest : List Instr), s.pending = c :: rest :=
  ⟨{ State.reset with pending := [.vddAonRise, .crystalStable] }, .vddAonRise, [.crystalStable], rfl⟩

theorem witness_IdleStepTicks : up.pending = [] ∧ up.dev.startup.powered = true ∧ State.reset.pending = [] ∧ State.reset.dev.startup.powered = false := by
  decide +kernel

theorem witness_InvStep : ∃ s t : State, Inv s ∧ step s = .next t ∧ s.pending ≠ [] :=
  ⟨{ State.reset with pending := [.crystalStable] }, _, ⟨by decide, by decide⟩, rfl, by decide⟩

theorem witness_FlashFrame : ∃ (c : Instr) (s t : State), exec c s = .next t ∧ t.flash = s.flash := ⟨.crystalStable, State.reset, _, rfl, rfl⟩

/-- Domain 4 is off: a command that writes an object of media complex 0 is refused by check 6. -/
theorem witness_RefusedWritesChangeNothing : (upWith [(O.domainState 4, 0)]).dev.managerRuns = true ∧
    (upWith [(O.domainState 4, 0)]).dev.ownerChecks (O.streamControl 0 0) ≠ none ∧
    ({ base with errs := { base.errs with fatalStop := true } } : Device).managerRuns = true ∧
    ({ base with errs := { base.errs with fatalStop := true } } : Device).ownerChecks (O.queueEnable 5) = some (.state, O.queueEnable 5) := by
  decide +kernel

/-- Die Q0: channel 0 with the numbers given, channel 1 with the reservation r1, urgent slice 2. -/
def poolSt (held cap reserve cls r1 : Nat) : Device :=
  { (upWith [(O.channelHeld 0 0, held), (O.channelCap 0 0, cap), (O.channelReserve 0 0, reserve), (O.channelClass 0 0, cls), (O.channelReserve 0 1, r1),
      (O.urgentSlice 0, 2)]).dev with mem := { pool := [(0, {}), (1, {})] } }

/-- Each rule of R301 where the next begins: the cap reached; the last buffer of the reservation; the last shared buffer; an LC channel at
the urgent slice; a BE channel there; an LC channel once the slice is spent. -/
theorem witness_PoolRequest : (poolSt 4 4 8 0 0).poolSource 0 0 = none ∧ (poolSt 3 8 4 0 0).poolSource 0 0 = some 2 ∧
    (poolSt 4 8 4 0 8185).poolSource 0 0 = some 3 ∧ (poolSt 4 8 4 1 8186).poolSource 0 0 = some 4 ∧
    (poolSt 4 8 4 0 8186).poolSource 0 0 = none ∧
    ({ poolSt 6 8 4 1 8186 with mem := { pool := [(0, { urgent := 2 }), (1, {})] } } : Device).poolSource 0 0 = none := by decide +kernel

/-- A counter at the largest value of its type stays there; one of area F goes on to 0. -/
theorem test_counters : ((upWith [(O.channelRefusals 0 3, 2 ^ 64 - 1)]).dev.bump (O.channelRefusals 0 3)).num (O.channelRefusals 0 3) = 2 ^ 64 - 1 ∧
    ((upWith [(0xF0000100, 0xFFFFFFFF)]).dev.bump 0xF0000100).num 0xF0000100 = 0 := by decide +kernel

/-! ## Ill-formed commands, one for each check of WellFormed -/

def R (n : Nat) : Bytes := List.replicate n 0
/-- A symbol named twice; no symbol; a difference of nothing. -/
def twice : SymErr := { line := 0, word := 0, errs := [(3, 1), (3, 2)] }
def noSym : SymErr := { line := 0, word := 0, errs := [] }
def noDiff : SymErr := { line := 0, word := 0, errs := [(3, 0)] }

theorem test_illformed_foreri : wellFormed (.foreriSegment none (R 8273)) = false ∧
    wellFormed (.write .pcie 1 false { oid := 0, ty := 0, value := R 65536 }) = false ∧
    wellFormed (.readMulti .pcie 1 (List.replicate 2048 0)) = false ∧
    wellFormed (.writeMulti .pcie 1 false (List.replicate 2 { oid := 0, ty := 0, value := R 4087 })) = false ∧
    wellFormed (.writeMulti .pcie 1 false [{ oid := 0, ty := 0, value := R 65536 }]) = false ∧
    wellFormed (.foreriSlotSubmit 0 8 (R 8217)) = false := by decide +kernel

theorem test_illformed_session : wellFormed (.hello true 1 0 (R 31) (R 32) (R 1184)) = false ∧
    wellFormed (.hello true 1 0 (R 32) (R 33) (R 1184)) = false ∧
    wellFormed (.hello true 1 0 (R 32) (R 32) (R 1183)) = false ∧
    wellFormed (.auth .pcie 1 (R 2419) []) = false ∧
    wellFormed (.auth .pcie 1 (R 2420) (R 31)) = false ∧
    wellFormed (.helloStoreExpiry (R 31)) = false ∧
    wellFormed (.attestRequest .pcie (R 33)) = false := by decide +kernel

theorem test_illformed_lengths : wellFormed (.windowMax 0 (R 63)) = false ∧
    wellFormed (.windowAvg 0 (R 65)) = false ∧
    wellFormed (.windowMaxIdx 0 (R 63)) = false ∧
    wellFormed (.windowMaxBwd 0 (R 63)) = false ∧
    wellFormed (.windowAvgBwd 0 (R 63)) = false ∧
    wellFormed (.cameoStem 0 (R 64)) = false ∧
    wellFormed (.cameoHead 0 (R 97)) = false ∧
    wellFormed (.cameoStemWgrad 0 (R 64)) = false ∧
    wellFormed (.haloReady 0 (R 15)) = false ∧
    wellFormed (.haloReturn 0 (R 17)) = false ∧
    wellFormed (.haloGate 0 (R 15)) = false ∧
    wellFormed (.walkStart 0 (R 63)) = false ∧
    wellFormed (.lookup 0 0 0 0 (R 255) { val := 0 }) = false ∧
    wellFormed (.insert 0 0 0 { index := 0, tokens := R 255 } { val := 0 }) = false ∧
    wellFormed (.pageOp 0 { tokens := R 1 }) = false ∧
    wellFormed (.claspWrite 0 0 0 (R 127) 0) = false ∧
    wellFormed (.txnWrite 0 (R 129)) = false ∧
    wellFormed (.sqFetch 0 [R 63]) = false ∧
    wellFormed (.sqFetch 0 (List.replicate 9 (R 64))) = false := by decide +kernel

theorem test_illformed_errors : wellFormed (.arrayComputeEnd 0 0 0 0 [(0x400000, true)]) = false ∧
    wellFormed (.windowCommandEnd 0 0 none [(0x1800000, true)]) = false ∧
    wellFormed (.applyPass 0 [twice]) = false ∧
    wellFormed (.normPass 0 [noSym]) = false ∧
    wellFormed (.trustPass 0 [noDiff]) = false ∧
    wellFormed (.cachedRead 0 0 32 [twice]) = false ∧
    wellFormed (.dmaDescriptorComplete 0 0 0 none { cluster := [(0x1800000, true)] }) = false ∧
    wellFormed (.dmaDescriptorComplete 0 0 0 none { hbm := [twice] }) = false ∧
    wellFormed (.hbmScrub 0 0 [noSym]) = false ∧
    wellFormed (.alloc 0 0 0 0 { val := 0, errs := [noDiff] }) = false ∧
    wellFormed (.lookup 0 0 0 0 (R 256) { val := 0, errs := [twice] }) = false ∧
    wellFormed (.insert 0 0 0 { index := 0, tokens := R 256 } { val := 0, errs := [noSym] }) = false := by decide +kernel

theorem test_illformed_met : wellFormed (.cow 0 0 0 { val := 0, errs := [twice] }) = false ∧
    wellFormed (.fill 0 0 0 0 0 { val := 0, errs := [noSym] }) = false ∧
    wellFormed (.pageRelease 0 0 0 0 { val := [], errs := [noDiff] }) = false ∧
    wellFormed (.prune 0 0 0 { val := 0, errs := [twice] }) = false ∧
    wellFormed (.claspCommit 0 { val := 0, errs := [noSym] }) = false ∧
    wellFormed (.pageOp 0 { errs := [noDiff] }) = false ∧
    wellFormed (.ptEdit 0 { val := 0, errs := [twice] }) = false ∧
    wellFormed (.hostTxnCommit { val := 0, errs := [noSym] }) = false := by decide +kernel

theorem test_illformed_access : wellFormed (.cachedRead 0 0 0 []) = false ∧
    wellFormed (.cachedWrite 0 0 [] []) = false ∧
    wellFormed (.uncachedAccess 0 0 0 none []) = false ∧
    wellFormed (.uncachedAccess 0 0 8 (some []) []) = false ∧
    wellFormed (.atomicFadd 0 0 0 [1] []) = false ∧
    wellFormed (.atomicFadd 0 0 4 [] []) = false ∧
    wellFormed (.atomicMax 0 0 1 (List.replicate 17 0) []) = false ∧
    wellFormed (.atomicMin 0 0 5 [] []) = false ∧
    wellFormed (.bar2Read 0x3FFFFFF 2 []) = false ∧
    wellFormed (.bar2Read 0 0 []) = false ∧
    wellFormed (.bar2Write 0x3FFFFFF [0, 0] false []) = false ∧
    wellFormed (.bar2Write 0 [] false []) = false := by decide +kernel

theorem test_illformed_sensors : wellFormed (.thermalEvaluation 0 (List.replicate 7 0)) = false ∧
    wellFormed (.fuseLoadComplete []) = false ∧
    wellFormed (.trainComplete [4, 4] none (List.replicate 20 none)) = false ∧
    wellFormed (.trainComplete [] none []) = false ∧
    wellFormed (.railSample (List.replicate 19 0)) = false ∧
    wellFormed (.frameReceive 0 { fcsGood := true, startGood := true, control := false, linkSeq := 0, size := 64, dst := 0, tags := [0, 0, 0], etherType := 0, payload := [], src := 0 }) = false ∧
    wellFormed (.decodeComplete 0 0 { unsupported := false, width := 1, height := 1, frames := 0, samples := 0, channels := 0, rate := 0, depth := 8, float := false, planes := 1, subX := 0, subY := 1, ycbcr := false, matrix := 0, data := [0], damage := [] } false) = false := by decide +kernel

/-- A 64 × 64 block at the place of its superblock may stand still, and gets a vector. -/
theorem witness_VectorLimit : (∃ v, chooseVec 1 1 { ref := 0, x := 64, y := 64, w := 64, h := 64 } [] = some v) ∧
    64 * 1 ≤ 64 + 253 ∧ 64 + 64 ≤ 64 * 1 + 316 ∧ 64 * 1 ≤ 64 + 125 ∧ 64 + 64 ≤ 64 * 1 + 188 :=
  ⟨chooseVec_some (by decide), by decide, by decide, by decide, by decide⟩

theorem witness_LayoutsRoundTrip : Packet.inRange { type := 3, first := true, dst := 4095, src := 1, seq := 0xFFFFFFFF, op := 2 ^ 64 - 1, payload := [1, 2] } ∧
    FrameRec.inRange { count := 3, st := 1, next := 0xFFFFFF, tag := 41, node := 0xFFFFFFFF } ∧ Pte.inRange { frame := 0x1234, fill := 64, valid := true } ∧
    Node.inRange { key := 5, frame := 0xFFFFFF, parent := 0xFFFFFF, children := 0, valid := true, tokens := List.replicate 256 7 } := by
  decide +kernel

/-- The fields of Tables 13.3, 7.6 and 7.5 in their places, written out from the tables: a SYNC of context 2 to context 1, sequence number 9; a LIVE
frame of count 2 on no list and in no node; a valid entry of frame 0x001234 with 64 tokens. -/
theorem test_layouts : (Packet.encode { type := 7, dst := 1, src := 2, seq := 9 }).take 12 = [0x17, 0x00, 0x00, 0x10, 0x02, 0, 0, 0, 0, 0, 0, 9] ∧
    FrameRec.encode { count := 2, st := 1 } = [0xFF, 0xFF, 0xFF, 0x40, 2, 0, 0, 0, 0, 0, 0, 0, 0, 0, 0, 0, 0, 0, 0, 0, 0xFF, 0xFF, 0xFF, 0xFF, 0, 0, 0, 0, 0, 0, 0, 0] ∧
    Pte.encode { frame := 0x1234, fill := 64, valid := true } = 0x0012348100000000 := by decide +kernel


end Sys2Proof.Tests
end

section
/-! Time that no command takes, the state before power, and the counters (R8, R13, R455, R534). -/

namespace Sys2Proof.Scope
open Sys2Proof.Machine Sys2Proof.Laws

/-! ## An idle step -/

/-- The uptime counter runs while VDD_AON is present (R13, R425). -/
theorem tick_of_powered {s : Device} (h : s.startup.powered = true) : s.tick = { s with uptime := min (s.uptime + 1) (2 ^ 64 - 1) } := if_pos h

/-- Without VDD_AON the uptime counter stands still. -/
theorem tick_of_unpowered {s : Device} (h : s.startup.powered = false) : s.tick = s := by simp [Device.tick, h]

theorem step_of_pending_nil {s : State} (h : s.pending = []) : step s = s.to s.dev.tick := by simp [step, h, State.to]

/-- Settles O40: an idle step is a tick, and a tick counts just when the device is powered. -/
theorem idleStepTicks : Obligations.IdleStepTicks := by
  intro s hs
  rw [step_of_pending_nil hs]
  cases hp : s.dev.startup.powered with
  | true => rw [tick_of_powered hp]; rfl
  | false => rw [tick_of_unpowered hp]; rfl

/-! ## Before VDD_AON rises -/

/-- No object has been written: each reads its default (R8). -/
@[simp] theorem val_reset (o : Nat) : Device.reset.val o = defaultVal o := rfl

/-- Every row of the dictionary that shows whether a domain is on has a default other than 2 (ON). -/
theorem defaultVal_domainState_ne_on : ∀ d < 24, defaultVal (O.domainState d) ≠ .num 2 := by decide +kernel

/-- A domain that reads ON holds the value 2. -/
theorem val_domainState_of_domainOn {s : Device} {d : Nat} (hd : d ≠ 0) (h : s.domainOn d = true) : s.val (O.domainState d) = .num 2 := by
  simp only [Device.domainOn, if_neg hd, beq_iff_eq, Device.num] at h
  split at h
  · next n hn => rw [hn, h]
  · omega

theorem domainOn_reset {d : Nat} (hd : d < 24) : Device.reset.domainOn d = false := by
  by_cases h0 : d = 0
  · subst h0; rfl
  · refine Bool.eq_false_iff.mpr fun h => defaultVal_domainState_ne_on d hd ?_
    exact (val_reset _).symm.trans (val_domainState_of_domainOn h0 h)

/-- Empty tables are in canonical form, and the empty queue holds no ill-formed command. -/
theorem inv_reset : Inv State.reset := ⟨rfl, rfl⟩

/-- Settles O41. -/
theorem resetState : Obligations.ResetState :=
  ⟨rfl, inv_reset, rfl, fun _ hd => domainOn_reset hd, val_reset, rfl, rfl, rfl⟩

/-! ## Counters -/

theorem wrapsCounter_iff {o : Nat} : wrapsCounter o = true ↔ oidArea o = 0xF ∨ oidArea o = 9 := by simp [wrapsCounter]

/-- A counter that no rule states to wrap stops at the largest value of its type (R534). -/
theorem counted_of_stops {o : Nat} (hF : oidArea o ≠ 0xF) (h9 : oidArea o ≠ 9) (old n : Nat) :
    counted o old n = min (old + n) (tyOf o).maxVal :=
  if_neg fun h => (wrapsCounter_iff.mp h).elim hF h9

/-- The counters of areas F and 9 wrap (R67, R499). -/
theorem counted_of_wraps {o : Nat} (h : oidArea o = 0xF ∨ oidArea o = 9) (old n : Nat) : counted o old n = (old + n) % 2 ^ 32 :=
  if_pos (wrapsCounter_iff.mpr h)

/-- Settles O46: the two rules of counting at the counter's own place, and the frame of a write elsewhere. -/
theorem countersStop : Obligations.CountersStop := by
  intro s o n p
  refine ⟨fun hF h9 => ?_, fun h => ?_, val_bump_ne s n⟩
  · rw [num_bump_same, counted_of_stops hF h9]
  · rw [num_bump_same, counted_of_wraps h]

end Sys2Proof.Scope
end

section
/-! Domains that anything holds, mailboxes, crossings, self-test and the link layer (R23 to R30). -/

namespace Sys2Proof.Architecture
open Sys2Proof.Machine Sys2Proof.Laws

/-! ## A request to switch a domain off (R24) -/

/-- Nothing blocks a switch-off just when no resident job, open stream, open encoder, open transaction or channel with buffers holds the
domain. -/
theorem domainBlocker_eq_none_iff {s : Device} {d : Nat} :
    s.domainBlocker d = none ↔
      (∀ j ∈ s.residents, ∀ x, s.job? j = some x → x.holdsIn d = false) ∧
      (∀ k ∈ s.openStreams, mediaDomain (k / 64) ≠ d) ∧
      (∀ k ∈ s.openEncoders, mediaDomain (k / 64) ≠ d) ∧
      (∀ t ∈ s.mem.txns, masterDomain t.2.master ≠ some d) ∧
      ∀ c ∈ s.mem.pool, ownerDomain (s.num (O.channelOwner (c.1 / 1024) (c.1 % 1024))) = some d → s.chHeld (c.1 / 1024) (c.1 % 1024) = 0 := by
  simp only [Device.domainBlocker, List.head?_eq_none_iff, List.append_eq_nil_iff, List.map_eq_nil_iff, List.filter_eq_nil_iff, and_assoc]
  refine and_congr (forall₂_congr fun j _ => ?_) (by simp)
  cases s.job? j <;> simp

/-- A request that finds the device running and in RUN or IDLE goes on to the domain itself. -/
theorem domainWrite_of_running {s : Device} {d : Nat} (code : Nat) (hd : 4 ≤ d) (htrans : s.power.trans = .none) (hstate : s.num O.powerState ≤ 1)
    (h1 : s.domainOn 1 = true) (h2 : s.domainOn 2 = true) (h3 : s.domainOn 3 = true) : s.domainWrite d code = s.domainReq d code := by
  simp [Device.domainWrite, htrans, h1, h2, h3, Nat.not_lt.mpr hd, Nat.not_lt.mpr hstate]

/-- A domain that is on and whose operating point stands still is not switched off while an item blocks it. -/
theorem domainReq_off_of_blocked {s : Device} {d o : Nat} (hon : s.num (O.domainState d) = 2) (hmove : (s.opOf d).move = none)
    (hblock : s.domainBlocker d = some o) : s.domainReq d 2 = s.deny .state o := by
  simp [Device.domainReq, hon, hmove, hblock]

/-- Settles O49: the domain has a first blocking item, since the case without one denies each of the five holds. The object that names the
item is the model's choice (log entry 38). -/
theorem domainOffRefused : Obligations.DomainOffRefused := by
  intro s d hd haccept htrans hstate h1 h2 h3 hon hmove hheld
  have hsome : s.dev.domainBlocker d ≠ none := by
    intro hnone
    obtain ⟨hjobs, hstreams, hencoders, htxns, hchannels⟩ := domainBlocker_eq_none_iff.mp hnone
    rcases hheld with ⟨j, hj, x, hx, hin⟩ | ⟨k, hk, hin⟩ | ⟨k, hk, hin⟩ | ⟨t, ht, hin⟩ | ⟨c, hc, hin, hbuffers⟩
    · exact Bool.false_ne_true ((hjobs j hj x hx).symm.trans hin)
    · exact hstreams k hk hin
    · exact hencoders k hk hin
    · exact htxns t ht hin
    · exact hbuffers (hchannels c hc hin)
  obtain ⟨o, ho⟩ := Option.ne_none_iff_exists'.mp hsome
  refine ⟨o, ho, ownWrite_denied haccept Status.noConfusion ?_⟩
  rw [domainWrite_of_running 2 hd htrans hstate h1 h2 h3, domainReq_off_of_blocked hon hmove ho]

/-! ## Words written to a send slot: the first rule of R417 that applies -/

section
variable {s : Device} {a r w n : Nat}

/-- Rule 1: the receiver's domain is off. -/
theorem mailboxSend_off (hoff : s.domainOn (receiverDomain r) = false) (hrow : s.findRow a r = some n) :
    s.mailboxSend a r w = (s.bumpStat (O.mbStats n) 3).logDomainDrop a (receiverNode r) := by
  simp [Device.mailboxSend, hoff, hrow]

/-- Rule 1, for a pair without a channel. -/
theorem mailboxSend_off_of_unbound (hoff : s.domainOn (receiverDomain r) = false) (hrow : s.findRow a r = none) :
    s.mailboxSend a r w = s.logDomainDrop a (receiverNode r) := by
  simp [Device.mailboxSend, hoff, hrow]

/-- Rule 2: the pair has no enabled channel. -/
theorem mailboxSend_unbound (hon : s.domainOn (receiverDomain r) = true) (hrow : s.findRow a r = none) :
    s.mailboxSend a r w = s.bump O.droppedWrites := by
  simp [Device.mailboxSend, hon, hrow]

/-- Rule 3: the tag is the last accepted one. -/
theorem mailboxSend_duplicate (hon : s.domainOn (receiverDomain r) = true) (hrow : s.findRow a r = some n)
    (htag : (s.box n).lastTag = some (bits w 63 48)) : s.mailboxSend a r w = s.bumpStat (O.mbStats n) 1 := by
  simp [Device.mailboxSend, hon, hrow, htag]

/-- Rule 4: a new word finds one that is not yet consumed. -/
theorem mailboxSend_full (hon : s.domainOn (receiverDomain r) = true) (hrow : s.findRow a r = some n)
    (htag : (s.box n).lastTag ≠ some (bits w 63 48)) (hfull : (s.box n).full = true) :
    s.mailboxSend a r w = ((s.setBox n { s.box n with overrun := true }).bumpStat (O.mbStats n) 2).ring r 30 := by
  simp [Device.mailboxSend, hon, hrow, htag, hfull]

/-- Rule 5: a new word finds the mailbox empty. -/
theorem mailboxSend_empty (hon : s.domainOn (receiverDomain r) = true) (hrow : s.findRow a r = some n)
    (htag : (s.box n).lastTag ≠ some (bits w 63 48)) (hfull : (s.box n).full = false) :
    s.mailboxSend a r w =
      let d := s.setBox n { s.box n with word := w, full := true, lastTag := some (bits w 63 48) }
      (d.bumpStat (O.mbStats n) 0).ring r (d.mbRow n).2.2.1 := by
  simp [Device.mailboxSend, hon, hrow, htag, hfull]

end

/-- MAILBOX_SEND is the device's own operation. -/
theorem exec_mailboxSend (s : State) (a : BitVec 16) (r : Fin 34) (w : BitVec 64) :
    exec (.mailboxSend a r w) s = s.to (s.dev.mailboxSend a.toNat r w.toNat) := rfl

/-- Settles O9: each rule of R417 for a send slot, and R418 and R420 for a shared mailbox. -/
theorem mailboxSends : Obligations.MailboxSends := by
  refine ⟨fun s a r w n hon hrow htag hfull => ?_, fun s a r w n hoff hrow => ?_, fun s a r w hoff hrow => ?_, fun s a r w hon hrow => ?_,
    fun s a r w n hon hrow htag => ?_, fun s a r w n hon hrow htag hfull => ?_, fun s a r w hon hfull => ?_, fun s a r w hon hfull => ?_,
    fun s a r w hoff => ?_⟩
  · rw [exec_mailboxSend, mailboxSend_empty hon hrow htag hfull]
  · rw [exec_mailboxSend, mailboxSend_off hoff hrow]
  · rw [exec_mailboxSend, mailboxSend_off_of_unbound hoff hrow]
  · rw [exec_mailboxSend, mailboxSend_unbound hon hrow]
  · rw [exec_mailboxSend, mailboxSend_duplicate hon hrow htag]
  · rw [exec_mailboxSend, mailboxSend_full hon hrow htag hfull]
  · simp [exec, execSharedMailboxSend, State.to, hon, hfull]
  · simp [exec, execSharedMailboxSend, State.to, hon, hfull]
  · simp [exec, execSharedMailboxSend, State.to, hoff]

/-! ## Send status, and the enable of a mailbox row (R416, R420, Table 17.10) -/

section
variable {s : Device} {page r kind n : Nat}

/-- A host read of a receiver whose domain is off is a Completer Abort (R420). -/
theorem sendRead_off (hoff : s.domainOn (receiverDomain r) = false) :
    s.sendRead page r kind = (s.bump O.completerAborts).emit (.hostRead none) := by
  simp [Device.sendRead, hoff]

/-- A read of the send status answers Table 17.10. -/
theorem sendRead_status (hon : s.domainOn (receiverDomain r) = true) :
    s.sendRead page r 1 = s.emit (.hostRead (some (leBytes 8 (s.sendStatus (masterId 8 page) r)))) := by
  simp [Device.sendRead, hon]

/-- A read of a send slot answers a free value (log entry 120). -/
theorem sendRead_slot (hon : s.domainOn (receiverDomain r) = true) (hkind : kind ≠ 1) :
    s.sendRead page r kind = s.freeVal.2.emit (.hostRead (some (leBytes 8 s.freeVal.1.toNat))) := by
  simp [Device.sendRead, hon, hkind]

/-- Clearing the enable of an enabled row (R416). -/
theorem mbEnableWrite_off (hon : s.flag (O.mbEnable n) = true) (sid : Nat) :
    s.mbEnableWrite n false sid = ((s.release (O.mbEnable n)).setBool (O.mbEnable n) false).okay := by
  simp [Device.mbEnableWrite, Device.mbRow, hon]

/-- Enabling a row whose pairs no other row holds (R416, R417). -/
theorem mbEnableWrite_on (hoff : s.flag (O.mbEnable n) = false) (hbit : (s.mbRow n).2.2.1 ≤ 27)
    (hown : ownReceiver (s.mbRow n).1 ≠ some (s.mbRow n).2.1) (hrow : s.findRow (s.mbRow n).1 (s.mbRow n).2.1 = none)
    (hslot : s.findSlot (s.mbRow n).2.1 (s.mbRow n).2.2.1 = none) (sid : Nat) :
    s.mbEnableWrite n true sid = (((s.claim [O.mbSender n, O.mbBit n] (O.mbEnable n) sid).1.setBool (O.mbEnable n) true).setBox n {}).okay := by
  have hdis : (s.mbRow n).2.2.2 = false := hoff
  simp only [Device.findRow] at hrow
  simp [Device.mbEnableWrite, hdis, hown, hrow, hslot, Nat.not_lt.mpr hbit]

end

/-- SEND_STATUS_READ is the device's own operation. -/
theorem exec_sendStatusRead (s : State) (page : Fin 64) (r : Fin 34) (kind : Fin 3) :
    exec (.sendStatusRead page r kind) s = s.to (s.dev.sendRead page r kind) := rfl

/-- Settles O11: the send status that the sender clears and reads, and the two writes of a row's enable. -/
theorem mailboxStatusAndBinding : Obligations.MailboxStatusAndBinding := by
  refine ⟨fun s a r n hon hrow => ?_, fun s a r hon hrow => ?_, fun s a r hoff => ?_, fun s p r hon => ?_, fun s p r k hon hk => ?_,
    fun s p r k hoff => ?_, fun s n haccept hon => ?_, fun s n haccept hoff hbit hown hrow hslot => ?_⟩
  · simp [exec, execSendStatusOverrunClear, State.to, hon, hrow]
  · simp [exec, execSendStatusOverrunClear, State.to, hon, hrow]
  · simp [exec, execSendStatusOverrunClear, State.to, hoff]
  · exact (exec_sendStatusRead s p r 1).trans (congrArg s.to (sendRead_status hon))
  · rw [exec_sendStatusRead, sendRead_slot hon (Fin.val_ne_of_ne hk)]
  · rw [exec_sendStatusRead, sendRead_off hoff]
  · exact ownWrite_ok haccept (mbEnableWrite_off hon _)
  · exact ownWrite_ok haccept (mbEnableWrite_on hoff hbit hown hrow hslot _)

/-! ## Crossings, Assay tests and lockstep (R28, R293, R294, R477 to R479) -/

/-- The management sideband and the crossing of AON have no credits (Table 12.2). -/
theorem crossingLedger_of_sideband {x : Nat} (h : 33 ≤ x) (dir cls hop : Nat) : crossingLedger x dir cls hop = none := by
  simp [crossingLedger, Nat.not_lt.mpr (show 32 ≤ x by omega), show ¬ x ≤ 32 by omega]

/-- A flit that arrives whole at a crossing without credits leaves the queue, and gives back the credits that it carries. -/
theorem deliverFlit_of_sideband {s : Device} {x dir cls hop : Nat} {f : Flit} (hx : 33 ≤ x)
    (hhead : headOf (s.crossing x dir).fifo cls hop = some f) (hruns : s.runs (crossingTo x dir) = true)
    (hdest : s.islandStopped (crossingDest x dir) = false) (hsource : s.islandStopped (crossingSource x dir) = false) :
    s.deliverFlit x dir cls hop 0 = (s.setCrossing x dir { s.crossing x dir with
      fifo := (s.crossing x dir).fifo.erase f, delivered := (s.crossing x dir).delivered ++ [f] }).takeReturns x dir f.rets := by
  simp [Device.deliverFlit, Device.flitError, hhead, hruns, hdest, hsource, crossingLedger_of_sideband hx]

/-- A flit presented to a running receiver enters a queue that takes it. -/
theorem presentFlit_of_flitIn {s d : Device} {x dir : Nat} {f : Flit} (hruns : s.runs (islandDomain (crossingSource x dir)) = true)
    (hsource : s.islandStopped (crossingSource x dir) = false) (hon : s.domainOn (crossingTo x dir) = true) (hin : s.flitIn x dir f = some d) :
    s.presentFlit x dir f = d := by
  simp [Device.presentFlit, hruns, hsource, hon, hin]

/-- A delivery is the device's own operation. -/
theorem exec_crossingDelivery_deliver (s : State) (x : Fin 66) (dir : Fin 2) (cls : Fin 4) (hop : Fin 2) (err : Fin 4) :
    exec (.crossingDelivery x dir (.deliver cls hop err)) s = s.to (s.dev.deliverFlit x dir cls hop err) := rfl

/-- Below the ring edges a flit has no hop set. -/
theorem exec_crossingDelivery_present (s : State) {x : Fin 66} (hx : x.val < 28) (dir : Fin 2) (cls : Fin 4) (hop : Fin 2) (m : BitVec 16) (data : Bytes) :
    exec (.crossingDelivery x dir (.present cls hop m data)) s =
      s.to (s.dev.presentFlit x dir { cls := cls, hop := 0, master := m.toNat, data := data.take 128 }) := by
  simp [exec, execCrossingDelivery, State.to, Nat.not_le.mpr hx]

/-- Settles O12. The crossings of the first two claims are those without credits and those without hop sets. -/
theorem crossingAndSelfTestCommands : Obligations.CrossingAndSelfTestCommands := by
  refine ⟨fun s x dir cls hop f hhead hx hruns hdest hsource => ?_, fun s x dir cls hop m data d hx hruns hsource hon hin => ?_,
    fun s die r hruns hidle hnext hmay => ?_, fun s die r hrunning => ?_, fun s hon => ?_⟩
  · exact (exec_crossingDelivery_deliver ..).trans (congrArg s.to (deliverFlit_of_sideband hx hhead hruns hdest hsource))
  · rw [exec_crossingDelivery_present s hx, presentFlit_of_flitIn hruns hsource hon hin]
  · simp [exec, execAssayTestStart, State.to, hruns, hidle, hnext, hmay]
  · simp [exec, execAssayTestEnd, State.to, hrunning]
  · simp [exec, execLockstepMismatch, State.to, hon]

/-! ## The mode of a port (R312) -/

section
variable {s : Device} {l mode : Nat}

/-- A port that is not off changes between the modes that are not off. -/
theorem portModeWrite_change (hmode : mode = 1 ∨ mode = 2) (hclock : bit (s.num (O.clockEnables (12 + l / 24))) 0 = true) (hctxs : s.portCtxs l = [])
    (hold : s.num (O.portMode l) ≠ 0) (hnew : mode ≠ s.num (O.portMode l)) (sid : Nat) :
    s.portModeWrite l mode sid = (((s.setNum (O.portMode l) mode).setPort l { pool := (s.port l).pool }).setPortState l 1).okay := by
  have h2 : ¬ 2 < mode := by omega
  have h0 : mode ≠ 0 := by omega
  simp [Device.portModeWrite, h2, h0, hclock, hctxs, hold, hnew]

/-- A port whose link-receive channel holds nothing goes off. -/
theorem portModeWrite_off (hclock : bit (s.num (O.clockEnables (12 + l / 24))) 0 = true) (hctxs : s.portCtxs l = [])
    (hold : s.num (O.portMode l) ≠ 0) (hheld : s.chHeld (l / 24) (s.port l).pool = 0) (sid : Nat) :
    s.portModeWrite l 0 sid =
      (let d : Device := (s.poolClose (l / 24) (s.port l).pool).setPortState l 0
       (({ d with net := { d.net with ports := tdel d.net.ports l } } : Device).release (O.portMode l)).setNum (O.portMode l) 0).okay := by
  simp [Device.portModeWrite, hclock, hctxs, hold, hold.symm, hheld]

/-- A choice from candidates takes one of them. -/
theorem choose_of_mem {i : Nat} {c : List Nat} (h : i ∈ c) : ∃ n, s.choose c = (some n, { s with freeCtr := s.freeCtr + 1 }) := by
  have hlt : Config.pick s.freeCtr % c.length < c.length := Nat.mod_lt _ (List.length_pos_of_mem h)
  exact ⟨_, by rw [Device.choose, List.getElem?_eq_getElem hlt]⟩

/-- Where a channel is free and the reservation fits, one is opened (R300). -/
theorem poolOpen_of_channelFree {q r : Nat} (h : s.channelFree q r) (kind c cls owner sid : Nat) :
    ∃ p, s.poolOpen q kind r c cls owner sid = .inr p := by
  obtain ⟨hfit, k, hk⟩ := h
  have hmem : k.val ∈ (List.range 1024).filter fun n => !s.chOpen q n := by simp [hk]
  obtain ⟨n, hn⟩ := choose_of_mem (s := s) hmem
  simp only [Device.poolOpen, if_neg (Nat.not_lt.mpr hfit), hn]
  exact ⟨_, rfl⟩

/-- A port that was off claims its lanes and opens its link-receive channel. -/
theorem portModeWrite_on {d t : Device} {ch : Nat} (sid : Nat) (hmode : mode = 1 ∨ mode = 2) (hclock : bit (s.num (O.clockEnables (12 + l / 24))) 0 = true)
    (hctxs : s.portCtxs l = []) (hold : s.num (O.portMode l) = 0) (hfirst : l % s.num (O.portLanes l) = 0)
    (hlanes : (s.portLanesOf l).any s.laneFailed = false)
    (hclaim : s.claim ((s.portLanesOf l).map fun x => O.laneState x) (O.portMode l) sid = (d, none))
    (hopen : d.poolOpen (l / 24) 1 (s.num (O.rxReserve l)) (s.num (O.rxCap l)) (s.num (O.rxClass l)) (O.portMode l) sid = .inr (ch, t)) :
    s.portModeWrite l mode sid = (((t.setNum (O.portMode l) mode).setPort l { pool := ch }).setPortState l 1).okay := by
  have h2 : ¬ 2 < mode := by omega
  have h0 : mode ≠ 0 := by omega
  simp [Device.portModeWrite, h2, h0, hclock, hctxs, hold, hfirst, hlanes, hclaim, hopen]

end

/-! ## Frames received (R317 to R319) -/

section
variable {s : Device} {l : Nat} {f : RxFrame}

/-- A port whose link-layer island is stopped is not up (R27, R29). -/
theorem portUp_eq_false_of_islandStopped (h : s.islandStopped (10 + l / 24) = true) : s.portUp l = false := by simp [Device.portUp, h]

/-- With no frame in the crossing nothing waits to come in. -/
theorem linkResumes_of_held_nil (h : (s.port l).held = []) : s.linkResumes l = s := by simp [Device.linkResumes, h]

/-- The frame that the crossing held comes in. -/
theorem linkResumes_of_held_single (hup : s.portUp l = true) (h : (s.port l).held = [f]) :
    s.linkResumes l = ((s.setPort l { s.port l with held := [] }).frameArrives l f).portFlush l := by simp [Device.linkResumes, hup, h]

/-- A frame reaches the link layer of a port that is up, with none held before it. -/
theorem exec_frameReceive_of_up {s : State} {l : Fin 96} (hup : s.dev.portUp l = true) (hheld : (s.dev.port l).held = []) (f : RxFrame) :
    exec (.frameReceive l f) s = s.to (s.dev.frameArrives l f) := by
  simp [exec, execFrameReceive, State.to, hup, linkResumes_of_held_nil hheld]

/-- A frame of a link that is not native goes on to the checks of R317 once its FCS is good. -/
theorem frameArrives_of_plain (hmode : s.num (O.portMode l) ≠ 2) : s.frameArrives l f = if f.fcsGood then s.frameIn l f else s.rxDrop l := by
  cases h : f.fcsGood <;> simp [Device.frameArrives, hmode, h]

/-- A data frame of a native link meets its sequence check first. -/
theorem frameArrives_of_native (hmode : s.num (O.portMode l) = 2) (hfcs : f.fcsGood = true) (hstart : f.startGood = true) (hdata : f.control = false) :
    s.frameArrives l f = let a := s.linkAccept l f.linkSeq.toNat; if a.1 then a.2.frameIn l f else a.2 := by
  simp only [Device.frameArrives, hmode, hfcs, hstart, hdata]
  rcases s.linkAccept l f.linkSeq.toNat with ⟨_ | _, d⟩ <;> rfl

/-- The frame expected next ends an episode and is taken (R318, R319). -/
theorem linkAccept_of_next {seq : Nat} (hsync : (s.port l).resync = false) (hgap : seq16 seq (s.port l).rxNext = 0) :
    s.linkAccept l seq = (true, (s.endEpisode l).setPort l { (s.endEpisode l).port l with rxNext := (seq + 1) % 65536, unacked := true }) := by
  simp [Device.linkAccept, hsync, hgap]

/-- A frame ahead of the one expected is not taken, and an episode begins (R319). -/
theorem linkAccept_of_gap {seq : Nat} (hsync : (s.port l).resync = false) (hgap : 0 < seq16 seq (s.port l).rxNext)
    (hahead : seq16 seq (s.port l).rxNext < 32768) : s.linkAccept l seq = (false, s.beginEpisode l) := by
  simp [Device.linkAccept, hsync, hgap.ne', hahead]

/-- Where none runs, an episode begins with a request for a replay (R319). -/
theorem beginEpisode_of_none (h : (s.port l).episode = none) :
    s.beginEpisode l = ((s.setPort l { s.port l with episode := some s.uptime }).bump (O.linkReplays l)).linkControl l 2 (s.port l).rxNext := by
  simp [Device.beginEpisode, h]

/-- One tag is the port's tag (R317, check 4). -/
theorem tagOk_of_tagged {t : BitVec 16} (htype : f.etherType.toNat ≠ 0x8808) (htags : f.tags = [t]) :
    s.tagOk l f = (bit (s.num (O.vlan l)) 15 && bits t.toNat 11 0 == bits (s.num (O.vlan l)) 11 0) := by
  simp [Device.tagOk, htype, htags]

end

/-- Settles O32. That frames wait in the crossing without a limit while the island is stopped is the model's choice (log entry 156). -/
theorem linkAndPortCommands : Obligations.LinkAndPortCommands := by
  refine ⟨fun s l mode haccept hmode hclock hctxs hold hnew => ?_, fun s l mode haccept hmode hclock hctxs hold hheld => ?_,
    fun s l mode d haccept hmode hclock hctxs hold hfirst hlanes hd hnone hfree => ?_, fun s l native hruns hon hst hnative hlanes hclk => ?_,
    fun s l hon hst => ?_, fun s l f hup hheld hmode hfcs => ?_, fun s l f hruns hon hst hstop => ?_, fun d l f hup hheld => ?_,
    fun s l f hup hmode hfcs hheld => ?_, fun s l f hup hmode hfcs hstart hdata hsync hgap hheld => ?_,
    fun s l f hup hmode hfcs hstart hdata hsync hgap hahead hep hheld => ?_, fun d l f t htype htags => ?_, fun s l seq hup hmode => ?_,
    fun s l seq hup hmode => ?_, fun s l hup hmode hunacked htime => ?_, fun s l t hep htime => ?_, fun s l i t hpaused htime => ?_,
    fun s l hup hpfc hxoff htime => ?_⟩
  · exact ownWrite_ok haccept (portModeWrite_change hmode hclock hctxs hold hnew _)
  · refine ownWrite_ok haccept ?_
    rw [hmode]
    exact portModeWrite_off hclock hctxs hold hheld _
  · obtain ⟨⟨ch, t⟩, hopen⟩ := poolOpen_of_channelFree hfree 1 (s.dev.num (O.rxCap l)) (s.dev.num (O.rxClass l)) (O.portMode l) 0xFFFFFFFF
    rw [hopen]
    exact ownWrite_ok haccept (portModeWrite_on _ hmode hclock hctxs hold hfirst hlanes (Prod.ext hd hnone) hopen)
  · refine congrArg s.to (if_pos ?_)
    simpa [hruns, hon, hst, hclk, hnative] using hlanes
  · simp [exec, execPortDown, Device.portDown, State.to, hon, hst]
  · rw [exec_frameReceive_of_up hup hheld, frameArrives_of_plain hmode, if_pos hfcs]
  · simp [exec, execFrameReceive, State.to, portUp_eq_false_of_islandStopped hstop, hruns, hon, hst]
  · exact linkResumes_of_held_single hup hheld
  · rw [exec_frameReceive_of_up hup hheld, frameArrives_of_plain hmode, hfcs]
    rfl
  · rw [exec_frameReceive_of_up hup hheld, frameArrives_of_native hmode hfcs hstart hdata, linkAccept_of_next hsync hgap]
    rfl
  · rw [exec_frameReceive_of_up hup hheld, frameArrives_of_native hmode hfcs hstart hdata, linkAccept_of_gap hsync hgap hahead,
      beginEpisode_of_none hep]
    rfl
  · exact tagOk_of_tagged htype htags
  · simp [exec, execLinkAck, Device.linkAck, State.to, hup, hmode]
  · simp [exec, execLinkReplay, Device.linkReplay, State.to, hup, hmode]
  · simp [exec, execLinkAckTimer, State.to, hup, hmode, hunacked, htime]
  · simp [exec, execLinkEpisodeTimeout, State.to, hep, htime]
  · simp [exec, execPfcPauseExpiry, State.to, hpaused, htime]
  · simp [exec, execPfcXoffRepeat, State.to, hup, hpfc, hxoff, htime]

end Sys2Proof.Architecture
end

section
/-! The object dictionary: requests of Foreri, dictionary transactions, sessions and subscriptions (R42 to R66). -/

namespace Sys2Proof.Dictionary
open Sys2Proof.Machine Sys2Proof.Laws

/-! ## A request that is alone in the engine (R44, R48, R52) -/

/-- A request of a channel as it waits in the engine from time t on. -/
abbrev waitingAt (t : Nat) (ch : Chan) (rid : Nat) (req : Req) : Waiting := { ch := some ch, rid := rid, req := req, since := t }

section
variable {s : Device} {ch : Chan} {rid : Nat} {req : Req}

@[simp] theorem accepted_engine : (s.accepted ch rid).fore.engine = s.fore.engine := by cases ch <;> rfl
@[simp] theorem accepted_uptime : (s.accepted ch rid).uptime = s.uptime := by cases ch <;> rfl
@[simp] theorem queued_uptime : (s.queued ch rid req).uptime = s.uptime := accepted_uptime (rid := rid)
@[simp] theorem touchSession_engine (c : Option Chan) : (s.touchSession c).fore.engine = s.fore.engine := by rcases c with _ | _ | _ | _ <;> rfl
@[simp] theorem touchSession_uptime (c : Option Chan) : (s.touchSession c).uptime = s.uptime := by rcases c with _ | _ | _ | _ <;> rfl
@[simp] theorem touchSession_chanSt (c : Option Chan) (d : Chan) : (s.touchSession c).chanSt d = s.chanSt d := by
  rcases c with _ | _ | _ | _ <;> rfl

/-- An open session, and a pending one whose AUTH is in time, have not expired (R56). -/
theorem expireAuth_of_inTime {n : Fin 16} (h : (s.sess n).phase = .pending → s.uptime ≤ (s.sess n).since + ms 5000) : s.expireAuth n = s := by
  refine if_neg fun hexp => ?_
  simp only [Bool.and_eq_true, beq_iff_eq, decide_eq_true_eq] at hexp
  exact absurd (h hexp.1.1) (Nat.not_le.mpr hexp.1.2)

theorem expireChan_of_inTime (h : ∀ n : Fin 16, ch = .session n → (s.sess n).phase = .pending → s.uptime ≤ (s.sess n).since + ms 5000) :
    s.expireChan (some ch) = s := by
  cases ch with
  | session n => exact expireAuth_of_inTime (h n rfl)
  | pcie => rfl
  | peer n => rfl

/-- A channel whose request is served has not expired. -/
theorem expireChan_of_serves (h : s.serves ch rid req) : s.expireChan (some ch) = s := by
  obtain ⟨-, -, hsess, -, -⟩ := h
  refine expireChan_of_inTime fun n hn hpend => ?_
  rcases hsess n hn with hopen | ⟨-, htime, -⟩
  · simp [hopen] at hpend
  · exact htime

/-- A channel that is up and known, a session open, lets a message through. -/
theorem gated_of_known {op : Nat} (f : Device → Device) (hexp : s.expireChan (some ch) = s) (hup : s.chanUp ch = true) (hknown : s.known ch = true)
    (hsess : ∀ n : Fin 16, ch = .session n → (s.sess n).phase = .isOpen ∨ ((s.sess n).phase = .pending ∧ op = 0x42)) :
    s.gated (some ch) op f = f s := by
  cases ch with
  | session n =>
    rcases hsess n rfl with hopen | ⟨hpend, hop⟩
    · simp [Device.gated, hexp, hup, hopen]
    · simp [Device.gated, hexp, hup, hpend, hop]
  | pcie => simp [Device.gated, hexp, hup, hknown]
  | peer n => simp [Device.gated, hexp, hup, hknown]

/-- A served request passes the gate. -/
theorem gated_of_serves (h : s.serves ch rid req) (f : Device → Device) : s.gated (some ch) req.op f = f s := by
  obtain ⟨hup, hknown, hsess, -, -⟩ := id h
  exact gated_of_known f (expireChan_of_serves h) hup hknown fun n hn => (hsess n hn).imp_right fun hp => ⟨hp.1, hp.2.2⟩

/-- A request with a fresh id, the only one, waits in the engine. -/
theorem arrive_of_fresh (hello : req.isHello = false) (hengine : s.fore.engine = []) (hfresh : (s.chanSt ch).classify rid = .fresh) :
    (s.touchSession (some ch)).arrive (some ch) rid req none = s.queued ch rid req := by
  simp only [Device.arrive, hello, touchSession_engine, touchSession_chanSt, hengine, hfresh]
  simp [Device.queued, Device.accepted, Device.setChanSt, hengine]

/-- The request leaves the engine when it is executed. -/
theorem queued_taken (hengine : s.fore.engine = []) :
    { s.queued ch rid req with fore := { (s.queued ch rid req).fore with engine := [] } } = s.accepted ch rid := by
  have hacc : (s.accepted ch rid).fore.engine = [] := accepted_engine.trans hengine
  simp only [Device.queued, ← hacc]

/-- A request executed in the cycle in which it arrives is in time, and is finished with the answer of its operation. -/
theorem runWaiting_of_queued (hengine : s.fore.engine = []) :
    (s.queued ch rid req).runWaiting (waitingAt s.uptime ch rid req) =
      ((s.accepted ch rid).performReq ch rid req).1.finish (waitingAt s.uptime ch rid req) ((s.accepted ch rid).performReq ch rid req).2 := by
  have htaken : (s.queued ch rid req).fore.engine.filter (fun x => x != waitingAt s.uptime ch rid req) = [] := by simp [Device.queued]
  simp only [Device.runWaiting, htaken, queued_taken hengine]
  simp

/-- The one request that is served is executed, unless it has to wait for a lock. -/
theorem request_of_serves (h : s.serves ch rid req) (hello : req.isHello = false)
    (hwait : (s.queued ch rid req).commitWaits (waitingAt s.uptime ch rid req) = false) :
    s.request (some ch) rid req =
      ((s.accepted ch rid).performReq ch rid req).1.finish (waitingAt s.uptime ch rid req) ((s.accepted ch rid).performReq ch rid req).2 := by
  obtain ⟨-, -, -, hengine, hfresh⟩ := id h
  have hnext : nextWaiting (s.queued ch rid req).fore.engine = some (waitingAt s.uptime ch rid req) := rfl
  rw [Device.request, gated_of_serves h]
  simp [hengine, arrive_of_fresh hello hengine hfresh, hnext, hwait, runWaiting_of_queued hengine]

/-- Only a commit waits for a lock. -/
theorem commitWaits_of_ne_commit (d : Device) {t : Nat} (h : req ≠ .txnCommit) : d.commitWaits (waitingAt t ch rid req) = false := by
  cases req with
  | txnCommit => exact absurd rfl h
  | _ => rfl

end

/-- A request that is served, other than HELLO and a commit, is answered with what its operation gives. -/
theorem run_request {s : State} {ch : Chan} {rid : Nat} {req : Req} {d : Device} {r : Resp} (h : s.dev.serves ch rid req)
    (hello : req.isHello = false) (hcommit : req ≠ .txnCommit) (hp : (s.dev.accepted ch rid).performReq ch rid req = (d, r)) :
    s.run (fun t => t.request (some ch) rid req) = s.to (d.finish (waitingAt s.dev.uptime ch rid req) r) := by
  change s.to (s.dev.request (some ch) rid req) = _
  rw [request_of_serves h hello (commitWaits_of_ne_commit _ hcommit), hp]

/-! ## Reads of the flash (R467) -/

/-- A read that does not name 1.00.021 acts on the device alone. -/
theorem runRead_of_not_mem {s : State} {ids : List Nat} (h : ids.contains O.flashData = false) (f : Device → Device) : s.runRead ids f = s.run f :=
  congrArg s.to (if_neg (Bool.eq_false_iff.mp h))

/-- A read that names 1.00.021 finds the page of the flash. -/
theorem runRead_of_mem {s : State} {ids : List Nat} (h : ids.contains O.flashData = true) (f : Device → Device) :
    s.runRead ids f = s.to ((f (s.dev.holdPage s.flashPage)).holdPage []) := congrArg s.to (if_pos h)

/-- READ and READ_MULTI are requests that may find the page of the flash. -/
theorem exec_read (s : State) (ch : Chan) (rid oid : BitVec 32) :
    exec (.read ch rid oid) s = s.runRead [oid.toNat] fun d => d.request (some ch) rid.toNat (.read oid) := rfl
theorem exec_readMulti (s : State) (ch : Chan) (rid : BitVec 32) (l : List (BitVec 32)) :
    exec (.readMulti ch rid l) s = s.runRead (l.map (·.toNat)) fun d => d.request (some ch) rid.toNat (.readMulti l) := rfl

/-! ## What the operations answer (R49 to R51, Table 2.10) -/

section
variable {s : Device} {ch : Chan} {l : List Item}

theorem doRead_of_readFor {oid : Nat} {b : Bytes} (h : s.readFor ch oid = .inr b) :
    s.doRead ch oid = { op := 0x01, status := .ok, body := b } := by simp [Device.doRead, h]

/-- READ_MULTI of 1 to 64 objects. -/
theorem doReadMulti_of_count {ids : List (BitVec 32)} (hne : ids ≠ []) (hlen : ids.length ≤ 64) :
    s.doReadMulti ch ids = { op := 0x03, status := .ok, body := s.multiBody ch ids } := by
  simp [Device.doReadMulti, hne, Nat.not_lt.mpr hlen]

theorem doDescribe_of_found {oid : Nat} {d : ObjDesc} (hfound : lookup oid = .found d) (hread : (s.rights ch).read = true)
    (hpage : (s.pageOf oid d).isSome = true) : s.doDescribe ch oid = { op := 0x05, status := .ok, body := s.describeBody oid d } := by
  simp [Device.doDescribe, hfound, hread, Option.isSome_iff_ne_none.mp hpage]

/-- Items that pass their checks and are all written. -/
theorem doWrite_of_written {op : Nat} (hgood : s.firstBad ch false 0 l = none) (hall : (s.writeItems ch 0 l).2 = none) :
    s.doWrite ch op l = ((s.writeItems ch 0 l).1, { op := op, status := .ok }) := by
  rcases hw : s.writeItems ch 0 l with ⟨t, _ | _⟩
  · simp [Device.doWrite, hgood, hw]
  · simp [hw] at hall

/-- WRITE_MULTI of 1 to 64 items, outside a transaction, is one write. -/
theorem performReq_writeMulti {rid : Nat} (hne : l ≠ []) (hlen : l.length ≤ 64) :
    s.performReq ch rid (.writeMulti false l) = s.doWrite ch 0x04 l := by
  simp [Device.performReq, hne, Nat.not_lt.mpr hlen]

end

/-! ## Messages and slots (R46, R47, R406) -/

/-- A datagram that holds one whole message, without a tag, of a session. -/
theorem datagramIn_of_whole {s : Device} {ch : Chan} {b : Bytes} (hch : s.sessionOf (beAt b 8 4) = some ch) (hexp : s.expireChan (some ch) = s)
    (hgood : headerFault b false = none) (hcount : beAt b 7 1 = 1) (hseg : beAt b 6 1 = 0)
    (htag : bit (beAt b 4 1) 4 = false) (hlen : b.length = 24 + beAt b 16 2) :
    s.datagramIn b = s.wholeMsg (some ch) none (b.take 24) (slice b 24 (beAt b 16 2)) (b.drop (24 + beAt b 16 2)) := by
  simp [Device.datagramIn, hch, hexp, hgood, hcount, hseg, htag, hlen]

/-- A message of a length in range, written to an idle slot. -/
theorem slotSubmit_of_idle {s : Device} {k len : Nat} {a : Bytes} (hidle : (tgetD s.host.slots k {}).st = .idle) (hmin : 24 ≤ len) (hmax : len ≤ 8216) :
    s.slotSubmit k len a =
      (let x : ReqSlot := { tgetD s.host.slots k {} with st := .busy, msg := padTo len a, resp := none }
       ({ s with host := { s.host with slots := tset s.host.slots k x {} } } : Device).wholeIn .pcie (some k) (padTo len a)) := by
  simp [Device.slotSubmit, hidle, Nat.not_lt.mpr hmin, Nat.not_lt.mpr hmax]

/-- Settles O16: a request that is served is answered with what its operation gives; the messages and slots are those of R46, R47 and R406. -/
theorem dictionaryRequests : Obligations.DictionaryRequests := by
  refine ⟨fun s ch rid oid b h hread hflash => ?_, fun s ch rid oid hflash => ?_, fun s ch rid l h hne hlen hflash => ?_, fun s ch rid l hflash => ?_,
    fun s ch rid oid d h hfound hread hpage => ?_, fun s ch rid i h hgood hall => ?_, fun s ch rid l h hne hlen hgood hall => ?_,
    fun s ch i d hup hknown hopen hgood => ?_, fun s b ch hup hch hexp hheader hgood hcount hseg htag hlen => ?_,
    fun s k len a hup hidle hmin hmax => ?_, fun s k hup hready => ?_, fun s ch rid y hruns hreasm hrid htime => ?_⟩
  · have hother : [oid.toNat].contains O.flashData = false := by simpa using hflash
    rw [exec_read, runRead_of_not_mem hother]
    exact run_request h rfl Req.noConfusion (by rw [Device.performReq, doRead_of_readFor hread])
  · have hnamed : [oid.toNat].contains O.flashData = true := by simp [hflash]
    rw [exec_read, runRead_of_mem hnamed]
  · rw [exec_readMulti, runRead_of_not_mem hflash]
    exact run_request h rfl Req.noConfusion (by rw [Device.performReq, doReadMulti_of_count hne hlen])
  · rw [exec_readMulti, runRead_of_mem hflash]
  · exact run_request h rfl Req.noConfusion (by rw [Device.performReq, doDescribe_of_found hfound hread hpage])
  · exact run_request h rfl Req.noConfusion (doWrite_of_written hgood hall)
  · exact run_request h rfl Req.noConfusion ((performReq_writeMulti hne hlen).trans (doWrite_of_written hgood hall))
  · change s.to (s.dev.gated (some ch) 0x02 _) = _
    have hexp : s.dev.expireChan (some ch) = s.dev := expireChan_of_inTime fun n hn hpend => by simp [hopen n hn] at hpend
    rw [gated_of_known _ hexp hup hknown fun n hn => .inl (hopen n hn), hgood]
  · simp [exec, execForeriSegment, State.run, State.to, hup, datagramIn_of_whole hch hexp hgood hcount hseg htag hlen]
  · have hlen : len ≠ 0#16 := by bv_omega
    simp [exec, execForeriSlotSubmit, State.run, State.to, hup, hlen, slotSubmit_of_idle hidle hmin hmax]
  · simp [exec, execForeriSlotFree, State.run, State.to, hup, hready]
  · simp [exec, execReassemblyTimeout, State.run, State.to, hruns, hreasm, hrid, htime]

/-! ## Dictionary transactions (R62, R63, R261) -/

section
variable {s : Device} {ch : Chan} {t : DictTxn}

/-- An item that passes its checks is staged, with the write sequence of its object. -/
theorem doStage_single {op : Nat} {i : Item} (hright : (s.rights ch).txn = true) (ht : (s.chanSt ch).txn = some t)
    (hgood : (s.setChanSt ch { s.chanSt ch with txn := some { t with lastReq := s.uptime } }).firstBad ch true 0 [i] = none)
    (hcount : t.staged.length < 256) (hsize : (t.staged.map fun y => y.item.value.length).sum + i.value.length ≤ 16384) :
    s.doStage ch op [i] =
      (let d := s.setChanSt ch { s.chanSt ch with txn := some { t with lastReq := s.uptime } }
       let y : Staged := { item := i, seqAt := tgetD d.fore.writeSeq i.oid.toNat 0 }
       (d.setChanSt ch { d.chanSt ch with txn := some { staged := t.staged ++ [y], lastReq := s.uptime } }, { op := op, status := .ok })) := by
  have hsum : ((t.staged.map fun y => y.item).map fun i => i.value.length) = t.staged.map fun y => y.item.value.length := by simp
  simp only [Device.doStage, hright, ht, hgood, hsum]
  simp [Nat.not_lt.mpr (Nat.succ_le_of_lt hcount), Nat.not_lt.mpr hsize]

theorem doTxnBegin_of_none (hright : (s.rights ch).txn = true) (hnone : (s.chanSt ch).txn = none) (hready : s.startupCode = suReady)
    (hruns : s.runs 3 = true) :
    s.doTxnBegin ch = (s.setChanSt ch { s.chanSt ch with txn := some { lastReq := s.uptime }, txnLost := false }, { op := 0x10, status := .ok }) := by
  simp [Device.doTxnBegin, hright, hnone, hready, hruns]

theorem doTxnAbort_of_some (hright : (s.rights ch).txn = true) (ht : (s.chanSt ch).txn = some t) :
    s.doTxnAbort ch = (s.setChanSt ch { s.chanSt ch with txn := none }, { op := 0x12, status := .ok }) := by
  simp [Device.doTxnAbort, hright, ht]

/-- A choice from candidates takes one of them. -/
theorem exists_choose_fst {c : List Nat} (h : c ≠ []) : ∃ n ∈ c, (s.choose c).1 = some n :=
  have hlt : Config.pick s.freeCtr % c.length < c.length := Nat.mod_lt _ (List.length_pos_iff.mpr h)
  ⟨_, List.getElem_mem hlt, List.getElem?_eq_getElem hlt⟩

/-- The device manager opens a transaction in a slot of Q0 (R244). -/
theorem txnOpenOp_manager {n : Nat} (hfrozen : s.isFrozen managerId = false) (hclasp : s.claspUp = true) (hcount : (s.txnsOf managerId).length < 8)
    (hslot : (s.choose (s.freeSlots 0)).1 = some n) :
    s.txnOpenOp managerId =
      (((s.choose (s.freeSlots 0)).2.setTxn n { master := managerId, openedAt := s.uptime, limit := us (s.num O.txnTimeLimitUs) }).okay, some n) := by
  have hmay : mayOpen managerId = true := rfl
  have hcoord : coordinator managerId = 0 := rfl
  simp only [Device.txnOpenOp, hmay, hcoord, hfrozen, hclasp]
  rw [show s.choose (s.freeSlots 0) = (some n, (s.choose (s.freeSlots 0)).2) from Prod.ext hslot rfl]
  simp [Nat.not_le.mpr hcount]
  rfl

/-- A commit that gets its slot runs in it. -/
theorem doTxnCommit_of_slot {n : Nat} (hright : (s.rights ch).txn = true) (ht : (s.chanSt ch).txn = some t)
    (hfrozen : s.isFrozen managerId = false) (hclasp : s.claspUp = true) (hcount : (s.txnsOf managerId).length < 8)
    (hslot : (s.choose (s.freeSlots 0)).1 = some n) :
    s.doTxnCommit ch = ((s.choose (s.freeSlots 0)).2.setTxn n
      { master := managerId, openedAt := s.uptime, limit := us (s.num O.txnTimeLimitUs) }).commitIn ch t n := by
  simp [Device.doTxnCommit, hright, ht, txnOpenOp_manager hfrozen hclasp hcount hslot, Device.okay]

/-- A commit whose lines are free and found, whose items are as they were staged and take effect, is answered with OK. -/
theorem commitIn_takes {d e : Device} {n : Nat} (hlock : (t.lines.any fun l => d.wLocked l (some n)) = false)
    (hstop : d.shadowStop (tgetD d.mem.txns n { master := managerId, openedAt := d.uptime, limit := 0 }) t.lines = 0)
    {u : Device} (hu : u = (t.lines.foldl (fun (d : Device) l => d.cacheTouch (128 * l) 128 false) d).setTxn n
      { (tgetD d.mem.txns n { master := managerId, openedAt := d.uptime, limit := 0 }) with tracked := t.lines, written := t.lines })
    (hstale : u.staleItem 0 t.staged = none) (hall : (u.writeItems ch 0 (t.staged.map fun y => y.item)).2 = none)
    (hcommit : u.commitNow n = some (0, e)) :
    d.commitIn ch t n = some (let f := (e.writeItems ch 0 (t.staged.map fun y => y.item)).1
      ((f.setChanSt ch { f.chanSt ch with txn := none }).unstall managerId, { op := 0x11, status := .ok })) := by
  subst hu
  simp only [Device.commitIn, hlock, hstop, hstale]
  generalize Device.writeItems _ ch 0 _ = w at hall ⊢
  obtain ⟨v, x⟩ := w
  subst hall
  simp [hcommit]

end

/-- Settles O17. A commit takes whichever free slot of Q0 the choice gives, and none of them makes it wait. -/
theorem dictionaryTransactions : Obligations.DictionaryTransactions := by
  refine ⟨fun s ch rid i t h hright ht hgood hcount hsize => ?_, fun s ch rid h hright hnone hready hruns => ?_, fun s ch rid t h hright ht => ?_,
    fun s ch rid t h hright ht hfrozen hclasp hcount hfree hgoes => ?_, fun d e ch t n hlock hstop hstale hall hcommit => ?_,
    fun s ch t ht hruns htime => ?_⟩
  · exact run_request h rfl Req.noConfusion (doStage_single hright ht hgood hcount hsize)
  · exact run_request h rfl Req.noConfusion (doTxnBegin_of_none hright hnone hready hruns)
  · exact run_request h rfl Req.noConfusion (doTxnAbort_of_some hright ht)
  · obtain ⟨n, hn, hslot⟩ := exists_choose_fst (s := s.dev.accepted ch rid.toNat) hfree
    refine ⟨n, hn, ?_⟩
    have hqueued := doTxnCommit_of_slot (s := s.dev.queued ch rid.toNat .txnCommit) (n := n) hright ht hfrozen hclasp hcount hslot
    have hwait : (s.dev.queued ch rid.toNat .txnCommit).commitWaits (waitingAt s.dev.uptime ch rid.toNat .txnCommit) = false := by
      simpa [Device.commitWaits, hqueued] using hgoes n hn
    change s.to (s.dev.request (some ch) rid.toNat .txnCommit) = _
    rw [request_of_serves h rfl hwait, Device.performReq, doTxnCommit_of_slot hright ht hfrozen hclasp hcount hslot]
  · exact commitIn_takes hlock hstop rfl hstale hall hcommit
  · simp [exec, execTxnIdleTimeout, State.run, State.to, ht, hruns, htime]

/-! ## Sessions (R56 to R60) -/

section
variable {s : Device}

/-- The one HELLO of the management port is executed when it arrives; its answer is kept by its nonce, not by its id (R57). -/
theorem request_hello {rid : Nat} {r : Byte} {k n e : Bytes} (hup : s.mgmtUp = true) (hengine : s.fore.engine = []) :
    s.request none rid (.hello r k n e) = (s.doHello false r k n e).1.deliver none none rid (s.doHello false r k n e).2 := by
  have htaken : { s with fore := { s.fore with engine := [] } } = s := by simp only [← hengine]
  simp [Device.request, Device.gated, Device.expireChan, Device.touchSession, Device.arrive, Device.commitWaits, Device.runWaiting, Device.finish,
    Device.answerAll, Device.keepResult, nextWaiting, hup, hengine, htaken]

/-- A new HELLO of the management port takes a free slot. -/
theorem doHello_takes {r : Byte} {k n e : Bytes} {j i : Nat} (hnew : s.keptHello n = none) (hrole : r.toNat ≤ 2) (hentropy : s.num O.entropyState ≠ 1)
    (hfree : s.freeSessions ≠ []) (hobs : r = 0 → s.observers.length < 8) (hsid : s.fore.nextSid ≤ 0xFFFEFFFF)
    (hkey : (if r = 0 then some 0xFF else s.findKey r.toNat k) = some j)
    (hslot : (s.choose s.freeSessions).1 = some i) :
    s.doHello false r k n e = (s.choose s.freeSessions).2.helloTaken i j r k n e := by
  have hbusy : (s.freeSessions.isEmpty || (r = 0 && 8 ≤ s.observers.length) || 0xFFFEFFFF < s.fore.nextSid) = false := by
    simpa [hfree, hsid] using hobs
  simp only [Device.doHello, hnew, if_neg (Nat.not_lt.mpr hrole), if_neg hentropy, hbusy, hkey, hslot]
  rfl

/-- AUTH of a pending session. -/
theorem doAuth_of_pending {n : Fin 16} {rid : Nat} {g t : Bytes} (hpend : (s.sess n).phase = .pending) :
    s.doAuth (.session n) rid g t =
      if s.authTagGood n rid g t = true then
        (s.setSess n { s.sess n with phase := .isOpen, lastReq := s.uptime }, { op := 0x42, status := .ok, body := beBytes 1 (s.sess n).role })
      else (s.bump O.authFailures, failed 0x42 .auth) := by
  cases h : s.authTagGood n rid g t <;> simp [Device.doAuth, hpend, h]

end

/-! ## Subscriptions (R65) -/

section
variable {s : Device} {ch : Chan}

/-- A subscription to an object that is readable, on change only where it may be, with its times in range and a number free. -/
theorem doSubscribe_takes {oid mode period minMs : Nat} {v : Ty × Bytes} {d : ObjDesc} (hright : (s.rights ch).sub = true)
    (hread : s.readObj (s.rights ch).reading (s.chanSt ch).report oid = .inr v) (hfound : lookup oid = .found d)
    (hmode : (mode = 0 ∧ d.subs = true) ∨ mode = 1) (hmin : 10 ≤ period) (hmax : period ≤ 60000) (hspace : minMs ≤ 60000)
    (hfree : (s.chanSt ch).subs.length < 64) : s.doSubscribe ch oid mode period minMs = s.subTaken ch oid mode period minMs v := by
  have hrange : (1 < mode || 60000 < minMs || !(10 ≤ period && period ≤ 60000)) = false := by
    have hle : mode ≤ 1 := by omega
    simp [hle, hmin, hmax, hspace]
  have hallowed : (mode = 0 && !d.subs) = false := by
    rcases hmode with ⟨-, hsubs⟩ | hperiodic
    · simp [hsubs]
    · simp [hperiodic]
  simp only [Device.doSubscribe, hright, hread, hfound, hrange, hallowed]
  simp [Nat.not_le.mpr hfree]

theorem doUnsubscribe_of_any {num : Nat} (h : ((s.chanSt ch).subs.any fun y => y.num == num) = true) :
    s.doUnsubscribe ch num =
      (s.setChanSt ch { s.chanSt ch with subs := (s.chanSt ch).subs.filter fun y => y.num != num }, { op := 0x21, status := .ok }) := if_pos h

/-- The time of a subscription has come, whose value now reads the bytes b. -/
def subDue (s : Device) (y : Sub) (b : Bytes) : Bool → Prop
  | true => y.lastSent.getD y.start + ms y.periodMs ≤ s.uptime
  | false => y.lastVal ≠ .bytes b ∧ ∀ t, y.lastSent = some t → t + ms y.minMs ≤ s.uptime

/-- A subscription whose time has come sends its value. -/
theorem notifyDue_of_due {num : Nat} {periodic : Bool} {y : Sub} {v : Ty × Bytes}
    (hsub : ((s.chanSt ch).subs.find? fun y => y.num == num && y.periodic == periodic) = some y) (hval : s.subValue ch y.oid = some v)
    (hup : s.chanUp ch = true) (hdue : subDue s y v.2 periodic) :
    s.notifyDue ch num periodic = (s.setChanSt ch { s.chanSt ch with
      subs := (s.chanSt ch).subs.map fun z => if z.num = num then { y with lastSent := some s.uptime, lastVal := .bytes v.2 } else z }).notify ch y.oid v := by
  simp only [Device.notifyDue, hsub, hval, hup]
  cases periodic with
  | true =>
    have htime : y.lastSent.getD y.start + ms y.periodMs ≤ s.uptime := hdue
    simp [htime]
  | false =>
    obtain ⟨hnew, htime⟩ := hdue
    cases hsent : y.lastSent with
    | none => simp [hnew]
    | some t => simp [hnew, htime t hsent]

end

/-- Settles O18. That an AUTH which never comes counts as a failed authentication is the model's choice (log entry 65). -/
theorem sessionsAndSubscriptions : Obligations.SessionsAndSubscriptions := by
  refine ⟨fun s rid r k n e j hup hengine hnew hrole hentropy hfree hobs hsid hkey => ?_, fun s rid n g t h hpend => ?_, fun s rid n h => ?_,
    fun s rid h => ?_, fun s n hruns hpend htime hengine => ?_, fun s n => ?_, fun s n hruns hopen htime => ?_,
    fun s ch rid o m p i v d h hright hread hfound hmode hmin hmax hspace hfree => ?_, fun s ch rid n h hany => ?_,
    fun s ch num y v hsub hval hup hnew hfirst => ?_, fun s ch num y v hsub hval hup htime => ?_⟩
  · obtain ⟨i, hi, hslot⟩ := exists_choose_fst (s := s.dev) hfree
    refine ⟨i, hi, ?_⟩
    change s.to (s.dev.request none rid.toNat (.hello r k n e)) = _
    rw [request_hello hup hengine, doHello_takes hnew hrole hentropy hfree hobs hsid hkey hslot]
  · cases hgood : (s.dev.accepted (.session n) rid.toNat).authTagGood n rid.toNat g t
    · exact run_request h rfl Req.noConfusion ((doAuth_of_pending hpend).trans (if_neg (by simp [hgood])))
    · exact run_request h rfl Req.noConfusion ((doAuth_of_pending hpend).trans (if_pos hgood))
  · exact run_request h rfl Req.noConfusion rfl
  · exact run_request h rfl Req.noConfusion rfl
  · simp [exec, execAuthTimeout, State.run, State.to, hruns, hpend, htime, hengine]
  · rfl
  · simp [exec, execSessionIdleTimeout, State.run, State.to, hruns, hopen, htime]
  · exact run_request h rfl Req.noConfusion (doSubscribe_takes hright hread hfound hmode hmin hmax hspace hfree)
  · exact run_request h rfl Req.noConfusion (doUnsubscribe_of_any hany)
  · exact congrArg s.to (notifyDue_of_due (by simpa using hsub) hval hup ⟨hnew, by simp [hfirst]⟩)
  · exact congrArg s.to (notifyDue_of_due (by simpa using hsub) hval hup htime)

end Sys2Proof.Dictionary
end

section
/-! Number formats (R68 to R70, R76): what the rows of Table 3.1 have in common, what an element's bits are read as, and what is written. -/

namespace Sys2Proof.Formats
open Sys2Proof.Machine

/-! ## The rows of Table 3.1 -/

/-- The largest magnitude code that is no NaN: infinity's, and where a format has none, that of its largest value. -/
def lastCode (f : Fmt) : Nat := f.infCode.getD f.maxCode

/-- What the rows of Table 3.1 have in common: an integer format is a sign and p bits; in every other format infinity, where there is one,
comes right after the largest value, and what lies above is NaN. -/
structure TableRow (f : Fmt) : Prop where
  p_pos : 0 < f.p
  w_pos : 0 < f.w
  intCodes : f.isInt = true → f.w = f.p + 1 ∧ f.maxCode + 1 = 2 ^ f.p
  infNext : ∀ i ∈ f.infCode, i = f.maxCode + 1
  lastCode_lt : lastCode f < 2 ^ (f.w - 1)
  nanAbove : f.isInt = false → f.infCode = none → ∀ c < 2 ^ (f.w - 1), f.nanCode = some c ↔ f.maxCode < c

/-- Every format of Table 3.1 is such a row. -/
theorem tableRow_of_fmtOf {k : Nat} {f : Fmt} (h : fmtOf k = some f) : TableRow f := by
  unfold fmtOf at h
  split at h <;> cases h <;> constructor <;> decide

/-- The formats of the codes 0 to 4 are rows whose magnitude codes are not integers. -/
theorem tableRow_float {k : Nat} (hk : k < 5) : TableRow (fmt! k) ∧ (fmt! k).isInt = false := by
  obtain ⟨f, hf, hfloat⟩ : ∃ f, fmtOf k = some f ∧ f.isInt = false := by
    revert k
    decide
  have hfmt : fmt! k = f := by simp [fmt!, hf]
  exact hfmt ▸ ⟨tableRow_of_fmtOf hf, hfloat⟩

theorem maxCode_le_lastCode {f : Fmt} (hf : TableRow f) : f.maxCode ≤ lastCode f := by
  cases h : f.infCode with
  | none => simp [lastCode, h]
  | some i => simp [lastCode, h, hf.infNext i h]

/-- A magnitude code is a value's, infinity's or a NaN's. -/
theorem code_cases {f : Fmt} (hf : TableRow f) (c : Nat) : c ≤ f.maxCode ∨ f.infCode = some c ∨ lastCode f < c := by
  cases h : f.infCode with
  | none =>
    simp only [lastCode, h, Option.getD_none]
    omega
  | some i =>
    have := hf.infNext i h
    simp only [lastCode, h, Option.getD_some, Option.some.injEq]
    omega

/-! ## What is read (R68, R69) -/

/-- The significand of a magnitude code. -/
def significand (f : Fmt) (c : Nat) : Nat := if c < 2 ^ (f.p - 1) then c else c % 2 ^ (f.p - 1) + 2 ^ (f.p - 1)

/-- The exponent of the step at a magnitude code. -/
def stepExp (f : Fmt) (c : Nat) : Int := if c < 2 ^ (f.p - 1) then f.qmin else f.qmin + (c / 2 ^ (f.p - 1) : Nat) - 1

section
variable {f : Fmt} {raw : Nat}

theorem decode_int (hint : f.isInt = true) (hraw : raw < 2 ^ f.w) :
    f.decode raw = .fin (decide (toSigned f.w raw < 0)) (toSigned f.w raw).natAbs f.qmin := by
  simp [Fmt.decode, hint, Nat.mod_eq_of_lt hraw]

/-- A code up to the largest value's is read as significand and step. -/
theorem decode_of_le (hf : TableRow f) (hfloat : f.isInt = false) (hle : raw % 2 ^ (f.w - 1) ≤ f.maxCode) :
    f.decode raw = .fin (bit raw (f.w - 1)) (significand f (raw % 2 ^ (f.w - 1))) (stepExp f (raw % 2 ^ (f.w - 1))) := by
  have hlt : raw % 2 ^ (f.w - 1) < 2 ^ (f.w - 1) := Nat.mod_lt _ (by positivity)
  simp only [Fmt.decode, hfloat, significand, stepExp]
  generalize raw % 2 ^ (f.w - 1) = c at hle hlt
  cases h : f.infCode with
  | none =>
    have hnan : f.nanCode ≠ some c := fun e => absurd ((hf.nanAbove hfloat h c hlt).mp e) (by omega)
    by_cases hsub : c < 2 ^ (f.p - 1) <;> simp [hnan, hsub]
  | some i =>
    have hbelow : c < i := Nat.lt_of_le_of_lt hle (by simp [hf.infNext i h])
    by_cases hsub : c < 2 ^ (f.p - 1) <;> simp [hbelow.le, hbelow.ne', hsub]

theorem decode_of_inf (hfloat : f.isInt = false) (h : f.infCode = some (raw % 2 ^ (f.w - 1))) : f.decode raw = .inf (bit raw (f.w - 1)) := by
  simp [Fmt.decode, hfloat, h]

/-- A code above infinity's, or above the largest value's where there is no infinity, is read as the NaN. -/
theorem decode_of_lastCode_lt (hf : TableRow f) (hfloat : f.isInt = false) (habove : lastCode f < raw % 2 ^ (f.w - 1)) : f.decode raw = .nan := by
  have hlt : raw % 2 ^ (f.w - 1) < 2 ^ (f.w - 1) := Nat.mod_lt _ (by positivity)
  simp only [Fmt.decode, hfloat]
  generalize raw % 2 ^ (f.w - 1) = c at habove hlt
  cases h : f.infCode with
  | none =>
    have hnan : f.nanCode = some c := (hf.nanAbove hfloat h c hlt).mpr (by simpa [lastCode, h] using habove)
    simp [hnan]
  | some i =>
    have hic : i < c := by simpa [lastCode, h] using habove
    simp [hic, hic.ne]

/-- The NaNs of a format are the patterns whose magnitude code lies above the last one. -/
theorem decode_eq_nan_iff (hf : TableRow f) (hfloat : f.isInt = false) : f.decode raw = .nan ↔ lastCode f < raw % 2 ^ (f.w - 1) := by
  rcases code_cases hf (raw % 2 ^ (f.w - 1)) with hle | hinf | habove
  · have := maxCode_le_lastCode hf
    simp [decode_of_le hf hfloat hle]
    omega
  · simp [decode_of_inf hfloat hinf, lastCode, hinf]
  · simp [decode_of_lastCode_lt hf hfloat habove, habove]

/-- A pattern that is read as a finite value has the magnitude code of one. -/
theorem mod_le_maxCode_of_finite (hf : TableRow f) (hfloat : f.isInt = false) (hfin : (f.decode raw).finite = true) :
    raw % 2 ^ (f.w - 1) ≤ f.maxCode := by
  rcases code_cases hf (raw % 2 ^ (f.w - 1)) with hle | hinf | habove
  · exact hle
  · simp [decode_of_inf hfloat hinf, Fp.finite] at hfin
  · simp [decode_of_lastCode_lt hf hfloat habove, Fp.finite] at hfin

end

/-! ## Rounding a value of the format (R76) -/

/-- A significand of at most p bits at a step of the format is rounded to itself. -/
theorem roundMag_of_fits {p m : Nat} {qmin e : Int} (rtz : Bool) (hp : 0 < p) (hm : m < 2 ^ p) (hstep : e = qmin ∨ (qmin ≤ e ∧ 2 ^ (p - 1) ≤ m)) :
    roundMag p qmin rtz m e = (m, e) := by
  by_cases hzero : m = 0
  · have hhalf : 0 < 2 ^ (p - 1) := by positivity
    have he : e = qmin := by omega
    simp [roundMag, hzero, he]
  · have hlog : Nat.log2 m < p := (Nat.log2_lt hzero).mpr hm
    have hq : max ((Nat.log2 m : Int) + e - ((p : Int) - 1)) qmin = e := by
      rcases hstep with he | ⟨he, hnormal⟩
      · omega
      · have := (Nat.le_log2 hzero).mpr hnormal
        omega
    simp [roundMag, hzero, hq]

theorem magCode_of_fits {f : Fmt} {m : Nat} {e : Int} (rtz : Bool) (hp : 0 < f.p) (hm : m < 2 ^ f.p)
    (hstep : e = f.qmin ∨ (f.qmin ≤ e ∧ 2 ^ (f.p - 1) ≤ m)) : f.magCode rtz m e = m + (e - f.qmin).toNat * 2 ^ (f.p - 1) := by
  simp [Fmt.magCode, roundMag_of_fits rtz hp hm hstep]

/-- Significand and step of a magnitude code give it back. -/
theorem magCode_significand_stepExp {f : Fmt} (rtz : Bool) (hp : 0 < f.p) (c : Nat) : f.magCode rtz (significand f c) (stepExp f c) = c := by
  have hhalf : 2 ^ f.p = 2 * 2 ^ (f.p - 1) := by rw [← Nat.pow_succ', Nat.succ_eq_add_one, Nat.sub_add_cancel hp]
  by_cases hsub : c < 2 ^ (f.p - 1)
  · simp only [significand, stepExp, if_pos hsub]
    rw [magCode_of_fits rtz hp (by omega) (.inl rfl)]
    simp
  · have hmod : c % 2 ^ (f.p - 1) < 2 ^ (f.p - 1) := Nat.mod_lt _ (by positivity)
    have hdiv : 1 ≤ c / 2 ^ (f.p - 1) := (Nat.one_le_div_iff (by positivity)).mpr (by omega)
    simp only [significand, stepExp, if_neg hsub]
    rw [magCode_of_fits rtz hp (by omega) (.inr ⟨by omega, by omega⟩)]
    have hsteps : (f.qmin + (c / 2 ^ (f.p - 1) : Nat) - 1 - f.qmin).toNat = c / 2 ^ (f.p - 1) - 1 := by omega
    calc c % 2 ^ (f.p - 1) + 2 ^ (f.p - 1) + (f.qmin + (c / 2 ^ (f.p - 1) : Nat) - 1 - f.qmin).toNat * 2 ^ (f.p - 1)
        = c % 2 ^ (f.p - 1) + (c / 2 ^ (f.p - 1) - 1 + 1) * 2 ^ (f.p - 1) := by rw [hsteps]; ring
      _ = c := by rw [Nat.sub_add_cancel hdiv, Nat.mod_add_div']

/-! ## Sign and magnitude -/

section
variable {f : Fmt}

theorem signed_float (hfloat : f.isInt = false) (neg : Bool) (c : Nat) : f.signed neg c = c + if neg then 2 ^ (f.w - 1) else 0 := by
  cases neg <;> simp [Fmt.signed, hfloat]

theorem two_pow_w (hf : TableRow f) : 2 ^ f.w = 2 * 2 ^ (f.w - 1) := by
  rw [← Nat.pow_succ', Nat.succ_eq_add_one, Nat.sub_add_cancel hf.w_pos]

/-- What is written keeps the magnitude code below the sign. -/
theorem signed_mod (hfloat : f.isInt = false) (neg : Bool) {c : Nat} (hc : c < 2 ^ (f.w - 1)) : f.signed neg c % 2 ^ (f.w - 1) = c := by
  cases neg <;> simp [signed_float hfloat, Nat.mod_eq_of_lt hc]

/-- A pattern is its sign bit and its magnitude code. -/
theorem signed_bit_mod (hf : TableRow f) (hfloat : f.isInt = false) {raw : Nat} (hraw : raw < 2 ^ f.w) :
    f.signed (bit raw (f.w - 1)) (raw % 2 ^ (f.w - 1)) = raw := by
  have hw := two_pow_w hf
  have hsplit := Nat.mod_add_div raw (2 ^ (f.w - 1))
  have hsign : raw / 2 ^ (f.w - 1) < 2 := Nat.div_lt_of_lt_mul (by omega)
  simp only [signed_float hfloat, bit, beq_iff_eq, Nat.mod_eq_of_lt hsign]
  generalize raw / 2 ^ (f.w - 1) = q at *
  interval_cases q <;> simp_all

theorem toSigned_neg_iff {w raw : Nat} (hraw : raw < 2 ^ w) : toSigned w raw < 0 ↔ 2 ^ (w - 1) ≤ raw := by
  have hcast : ((2 ^ w : Nat) : Int) = 2 ^ w := Nat.cast_pow 2 w
  unfold toSigned
  split <;> omega

theorem natAbs_toSigned {w raw : Nat} (hraw : raw < 2 ^ w) : (toSigned w raw).natAbs = if 2 ^ (w - 1) ≤ raw then 2 ^ w - raw else raw := by
  have hcast : ((2 ^ w : Nat) : Int) = 2 ^ w := Nat.cast_pow 2 w
  unfold toSigned
  split <;> split <;> omega

/-- A pattern of an integer format is its value's sign and magnitude. -/
theorem signed_toSigned (hint : f.isInt = true) {raw : Nat} (hraw : raw < 2 ^ f.w) :
    f.signed (decide (toSigned f.w raw < 0)) (toSigned f.w raw).natAbs = raw := by
  simp only [Fmt.signed, hint, toSigned_neg_iff hraw, natAbs_toSigned hraw, decide_eq_true_eq, if_true]
  split
  · rw [Nat.sub_sub_self hraw.le, Nat.mod_eq_of_lt hraw]
  · rfl

end

/-! ## What is written (R69, R70) -/

section
variable {f : Fmt}

theorem narrow_fin_of_le {rtz : Bool} {neg : Bool} {m : Nat} {e : Int} (hle : f.magCode rtz m e ≤ f.maxCode) :
    f.narrow rtz (.fin neg m e) = (f.signed neg (f.magCode rtz m e), false) := by
  simp [Fmt.narrow, Nat.not_lt.mpr hle]

/-- A value that is not NaN is written with a sign and a magnitude code up to the last one. -/
theorem narrow_fst_of_ne_nan (hf : TableRow f) (rtz : Bool) {x : Fp} (hx : x ≠ .nan) :
    ∃ neg, ∃ c ≤ lastCode f, (f.narrow rtz x).1 = f.signed neg c := by
  have hmax := maxCode_le_lastCode hf
  cases x with
  | nan => exact absurd rfl hx
  | inf neg =>
    refine ⟨neg, lastCode f, le_rfl, ?_⟩
    cases h : f.infCode <;> simp [Fmt.narrow, lastCode, h]
  | fin neg m e =>
    by_cases hover : f.maxCode < f.magCode rtz m e
    · exact ⟨neg, f.maxCode, hmax, by simp [Fmt.narrow, hover]⟩
    · exact ⟨neg, f.magCode rtz m e, by omega, by simp [Fmt.narrow, hover]⟩

/-- A sign and a magnitude code up to the last one are not read as a NaN. -/
theorem decode_signed_ne_nan (hf : TableRow f) (hfloat : f.isInt = false) {neg : Bool} {c : Nat} (hc : c ≤ lastCode f) :
    f.decode (f.signed neg c) ≠ .nan := by
  rw [Ne, decode_eq_nan_iff hf hfloat, signed_mod hfloat neg (hc.trans_lt hf.lastCode_lt)]
  omega

/-- Only a NaN is written as a NaN. -/
theorem eq_nan_of_decode_narrow (hf : TableRow f) (hfloat : f.isInt = false) {rtz : Bool} {x : Fp}
    (h : f.decode (f.narrow rtz x).1 = .nan) : x = .nan := by
  by_contra hx
  obtain ⟨neg, c, hc, hwritten⟩ := narrow_fst_of_ne_nan hf rtz hx
  exact decode_signed_ne_nan hf hfloat hc (hwritten ▸ h)

/-- The value of a finite pattern of a format other than the integer ones is written as the pattern. -/
theorem narrow_decode_float (hf : TableRow f) (hfloat : f.isInt = false) (rtz : Bool) {raw : Nat} (hraw : raw < 2 ^ f.w)
    (hfin : (f.decode raw).finite = true) : f.narrow rtz (f.decode raw) = (raw, false) := by
  have hle := mod_le_maxCode_of_finite hf hfloat hfin
  have hcode := magCode_significand_stepExp rtz hf.p_pos (raw % 2 ^ (f.w - 1))
  rw [decode_of_le hf hfloat hle, narrow_fin_of_le (hcode.trans_le hle), hcode, signed_bit_mod hf hfloat hraw]

/-- The value of a pattern of an integer format other than the most negative code is written as the pattern. -/
theorem narrow_decode_int (hf : TableRow f) (hint : f.isInt = true) (rtz : Bool) {raw : Nat} (hraw : raw < 2 ^ f.w)
    (hleast : raw ≠ 2 ^ (f.w - 1)) : f.narrow rtz (f.decode raw) = (raw, false) := by
  obtain ⟨hw, hmax⟩ := hf.intCodes hint
  have habs : (toSigned f.w raw).natAbs < 2 ^ f.p := by
    have hpow := two_pow_w hf
    have hp : f.w - 1 = f.p := by omega
    rw [natAbs_toSigned hraw, ← hp]
    split <;> omega
  have hcode : f.magCode rtz (toSigned f.w raw).natAbs f.qmin = (toSigned f.w raw).natAbs := by
    simp [magCode_of_fits rtz hf.p_pos habs (.inl rfl)]
  rw [decode_int hint hraw, narrow_fin_of_le (by omega), hcode, signed_toSigned hint hraw]

theorem tableRow_fmt32 : TableRow fmt32 := tableRow_of_fmtOf (k := 0) rfl

/-- A value that is not NaN is rounded to a binary32 with a sign and a magnitude code up to infinity's. -/
theorem toF32_of_ne_nan {x : Fp} (hx : x ≠ .nan) : ∃ neg, ∃ c ≤ lastCode fmt32, toF32 x = BitVec.ofNat 32 (fmt32.signed neg c) := by
  cases x with
  | nan => exact absurd rfl hx
  | inf neg => exact ⟨neg, lastCode fmt32, le_rfl, by cases neg <;> rfl⟩
  | fin neg m e =>
    refine ⟨neg, if 0x7F7FFFFF < fmt32.magCode false m e then 0x7F800000 else fmt32.magCode false m e, ?_, rfl⟩
    have hinf : lastCode fmt32 = 0x7F800000 := rfl
    split <;> omega

/-- Only a NaN is rounded to a binary32 that is a NaN. -/
theorem eq_nan_of_toF32_fp {x : Fp} (h : (toF32 x).fp = .nan) : x = .nan := by
  by_contra hx
  obtain ⟨neg, c, hc, hrounded⟩ := toF32_of_ne_nan hx
  refine decode_signed_ne_nan tableRow_fmt32 rfl (neg := neg) hc ?_
  have hlow : fmt32.signed neg c % 2 ^ 32 % 2 ^ (fmt32.w - 1) = fmt32.signed neg c % 2 ^ (fmt32.w - 1) := Nat.mod_mod_of_dvd _ (by decide)
  rwa [hrounded, F32.fp, BitVec.toNat_ofNat, decode_eq_nan_iff tableRow_fmt32 rfl, hlow, ← decode_eq_nan_iff tableRow_fmt32 rfl] at h

end

/-! ## The obligations -/

/-- Settles O51, for each row of Table 3.1 by what the rows have in common. -/
theorem conversionExact : Obligations.ConversionExact := by
  intro k f raw rtz hk hraw hfin hleast
  have hf := tableRow_of_fmtOf hk
  cases hint : f.isInt with
  | false => exact narrow_decode_float hf hint rtz hraw hfin
  | true => exact narrow_decode_int hf hint rtz hraw (hleast hint)

/-- Settles O50: only a NaN is written as a NaN, and the NaNs of a format are the magnitude codes above the last one. -/
theorem canonicalNan : Obligations.CanonicalNan := by
  refine ⟨by decide, rfl, fun k hk rtz x h => ?_, fun x h => ?_, fun k hk raw => ?_, fun x => ?_⟩
  · obtain ⟨hf, hfloat⟩ := tableRow_float hk
    rw [eq_nan_of_decode_narrow hf hfloat h]
  · rw [eq_nan_of_toF32_fp h]
    rfl
  · obtain ⟨hf, hfloat⟩ := tableRow_float hk
    have hlast : ∀ k < 5, [0x7F800000, 0x7F80, 0x7C00, 0x7E, 0x7C].getD k 0 = lastCode (fmt! k) := by decide
    rw [decode_eq_nan_iff hf hfloat, hlast k hk]
  · cases x <;> simp [Fp.add, Fp.mul]

end Sys2Proof.Formats
end

section
/-! The engines of a core: list entries, the array and its drain, the vector engine, the DMA channels, and the scrubs (R97 to R153). -/

namespace Sys2Proof.CoreEngines
open Sys2Proof.Machine Sys2Proof.Laws

/-! ## The sequencer (R99, R124, Table 4.3) -/

section
variable {s : Device} {n j a : Nat}

/-- A sequencer that may issue executes the entry at its pc. -/
theorem seqRow_of_entry {kind : Nat} (hready : s.seqReady n = true) (hentry : s.listEntry n (s.core n).pc = (kind, j, a)) (f : Nat → Nat → Device) :
    s.seqRow n kind f = f j a := by
  simp [Device.seqRow, hready, hentry]

/-- An MMA command that passes the checks of R102 and R103 and has no piecewise table enters the array command queue. -/
theorem issueMma_enters {m : Mma} (hm : Mma.decode (s.cmGet n a 128) = m) (hwaits : (s.core n).arrayWaits < 4) (halign : aligned a 128 = true)
    (hfit : a + 128 ≤ cmBytes) (hopcode : leAt (s.cmGet n a 128) 7 1 = 0x10) (hform : m.formOk = true)
    (hchain : (m.acc == 1) = (s.core n).chainHeld) (hfn : m.fn ≠ 8) (hextents : beyondCm m.extents = false) :
    s.issueMma n a = (s.setCore n { s.core n with
      arrayQ := (s.core n).arrayQ ++ [{ m with poly := [] }]
      arrayAt := if (s.core n).arrayQ.isEmpty then s.uptime else (s.core n).arrayAt }).advance n := by
  subst hm
  simp [Device.issueMma, Nat.not_le.mpr hwaits, halign, Nat.not_lt.mpr hfit, hopcode, hform, hchain, hfn, hextents]

/-- A descriptor that is aligned and lies in core memory enters a queue that has room (R122). -/
theorem issueDma_enters (hroom : (tgetD (s.core n).dma j {}).queue.length < 16) (halign : aligned a 64 = true) (hfit : a + 64 ≤ cmBytes) :
    s.issueDma n j a =
      (let d := tgetD (s.core n).dma j {}
       (s.setCore n { s.core n with dma := tset (s.core n).dma j { d with queue := d.queue ++ [s.cmGet n a 64] } {} }).advance n) := by
  simp [Device.issueDma, Nat.not_le.mpr hroom, halign, Nat.not_lt.mpr hfit]

/-- A VECTOR command that passes the checks of R146, its tables t read, enters the vector queue. -/
theorem issueVector_enters {v : VCmd} (hv : VCmd.decode (s.cmGet n a 192) = v) (hroom : (s.core n).vq.length < 4) (halign : aligned a 64 = true)
    (hfit : a + 192 ≤ cmBytes) (hopcode : leAt (s.cmGet n a 192) 7 1 = 0x20) (hform : v.formOk = true) (hkinds : (s.core n).kindsOk v = true)
    (hargs : v.argsOk = true) {t : List Poly} (htables : s.polyTables n v.polyAddrs = some t) (hextents : beyondCm (s.vExtents n v) = false) :
    s.issueVector n a = (s.setCore n { s.core n with vq := (s.core n).vq ++ [{ v with polys := t }] }).advance n := by
  subst hv
  have hwaits : ¬ 4 ≤ (s.core n).vq.length - (if (s.core n).vrun.isSome then 1 else 0) := by omega
  simp [Device.issueVector, hwaits, halign, Nat.not_lt.mpr hfit, hopcode, hform, hkinds, hargs, htables, hextents]

end

/-! ## An operation that meets no error (R120, R153) -/

@[simp] theorem anyDouble_nil : anyDouble [] = false := rfl
@[simp] theorem cmErrors_nil (s : Device) (n : Nat) : s.cmErrors n [] = s := rfl
@[simp] theorem keepWords_nil (s old : Device) (n : Nat) : s.keepWords old n [] = s := rfl

/-- Where a descriptor meets nothing in core memory, cluster memory or HBM, nothing is counted. -/
theorem dmaErrors_empty (s : Device) (m : Nat) (d : Desc) (x : Job) (rows : Nat) : s.dmaErrors m d x rows {} = (none, s) := if_pos rfl

/-! ## Drains and direct stores (R110 to R115) -/

/-- What an object holds does not depend on the cores. -/
@[simp] theorem num_setCore (s : Device) (n : Nat) (c : CoreSt) (o : Nat) : (s.setCore n c).num o = s.num o := num_of_objs rfl o

section
variable {s : Device} {n i : Nat} {m : Mma}

/-- The oldest finished bank claims an entry; the queue was longer before (R114). -/
theorem drainStart_below_peak (hnone : ((s.core n).banks.any fun b => b.st == BankState.draining) = false) (hroom : (s.core n).queue.length < 8)
    (hfull : ((s.core n).banks.findIdx? fun b => b.st == BankState.full) = some i) (hcmd : ((s.core n).banks.getD i {}).cmd = some m)
    (hpeak : (s.core n).queue.length < s.num (O.queuePeak (n / 16) (n % 16))) :
    s.drainStart n = s.setCore n { s.core n with
      banks := (s.core n).banks.set i { (s.core n).banks.getD i {} with st := .draining }
      queue := (s.core n).queue ++ [{ cmd := m }] } := by
  simp only [Device.drainStart, hnone, hfull, hcmd, num_setCore, decide_eq_false (Nat.not_le.mpr hroom), Bool.or_false]
  rw [if_neg Bool.false_ne_true, if_neg (Nat.not_lt.mpr hpeak)]

/-- A drain that meets no error fills the entry that it claimed. -/
theorem drainEnd_fills (hdraining : ((s.core n).banks.findIdx? fun b => b.st == BankState.draining) = some i)
    (hcmd : ((s.core n).banks.getD i {}).cmd = some m) :
    s.drainEnd n [] = (s.setCore n { s.core n with
      banks := (s.core n).banks.set i {}
      queue := (s.core n).queue.map fun e =>
        if e.filled then e else { filled := true, cmd := m, tile := s.drained n m ((s.core n).banks.getD i {}).tile } }).bump
      (O.tilesDrained (n / 16) (n % 16)) := by
  simp only [Device.drainEnd, hdraining, hcmd, cmErrors_nil, anyDouble_nil]
  rfl

/-- A store that meets no error takes the head entry out. -/
theorem directStore_writes {e : QEntry} {rest : List QEntry} (hqueue : (s.core n).queue = e :: rest) (hfilled : e.filled = true)
    (hdest : e.cmd.dest = 1) :
    s.directStore n [] =
      (s.storeTile n e.cmd.out e.cmd.mRows e.cmd.nCols (tileAt e.tile)).setCore n { s.core n with queue := rest } := by
  simp [Device.directStore, hqueue, hfilled, hdest]

end

/-! ## Passes of the vector engine (R130, R133, R147) -/

section
variable {s : Device} {n : Nat} {v : VCmd}

/-- A pass that is not depth-wise starts once its source is there. -/
theorem passStart_of_source (hhead : (s.core n).vq.head? = some v) (hidle : (s.core n).vrun = none) (hsource : (s.core n).sourceThere v = true)
    (hsrc : v.src ≠ 3) : s.passStart n = (s.setCore n { s.core n with vrun := some s.uptime }).vectorView n := by
  simp [Device.passStart, hhead, hidle, hsource, hsrc]

/-- A pass that meets no error commits its results. -/
theorem passEnd_commits {t : Nat} (hhead : (s.core n).vq.head? = some v) (hrun : (s.core n).vrun = some t) (wait overlap row : Nat) :
    s.passEnd n wait overlap row [] =
      (((((s.bump (O.vectorBusyCycles (n / 16) (n % 16)) (v.cycles + wait - overlap)).bump
        (O.vectorWaitCycles (n / 16) (n % 16)) wait).cmErrors n []).noteRun n t).passCommit n v).vectorView n := by
  simp [Device.passEnd, hhead, hrun]

end

/-! ## The DMA channels (R122, R125, R126) -/

/-- A channel may start the descriptor at the head of its queue, which passes every check of R125. -/
structure Starts (s : Device) (n j op : Nat) (raw : Bytes) (job : Nat) (x : Job) : Prop where
  head : (s.chan n j).queue.head? = some raw
  occupant : s.occupant n = some job
  found : s.job? job = some x
  live : s.coreLive n = true
  notHeld : s.coreHeld n = false
  idle : s.num (O.dmaState (n / 16) (dmaEl n j)) = 0
  inactive : (s.chan n j).active = none
  notHalted : (s.chan n j).halted = false
  opcode : (Desc.decode raw).op = op
  form : (Desc.decode raw).formFault = none
  bounds : (Desc.decode raw).violates x = none
  notShared : s.dmaHold n j x (Desc.decode raw) = none
  mapped : (((Desc.decode raw).streams x).find? fun t => (s.hbmStreamBad t).1 || (s.hbmStreamBad t).2) = none

/-- A running descriptor waits for no lock and reaches its source, and none of its rows meets a dead pseudo-channel or a lost line. -/
structure Moves (s : Device) (n j : Nat) (raw : Bytes) (t job : Nat) (x : Job) : Prop where
  head : (s.chan n j).queue.head? = some raw
  active : (s.chan n j).active = some t
  occupant : s.occupant n = some job
  found : s.job? job = some x
  notLocked : s.dmaWaits (Desc.decode raw) x = false
  source : s.bufOn (x.buf (Desc.decode raw).srcBuf) = true
  rows : (s.unstall (dmaMaster n j)).dmaBadRow (Desc.decode raw) x = none

section
variable {s : Device} {n j job : Nat} {raw : Bytes} {x : Job}

/-- The descriptor runs, whichever its operation. -/
theorem dmaStart_of_starts {op : Nat} (h : Starts s n j op raw job x) :
    s.dmaStart n j op = (s.setChan n j { s.chan n j with active := some s.uptime }).setNum (O.dmaState (n / 16) (dmaEl n j)) 1 := by
  simp only [Device.dmaStart, h.head, h.occupant, h.found, h.form, h.bounds, h.mapped, h.notShared]
  simp [h.live, h.notHeld, h.idle, h.inactive, h.notHalted, h.opcode]

/-- Where no row is named, a descriptor stops nowhere. -/
theorem stopRow_none (d : Desc) : d.stopRow [none, none] = none := rfl

/-- A descriptor stops at the one row named, if it has it. -/
theorem stopRow_single {d : Desc} {r : Nat} (h : r < d.rows) : d.stopRow [some r, none] = some r := by simp [Desc.stopRow, h]

/-- A descriptor that meets no error moves all of its rows. -/
theorem dmaEnd_completes {t : Nat} (h : Moves s n j raw t job x) :
    s.dmaEnd n j none {} = (((s.unstall (dmaMaster n j)).dmaMove n j job (Desc.decode raw) x (Desc.decode raw).rows).dmaDone n j .ok).noteRun n t := by
  simp [Device.dmaEnd, h.head, h.active, h.occupant, h.found, h.notLocked, h.source, h.rows, stopRow_none, dmaErrors_empty]

/-- A descriptor that meets an uncorrected error at one of its rows moves the rows before it, and the channel halts. -/
theorem dmaEnd_halts {t r : Nat} (h : Moves s n j raw t job x) (hr : r < (Desc.decode raw).rows) :
    s.dmaEnd n j (some r) {} =
      ((((s.unstall (dmaMaster n j)).dmaMove n j job (Desc.decode raw) x r).dmaDone n j .uncorrected).dmaHalt n j).noteRun n t := by
  simp [Device.dmaEnd, h.head, h.active, h.occupant, h.found, h.notLocked, h.source, h.rows, stopRow_single hr, dmaErrors_empty]

end

/-! ## The obligations -/

/-- Settles O19: an entry is executed by a sequencer that may issue, and each unit of the core goes on when its own conditions are met. -/
theorem sequencerEntries : Obligations.SequencerEntries := by
  refine ⟨fun s c k j a hready hentry hwaits halign hfit hopcode hform hchain hfn hextents => ?_, fun s c k u v m rest b l hlive hmay hqueue hbank => ?_,
    fun s c k i m hlive hnone hroom hfull hcmd hpeak => ?_, fun s c k i m hlive hdraining hcmd => ?_,
    fun s c k e rest hlive hqueue hfilled hdest => ?_, fun s c k j a hready hentry => ?_, fun s c k hlive hheld hseq hmet => ?_,
    fun s c k j a hready hentry hroom halign hfit => ?_, fun s c k j a hready hentry hcount => ?_,
    fun s c k j a hseq hlive hheld hcount => ?_, fun s c k j a hready hentry => ?_⟩
  · exact congrArg s.to ((seqRow_of_entry hready hentry _).trans
      (issueMma_enters rfl hwaits halign hfit hopcode hform hchain hfn hextents))
  · exact congrArg s.to (if_pos (by rw [hlive, hmay]; rfl))
  · exact congrArg s.to ((if_pos hlive).trans (drainStart_below_peak hnone hroom hfull hcmd hpeak))
  · exact congrArg s.to ((if_pos hlive).trans (drainEnd_fills hdraining hcmd))
  · exact congrArg s.to ((if_pos hlive).trans (directStore_writes hqueue hfilled hdest))
  · exact congrArg s.to (seqRow_of_entry hready hentry _)
  · exact congrArg s.to (if_pos (by simp [hlive, hheld, hseq, hmet]))
  · exact congrArg s.to ((seqRow_of_entry hready hentry _).trans (issueDma_enters hroom halign hfit))
  · exact congrArg s.to ((seqRow_of_entry hready hentry _).trans (if_neg (Nat.not_le.mpr hcount)))
  · simp [exec, execWaitDmaRelease, State.to, hseq, hlive, hheld, hcount]
  · exact congrArg s.to (seqRow_of_entry hready hentry _)

/-- Settles O20: the three operations of a descriptor start alike, and a descriptor that runs ends with all its rows or at the row of an error. -/
theorem vectorAndDmaEngines : Obligations.VectorAndDmaEngines := by
  refine ⟨fun s c k j a hready hentry hroom halign hfit hopcode hform hkinds hargs htables hextents => ?_,
    fun s c k v hlive hheld hhead hidle hsource hsrc => ?_, fun s c k w o r v t hlive hhead hrun => ?_, fun s c k h hruns => ?_,
    fun s c h hruns => ?_,
    fun s c k j raw job x hhead hocc hjob hlive hheld hidle hinactive hhalted hop hform hbounds hshared hmapped => ?_,
    fun s c k j raw job x hhead hocc hjob hlive hheld hidle hinactive hhalted hop hform hbounds hshared hmapped => ?_,
    fun s c k j raw job x hhead hocc hjob hlive hheld hidle hinactive hhalted hop hform hbounds hshared hmapped => ?_,
    fun s c k j raw t job x hhead hactive hocc hjob hlive hlock hsource hrows => ?_,
    fun s n j raw t job r x hhead hactive hocc hjob hlock hsource hrows hr => ?_⟩
  · obtain ⟨t, ht⟩ := Option.isSome_iff_exists.mp htables
    rw [ht]
    exact congrArg s.to ((seqRow_of_entry hready hentry _).trans
      (issueVector_enters rfl hroom halign hfit hopcode hform hkinds hargs ht hextents))
  · exact congrArg s.to ((if_pos (by simp [hlive, hheld])).trans (passStart_of_source hhead hidle hsource hsrc))
  · exact congrArg s.to ((if_pos hlive).trans (passEnd_commits hhead hrun _ _ _))
  · exact congrArg s.to (if_pos hruns)
  · exact congrArg s.to (if_pos hruns)
  · exact congrArg s.to (dmaStart_of_starts ⟨hhead, hocc, hjob, hlive, hheld, hidle, hinactive, hhalted, hop, hform, hbounds, hshared, hmapped⟩)
  · exact congrArg s.to (dmaStart_of_starts ⟨hhead, hocc, hjob, hlive, hheld, hidle, hinactive, hhalted, hop, hform, hbounds, hshared, hmapped⟩)
  · exact congrArg s.to (dmaStart_of_starts ⟨hhead, hocc, hjob, hlive, hheld, hidle, hinactive, hhalted, hop, hform, hbounds, hshared, hmapped⟩)
  · exact congrArg s.to ((if_pos (by simp [hlive, hactive])).trans (dmaEnd_completes ⟨hhead, hactive, hocc, hjob, hlock, hsource, hrows⟩))
  · exact dmaEnd_halts ⟨hhead, hactive, hocc, hjob, hlock, hsource, hrows⟩ hr

end Sys2Proof.CoreEngines
end

section
/-! The shared units of a cluster: command ports, the window unit and Cameo, halo tokens and gates (R155 to R171). -/

namespace Sys2Proof.ClusterUnits
open Sys2Proof.Machine

/-! ## The command ports (R155) -/

section
variable {s : Device} {c : Nat} {p : PortCmd}

/-- With no write waiting, nothing goes on at a command port. -/
theorem portGoes_of_port_nil (hport : (s.clu c).port = []) : s.portGoes c = s := by
  simp [Device.portGoes, hport, Device.portDrain]

/-- The one write that waits goes on once the queue it is to enter has room. -/
theorem portGoes_of_port_single (hworks : s.ctrlWorks c = true) (hport : (s.clu c).port = [p]) (hroom : s.portFull c p = false) :
    s.portGoes c = (s.setClu c { s.clu c with port := [] }).portRun c p := by
  simp [Device.portGoes, hworks, hport, Device.portDrain, hroom]

/-- A command whose queue has room reaches its unit at once. -/
theorem portWrite_of_room (hworks : s.ctrlWorks c = true) (hport : (s.clu c).port = []) (hroom : s.portFull c p = false) :
    s.portWrite c p = s.portRun c p := by
  simp [Device.portWrite, hworks, portGoes_of_port_nil hport, hport, hroom]

/-- A command whose queue is full waits, and the write of it holds the control core. -/
theorem portWrite_of_full (hworks : s.ctrlWorks c = true) (hport : (s.clu c).port = []) (hfull : s.portFull c p = true) :
    s.portWrite c p = s.setClu c { s.clu c with port := [p] } := by
  simp [Device.portWrite, hworks, portGoes_of_port_nil hport, hport, hfull]

end

/-! ## The window unit and Cameo (R155, R163, R167) -/

section
variable {s : Device} {c : Nat} {b : Bytes}

/-- A window command that passes every check of R167 enters the queue of its unit. -/
theorem windowIssue_enters {w : WinCmd} (hw : WinCmd.decode b = w) (hopcode : leAt b 7 1 = 0x30) (hhead : w.headOk = true)
    (hmaps : w.mapsOk = true) (hgeom : w.geomOk = true) (hcycles : w.cycles ≤ 30000)
    (hpart : (w.touches.any fun r => !s.inPart c w.job r) = false) :
    s.windowIssue c b =
      (s.setClu c { s.clu c with
        winQ := (s.clu c).winQ ++ [w]
        winAt := if (s.clu c).winQ.isEmpty then s.uptime else (s.clu c).winAt }).setNum (O.windowState c) 1 := by
  subst hw
  simp only [Device.windowIssue, hopcode, hhead, hmaps, hgeom, hpart, Nat.not_lt.mpr hcycles]
  rfl

/-- A row of the window unit whose command finds room in the queue issues the command at once. -/
theorem windowWrite_of_room {op : Nat} (hworks : s.ctrlWorks c = true) (hport : (s.clu c).port = []) (hlength : b.length = 64)
    (hop : (WinCmd.decode b).op = op) (hroom : (s.clu c).winQ.length < 9) : s.windowWrite c op b = s.windowIssue c b := by
  have hfree : s.portFull c { unit := .window, job := (WinCmd.decode b).job, data := b } = false := decide_eq_false (Nat.not_le.mpr hroom)
  have hwrite : s.windowWrite c op b = s.portWrite c { unit := .window, job := (WinCmd.decode b).job, data := b } := by
    simp [Device.windowWrite, hlength, hop]
  exact hwrite.trans (portWrite_of_room hworks hport hfree)

/-- A Cameo command that passes every check of R163 and R167 enters the queue of its unit. -/
theorem cameoIssue_enters {w : CameoCmd} (hw : CameoCmd.decode b = w) (hopcode : leAt b 7 1 = 0x31) (hhead : w.headOk = true)
    (hmaps : w.mapsOk = true) (hgeom : w.geomOk = true) (hcycles : w.cycles ≤ 30000)
    (hpart : (w.touches.any fun r => !s.inPart c w.job r) = false) :
    s.cameoIssue c b =
      (s.setClu c { s.clu c with
        camQ := (s.clu c).camQ ++ [w]
        camAt := if (s.clu c).camQ.isEmpty then s.uptime else (s.clu c).camAt }).setNum (O.cameoState c) 1 := by
  subst hw
  simp only [Device.cameoIssue, hopcode, hhead, hmaps, hgeom, hpart, Nat.not_lt.mpr hcycles]
  rfl

/-- A row of Cameo whose command finds room in the queue issues the command at once. -/
theorem cameoWrite_of_room {mode : Nat} (hworks : s.ctrlWorks c = true) (hport : (s.clu c).port = []) (hlength : b.length = 96)
    (hmode : (CameoCmd.decode b).mode = mode) (hroom : (s.clu c).camQ.length < 9) : s.cameoWrite c mode b = s.cameoIssue c b := by
  have hfree : s.portFull c { unit := .cameo, job := (CameoCmd.decode b).job, data := b } = false := decide_eq_false (Nat.not_le.mpr hroom)
  have hwrite : s.cameoWrite c mode b = s.portWrite c { unit := .cameo, job := (CameoCmd.decode b).job, data := b } := by
    simp [Device.cameoWrite, hlength, hmode]
  exact hwrite.trans (portWrite_of_room hworks hport hfree)

end

/-- The five rows of the window unit differ in the op alone: each enters a command that passes its checks. -/
theorem windowRow_enters {row : Fin 32 → Bytes → Instr} {op : Nat} (hrow : ∀ c b s, exec (row c b) s = s.to (s.dev.windowWrite c op b))
    (s : State) (c : Fin 32) (b : Bytes) (hworks : s.dev.ctrlWorks c = true) (hport : (s.dev.clu c).port = []) (hlength : b.length = 64)
    (hroom : (s.dev.clu c).winQ.length < 9) (hop : (WinCmd.decode b).op = op) (hopcode : leAt b 7 1 = 0x30)
    (hhead : (WinCmd.decode b).headOk = true) (hmaps : (WinCmd.decode b).mapsOk = true) (hgeom : (WinCmd.decode b).geomOk = true)
    (hcycles : (WinCmd.decode b).cycles ≤ 30000)
    (hpart : ((WinCmd.decode b).touches.any fun r => !s.dev.inPart c (WinCmd.decode b).job r) = false) :
    exec (row c b) s = s.to (let x := s.dev.clu c
      (s.dev.setClu c { x with winQ := x.winQ ++ [WinCmd.decode b], winAt := if x.winQ.isEmpty then s.dev.uptime else x.winAt }).setNum
        (O.windowState c) 1) := by
  rw [hrow, windowWrite_of_room hworks hport hlength hop hroom]
  exact congrArg s.to (windowIssue_enters rfl hopcode hhead hmaps hgeom hcycles hpart)

/-- The three rows of Cameo differ in the mode alone. -/
theorem cameoRow_enters {row : Fin 32 → Bytes → Instr} {mode : Nat} (hrow : ∀ c b s, exec (row c b) s = s.to (s.dev.cameoWrite c mode b))
    (s : State) (c : Fin 32) (b : Bytes) (hworks : s.dev.ctrlWorks c = true) (hport : (s.dev.clu c).port = []) (hlength : b.length = 96)
    (hroom : (s.dev.clu c).camQ.length < 9) (hmode : (CameoCmd.decode b).mode = mode) (hopcode : leAt b 7 1 = 0x31)
    (hhead : (CameoCmd.decode b).headOk = true) (hmaps : (CameoCmd.decode b).mapsOk = true) (hgeom : (CameoCmd.decode b).geomOk = true)
    (hcycles : (CameoCmd.decode b).cycles ≤ 30000)
    (hpart : ((CameoCmd.decode b).touches.any fun r => !s.dev.inPart c (CameoCmd.decode b).job r) = false) :
    exec (row c b) s = s.to (let x := s.dev.clu c
      (s.dev.setClu c { x with camQ := x.camQ ++ [CameoCmd.decode b], camAt := if x.camQ.isEmpty then s.dev.uptime else x.camAt }).setNum
        (O.cameoState c) 1) := by
  rw [hrow, cameoWrite_of_room hworks hport hlength hmode hroom]
  exact congrArg s.to (cameoIssue_enters rfl hopcode hhead hmaps hgeom hcycles hpart)

/-! ## Tokens and gates (R169 to R171) -/

section
variable {s : Device} {c : Nat} {b : Bytes} {h : HaloCmd}

/-- A row of the halo unit whose command enters no full queue executes the command at once. -/
theorem haloWrite_of_room {op : Nat} (hworks : s.ctrlWorks c = true) (hport : (s.clu c).port = []) (hlength : b.length = 16)
    (hop : (HaloCmd.decode b).op = op) (hroom : op = 3 → (s.core (coreNo c (HaloCmd.decode b).core)).gates.length < 4) :
    s.haloWrite c op b = s.haloIssue c b := by
  subst hop
  have hfree : s.portFull c { unit := .halo, job := (HaloCmd.decode b).job, data := b } = false := by
    simpa [Device.portFull] using hroom
  have hwrite : s.haloWrite c (HaloCmd.decode b).op b = s.portWrite c { unit := .halo, job := (HaloCmd.decode b).job, data := b } := by
    simp [Device.haloWrite, hlength]
  exact hwrite.trans (portWrite_of_room hworks hport hfree)

/-- READY and RETURN: a token that the job's channel holds in the state asked for leaves its end. -/
theorem haloMove_leaves {p ph : Nat} {x : HaloCh} {atProducer : Bool} {held sent : Token} (hend : s.haloEnd c h.ch = some (p, ph, x))
    (hjob : x.job = h.job) (hside : (p == c && ph == h.ch) = atProducer) (htoken : x.token h.slot = held) :
    s.haloMove c h atProducer held sent = s.tokenLeaves p ph x h.slot sent := by
  simp [Device.haloMove, hend, hjob, hside, htoken]

/-- GATE: the entry of a job on one of its own cores, with conditions on its own channels, enters the gate queue. -/
theorem gateIssue_enters {j : Job} (hcount : h.condCount ≤ 4) (hjob : s.job? h.job = some j) (hcore : coreNo c h.core ∈ j.cores)
    (hconds : h.conds.all (s.condOwn c h.job) = true) :
    s.gateIssue c h = s.setCore (coreNo c h.core) { s.core (coreNo c h.core) with
      gates := (s.core (coreNo c h.core)).gates ++ [{ job := h.job, list := h.list, conds := h.conds }] } := by
  simp [Device.gateIssue, Nat.not_lt.mpr hcount, hjob, hcore, hconds]

theorem haloIssue_ready (hop : (HaloCmd.decode b).op = 1) : s.haloIssue c b = s.haloMove c (HaloCmd.decode b) true .home .toConsumer := by
  simp [Device.haloIssue, hop]

theorem haloIssue_return (hop : (HaloCmd.decode b).op = 2) :
    s.haloIssue c b = s.haloMove c (HaloCmd.decode b) false .ready .toProducer := by
  simp [Device.haloIssue, hop]

theorem haloIssue_gate (hop : (HaloCmd.decode b).op = 3) : s.haloIssue c b = s.gateIssue c (HaloCmd.decode b) := by
  simp [Device.haloIssue, hop]

end

section
variable {p slot : Nat} {x : HaloCh}

/-- Every token but one on its way back goes from the producer to the consumer. -/
theorem way_of_not_toProducer (h : x.token slot ≠ .toProducer) : x.way p slot = (p, x.cons) := if_neg h

theorem way_of_toProducer (h : x.token slot = .toProducer) : x.way p slot = (x.cons, p) := if_pos h

end

/-- A token in flight whose far end works and which is the oldest of its route arrives, whichever way it goes. -/
theorem haloTokenArrival_arrives {s : State} {c : Fin 32} {h : Fin 64} {i : Fin 2} {x : HaloCh} {w : Nat × Nat}
    (hch : tget? (s.dev.clu c).halo h.val = some x) (hway : x.way c i = w) (hflies : x.token i = .toConsumer ∨ x.token i = .toProducer)
    (hworks : s.dev.works (clusterDomain w.2) = true) (hdue : s.dev.tokenDue (c.val, h.val, i.val) w = true) :
    exec (.haloTokenArrival c h i) s = s.to (s.dev.tokenArrives c h x i) := by
  subst hway
  refine congrArg s.to ?_
  simp only [hch]
  exact if_pos (by simp [hflies, hworks, hdue])

/-- The head entry of the gate queue starts its list on a core that is idle and occupied by its job, once every condition holds. No cycle
of waiting is counted. -/
theorem gateStart_starts {s : State} {c : Fin 32} {k : Fin 16} {g : Gate} {rest : List Gate}
    (hgates : (s.dev.core (coreNo c k)).gates = g :: rest) (hruns : s.dev.coreRuns (coreNo c k) = true)
    (hoccupant : s.dev.occupant (coreNo c k) = some g.job) (hhands : tget? s.dev.work.hands (coreNo c k) = none)
    (hidle : (s.dev.core (coreNo c k)).seq = .idle) (hconds : g.conds.all (s.dev.condHolds c) = true) :
    exec (.gateStart c k []) s =
      s.to (((s.dev.setCore (coreNo c k) { s.dev.core (coreNo c k) with gates := rest }).startList (coreNo c k) g).portGoes c) := by
  refine congrArg s.to ?_
  simp only [hgates]
  rw [if_pos (by simp [hruns, hoccupant, hhands, hidle, hconds]), List.zip_nil_right]
  rfl

/-! ## The obligations -/

/-- Settles O21: the rows of a unit differ in the op or the mode alone, and a command end that is in force is the unit's own operation. -/
theorem windowAndCameoCommands : Obligations.WindowAndCameoCommands := by
  refine ⟨windowRow_enters fun _ _ _ => rfl, windowRow_enters fun _ _ _ => rfl, windowRow_enters fun _ _ _ => rfl,
    windowRow_enters fun _ _ _ => rfl, windowRow_enters fun _ _ _ => rfl, fun s c w x rest hworks _ => ?_,
    cameoRow_enters fun _ _ _ => rfl, cameoRow_enters fun _ _ _ => rfl, cameoRow_enters fun _ _ _ => rfl,
    fun s c w x rest hworks _ => ?_⟩
  · exact congrArg s.to (if_pos hworks)
  · exact congrArg s.to (if_pos hworks)

/-- Settles O22: the port's two rules, a token that leaves or reaches an end of its channel, and the gate's two steps. -/
theorem haloAndGateCommands : Obligations.HaloAndGateCommands := by
  refine ⟨fun s c p hworks hport hfull => ?_, fun s c p hworks hport hroom => ?_,
    fun s c b p ph x hworks hport hlength hop hend hjob hside htoken => ?_,
    fun s c b p ph x hworks hport hlength hop hend hjob hside htoken => ?_,
    fun s c b j hworks hport hlength hop hcount hjob hcore hconds hroom => ?_,
    fun s c h i x hch htoken hworks hdue => ?_, fun s c h i x hch htoken hworks hdue => ?_,
    fun s c k g rest hgates hruns hoccupant hhands hidle hconds => ?_⟩
  · exact portWrite_of_full hworks hport hfull
  · exact portGoes_of_port_single hworks hport hroom
  · exact congrArg s.to ((haloWrite_of_room hworks hport hlength hop (by simp)).trans
      ((haloIssue_ready hop).trans (haloMove_leaves hend hjob (by simp [hside]) htoken)))
  · exact congrArg s.to ((haloWrite_of_room hworks hport hlength hop (by simp)).trans
      ((haloIssue_return hop).trans (haloMove_leaves hend hjob (by simpa using hside) htoken)))
  · exact congrArg s.to ((haloWrite_of_room hworks hport hlength hop fun _ => hroom).trans
      ((haloIssue_gate hop).trans (gateIssue_enters hcount hjob hcore hconds)))
  · exact haloTokenArrival_arrives hch (way_of_not_toProducer (by simp [htoken])) (.inl htoken) hworks hdue
  · exact haloTokenArrival_arrives hch (way_of_toProducer htoken) (.inr htoken) hworks hdue
  · exact gateStart_starts hgates hruns hoccupant hhands hidle hconds

end Sys2Proof.ClusterUnits
end

section
/-! Byte strings and bit fields of the fixed layouts (R71, R39), and the round trip of the four records (Tables 13.3, 7.6, 7.5, 7.8). -/

namespace Sys2Proof.Layouts
open Sys2Proof.Machine

/-! ## Numbers and their bytes -/

@[simp] theorem length_leBytes (n v : Nat) : (leBytes n v).length = n := by
  induction n generalizing v with
  | zero => rfl
  | succ n ih => simp [leBytes, ih]

@[simp] theorem length_beBytes (n v : Nat) : (beBytes n v).length = n := by
  induction n with
  | zero => rfl
  | succ n ih => simp [beBytes, ih]

/-- The first bytes of a little-endian number are those of its low part. -/
theorem take_leBytes {k n : Nat} (h : k ≤ n) (v : Nat) : (leBytes n v).take k = leBytes k v := by
  induction k generalizing n v with
  | zero => simp [leBytes]
  | succ k ih =>
    obtain ⟨n, rfl⟩ := Nat.exists_eq_succ_of_ne_zero (Nat.ne_of_gt (Nat.lt_of_lt_of_le k.succ_pos h))
    simp [leBytes, ih (Nat.le_of_succ_le_succ h)]

theorem leNat_leBytes (n v : Nat) : leNat (leBytes n v) = v % 256 ^ n := by
  induction n generalizing v with
  | zero => simp [leBytes, leNat, Nat.mod_one]
  | succ n ih => simp [leBytes, leNat, ih, Nat.pow_succ', Nat.mod_mul]

/-- A big-endian number read after another one, which it shifts up. -/
theorem foldl_beBytes (n v a : Nat) :
    (beBytes n v).foldl (fun a x => a * 256 + x.toNat) a = a * 256 ^ n + v % 256 ^ n := by
  induction n generalizing a with
  | zero => simp [beBytes, Nat.mod_one]
  | succ n ih =>
    have hsplit : v % 256 ^ (n + 1) = v % 256 ^ n + 256 ^ n * (v / 256 ^ n % 256) := by rw [Nat.pow_succ, Nat.mod_mul]
    simp only [beBytes, List.foldl_cons, ih, hsplit, BitVec.toNat_ofNat]
    ring

theorem beNat_beBytes (n v : Nat) : beNat (beBytes n v) = v % 256 ^ n := by simpa [beNat] using foldl_beBytes n v 0

/-! ## Fields of a string of bytes -/

theorem drop_append_of_length_le {a : Bytes} {k : Nat} (h : a.length ≤ k) (b : Bytes) : (a ++ b).drop k = b.drop (k - a.length) := by
  rw [List.drop_append, List.drop_eq_nil_of_le h, List.nil_append]

theorem slice_append_right {a : Bytes} {off : Nat} (h : a.length ≤ off) (b : Bytes) (len : Nat) :
    slice (a ++ b) off len = slice b (off - a.length) len := by
  rw [slice, drop_append_of_length_le h, slice]

theorem slice_append_left {a : Bytes} {len : Nat} (h : len ≤ a.length) (b : Bytes) : slice (a ++ b) 0 len = a.take len :=
  List.take_append_of_le_length h

/-- A field behind another one stands where it would stand alone. -/
theorem leAt_append_right {a : Bytes} {off : Nat} (h : a.length ≤ off) (b : Bytes) (len : Nat) :
    leAt (a ++ b) off len = leAt b (off - a.length) len := congrArg leNat (slice_append_right h b len)

theorem beAt_append_right {a : Bytes} {off : Nat} (h : a.length ≤ off) (b : Bytes) (len : Nat) :
    beAt (a ++ b) off len = beAt b (off - a.length) len := congrArg beNat (slice_append_right h b len)

/-- The field in front, or as many of its bytes as hold its value, is what was written there. -/
theorem leAt_leBytes_append {k n v : Nat} (hk : k ≤ n) (hv : v < 2 ^ (8 * k)) (b : Bytes) : leAt (leBytes n v ++ b) 0 k = v := by
  rw [leAt, slice_append_left (by simpa using hk), take_leBytes hk, leNat_leBytes, Nat.mod_eq_of_lt (by rwa [Nat.pow_mul] at hv)]

theorem beAt_beBytes_append {n v : Nat} (hv : v < 2 ^ (8 * n)) (b : Bytes) : beAt (beBytes n v ++ b) 0 n = v := by
  rw [beAt, slice_append_left (by simp), List.take_of_length_le (by simp), beNat_beBytes, Nat.mod_eq_of_lt (by rwa [Nat.pow_mul] at hv)]

theorem padTo_of_length {n : Nat} {b : Bytes} (h : b.length = n) : padTo n b = b := by
  subst h; simp [padTo]

theorem bit_of_mod_eq_toNat {v i : Nat} {b : Bool} (h : v / 2 ^ i % 2 = b.toNat) : bit v i = b := by
  rw [bit, h]; cases b <;> rfl

/-! ## The four records -/

theorem packet_decode_encode {p : Packet} (h : p.inRange) : Packet.decode p.encode = p := by
  obtain ⟨version, type, first, last, ackReq, retx, gen, dst, src, payLen, seq, ack, sack, credit, ceEcho, op, payload⟩ := p
  obtain ⟨hversion, htype, hgen, hdst, hsrc, hpayLen, hseq, hack, hsack, hcredit, hop⟩ : version < 16 ∧ type < 16 ∧ gen < 16 ∧ dst < 4096 ∧
    src < 4096 ∧ payLen < 65536 ∧ seq < 2 ^ 32 ∧ ack < 2 ^ 32 ∧ sack < 2 ^ 64 ∧ credit < 2 ^ 32 ∧ op < 2 ^ 64 := h
  have hfirst := first.toNat_le
  have hlast := last.toNat_le
  have hackReq := ackReq.toNat_le
  have hretx := retx.toNat_le
  have hceEcho := ceEcho.toNat_le
  obtain ⟨hecho, hword⟩ : ceEcho.toNat * 2 ^ 31 < 2 ^ 32 ∧ version * 2 ^ 60 + type * 2 ^ 56 + first.toNat * 2 ^ 55 + last.toNat * 2 ^ 54 + ackReq.toNat * 2 ^ 53 + retx.toNat * 2 ^ 52 +
    gen * 2 ^ 48 + dst * 2 ^ 36 + src * 2 ^ 24 + payLen < 2 ^ 64 := by constructor <;> omega
  simp only [Packet.decode, Packet.encode, List.append_assoc, beAt_append_right, drop_append_of_length_le, length_beBytes, beAt_beBytes_append,
    Nat.reduceMul, Nat.reduceLeDiff, Nat.reduceSub, hword, hecho, hseq, hack, hsack, hcredit, hop, Packet.mk.injEq, true_and, bits]
  refine ⟨?_, ?_, bit_of_mod_eq_toNat ?_, bit_of_mod_eq_toNat ?_, bit_of_mod_eq_toNat ?_, bit_of_mod_eq_toNat ?_, ?_, ?_, ?_, ?_,
    bit_of_mod_eq_toNat ?_, rfl⟩ <;> omega

theorem frameRec_decode_encode {r : FrameRec} (h : r.inRange) : FrameRec.decode r.encode = r := by
  obtain ⟨count, st, next, tag, node⟩ := r
  obtain ⟨hcount, hst, hnext, htag, hnode⟩ : count < 2 ^ 32 ∧ st < 4 ∧ next < 2 ^ 24 ∧ tag < 2 ^ 64 ∧ node < 2 ^ 32 := h
  obtain ⟨hlast, hword⟩ : node * 2 ^ 32 < 2 ^ 64 ∧ count * 2 ^ 32 + st * 2 ^ 30 + next < 2 ^ 64 := by constructor <;> omega
  simp only [FrameRec.decode, FrameRec.encode, Nat.mod_eq_of_lt, hcount, hst, hnext, hnode, List.append_assoc, leAt_append_right, length_leBytes,
    leAt_leBytes_append, le_refl, Nat.reduceMul, Nat.reduceLeDiff, Nat.reduceSub, hword, hlast, htag, FrameRec.mk.injEq, true_and, bits]
  omega

theorem pte_decode_encode {e : Pte} (h : e.inRange) : Pte.decode e.encode = e := by
  obtain ⟨frame, fill, valid⟩ := e
  obtain ⟨hframe, hfill⟩ : frame < 2 ^ 24 ∧ fill < 128 := h
  have hvalid := valid.toNat_le
  simp only [Pte.decode, Pte.encode, Pte.mk.injEq, bits]
  refine ⟨?_, ?_, bit_of_mod_eq_toNat ?_⟩ <;> omega

theorem node_decode_encode {n : Node} (h : n.inRange) : Node.decode n.encode = n := by
  obtain ⟨key, frame, parent, children, valid, tokens⟩ := n
  obtain ⟨hkey, hframe, hparent, hchildren, htokens⟩ : key < 2 ^ 64 ∧ frame < 2 ^ 24 ∧ parent < 2 ^ 32 ∧ children < 2 ^ 16 ∧ tokens.length = 256 := h
  have hvalid : valid.toNat < 2 ^ 8 := by have := valid.toNat_le; omega
  have hall : slice tokens 0 256 = tokens := List.take_of_length_le htokens.le
  simp only [Node.decode, Node.encode, List.append_assoc, leAt_append_right, slice_append_right, length_leBytes, leAt_leBytes_append, le_refl,
    Nat.reduceMul, Nat.reduceLeDiff, Nat.reduceSub, hkey, hframe, hparent, hchildren, hvalid, padTo_of_length htokens, List.length_replicate, hall,
    Node.mk.injEq, true_and, and_true]
  exact bit_of_mod_eq_toNat (by have := valid.toNat_le; omega)

/-- Settles O58: in each record every field is read from the place where it was written, as no other field reaches into it. -/
theorem layoutsRoundTrip : Obligations.LayoutsRoundTrip :=
  ⟨fun _ => packet_decode_encode, fun _ => frameRec_decode_encode, fun _ => pte_decode_encode, fun _ => node_decode_encode⟩

end Sys2Proof.Layouts
end

section
/-! Attention walks: the record that begins one, its pin, its blocks and its final list (R179, R182 to R184, R188). -/

namespace Sys2Proof.AttentionWalks
open Sys2Proof.Machine

section
variable {s : Device} {n c p : Nat} {w : Walk}

/-! ## The gate queue of a core -/

/-- A core that is through with its lists has an empty gate queue. -/
theorem gates_of_coreThrough (h : s.coreThrough n = true) : (s.core n).gates = [] := by
  simp only [Device.coreThrough, Bool.and_eq_true, List.isEmpty_iff] at h
  exact h.1

theorem pushGate_of_room (h : (s.core n).gates.length < 4) (job list : Nat) (item : Option PartId) :
    s.pushGate n job list item = some (s.setCore n { s.core n with
      gates := (s.core n).gates ++ [{ job := job, list := list, conds := [], item := item }] }) :=
  if_neg (Nat.not_le.mpr h)

theorem pushGate_of_coreThrough (h : s.coreThrough n = true) (job list : Nat) (item : Option PartId) :
    s.pushGate n job list item = some (s.setCore n { s.core n with
      gates := (s.core n).gates ++ [{ job := job, list := list, conds := [], item := item }] }) :=
  pushGate_of_room (by simp [gates_of_coreThrough h]) job list item

/-! ## The pin of a pool (R188) -/

/-- The one walk of a control core is the last that reads its pool. -/
theorem walkUnpins_of_single (h : s.walksOf c = [w]) (hpaged : w.paged = true) : s.walkUnpins c w = s.unpin c w.poolNo := by
  simp [Device.walkUnpins, h, hpaged]

theorem unpin_of_pinned {x : Pool} (hpool : s.pool? p = some x) (hpin : s.pin c p ≠ 0)
    (hlock : s.mustWait (x.pinAt c) (.write (leBytes 8 0)) none = false) :
    s.unpin c p = (s.perform (x.pinAt c) (.write (leBytes 8 0))).2.2.reap c p := by
  simp [Device.unpin, hpool, hpin, hlock]

/-! ## The end of a walk, and the merge of a split tile (R179, R184) -/

/-- A walk whose blocks have all been started, and which no longer reads its pool, ends with the final list once the core is through. -/
theorem walkFinal_ends {k : Nat} (hwalk : s.walk? c k = some w) (hwalkable : s.walkable c w.job = true) (hall : w.started = w.last)
    (hstage : w.stage = .draining ∨ w.stage = .blocks ∧ w.paged = false) (hthrough : s.coreThrough (coreNo c k) = true) :
    s.walkFinal c k = (s.setCore (coreNo c k) { s.core (coreNo c k) with
      gates := (s.core (coreNo c k)).gates ++ [{ job := w.job, list := w.f 3 41 20, conds := [], item := w.item }] }).dropWalk c k := by
  have hread : ((!w.paged || w.stage == WalkStage.draining) && w.stage != WalkStage.pinning) = true := by
    rcases hstage with hstage | ⟨hstage, hplain⟩
    · simp [hstage]
    · simp [hstage, hplain]
  rw [Bool.and_eq_true] at hread
  obtain ⟨hpool, hpinned⟩ := hread
  simp only [Device.walkFinal, hwalk]
  rw [if_pos (by simp [hwalkable, hall, hpool, hpinned, hthrough])]
  simp only [pushGate_of_coreThrough hthrough]

theorem mergeStart_of_found {k list : Nat} {d : PartId × Nat}
    (hfound : (s.work.done.find? fun d => d.1.part == 0 && d.2 == coreNo c k && s.partsDone d.1) = some d)
    (hwalkable : s.walkable c d.1.job = true) (hroom : (s.core (coreNo c k)).gates.length < 4) :
    s.mergeStart c k list =
      (let e := s.setCore (coreNo c k) { s.core (coreNo c k) with
         gates := (s.core (coreNo c k)).gates ++ [{ job := d.1.job, list := list, conds := [] }] }
       { e with work := { e.work with done := e.work.done.filter fun e => { e.1 with part := 0 } != d.1 } }) := by
  simp only [Device.mergeStart, hfound, hwalkable, pushGate_of_room hroom]
  rfl

end

section
variable {s : State} {c : Fin 32} {k : Fin 16} {w : Walk}

/-- The record of an item that is dealt to an idle core of the cluster, for an entry that is in order, begins the item's walk. -/
theorem walkStart_begins {b : Bytes} {j : Job} {r : StepRun} (hwalkable : s.dev.walkable c (recF b 0 34 30) = true) (hlength : b.length = 64)
    (hjob : s.dev.job? (recF b 0 34 30) = some j) (hstep : j.cur = some r) (hrecord : s.dev.recOk c b j r = true)
    (htile : recF b 1 31 0 < ((s.dev.lenEntry j r (recF b 1 63 48)).qLen + 63) / 64)
    (hentry : lenStatus j (s.dev.lenEntry j r (recF b 1 63 48)) = 0) (hidle : s.dev.walk? c (recF b 0 38 35) = none)
    (hdealt : s.dev.walkOf c b j r = some w) : exec (.walkStart c b) s = s.to (s.dev.walkBegin c j w) := by
  simp [exec, execWalkStart, State.run, State.to, hwalkable, hlength, hjob, hstep, hrecord, Nat.not_le.mpr htile, hentry, hidle, hdealt]

theorem walkPinDone_startsInit (hwalk : s.dev.walk? c k = some w) (hwalkable : s.dev.walkable c w.job = true) (hstage : w.stage = .pinning)
    (hroom : (s.dev.core (coreNo c k)).gates.length < 4) :
    exec (.walkPinDone c k) s = s.to ((s.dev.setCore (coreNo c k) { s.dev.core (coreNo c k) with
      gates := (s.dev.core (coreNo c k)).gates ++ [{ job := w.job, list := w.f 3 63 42, conds := [] }] }).putWalk c { w with stage := .blocks }) := by
  simp [exec, execWalkPinDone, State.run, State.to, hwalk, hwalkable, hstage, pushGate_of_room hroom]

theorem walkBlockStart_emits (hwalk : s.dev.walk? c k = some w) (hwalkable : s.dev.walkable c w.job = true) (hstage : w.stage = .blocks)
    (hnone : w.emitted = w.started) (hmore : w.emitted < w.last) : exec (.walkBlockStart c k) s = s.to (s.dev.walkEmit c w) := by
  simp [exec, execWalkBlockStart, State.run, State.to, hwalk, hwalkable, hstage, ← hnone, hmore]

/-- The last block of a walk, which has arrived, is started; no further descriptor goes out. -/
theorem walkBlockStart_startsLast (hwalk : s.dev.walk? c k = some w) (hwalkable : s.dev.walkable c w.job = true) (hstage : w.stage = .blocks)
    (harrived : w.emitted ≠ w.started) (hlast : w.emitted = w.last) (hchannel : s.dev.channelDone (coreNo c k) = true)
    (hthrough : s.dev.coreThrough (coreNo c k) = true) :
    exec (.walkBlockStart c k) s = s.to ((s.dev.setCore (coreNo c k) { s.dev.core (coreNo c k) with
      gates := (s.dev.core (coreNo c k)).gates ++
        [{ job := w.job, list := (if w.started % 2 = 1 then w.f 2 41 20 else w.f 2 63 42), conds := [] }] }).putWalk c
        { w with started := w.started + 1 }) := by
  have hmore : ¬ w.emitted < w.last := hlast.not_lt
  simp [exec, execWalkBlockStart, State.run, State.to, hwalk, hwalkable, hstage, harrived, hmore, hchannel, hthrough,
    pushGate_of_coreThrough hthrough]

theorem walkPinRelease_drains (hwalk : s.dev.walk? c k = some w) (hworks : s.dev.ctrlWorks c = true) (hpaged : w.paged = true)
    (hstage : w.stage = .blocks) (hlast : w.emitted = w.last) (hchannel : s.dev.channelDone (coreNo c k) = true) :
    exec (.walkPinRelease c k) s = s.to ((s.dev.walkUnpins c w).putWalk c { w with stage := .draining }) := by
  simp [exec, execWalkPinRelease, State.run, State.to, hwalk, hworks, hpaged, hstage, hlast, hchannel]

end

/-- Settles O23: each row is performed when the walk is at its stage and the core has room for the list. -/
theorem attentionWalks : Obligations.AttentionWalks :=
  ⟨fun _ _ _ _ _ _ => walkStart_begins, fun _ _ _ _ => walkPinDone_startsInit, fun _ _ _ _ => walkBlockStart_emits,
    fun _ _ _ _ => walkBlockStart_startsLast, fun _ _ _ _ => walkPinRelease_drains, fun _ _ _ => walkUnpins_of_single,
    fun _ _ _ _ => unpin_of_pinned,
    fun s _ _ _ hwalk hwalkable hall hstage hthrough => congrArg s.to (walkFinal_ends hwalk hwalkable hall (.inl hstage) hthrough),
    fun s _ _ _ hwalk hwalkable hall hstage hplain hthrough =>
      congrArg s.to (walkFinal_ends hwalk hwalkable hall (.inr ⟨hstage, hplain⟩) hthrough),
    fun s _ _ _ _ hfound hwalkable hroom => congrArg s.to (mergeStart_of_found hfound hwalkable hroom)⟩

end Sys2Proof.AttentionWalks
end

section
/-! Page operations of a key-value pool: what each transaction does to frames, entries and nodes, and the rows that run them (R187 to R193). -/

namespace Sys2Proof.KvPages
open Sys2Proof.Machine

/-! ## Steps of a transaction -/

section
variable {α β : Type} {c : TxCtx} {s t : Device} {a : α} {x : Tx α}

theorem bind_of_ok {f : α → Tx β} (h : x c s = (t, .ok a)) : x.bind f c s = f a c t := by simp [Tx.bind, h]

theorem andThen_of_ok {y : Tx β} (h : x c s = (t, .ok a)) : x.andThen y c s = y c t := bind_of_ok h

end

/-! ## The lists of frames (R187, R188) -/

theorem txTake_head : Claim.txTakes := by
  intro x c s s1 s2 s3 s4 s5 s6 pins k g r hpins hreap hhead hsome hrec hunlink hset
  rw [txTake, bind_of_ok hpins, bind_of_ok hreap, bind_of_ok hhead, if_neg hsome, bind_of_ok hrec, andThen_of_ok hunlink, andThen_of_ok hset]
  rfl

theorem txReap_head : Claim.txReaps := by
  intro n x c s s1 s2 s3 s4 s5 pins h k r hhead hsome hrec hpins hunlink happend hrest
  rw [txReap, bind_of_ok hhead, if_neg hsome, bind_of_ok hrec, if_pos hpins, andThen_of_ok hunlink, andThen_of_ok happend, bind_of_ok hrest]
  rfl

theorem txUnref_shared : Claim.txUnrefShared := by
  intro x f c s s1 s2 r hrec hcount hset
  rw [txUnref, bind_of_ok hrec, if_pos hcount, andThen_of_ok hset]
  rfl

theorem txUnref_last : Claim.txUnrefLast := by
  intro x f c s s1 s2 s3 s4 r e hrec hcount hepoch happend hnext
  rw [txUnref, bind_of_ok hrec, if_neg (Nat.not_lt.mpr hcount), bind_of_ok hepoch, andThen_of_ok happend, andThen_of_ok hnext]
  rfl

/-! ## The operations (Table 7.7) -/

theorem txAlloc_takes : Claim.txAllocs := by
  intro p x j pt b c s s1 s2 s3 e g k hb hpte hinvalid htake hset
  rw [txAlloc, if_neg (Nat.not_le.mpr hb), bind_of_ok hpte, if_neg (by simp [hinvalid]), bind_of_ok htake]
  exact andThen_of_ok hset

theorem txAlloc_none : Claim.txAllocNone := by
  intro p x j pt b c s s1 s2 e k hb hpte hinvalid htake
  rw [txAlloc, if_neg (Nat.not_le.mpr hb), bind_of_ok hpte, if_neg (by simp [hinvalid]), bind_of_ok htake]
  rfl

theorem txLookup_bucket : Claim.txLooks := by
  intro p root x j pt b c s s1 s2 s3 t e pf pk ways hpte hinvalid hparent hbucket
  rw [txLookup, bind_of_ok hpte, if_neg (by simp [hinvalid]), bind_of_ok hparent]
  exact bind_of_ok hbucket

theorem txFound_hit : Claim.txHit := by
  intro p x j pt b c pf key t ways s s1 s2 s3 w r hway hrec hcount hset
  simp only [txFound, hway]
  rw [bind_of_ok hrec, andThen_of_ok hcount, andThen_of_ok hset]
  rfl

theorem txFound_miss : Claim.txMiss := by
  intro p x j pt b c pf key t ways s hway
  simp only [txFound, hway]
  rfl

theorem txInsert_way : Claim.txInserts := by
  intro p root x j pt b c s s1 s2 s3 s4 s5 s6 s7 t e r pf pk i ways n hpte hvalid hfull hrec hout hparent hbucket hway hnode hchild hcount
  rw [txInsert, bind_of_ok hpte, if_neg (by simp [hvalid, hfull]), bind_of_ok hrec, if_neg (by simp [hout]), bind_of_ok hparent]
  refine (bind_of_ok hbucket).trans ?_
  simp only [hway]
  rw [andThen_of_ok hnode, andThen_of_ok hchild, andThen_of_ok hcount]
  rfl

theorem txFill_rises : Claim.txFills := by
  intro x j pt b c s s1 s2 s3 n e r hpte hvalid hle hrec halone hfits hset
  rw [txFill, bind_of_ok hpte, if_neg (by simp [hvalid, hle]), bind_of_ok hrec, if_neg (Nat.not_lt.mpr halone), if_neg (Nat.not_lt.mpr hfits),
    andThen_of_ok hset]
  rfl

theorem txPrune_leaf : Claim.txPrunes := by
  intro p x f c s s1 s2 s3 s4 s5 s6 r n k hf hrec hin hnode hleaf hout hchild hset hunref
  rw [txPrune, if_neg (Nat.not_le.mpr hf), bind_of_ok hrec, if_neg (by simp [hin]), bind_of_ok hnode, if_neg (not_not.mpr hleaf), andThen_of_ok hout,
    andThen_of_ok hchild, andThen_of_ok hset, bind_of_ok hunref]
  rfl

theorem txCow_copies : Claim.txCows := by
  intro x j pt b c s s1 s2 s3 s4 s5 e r g k u hpte hvalid hrec hshared htake hset hunref
  rw [txCow, bind_of_ok hpte, if_neg (by simp [hvalid]), bind_of_ok hrec, if_neg (Nat.not_le.mpr hshared), bind_of_ok htake]
  exact (andThen_of_ok hset).trans (andThen_of_ok hunref)

theorem txEditOne_renames : Claim.txEdits := by
  intro x j pt c s s1 s2 s3 s4 s5 a i old w r k hpte hnew hvalid hrec hcount hset hold hunref
  have hraise : ((txFrame x w.frame).bind fun r => txSetFrame x w.frame { r with count := r.count + 1 }) c s1 = (s3, .ok ()) :=
    (bind_of_ok hrec).trans hcount
  rw [txEditOne, bind_of_ok hpte, if_neg (by simp [hnew]), if_pos hvalid, andThen_of_ok hraise, andThen_of_ok hset, if_pos hold, bind_of_ok hunref]
  rfl

/-- Settles O25: each operation is the sequence of its accesses. -/
theorem pageTransactions : Obligations.PageTransactions :=
  ⟨txTake_head, txReap_head, txUnref_shared, txUnref_last, txAlloc_takes, txAlloc_none, txLookup_bucket, txFound_hit, txFound_miss, txInsert_way,
    txFill_rises, txPrune_leaf, txCow_copies, txEditOne_renames⟩

/-! ## The rows of a control core -/

/-- Control core c may begin an operation on its pool p, which is x and was granted to job j. -/
structure MayOperate (s : Device) (c p : Nat) (x : Pool) (j : Job) : Prop where
  works : s.ctrlWorks c = true
  clasp : s.claspUp = true
  notFrozen : s.isFrozen (masterId 2 c) = false
  notCopying : s.copying (masterId 2 c) = false
  pool : s.pool? p = some x
  job : s.job? x.job = some j

section
variable {s : Device} {c p pt : Nat} {x : Pool} {j : Job}

/-- An operation whose entry, where it names one, lies in the page-table buffer is performed and answered. -/
theorem pageRow_of_mayOperate (h : MayOperate s c p x j) {b : Option Nat} {a : Ans} {f : Pool → Job → Option Ans}
    (hfit : ∀ i, b = some i → pt + 8 * (i + 1) ≤ (x.pts j).size) (hf : f x j = some a) : s.pageRow c p pt b f = a.out := by
  cases b with
  | none => simp [Device.pageRow, h.works, h.clasp, h.notFrozen, h.notCopying, h.pool, h.job, hf]
  | some i => simp [Device.pageRow, h.works, h.clasp, h.notFrozen, h.notCopying, h.pool, h.job, hf, hfit i rfl]

/-- An operation whose transaction commits answers with its result. -/
theorem pageOp1_of_done {m lost : Nat} {errs : List SymErr} {f : Tx PageRes} {e : Device} {r : PageRes}
    (h : Device.runTx (s.num O.opRetryLimit) s p m lost errs f = (e, .done r)) (hst : r.st = .ok) :
    s.pageOp1 p m lost errs x f = some { s := r.done (e.unstall m), st := .ok, detail := r.detail } := by
  simp [Device.pageOp1, h, pageEnd, hst]

/-- The rows that name an entry, PAGE_RELEASE apart: one transaction each. -/
theorem pageRow_of_done (h : MayOperate s c p x j) {i lost : Nat} {errs : List SymErr} {f : Pool → Job → Tx PageRes} {e : Device} {r : PageRes}
    (hfit : pt + 8 * (i + 1) ≤ (x.pts j).size)
    (hrun : Device.runTx (s.num O.opRetryLimit) s p (masterId 2 c) lost errs (f x j) = (e, .done r)) (hst : r.st = .ok) :
    s.pageRow c p pt (some i) (fun x j => s.pageOp1 p (masterId 2 c) lost errs x (f x j)) =
      ({ s := r.done (e.unstall (masterId 2 c)), st := .ok, detail := r.detail } : Ans).out :=
  pageRow_of_mayOperate h (fun _ hi => Option.some.inj hi ▸ hfit) (pageOp1_of_done hrun hst)

/-- What a control core makes of a COW that it has tried. -/
def cowDone (s : Device) (m : Nat) (x : Pool) : CowOut → Device
  | .wait => s.stall m x.metaBase
  | .copies d => d
  | .answer a => a.out

end

theorem exec_cow_of_mayOperate {s : State} {c : Fin 32} {p : Fin 8} {t : BitVec 64} {b : Met (BitVec 32)} {x : Pool} {j : Job}
    (h : MayOperate s.dev c p x j) (hfit : t.toNat + 8 * (b.val.toNat + 1) ≤ (x.pts j).size) :
    exec (.cow c p t b) s =
      s.to (cowDone s.dev (masterId 2 c) x (s.dev.opCow p (masterId 2 c) x j t.toNat b.val.toNat none b.errs)) := by
  simp only [exec, execCow, State.run, State.to, h.works, h.clasp, h.notFrozen, h.notCopying, h.pool, h.job, if_neg (Nat.not_lt.mpr hfit)]
  cases s.dev.opCow p (masterId 2 c) x j t.toNat b.val.toNat none b.errs <;> rfl

/-- A copy that meets no lock and no lost line ends in a commit that finds its transaction whole. -/
theorem cowEnd_of_commits {s d : Device} {r : CowRun} {x : Pool} {j : Job} (hlock : s.copyWaits x j r.frame r.target = false)
    (hfound : s.copyBlocked x j r.frame r.target = false)
    (hcommit : ((s.cowGone r).copyFrame x j r.frame r.target).commitNow r.key = some (0, d)) (hguard : r.forWrite = false) :
    s.cowEnd r x j = some ((d.poolCounts r.pool 1 r.moved 0).bump (O.cowCopies r.pool),
      some ((d.poolCounts r.pool 1 r.moved 0).bump (O.cowCopies r.pool)).okay) := by
  simp [Device.cowEnd, hlock, hfound, hcommit, hguard]

/-- Settles O24: each row performs its operation when its control core may begin it. -/
theorem pageOperations : Obligations.PageOperations := by
  refine ⟨fun s c p t b k x j r e hworks hclasp hfrozen hcopy hpool hjob hb hfit hrun hst => ?_,
    fun s c p t b w k x j r e hworks hclasp hfrozen hcopy hpool hjob hfit hrun hst => ?_,
    fun s c p t b w k x j r e hworks hclasp hfrozen hcopy hpool hjob hfit hrun hst => ?_,
    fun s c p t b n k x j r e hworks hclasp hfrozen hcopy hpool hjob hfit hrun hst => ?_,
    fun s c p t b k x j a hworks hclasp hfrozen hcopy hpool hjob hfit hrun _ => ?_,
    fun n s e p m x j pt b hi lost errs got r hlt hrun => ?_,
    fun s c p f k x j r e hworks hclasp hfrozen hcopy hpool hjob hrun hst => ?_,
    fun s c p t b x j d hworks hclasp hfrozen hcopy hpool hjob hfit hcow => ?_,
    fun s c p t b x j a hworks hclasp hfrozen hcopy hpool hjob hfit hcow _ => ?_,
    fun s d r m key f g k x j errs a hopen hcow => ?_,
    fun s i r x j d hcows hclasp hpool hjob hlock hfound hcommit hhost hguard => ?_⟩
  · refine congrArg s.to (Eq.trans ?_ (pageRow_of_done (f := fun x j => txAlloc p x j t.toNat b.toNat)
      ⟨hworks, hclasp, hfrozen, hcopy, hpool, hjob⟩ hfit hrun hst))
    rw [if_pos hb]
  · exact congrArg s.to (pageRow_of_done ⟨hworks, hclasp, hfrozen, hcopy, hpool, hjob⟩ hfit hrun hst)
  · exact congrArg s.to (pageRow_of_done ⟨hworks, hclasp, hfrozen, hcopy, hpool, hjob⟩ hfit hrun hst)
  · exact congrArg s.to (pageRow_of_done ⟨hworks, hclasp, hfrozen, hcopy, hpool, hjob⟩ hfit hrun hst)
  · exact congrArg s.to (pageRow_of_mayOperate ⟨hworks, hclasp, hfrozen, hcopy, hpool, hjob⟩
      (fun _ hi => Option.some.inj hi ▸ hfit) hrun)
  · rw [Device.release256, if_neg (Nat.not_le.mpr hlt)]
    simp only [hrun]
  · exact congrArg s.to (pageRow_of_mayOperate ⟨hworks, hclasp, hfrozen, hcopy, hpool, hjob⟩ nofun (pageOp1_of_done hrun hst))
  · rw [exec_cow_of_mayOperate ⟨hworks, hclasp, hfrozen, hcopy, hpool, hjob⟩ hfit, hcow, cowDone]
  · rw [exec_cow_of_mayOperate ⟨hworks, hclasp, hfrozen, hcopy, hpool, hjob⟩ hfit, hcow, cowDone]
  · simp only [Device.cowTry, hopen, hcow]
  · have hend := cowEnd_of_commits hlock hfound hcommit hguard
    simp [exec, execCowCopyEnd, State.run, State.to, hcows, hclasp, hpool, hjob, hend, hhost, hguard, Device.okay]

end Sys2Proof.KvPages
end

section
/-! Host queues: the state of a queue, the commands it takes, and the ends of commands (R402, R408 to R411, R414, R476, R483). -/

namespace Sys2Proof.HostQueues
open Sys2Proof.Machine Sys2Proof.Laws

section
variable {s : Device} {q : Nat}

/-! ## Enable, disable and thaw (R408, R411, R476) -/

theorem queueEnableWrite_on (hoff : s.num (O.queueState q) = 0) (hconfig : s.queueConfigOk q = true) :
    s.queueEnableWrite q true =
      (((s.setHq q { cmds := (s.hq q).cmds.filter fun c => c.gone }).setNum (O.queueState q) 1).setBool (O.queueEnable q) true).okay := by
  simp [Device.queueEnableWrite, hoff, hconfig]

theorem queueEnableWrite_off (hon : s.num (O.queueState q) = 1) :
    s.queueEnableWrite q false = (((s.setNum (O.queueState q) 2).setBool (O.queueEnable q) false).drainQueue q).okay := by
  simp [Device.queueEnableWrite, hon]

/-- The measurement of a write that was done is part of what it did. -/
theorem measured_okay (oid : Nat) (v : Bytes) : s.okay.measured oid v = (s.okay.measured oid v).s.okay := rfl

theorem thaw_of_frozen {m : Nat} (hexists : masterExists m = true) (hclass : masterClass m ∉ [5, 8, 15]) (hfrozen : s.isFrozen m = true) :
    s.thaw m = (((s.delFrozen m).thawClass m).setNum O.masterThaw m).okay := by
  obtain ⟨h5, h8, h15⟩ : masterClass m ≠ 5 ∧ masterClass m ≠ 8 ∧ masterClass m ≠ 15 := by simpa using hclass
  simp [Device.thaw, hexists, h5, h8, h15, hfrozen]

/-! ## The next command of a queue (R411) -/

/-- An enabled queue whose next command has the row's opcode starts it. -/
theorem hostRow_of_hostTakes {op : Nat} {c : HostCmd} (h : s.hostTakes q op c) (hop : op ≠ opMalformed) (f : Device → HostCmd → Device) :
    s.hostRow q op f = f (s.startCmd q c) c := by
  obtain ⟨hnext, hruns, rfl, hon⟩ := h
  simp [Device.hostRow, hnext, hruns, hop, hon]

/-- The descriptor that its job expects is accepted. -/
theorem stepSubmit_of_expected {d : Bytes} {x : Job} {queue : Option Nat} (hresident : s.resident (stepSlot d) = true)
    (hjob : s.job? (stepSlot d) = some x) (hextents : x.stepExtents d = true) (hfrozen : s.jobCode (stepSlot d) ≠ jsFrozen)
    (hroom : x.pending.length < 4) (hexpects : x.expects d = true) :
    s.stepSubmit d queue = (s.stepWaits (stepSlot d) x d queue).okay := by
  simp [Device.stepSubmit, hresident, hjob, hextents, hfrozen, Nat.not_le.mpr hroom, hexpects]

section
variable {w : Device} {c : HostCmd} {x : Job} {p : Pool} {met : PageMet} {a : Ans}

/-- A page command that is answered with OK completes with its result. -/
theorem pageOpOver_of_ok (hok : a.st = .ok) : Device.pageOpOver q c a = a.s.hostDone q c.id .ok 0 a.detail := by simp [Device.pageOpOver, hok]

/-- Every page command but COW. -/
theorem pageOpDo_of_answer (hop : leAt c.args 8 1 ≠ 4)
    (hans : s.pageOpAns q c x p (met.conflicts.map fun k => k.toNat) met.tokens met.errs = some a) :
    s.pageOpDo w q c x p met = Device.pageOpOver q c a := by
  simp [Device.pageOpDo, hop, hans]

theorem pageOpDo_cow_of_copies {d : Device} (hop : leAt c.args 8 1 = 4)
    (hcow : s.opCow (leAt c.args 10 1) (masterId 0 q) p x (leAt c.args 16 8) (leAt c.args 12 4) (some (q, c.id)) met.errs = .copies d) :
    s.pageOpDo w q c x p met = d := by
  simp [Device.pageOpDo, hop, hcow]

theorem pageOpDo_cow_of_answer (hop : leAt c.args 8 1 = 4)
    (hcow : s.opCow (leAt c.args 10 1) (masterId 0 q) p x (leAt c.args 16 8) (leAt c.args 12 4) (some (q, c.id)) met.errs = .answer a) :
    s.pageOpDo w q c x p met = Device.pageOpOver q c a := by
  simp [Device.pageOpDo, hop, hcow]

theorem ptEditDo_of_ok {lost : Nat} {errs : List SymErr}
    (hans : s.pageOp1 (leAt c.args 9 1) (masterId 0 q) lost errs p (txEdit (leAt c.args 9 1) p x (leAt c.args 16 8) (s.ptEditList c x)) = some a)
    (hok : a.st = .ok) : s.ptEditDo w q c x p lost errs = a.s.hostDone q c.id .ok 0 a.detail := by
  simp [Device.ptEditDo, hans, hok]

end

/-! ## Timeouts (R414, R483) -/

/-- A command whose timer never paused is reported once its time is over. -/
theorem queueTimeout_of_over {id : Nat} {c : HostCmd} (hcmd : ((s.hq q).cmds.find? fun c => c.id == id && !c.gone && !c.timedOut) = some c)
    (hretry : s.cmdRetrying q c = false) (hhold : c.hold = none) (hpaused : c.paused = 0)
    (htime : c.fetched + ms (s.num O.commandTimeoutMs) ≤ s.uptime) : s.queueTimeout q id = s.timeOutCmd q c := by
  simp [Device.queueTimeout, hcmd, hretry, hhold, hpaused, Nat.not_lt.mpr htime]

/-- The only request of the engine is reported once its time is over. -/
theorem timeOutReq_of_single {ch : Option Chan} {rid : Nat} {w : Waiting} (hengine : s.fore.engine = [w]) (his : w.is ch rid = true)
    (htime : w.since + ms (s.num O.commandTimeoutMs) ≤ s.uptime) :
    s.timeOutReq ch rid =
      { s with fore := { s.fore with engine := [{ w with timedOut := true, held := [] }] } }.reportTimeout w := by
  simp [Device.timeOutReq, hengine, his, htime]

end

/-- A page command of a queue with no copy in progress, on a pool of its job, that nothing stops before it takes effect. -/
theorem exec_pageOp_of_hostTakes {s : State} {q : Fin 64} {c : HostCmd} {met : PageMet} {x : Job} {p : Pool} (h : s.dev.hostTakes q 0x02 c)
    (hcopies : s.dev.queueCopies q = false) (hpool : (s.dev.startCmd q c).hostPool (leAt c.args 9 1) (leAt c.args 10 1) = some (x, p))
    (hstop : (s.dev.startCmd q c).pageOpStop s.dev q c x p = none) :
    exec (.pageOp q met) s = s.to ((s.dev.startCmd q c).pageOpDo s.dev q c x p met) := by
  refine congrArg s.to ((hostRow_of_hostTakes h (by decide) _).trans ?_)
  simp only [hcopies, hpool, hstop]
  rfl

/-- Settles O14: a write of a queue's object passes the checks and is done, and a command is the next one of its queue. -/
theorem hostQueueCommands : Obligations.HostQueueCommands := by
  refine ⟨fun s q haccept hoff hconfig => ?_, fun s q haccept hon => ?_, fun s q d haccept hfrozen hthaw => ?_, fun s q v hport hqueue hlt => ?_,
    fun s q v hport hqueue hlt => ?_, fun s q entries hruns hturn => ?_, fun s q c h => ?_,
    fun s q c x h hresident hjob hextents hfrozen hroom hexpects => ?_, fun s q c t x p a h hcopies hpool hstop hop hans hok => ?_,
    fun s q c t x p d h hcopies hpool hstop hop hcow => ?_, fun s q c t x p a h hcopies hpool hstop hop hcow hok => ?_,
    fun s q c t x p a h hpool hstop hans hok => ?_, fun s q c r hposting hruns hstate hentries hroom => ?_,
    fun s q id c hcmd hruns hretry hhold hpaused htime => ?_, fun s ch id w hruns hengine his htime => ?_, fun s q hport hon => ?_,
    fun s m haccept hexists hclass hfrozen => ?_⟩
  · exact ownWrite_ok haccept (queueEnableWrite_on hoff hconfig)
  · exact ownWrite_ok haccept (queueEnableWrite_off hon)
  · refine ownWrite_ok haccept ?_
    rw [Device.queueThaw, if_pos hfrozen, hthaw, ← measured_okay]
  · simp [exec, execSqTailDoorbell, State.run, State.to, hport, hqueue, Nat.not_le.mpr hlt]
  · simp [exec, execCqHeadDoorbell, State.run, State.to, hport, hqueue, Nat.not_le.mpr hlt]
  · exact congrArg s.to (if_neg (by simp [hruns, hturn]))
  · exact congrArg s.to (hostRow_of_hostTakes h (by decide) _)
  · refine congrArg s.to ((hostRow_of_hostTakes h (by decide) _).trans ?_)
    simp [hresident, hjob, hextents, stepSubmit_of_expected hresident hjob hextents hfrozen hroom hexpects, Device.okay]
  · rw [exec_pageOp_of_hostTakes h hcopies hpool hstop, pageOpDo_of_answer hop hans, pageOpOver_of_ok hok]
  · rw [exec_pageOp_of_hostTakes h hcopies hpool hstop, pageOpDo_cow_of_copies hop hcow]
  · rw [exec_pageOp_of_hostTakes h hcopies hpool hstop, pageOpDo_cow_of_answer hop hcow, pageOpOver_of_ok hok]
  · refine congrArg s.to ((hostRow_of_hostTakes h (by decide) _).trans ?_)
    simp only [hpool, hstop]
    exact ptEditDo_of_ok hans hok
  · simp [exec, execCompletionPost, State.run, State.to, hposting, hruns, hstate, hentries, hroom]
  · simp [exec, execCommandTimeout, State.run, State.to, hruns, queueTimeout_of_over hcmd hretry hhold hpaused htime]
  · simp [exec, execCommandTimeout, State.run, State.to, hruns, timeOutReq_of_single hengine his htime]
  · simp [exec, execHostMemoryError, Device.queueError, State.run, State.to, hport, hon]
  · refine ownWrite_ok haccept ?_
    rw [thaw_of_frozen hexists hclass hfrozen, ← measured_okay]

end Sys2Proof.HostQueues
end

section
/-! A training step and its job: the entries of a schedule, the dispatcher and the boundary (R198 to R227), and the slot of a job from its
registration on, with its steps and its watchdog (R380 to R398, R476, R484). -/

namespace Sys2Proof.TrainingSteps
open Sys2Proof.Machine Sys2Proof.Laws Sys2Proof.HostQueues

/-! ## Entries (R199, R214 to R217, R227) -/

/-- The rows of the two entries that start a table of lists differ in the entry's kind alone: with the table in the job's space and room in every
gate queue, each list enters the queue of its core. -/
theorem listsRow_starts {row : Fin 32 → Instr} {kind : Nat} (hrow : ∀ j s, exec (row j) s = s.to (s.dev.startLists j kind))
    (s : State) (j : Fin 32) (x : Job) (r : StepRun) (a : Nat) (hnext : s.dev.nextEntry j kind = some (x, r, a))
    (hspace : x.inSpace (bits a 47 0) (8 * x.cores.length) = true)
    (hroom : ((s.dev.startTable x (bits a 47 0)).any fun p => 4 ≤ (s.dev.core p.1).gates.length) = false) :
    exec (row j) s = s.to (((((s.dev.startTable x (bits a 47 0)).foldl (fun (s : Device) p => s.setCore p.1 { s.core p.1 with
        gates := (s.core p.1).gates ++ [{ job := j, list := p.2, conds := [], entry := some r.next }] }) s.dev).beginEntry j x r kind).modEntry j r.next
        fun e => { e with cores := (s.dev.startTable x (bits a 47 0)).map fun p => p.1 })) := by
  rw [hrow, Device.startLists]
  simp only [hnext, hspace, hroom]
  rfl

section
variable {s : Device} {j o : Nat} {x : Job} {r : StepRun}

/-- An update whose reads are neither locked nor lost starts (R227). -/
theorem updateEntry_starts (hwaits : ((s.updateReads x o).any fun p => s.spaceWaits x p.1 p.2 false) = false)
    (hblocked : ((s.updateReads x o).any fun p => s.spaceBlocked x p.1 p.2 false) = false) :
    s.updateEntry j x r o = (s.beginEntry j x r 5).updateStart j x r r.next o := by
  simp only [Device.updateEntry, hwaits, hblocked]
  rfl

/-- A dispatch that passes the checks of R215 places its tokens. -/
theorem dispatch_places {i : Nat} (hspace : ((s.dispatchExtents x o).any fun e => !x.inSpace e.1 e.2) = false)
    (hblocked : ((s.dispatchExtents x o).any fun e => s.spaceBlocked x e.1 e.2 false) = false) (hok : (s.dispatchIn x o).ok = true) :
    s.dispatch j x i o = s.dispatchDo j x (s.dispatchIn x o) := by
  simp only [Device.dispatch, hspace, hblocked, hok]
  rfl

end

/-! ## Writes of a job's objects (R380 to R384, R396) -/

/-- At READY a write of an object of a slot reaches the slot's own rule. -/
theorem jobRow_ok {s : State} {oid j : Nat} {f : Device → Ans} {d : Device} (haccept : s.dev.accepts oid) (hready : s.dev.startupCode = suReady)
    (hf : f s.dev = d.okay) : s.run (fun d => d.jobRow oid j f) = s.wrote oid d :=
  ownWrite_ok haccept ((if_pos hready).trans hf)

section
variable {s : Device} {j : Nat}

/-- A record within HBM whose fields and schedule pass is registered in a free slot (R380, R200). -/
theorem jobRegister_ok {x : Job} (hrecord : s.recordJob (s.num (O.registrationAddress j)) = x) (hfree : s.jobCode j = jsFree)
    (hon : s.domainOn 3 = true) (hin : s.hbmIn (s.num (O.registrationAddress j)) 1024 = true)
    (hreach : s.hbmBlocked (s.num (O.registrationAddress j)) 1024 false = false) (hfields : x.badField (s.num O.commandTimeoutMs) = none)
    (htable : s.spaceBlocked x (x.at_ 32 8) (16 * x.entries) false = false) (hschedule : s.scheduleBad x = none) :
    s.jobRegister j = (s.registered j x).okay := by
  subst hrecord
  simp [Device.jobRegister, hfree, hon, hin, hreach, hfields, htable, hschedule]

/-- A job that is registered or suspended and passes the checks of R382 is admitted. -/
theorem jobAdmit_ok {x : Job} (hstate : s.jobCode j = jsRegistered ∨ s.jobCode j = jsSuspended) (hjob : s.job? j = some x)
    (hon : s.domainOn 3 = true) (hchecks : s.admitBad j x = none) :
    s.jobAdmit j = (s.grantJob j x (s.jobCode j == jsSuspended)).okay := by
  simp [Device.jobAdmit, hstate, hjob, hon, hchecks]

/-- A resident job between its steps leaves, its state saved or not (R384). -/
theorem jobLeave_ok (hstate : s.jobCode j = jsReady ∨ s.jobCode j = jsStopped ∨ s.jobCode j = jsFrozen) (suspend : Bool) :
    s.jobLeave j suspend = (s.jobLeaves j suspend).okay :=
  if_pos (by simpa [or_assoc] using hstate)

theorem jobDeregister_ok (hstate : s.jobCode j = jsRegistered ∨ s.jobCode j = jsSuspended) : s.jobDeregister j = (s.jobFreed j).okay :=
  if_pos (by simpa using hstate)

/-- A frozen job is thawed as its master is (R476). -/
theorem jobThaw_of_frozen (hfrozen : s.jobCode j = jsFrozen) : s.jobThaw j = s.thaw (masterId 1 j) := if_pos hfrozen

end

/-! ## The obligations -/

/-- Settles O26: an entry whose turn it is starts, and an entry, a boundary or the patches of a step end once nothing they wait for is left. -/
theorem scheduleEntries : Obligations.ScheduleEntries := by
  refine ⟨fun s j x r a hnext => ?_, fun s j x r a hnext => ?_, fun s j x r a hnext hwaits hblocked => ?_, fun s j x r a hnext => ?_,
    fun s j x r a hnext hnone => ?_, listsRow_starts fun _ _ => rfl, listsRow_starts fun _ _ => rfl,
    fun s j x r a hnext hspace hblocked hok => ?_, fun s j i x r e hjob hcur hentry hcores hunits hplan hworks => ?_,
    fun s j x r hjob hcur hworks hlast hnone hstop hboundary hdrained => ?_, fun s j x r hjob hcur hworks hboundary hholds => ?_⟩
  · simp only [exec, execGather, State.run, State.to, hnext]
  · simp only [exec, execReduce, State.run, State.to, hnext]
  · simp only [exec, execUpdate, State.run, State.to, hnext, updateEntry_starts hwaits hblocked]
  · simp only [exec, execRelease, State.run, State.to, hnext]
  · simp [exec, execScheduleEnd, State.run, State.to, hnext, hnone]
  · simp only [exec, execDispatch, State.run, State.to, hnext, dispatch_places hspace hblocked hok]
  · simp [exec, execScheduleEntryComplete, State.run, State.to, hjob, hcur, hentry, hcores, hunits, hplan, hworks]
  · simp [exec, execStepBoundary, State.run, State.to, hjob, hcur, hworks, hlast, hnone, hstop, hboundary, hdrained]
  · simp [exec, execPatchApply, State.run, State.to, hjob, hcur, hworks, hboundary, hholds]

/-- Settles O37: a write of a slot's object that its state and checks allow is done, and a step starts, or is ended by its watchdog. -/
theorem jobCommands : Obligations.JobCommands := by
  refine ⟨fun s j haccept hready hfree hon hin hreach hfields htable hschedule => ?_, fun s j x haccept hready hstate hjob hon hchecks => ?_,
    fun s j haccept hready hstate => ?_, fun s j haccept hready hstate => ?_, fun s j haccept hready hstate => ?_,
    fun s j d haccept hready hfrozen hthaw => ?_, fun s j d x haccept hready hlength hslot hresident hjob hroom hexpects hextents => ?_,
    fun s j conf x w rest d hjob hpending hmay hlocked hblocked hslots => ?_, fun s j x r hjob hcur hworks hretry hover hstate => ?_,
    fun s j x r hjob hcur hworks hretry hroom hhold => ?_⟩
  · exact jobRow_ok haccept hready (jobRegister_ok rfl hfree hon hin hreach hfields htable hschedule)
  · exact jobRow_ok haccept hready (jobAdmit_ok hstate hjob hon hchecks)
  · exact jobRow_ok haccept hready (jobLeave_ok hstate false)
  · exact jobRow_ok haccept hready (jobLeave_ok hstate true)
  · exact jobRow_ok haccept hready (jobDeregister_ok hstate)
  · refine jobRow_ok haccept hready ?_
    rw [jobThaw_of_frozen hfrozen, hthaw, ← measured_okay]
  · obtain ⟨hres, hfrozen⟩ : s.dev.resident j = true ∧ s.dev.jobCode j ≠ jsFrozen := by simpa using hresident
    refine jobRow_ok haccept hready ?_
    rw [if_neg (not_not.mpr hlength), if_neg (not_not.mpr hslot)]
    rw [← hslot] at hres hfrozen hjob ⊢
    exact stepSubmit_of_expected hres hjob hextents hfrozen hroom hexpects
  · simp [exec, execStepStart, State.run, State.to, hjob, hpending, hmay, hlocked, hblocked, hslots]
  · simp [exec, execJobWatchdogExpiry, State.run, State.to, hjob, hcur, hworks, hretry, Nat.not_lt.mpr hover, hstate]
  · simp [exec, execJobWatchdogExpiry, State.run, State.to, hjob, hcur, hworks, hretry, hroom, hhold]

end Sys2Proof.TrainingSteps
end

section
/-! The passes of an update unit over its run, and the transaction of a block from its opening to its commit (R228 to R236). -/

namespace Sys2Proof.UpdateUnits
open Sys2Proof.Machine

/-! ## Statistics passes (R228, R230) -/

section
variable {s d : Device} {u : Nat} {errs : List SymErr} {r : UpdRun} {x : Job} {c : StepRun}

/-- A statistics pass that waits for no lock, whose reads meet no lost line and whose blocks a TRUST pass finds without this step's stamp, writes
its sums. -/
theorem statPass_sums {pass : Nat} (hworks : s.unitWorks u = true) (hrun : s.nextRun u pass = some (r, x, c)) (hlive : entryFailed c r = false)
    (hwaits : s.statWaits u pass r x = false) (hreads : (s.unstall (masterId 7 u)).readErrs u (r.ranges x u pass) errs = (false, d))
    (hstamps : pass = 2 → d.stamped u r x = false) : s.statPass u pass errs = (d.statSums u pass r x).itemOver u r := by
  have hfresh : (decide (pass = 2) && d.stamped u r x) = false := by simpa using hstamps
  simp [Device.statPass, hworks, hrun, hlive, hwaits, hreads, hfresh]

/-! ## The transaction of a block (R232, R233, R236) -/

theorem blockOpen_of_opened {a : Ans} {key : Nat} (hopen : s.txnOpenOp (masterId 7 u) = (a, some key)) :
    s.blockOpen u r x errs =
      (a.s.putRun u { r with phase := .opened, txn := some key }).blockRead u { r with phase := .opened, txn := some key } x errs := by
  simp only [Device.blockOpen, hopen]

/-- A block whose reads wait for no lock, keep the limits of R247 and meet no lost line is tracked, and its stamp decides. -/
theorem blockRead_decides {key : Nat} {t : Txn} {v : StampVerdict} (htxn : s.blockTxn u r = .inl (key, t))
    (hstamp : stampVerdict (leNat (s.cachedGet (stampAt x r.desc u r.k) 4)) r.t = v)
    (hlocks : ((r.blockRanges x u v).any fun p => s.mustWait p.1 (.read p.2) (some key)) = false)
    (htotals : (v == StampVerdict.update && grpRule r.desc == 4 && s.spaceWaits x (grpStat r.desc + 160) 8 false) = false)
    (hstall : s.unstall (masterId 7 u) = s) (hlimits : s.trackLimit t ((r.blockRanges x u v).flatMap fun p => linesOf p.1 p.2) = 0)
    (hreads : s.readErrs u (r.blockRanges x u v) errs = (false, d)) :
    s.blockRead u r x errs = (d.trackAll key (r.blockRanges x u v)).blockDecide u r x key v := by
  simp only [Device.blockRead, htxn, hstamp, hlocks, htotals, hstall, hlimits, hreads]
  rfl

theorem stampVerdict_eq_skip_iff {v t : Nat} : stampVerdict v t = .skip ↔ v = t := by
  unfold stampVerdict
  split_ifs <;> simp_all

theorem stampVerdict_eq_update_iff {v t : Nat} : stampVerdict v t = .update ↔ v ≠ t ∧ (v + 1) % 2 ^ 32 = t := by
  unfold stampVerdict
  split_ifs <;> simp_all

/-- A block that carries this step's stamp gives its transaction up (the model's reading, log entry 134) and is counted as skipped. -/
theorem blockDecide_skip {key : Nat} {t : Txn} (htxn : tget? s.mem.txns key = some t) :
    s.blockDecide u r x key .skip = ((s.abortTxn key t 10).bump (O.blocksSkipped r.job)).blockOver u r x := by
  simp only [Device.blockDecide, htxn]

/-- A block that carries a foreign stamp gives its transaction up (the model's reading, log entry 134) and ends the entry. -/
theorem blockDecide_refuse {key : Nat} {t : Txn} (htxn : tget? s.mem.txns key = some t) :
    s.blockDecide u r x key .refuse = ((s.abortTxn key t 10).runFail u r .state).bump (O.stampRefusals r.job) := by
  simp only [Device.blockDecide, htxn]

@[simp] theorem blockAfter_committed : s.blockAfter u r x 0 = (s.bump (O.blocksCommitted u)).blockOver u r x := if_pos rfl

end

/-! ## The rows of a unit (R219, R232) -/

section
variable {s : State} {u : Fin 20} {errs : List SymErr} {r : UpdRun} {x : Job} {c : StepRun}

theorem applyPass_opens (hworks : s.dev.unitWorks u = true) (hrun : s.dev.nextRun u 0 = some (r, x, c)) (hphase : r.phase = .idle)
    (hlive : entryFailed c r = false) (hblocks : r.k < (runOf r.desc u).2) :
    exec (.applyPass u errs) s = s.to (s.dev.blockOpen u r x errs) := by
  simp [exec, execApplyPass, State.run, State.to, hworks, hrun, hphase, hlive, hblocks]

theorem updateBlockCommit_commits {key : Nat} {t : Txn} {w : Device} (hworks : s.dev.unitWorks u = true)
    (hrun : s.dev.nextRun u 0 = some (r, x, c)) (hphase : r.phase = .read) (htxn : s.dev.blockTxn u r = .inl (key, t))
    (hwrite : s.dev.blockWrite u r x key t = some (0, w)) :
    exec (.updateBlockCommit u) s = s.to (((w.unstall (masterId 7 u)).bump (O.blocksCommitted u)).blockOver u r x) := by
  simp [exec, execUpdateBlockCommit, State.run, State.to, hworks, hrun, hphase, htxn, hwrite]

theorem slotWaitRetry_opens (hworks : s.dev.unitWorks u = true) (hrun : s.dev.nextRun u 0 = some (r, x, c)) (hphase : r.phase = .slotWait)
    (hdue : r.since + us 1 ≤ s.dev.uptime) :
    exec (.slotWaitRetry u errs) s = s.to ((s.dev.bump (O.slotWaits u)).blockOpen u r x errs) := by
  simp [exec, execSlotWaitRetry, State.run, State.to, hworks, hrun, hphase, hdue]

end

/-! ## The obligation -/

/-- Settles O27: a pass whose reads neither wait nor fail does its work; a block's stamp updates it, skips it or refuses the entry; a block
commits as one transaction, and a unit without a slot asks again. -/
theorem updatePasses : Obligations.UpdatePasses :=
  ⟨fun s _ _ _ _ _ _ hworks hrun hlive hwaits hreads => congrArg s.to (statPass_sums hworks hrun hlive hwaits hreads nofun),
    fun s _ _ _ _ _ _ hworks hrun hlive hwaits hreads hfresh =>
      congrArg s.to (statPass_sums hworks hrun hlive hwaits hreads fun _ => hfresh),
    fun _ _ _ _ _ _ => applyPass_opens,
    fun _ _ _ _ _ _ _ => blockOpen_of_opened,
    fun _ _ _ _ _ _ _ _ _ => blockRead_decides,
    fun _ _ => ⟨stampVerdict_eq_skip_iff, stampVerdict_eq_update_iff⟩,
    fun _ _ _ _ _ _ => blockDecide_skip,
    fun _ _ _ _ _ _ => blockDecide_refuse,
    fun _ _ _ _ _ _ _ _ => updateBlockCommit_commits,
    fun _ _ _ _ _ _ => slotWaitRetry_opens⟩

end Sys2Proof.UpdateUnits
end

section
/-! Accesses to HBM: plain ones in the home cache, atomics, and uncached ones (R242, R248, R253, R278 to R282). -/

namespace Sys2Proof.HbmAccesses
open Sys2Proof.Machine

section
variable {s d : Device} {m a n k : Nat} {op : MemOp} {errs : List SymErr}

/-! ## What an operation does at the home die (R278, R281, R282) -/

theorem perform_read (hreach : s.hbmBlocked a n false = false) :
    s.perform a (.read n) = (.ok, (s.cacheTouch a n false).cachedGet a n, s.cacheTouch a n false) := by
  simp [Device.perform, MemOp.len, MemOp.plain, MemOp.writes, MemOp.atomic, hreach]

theorem perform_write {data : Bytes} (hreach : s.hbmBlocked a data.length true = false) :
    s.perform a (.write data) = (.ok, [], (s.cacheTouch a data.length true).stored a data.length data) := by
  simp [Device.perform, MemOp.len, MemOp.plain, MemOp.writes, MemOp.atomic, hreach, Device.stored]

section
variable {wide : Bool} {v cmp new : Nat} {old : Nat} (hk : k = if wide then 8 else 4) (hd : d = s.cacheTouch a k true true)
  (hold : leNat (d.cachedGet a k) = old) (hreach : s.hbmBlocked a k false = false)
include hk hd hold hreach

theorem perform_fetchAdd :
    s.perform a (.fetchAdd wide v) = (.ok, leBytes k old, (d.bump (O.atomics (s.homeDie a))).stored a k (leBytes k (old + v))) := by
  subst hk hd hold
  simp [Device.perform, MemOp.len, MemOp.plain, MemOp.writes, MemOp.atomic, hreach, Device.stored]

theorem perform_cas_of_eq (heq : old = cmp) :
    s.perform a (.cas wide cmp new) = (.ok, leBytes k cmp, (d.bump (O.atomics (s.homeDie a))).stored a k (leBytes k new)) := by
  subst hk hd heq
  simp [Device.perform, MemOp.len, MemOp.plain, MemOp.writes, MemOp.atomic, hreach, Device.stored, hold]

theorem perform_cas_of_ne (hne : old ≠ cmp) : s.perform a (.cas wide cmp new) = (.ok, leBytes k old, d.bump (O.atomics (s.homeDie a))) := by
  subst hk hd hold
  simp [Device.perform, MemOp.len, MemOp.plain, MemOp.writes, MemOp.atomic, hreach, hne]

end

/-- An operation on the elements v of a type, by the function that gives what it stores. -/
def ElementOp (op : MemOp) (ty : Nat) (v : List Nat) (f : Nat → Nat → Nat) : Prop :=
  op = .fadd ty v ∧ f = elemAdd ty ∨ op = .max ty v ∧ f = elemPick ty true ∨ op = .min ty v ∧ f = elemPick ty false

theorem perform_elements {ty : Nat} {v : List Nat} {f : Nat → Nat → Nat} (hop : ElementOp op ty v f) (hk : k = tyBytes ty)
    (hd : d = s.cacheTouch a (k * v.length) true true) (hreach : s.hbmBlocked a (k * v.length) false = false) :
    s.perform a op = (.ok, [], (d.bump (O.atomics (s.homeDie a))).stored a (k * v.length)
      (((d.elems a k v.length).zip v).flatMap fun p => leBytes k (f p.1 p.2))) := by
  subst hk hd
  rcases hop with ⟨rfl, rfl⟩ | ⟨rfl, rfl⟩ | ⟨rfl, rfl⟩ <;>
    simp [Device.perform, MemOp.len, MemOp.plain, MemOp.writes, MemOp.atomic, hreach, Device.stored]

theorem perform_copy64 {src : Nat} (hd : d = s.cacheTouch a 8 true true) (hreach : s.hbmBlocked a 8 false = false)
    (hsource : s.hbmBlocked src 8 false = false) :
    s.perform a (.copy64 src) = (.ok, d.cachedGet src 8,
      ((d.cacheTouch src 8 false).bump (O.atomics (s.homeDie a))).stored a 8 (d.cachedGet src 8)) := by
  subst hd
  simp [Device.perform, MemOp.len, MemOp.plain, MemOp.writes, MemOp.atomic, hreach, hsource, Device.stored]

/-! ## The access of a master (R242, R253, R269) -/

/-- An access that reaches its lines, a copy's source among them, and is performed is answered; one that writes is a write from outside to the
lines that conservation protects. -/
theorem access_of_performed {b : Bytes} (h : s.reaches m a op errs) (hsource : ∀ src, op = .copy64 src → s.mapCheck src 8 = 0)
    (hdone : s.hbmBlocked a op.len op.plain = false → s.perform a op = (.ok, b, d)) :
    s.access m a op errs = (if op.writes then d.outsideWrite m a op.len else d).answer m .ok b := by
  obtain ⟨hmaster, hfrozen, hon, hruns, halign, hmap, hown, hlocks, horder, hmeets, hreach⟩ := h
  cases op with
  | copy64 src => simp [Device.access, hmaster, hfrozen, hon, hruns, halign, hmap, hown, hlocks, horder, hmeets, hdone hreach, hsource src rfl]
  | _ => simp [Device.access, hmaster, hfrozen, hon, hruns, halign, hmap, hown, hlocks, horder, hmeets, hdone hreach]

/-- An operation on elements stores what its function gives of the old ones and its operands, and answers no value. -/
theorem access_elements {ty : Nat} {v : List Nat} {f : Nat → Nat → Nat} (h : s.reaches m a op errs) (hop : ElementOp op ty v f)
    (hn : v.length = n) (hd : d = s.cacheTouch a (tyBytes ty * n) true true) :
    s.access m a op errs = (((d.bump (O.atomics (s.homeDie a))).stored a (tyBytes ty * n)
      (((d.elems a (tyBytes ty) n).zip v).flatMap fun p => leBytes (tyBytes ty) (f p.1 p.2))).outsideWrite m a (tyBytes ty * n)).answer m .ok [] := by
  subst hn
  have hshape : op.len = tyBytes ty * v.length ∧ op.plain = false ∧ op.writes = true ∧ ∀ src, op ≠ .copy64 src := by
    rcases hop with ⟨rfl, -⟩ | ⟨rfl, -⟩ | ⟨rfl, -⟩ <;> exact ⟨rfl, rfl, rfl, nofun⟩
  obtain ⟨hlen, hplain, hwrites, hcopy⟩ := hshape
  rw [access_of_performed h (fun src e => absurd e (hcopy src)) fun hreach => perform_elements hop rfl hd (by rwa [hlen, hplain] at hreach),
    if_pos hwrites, hlen]

/-! ## Uncached accesses (R242, R279) -/

/-- Counting an event puts no line out of reach. -/
@[simp] theorem bump_hbmBlocked (o c : Nat) (w : Bool) : (s.bump o c).hbmBlocked a n w = s.hbmBlocked a n w := rfl

end

section
variable {s : State} {m n : BitVec 16} {a : BitVec 40} {data : Bytes} {w : Option Bytes} {errs : List SymErr}
  (hmaster : masterExists m.toNat = true) (hfrozen : s.dev.isFrozen m.toNat = false) (hon : s.dev.domainOn 3 = true)
  (hruns : s.dev.runs 3 = true)
include hmaster hfrozen hon hruns

theorem uncachedAccess_reads (hmap : s.dev.mapCheck a.toNat n.toNat = 0) (hregion : s.dev.inRegion a.toNat n.toNat = false)
    (hmeets : errsIn a.toNat n.toNat errs = []) (hreach : s.dev.hbmBlocked a.toNat n.toNat false = false) :
    exec (.uncachedAccess m a n none errs) s = s.to (((s.dev.bump (O.uncachedAccesses (s.dev.homeDie a.toNat))).answer m.toNat .ok
      ((s.dev.bump (O.uncachedAccesses (s.dev.homeDie a.toNat))).hbmGet a.toNat n.toNat))) := by
  simp [exec, execUncachedAccess, State.run, State.to, hmaster, hfrozen, hon, hruns, hmap, hregion, hmeets, hreach]

theorem uncachedAccess_writes (hmap : s.dev.mapCheck a.toNat data.length = 0) (hregion : s.dev.inRegion a.toNat data.length = false)
    (hmeets : errsPart a.toNat data.length errs = []) (hreach : s.dev.hbmBlocked a.toNat data.length true = false) :
    exec (.uncachedAccess m a n (some data) errs) s = s.to (((((s.dev.bump (O.uncachedAccesses (s.dev.homeDie a.toNat))).hbmPut a.toNat
      data).clearLost a.toNat data.length).dirtyHit a.toNat data.length).answer m.toNat .ok []) := by
  simp [exec, execUncachedAccess, State.run, State.to, hmaster, hfrozen, hon, hruns, hmap, hregion, hmeets, hreach]

theorem uncachedAccess_violates {len : Nat} (hlen : w.elim n.toNat List.length = len) (hmap : s.dev.mapCheck a.toNat len = 0)
    (hregion : s.dev.inRegion a.toNat len = true) :
    exec (.uncachedAccess m a n w errs) s =
      s.to ((s.dev.bump (O.txnUncachedViolations (s.dev.homeDie a.toNat))).violation m.toNat 0 a.toNat) := by
  cases w with
  | none =>
    have hread : n.toNat = len := hlen
    simp [exec, execUncachedAccess, State.run, State.to, hmaster, hfrozen, hon, hruns, hread, hmap, hregion]
  | some data =>
    have hwrite : data.length = len := hlen
    simp [exec, execUncachedAccess, State.run, State.to, hmaster, hfrozen, hon, hruns, hwrite, hmap, hregion]

end

/-- Settles O28: an access that reaches its lines is performed and answered, and an uncached one is checked against the regions first. -/
theorem memoryAccesses : Obligations.MemoryAccesses := by
  refine ⟨fun s m a n errs h => ?_, fun s m a data errs h => ?_, fun s m a wide v errs h => ?_, fun s m a wide cmp new errs h heq => ?_,
    fun s m a wide cmp new errs h hne => ?_, fun s m a ty vals errs h => ?_, fun s m a ty vals errs h => ?_, fun s m a ty vals errs h => ?_,
    fun s m a src errs h hmap hsource => ?_, fun _ _ _ _ _ => uncachedAccess_reads, fun _ _ _ _ _ _ => uncachedAccess_writes,
    fun s m a n w errs hmaster hfrozen hon hruns hmap hregion => ?_⟩
  · exact congrArg s.to (access_of_performed h nofun perform_read)
  · exact congrArg s.to (access_of_performed h nofun perform_write)
  · exact congrArg s.to (access_of_performed h nofun (perform_fetchAdd rfl rfl rfl))
  · exact congrArg s.to (access_of_performed h nofun fun hreach => perform_cas_of_eq rfl rfl heq hreach rfl)
  · exact congrArg s.to (access_of_performed h nofun fun hreach => perform_cas_of_ne rfl rfl rfl hreach hne)
  · exact congrArg s.to (access_elements h (.inl ⟨rfl, rfl⟩) (List.length_map _) rfl)
  · exact congrArg s.to (access_elements h (.inr (.inl ⟨rfl, rfl⟩)) (List.length_map _) rfl)
  · exact congrArg s.to (access_elements h (.inr (.inr ⟨rfl, rfl⟩)) (List.length_map _) rfl)
  · exact congrArg s.to (access_of_performed h (fun _ hop => MemOp.copy64.inj hop ▸ hmap) fun hreach => perform_copy64 rfl hreach hsource)
  · cases w <;> exact uncachedAccess_violates hmaster hfrozen hon hruns rfl hmap hregion

end Sys2Proof.HbmAccesses
end

section
/-! Clasp: the operations of Table 10.2 on a slot, the prepare of a participant, and the rows of the commit sequence (R244 to R257). -/

namespace Sys2Proof.ClaspSlots
open Sys2Proof.Machine

section
variable {s : Device} {m slot key : Nat} {t : Txn}

/-- An operation of a master meets the Clasp units while their domain is on (R25). -/
theorem claspReq_of_on (hon : s.domainOn 3 = true) (f : Device → Device) : s.claspReq f = f s := if_pos hon

@[simp] theorem regionChecked_okay (a : Nat) : s.okay.regionChecked m a = s.okay := by simp [Ans.regionChecked, Device.okay]

/-! ## OPEN (R244) -/

/-- A master other than the device manager, owed no abort status and holding no slot, takes a free slot of its coordinator. -/
theorem txnOpenOp_of_free (hdue : (s.mem.due.find? fun d => d.master == m) = none) (hm : m ≠ managerId) (hmay : mayOpen m = true)
    (hfrozen : s.isFrozen m = false) (hclasp : s.claspUp = true) (hnone : s.txnsOf m = []) (hfree : s.freeSlots (coordinator m) ≠ []) :
    ∃ n ∈ s.freeSlots (coordinator m), s.txnOpenOp m =
      (((s.choose (s.freeSlots (coordinator m))).2.setTxn (64 * coordinator m + n)
        { master := m, openedAt := s.uptime, limit := us (s.num O.txnTimeLimitUs) }).okay, some (64 * coordinator m + n)) := by
  obtain ⟨n, hmem, hchoice⟩ := Dictionary.exists_choose_fst (s := s) hfree
  refine ⟨n, hmem, ?_⟩
  simp only [Device.txnOpenOp, if_neg hm, hdue, hnone, hmay, hfrozen, hclasp]
  rw [show s.choose (s.freeSlots (coordinator m)) = (some n, (s.choose (s.freeSlots (coordinator m))).2) from Prod.ext hchoice rfl]
  rfl

/-! ## READ and WRITE (R245 to R247) -/

theorem txnRead_of_gate {a n : Nat} (hgate : s.txnGate m slot = .inr (key, t)) (hsize : n = 32 ∨ n = 128) (halign : aligned a n = true)
    (hregion : s.lineInRegion (a / 128) = true) (hlimit : s.trackLimit t (linesOf a n) = 0) (hreach : s.hbmBlocked a n false = false)
    (hlocks : s.mustWait a (.read n) (some key) = false) (horder : s.ownWaits m a n = false) :
    s.txnRead m slot a n false = ((s.trackedRead key t a n).2.okay, (s.trackedRead key t a n).1, false) := by
  have hbits : (n == 32 || n == 128) = true := by simpa using hsize
  simp [Device.txnRead, hgate, hbits, halign, hregion, hlimit, hreach, hlocks, horder]

/-- The transaction once the bytes b of a line are held in it. -/
def withWrite (t : Txn) (line : Nat) (b : List (Nat × Byte)) : Txn :=
  { t with written := t.written ++ if t.written.contains line then [] else [line],
           buf := b.foldl (fun m p => memSet m p.1 p.2) t.buf,
           masks := t.masks ++ (b.map fun p => p.1).filter fun a => !t.masks.contains a }

theorem txnWrite_of_gate {line : Nat} {b : List (Nat × Byte)} (hgate : s.txnGate m slot = .inr (key, t)) (hregion : s.lineInRegion line = true)
    (hroom : t.written.length + (if t.written.contains line then [] else [line]).length ≤ 2048) :
    s.txnWrite m slot line b = (s.setTxn key (withWrite t line b)).okay := by
  simp only [Device.txnWrite, hgate, hregion, Nat.not_lt.mpr hroom]
  rfl

/-! ## COMMIT and ABORT (R251, R256) -/

/-- A write buffer that shows no error changes nothing. -/
theorem txnCommitMet_nil : s.txnCommitMet m slot [] = s.txnCommitOp m slot := by
  have hclean : s.bufferErrors m slot [] = (false, s) := by
    unfold Device.bufferErrors
    split <;> rfl
  simp only [Device.txnCommitMet, hclean]

/-- The transaction as its commit sequence begins: its participants are fixed. -/
def preparing (t : Txn) (parts : List Nat) : Txn := { t with state := .preparing, parts := parts.map fun q => (q, .todo) }

theorem txnCommitOp_of_parts (hgate : s.txnGate m slot = .inr (key, t)) (hparts : s.partsOf t ≠ []) :
    s.txnCommitOp m slot = ((s.setTxn key (preparing t (s.partsOf t))).okay, false) := by
  simp [Device.txnCommitOp, hgate, hparts, preparing]

theorem txnCommitOp_of_no_parts (hgate : s.txnGate m slot = .inr (key, t)) (hparts : s.partsOf t = []) :
    s.txnCommitOp m slot = (((s.countCommit key t).delTxn key).okay, true) := by
  simp [Device.txnCommitOp, hgate, hparts]

theorem txnAbortOp_of_opened (hdue : s.dueFor m slot = none) (htxn : s.txnFor m slot = some (key, t)) (hopened : t.state = .opened) :
    s.txnAbortOp m slot = (s.abortTxn key t 10).okay := by
  simp [Device.txnAbortOp, hdue, htxn, hopened]

/-! ## The prepare of a participant (R252) -/

theorem doPrepare_yes {q since : Nat} (h : s.prepare key t q = .yes) :
    s.doPrepare key t q since = (s.bump (O.txnLockWaitNs q) (40 * (s.uptime - since))).setTxn key (t.setPart q .yes) := by
  simp only [Device.doPrepare, h]

theorem doPrepare_no {q since why : Nat} (h : s.prepare key t q = .no why) :
    s.doPrepare key t q since = (s.bump (O.txnLockWaitNs q) (40 * (s.uptime - since))).setTxn key (t.setPart q (.no why)) := by
  simp only [Device.doPrepare, h]

theorem doPrepare_wait {q since : Nat} (h : s.prepare key t q = .wait) :
    s.doPrepare key t q since = s.setTxn key (t.setPart q (.waiting since)) := by
  simp only [Device.doPrepare, h]

end

section
variable {s : State} {m : BitVec 16} {slot : BitVec 8} {q : Fin 4} {n : Fin 64} {d : Fin 4} {key : Nat} {t : Txn}

theorem claspRead_tracks {a : BitVec 40} {whole : Bool} {errs : List SymErr} {k b : Nat} (hon : s.dev.domainOn 3 = true)
    (hgate : s.dev.txnGate m.toNat slot.toNat = .inr (key, t)) (hk : k = if whole then 128 else 32) (hb : b = a.toNat / k * k)
    (hregion : s.dev.lineInRegion (b / 128) = true) (hlimit : s.dev.trackLimit t (linesOf b k) = 0) (hmeets : errsIn b k errs = [])
    (hreach : s.dev.hbmBlocked b k false = false) (hlocks : s.dev.mustWait b (.read k) (some key) = false)
    (horder : s.dev.ownWaits m.toNat b k = false) :
    exec (.claspRead m slot a whole errs) s =
      s.to ((s.dev.trackedRead key t b k).2.answer m.toNat .ok (s.dev.trackedRead key t b k).1) := by
  have hsize : k = 32 ∨ k = 128 := by cases whole <;> simp [hk]
  have halign : aligned b k = true := by simp [aligned, hb]
  have hread := txnRead_of_gate hgate hsize halign hregion hlimit hreach hlocks horder
  simp only [exec, execClaspRead, State.run, State.to, claspReq_of_on hon, ← hk, ← hb, hgate, hregion, hmeets]
  simp [hread, Device.okay]

theorem claspWrite_holds {line : BitVec 33} {data : Bytes} {mask : BitVec 128} {b : List (Nat × Byte)} (hon : s.dev.domainOn 3 = true)
    (hgate : s.dev.txnGate m.toNat slot.toNat = .inr (key, t))
    (hb : b = (((List.range 128).filter fun i => mask.getLsbD i).map fun i => (128 * line.toNat + i, data.getD i 0)))
    (hregion : s.dev.lineInRegion line.toNat = true)
    (hroom : t.written.length + (if t.written.contains line.toNat then [] else [line.toNat]).length ≤ 2048) :
    exec (.claspWrite m slot line data mask) s = s.to ((s.dev.setTxn key (withWrite t line.toNat b)).emit (.reply .ok 0)) := by
  simp only [exec, execClaspWrite, State.run, State.to, claspReq_of_on hon, ← hb, txnWrite_of_gate hgate hregion hroom, regionChecked_okay]
  rfl

/-- The prepare of a participant whose turn it is, at a die whose engine is free. -/
theorem prepare_starts (htxn : tget? s.dev.mem.txns (64 * q.val + n.val) = some t) (hstate : t.state = .preparing)
    (hpart : t.part d.val = some .todo) (hlower : ∀ p ∈ t.parts, d.val ≤ p.1 ∨ p.2 = .counted) (hruns : s.dev.runs 3 = true)
    (hengine : s.dev.engineTaken d.val (64 * q.val + n.val) = false) :
    exec (.prepare q n d) s = s.to (s.dev.doPrepare (64 * q.val + n.val) t d.val s.dev.uptime) := by
  have hready : (t.parts.all fun p => decide (d.val ≤ p.1) || p.2 == PartState.counted) = true :=
    List.all_eq_true.mpr fun p hp => by simpa using hlower p hp
  simp only [exec, execPrepare, State.run, State.to, htxn, hstate, hpart, hready, hruns, hengine]
  rfl

end

/-- Settles O30: an operation acts on the slot that its gate gives, and each row of the commit sequence on the part of its participant. -/
theorem claspTransactions : Obligations.ClaspTransactions := by
  refine ⟨fun s m hon hdue hm hmay hfrozen hclasp hnone hfree => ?_, fun _ _ _ _ _ _ _ _ _ _ => claspRead_tracks,
    fun s m slot line data mask key t b hon hgate hb hregion hroom => ?_, fun s m slot key t hon hgate hparts => ?_,
    fun s m slot key t hon hgate hparts => ?_, fun s m slot key t hon hdue htxn hopened => ?_,
    fun s q n d t htxn hstate hpart hlower hruns hengine hvote => ?_, fun s q n d t since htxn hpart hruns hvote => ?_,
    fun s q n d t why htxn hstate hpart hlower hruns hengine hvote => ?_, fun s q n d t htxn hstate hpart hlower hruns hengine hvote => ?_,
    fun s q n d t since htxn hpart hruns htime => ?_, fun s q n d t htxn hruns hstate hpart hall => ?_,
    fun s q n d t why htxn hruns hstate hpart => ?_, fun s q n d t htxn hruns hstate hpart hnotall => ?_,
    fun s q n d t htxn hruns hstate hpart => ?_, fun s q n d t htxn hruns hpart hall => ?_, fun s q n t htxn hruns hopened htime => ?_⟩
  · obtain ⟨n, hmem, hopen⟩ := txnOpenOp_of_free hdue hm hmay hfrozen hclasp hnone hfree
    refine ⟨n, hmem, ?_⟩
    simp only [exec, execClaspOpen, State.run, claspReq_of_on hon, hopen]
    rfl
  · have happend : (if t.written.contains line.toNat then t.written else t.written ++ [line.toNat]) =
        t.written ++ if t.written.contains line.toNat then [] else [line.toNat] := by split_ifs <;> simp
    rw [happend] at hroom ⊢
    exact claspWrite_holds hon hgate hb hregion (by rwa [List.length_append] at hroom)
  · simp only [exec, execClaspCommit, State.run, claspReq_of_on hon, txnCommitMet_nil, txnCommitOp_of_parts hgate hparts]
    rfl
  · simp only [exec, execClaspCommit, State.run, claspReq_of_on hon, txnCommitMet_nil, txnCommitOp_of_no_parts hgate hparts]
    rfl
  · simp only [exec, execClaspAbort, State.run, claspReq_of_on hon, txnAbortOp_of_opened hdue htxn hopened]
    rfl
  · rw [prepare_starts htxn hstate hpart hlower hruns hengine, doPrepare_yes hvote, Nat.sub_self]
  · simp [exec, execPrepareResume, State.run, State.to, htxn, hpart, hruns, doPrepare_yes hvote]
  · rw [prepare_starts htxn hstate hpart hlower hruns hengine, doPrepare_no hvote, Nat.sub_self]
  · rw [prepare_starts htxn hstate hpart hlower hruns hengine, doPrepare_wait hvote]
  · simp [exec, execLockWaitLimit, State.run, State.to, htxn, hpart, hruns, htime]
  · simp only [exec, execVote, State.run, State.to, htxn, hruns, hstate, hpart, hall]
    rfl
  · simp [exec, execVote, State.run, State.to, htxn, hruns, hstate, hpart]
  · simp only [exec, execVote, State.run, State.to, htxn, hruns, hstate, hpart, hnotall]
    rfl
  · simp [exec, execInstall, State.run, State.to, htxn, hruns, hstate, hpart]
  · simp only [exec, execInstallReport, State.run, State.to, htxn, hruns, hpart, hall]
    rfl
  · simp [exec, execTxnTimeLimit, State.run, State.to, htxn, hruns, hopened, htime]

end Sys2Proof.ClaspSlots
end

section
/-! Transactions of host queues, which hold one slot of Q0 at a time, and the host's accesses through BAR2 (R244 to R256, R413, R415). -/

namespace Sys2Proof.HostTransactions
open Sys2Proof.Machine Sys2Proof.HostQueues Sys2Proof.ClaspSlots Sys2Proof.HbmAccesses

/-! ## A host queue as a master (R9, R243) -/

section
variable (q : Fin 64)

@[simp] theorem masterClass_queue : masterClass (masterId 0 q) = 0 := by
  simp only [masterClass, masterId]
  omega

@[simp] theorem masterIndex_queue : masterIndex (masterId 0 q) = q := by
  simp only [masterIndex, masterId]
  omega

theorem coordinator_queue : coordinator (masterId 0 q) = 0 := by simp [coordinator]

theorem queue_ne_managerId : masterId 0 q ≠ managerId := by
  simp only [masterId, managerId]
  omega

theorem mayOpen_queue : mayOpen (masterId 0 q) = true := by simp [mayOpen, masterExists]

end

section
variable {s : Device} {q : Nat} {c : HostCmd}

/-- The next TXN command of an enabled queue meets the Clasp units while their domain is on. -/
theorem hostRow_hostTxn {op : Nat} (h : s.hostTakes q op c) (hop : op ≠ opMalformed) (hon : s.domainOn 3 = true)
    (f : HostCmd → Device → Device) : s.hostRow q op (fun s c => s.hostTxn q c (f c)) = f c (s.startCmd q c) :=
  (hostRow_of_hostTakes h hop _).trans (if_pos hon)

/-! ## BAR2 (R415) -/

/-- An access of the window that lies in the map, waits for nothing and is performed ends as its operation does. -/
theorem barAccess_of_performed {off : Nat} {op : MemOp} {b : Bytes} {d : Device} (hport : s.domainOn 1 = true) (hruns : s.runs 3 = true)
    (hlen : 0 < op.len) (hwindow : off + op.len ≤ 0x4000000) (hmap : s.mapCheck (s.num O.bar2Base + off) op.len = 0)
    (horder : s.ownWaits barMaster (s.num O.bar2Base + off) op.len = false) (hlocks : s.mustWait (s.num O.bar2Base + off) op none = false)
    (hdone : s.perform (s.num O.bar2Base + off) op = (.ok, b, d)) : s.barAccess off op [] = d.barDone op.writes .ok b := by
  have hmeets : op.meets (s.num O.bar2Base + off) [] = [] := by simp [MemOp.meets, errsPart, errsIn]
  simp [Device.barAccess, hport, hruns, hlen.ne', Nat.not_lt.mpr hwindow, hmap, horder, hlocks, hmeets, hdone]

end

/-- Settles O15: the next TXN command of a queue acts on the slot of Q0 that the queue holds, and an access through BAR2 is performed as a plain
cached one. -/
theorem hostTransactionAndBarCommands : Obligations.HostTransactionAndBarCommands := by
  refine ⟨fun s q c h hon hdue hfrozen hclasp hnone hfree => ?_, fun s q c h hon hok hserved => ?_,
    fun s q c data key t b h hon hsome hline hgate hregion hroom hb => ?_, fun s q c key t h hon hgate hparts => ?_,
    fun s q c key t h hon hdue htxn hopened => ?_, fun s off n hport hruns hlen hwindow hmap horder hlocks hreach => ?_,
    fun s off data hport hruns hlen hwindow hmap horder hlocks hreach => ?_⟩
  · have hslots : (s.dev.startCmd q c).freeSlots (coordinator (masterId 0 q)) ≠ [] := by rwa [coordinator_queue]
    obtain ⟨n, hmem, hopen⟩ := txnOpenOp_of_free hdue (queue_ne_managerId q) (mayOpen_queue q) hfrozen hclasp hnone hslots
    simp only [coordinator_queue, Nat.mul_zero, Nat.zero_add] at hmem hopen
    refine ⟨n, hmem, congrArg s.to ((hostRow_hostTxn h (by decide) hon _).trans ?_)⟩
    simp only [hopen]
    rfl
  · refine congrArg s.to ((hostRow_hostTxn h (by decide) hon _).trans ?_)
    simp only [errsIn, List.filter_nil, ite_self, List.foldl_nil, List.any_nil, hok, hserved]
    rfl
  · refine congrArg s.to ((hostRow_hostTxn h (by decide) hon _).trans ?_)
    have hextent : ¬(decide (leAt c.args 16 2 < 1) || decide (128 < leAt c.args 16 2) ||
        decide (128 < leAt c.args 8 8 % 128 + leAt c.args 16 2)) = true := by
      simp only [Bool.or_eq_true, decide_eq_true_eq]
      omega
    refine (if_neg hextent).trans ?_
    simp only [← hb, txnWrite_of_gate hgate hregion hroom, regionChecked_okay]
    rfl
  · refine congrArg s.to ((hostRow_hostTxn h (by decide) hon _).trans ?_)
    simp only [txnCommitMet_nil, txnCommitOp_of_parts hgate hparts]
    rfl
  · refine congrArg s.to ((hostRow_hostTxn h (by decide) hon _).trans ?_)
    simp only [txnAbortOp_of_opened hdue htxn hopened]
    rfl
  · exact congrArg s.to (barAccess_of_performed hport hruns hlen hwindow hmap horder hlocks (perform_read hreach))
  · exact congrArg s.to (barAccess_of_performed hport hruns hlen hwindow hmap horder hlocks (perform_write hreach))

end Sys2Proof.HostTransactions
end

section
/-! Where an address lies in HBM: the map of the segment table and the relocations of the fences (R267, R268, R287). -/

namespace Sys2Proof.HbmPlaces
open Sys2Proof.Machine Sys2Proof.Laws

/-! ## The healthy pseudo-channels -/

section
variable {all : List Fence} {k p : Nat}

/-- A pseudo-channel that one of the fences 0 to k takes out. -/
def takenBy (all : List Fence) (k p : Nat) : Bool := all.any fun f => decide (f.band ≤ k) && f.p == p

theorem takenBy_iff : takenBy all k p = true ↔ ∃ f ∈ all, f.band ≤ k ∧ f.p = p := by simp [takenBy]

theorem healthy_eq_filter (all : List Fence) (k : Nat) : healthy all k = (List.range 640).filter fun p => !takenBy all k p := rfl

theorem nodup_healthy (all : List Fence) (k : Nat) : (healthy all k).Nodup := List.nodup_range.filter _

theorem mem_healthy : p ∈ healthy all k ↔ p < 640 ∧ ∀ f ∈ all, f.band ≤ k → f.p ≠ p := by simp [healthy_eq_filter, takenBy]

/-- Each fence takes at most one pseudo-channel out. -/
theorem le_length_healthy (all : List Fence) (k : Nat) : 640 ≤ (healthy all k).length + all.length := by
  have hsplit := List.length_eq_length_filter_add (l := List.range 640) (takenBy all k)
  have hsub : (List.range 640).filter (takenBy all k) ⊆ all.map fun f => f.p := by
    intro p hp
    obtain ⟨f, hf, -, hfp⟩ := takenBy_iff.mp (List.mem_filter.mp hp).2
    exact List.mem_map.mpr ⟨f, hf, hfp⟩
  have hcount := ((List.nodup_range.filter (takenBy all k)).subperm hsub).length_le
  rw [List.length_range, ← healthy_eq_filter] at hsplit
  rw [List.length_map] at hcount
  omega

end

/-! ## The target of an item of a fence -/

section
variable {all : List Fence} {f g : Fence} {i j : Nat} (hall : all.length ≤ 2)
include hall

theorem lt_length_healthy (i k : Nat) : i % (healthy all k).length < (healthy all k).length :=
  Nat.mod_lt _ (by have := le_length_healthy all k; omega)

theorem fenceTarget_fst_mem : (fenceTarget all f i).1 ∈ healthy all f.band := by
  have hi := lt_length_healthy hall i f.band
  simp only [fenceTarget, List.getD_eq_getElem _ _ hi]
  exact List.getElem_mem hi

/-- An item's row in the spare band. -/
theorem fenceTarget_snd_bounds : bandBase f.band ≤ (fenceTarget all f i).2 ∧ (fenceTarget all f i).2 ≤ bandBase f.band + i / 638 := by
  have hlen := le_length_healthy all f.band
  have hrow : i / (healthy all f.band).length ≤ i / 638 := Nat.div_le_div_left (by omega) (by omega)
  exact ⟨Nat.le_add_right _ _, Nat.add_le_add_left hrow _⟩

/-- Two items of a fence have different targets: the pseudo-channel gives the remainder, the row the quotient. -/
theorem fenceTarget_inj (h : fenceTarget all f i = fenceTarget all f j) : i = j := by
  have hi := lt_length_healthy hall i f.band
  have hj := lt_length_healthy hall j f.band
  obtain ⟨hpc, hrow⟩ := Prod.mk.injEq .. ▸ h
  rw [List.getD_eq_getElem _ _ hi, List.getD_eq_getElem _ _ hj] at hpc
  have hmod := (nodup_healthy all f.band).getElem_inj_iff.mp hpc
  have hdiv := Nat.add_left_cancel hrow
  rw [← Nat.div_add_mod i (healthy all f.band).length, hmod, hdiv, Nat.div_add_mod]

/-! ## One relocation (R287) -/

variable {pu qv : Nat × Nat}

omit hall in
theorem relocate_of_moved (hs : f.switched.isSome = true) (hp : pu.1 = f.p) : relocate all pu f = fenceTarget all f pu.2 :=
  if_pos (by simp [hs, hp])

omit hall in
theorem relocate_of_stays (h : ¬(f.switched.isSome = true ∧ pu.1 = f.p)) : relocate all pu f = pu := if_neg (by simpa using h)

/-- A relocation merges no two places: what it moves comes to rows that no place below the band had. -/
theorem relocate_inj (hu : pu.2 < bandBase f.band) (hv : qv.2 < bandBase f.band) (h : relocate all pu f = relocate all qv f) : pu = qv := by
  by_cases hpu : f.switched.isSome = true ∧ pu.1 = f.p <;> by_cases hqv : f.switched.isSome = true ∧ qv.1 = f.p
  · rw [relocate_of_moved hpu.1 hpu.2, relocate_of_moved hqv.1 hqv.2] at h
    exact Prod.ext (hpu.2.trans hqv.2.symm) (fenceTarget_inj hall h)
  · rw [relocate_of_moved hpu.1 hpu.2, relocate_of_stays hqv] at h
    have hrow := (fenceTarget_snd_bounds (f := f) (i := pu.2) hall).1
    rw [h] at hrow
    omega
  · rw [relocate_of_stays hpu, relocate_of_moved hqv.1 hqv.2] at h
    have hrow := (fenceTarget_snd_bounds (f := f) (i := qv.2) hall).1
    rw [← h] at hrow
    omega
  · rwa [relocate_of_stays hpu, relocate_of_stays hqv] at h

/-- The fence's own pseudo-channel, once it has switched, and those of earlier bands that the place was not on are avoided. -/
theorem relocate_avoids (hg : g ∈ all) (hband : g.band ≤ f.band) (hpu : pu.1 ≠ g.p ∨ f.switched.isSome = true ∧ f.p = g.p) :
    (relocate all pu f).1 ≠ g.p := by
  by_cases hmove : f.switched.isSome = true ∧ pu.1 = f.p
  · rw [relocate_of_moved hmove.1 hmove.2]
    exact ((mem_healthy.mp (fenceTarget_fst_mem hall)).2 g hg hband).symm
  · rw [relocate_of_stays hmove]
    intro heq
    exact hpu.elim (· heq) fun ⟨hs, hp⟩ => hmove ⟨hs, heq.trans hp.symm⟩

end

/-! ## The relocations in order -/

/-- The rows of a pseudo-channel that places can lie in after n fences: the mapped granules, then a spare band for each. -/
def rowsAfter (n : Nat) : Nat := if n < 2 then bandBase n else 4394531

/-- A place after the fences of a list: on a pseudo-channel, within the rows in use, and on none whose fence has switched. -/
def PlacedAfter (done : List Fence) (pu : Nat × Nat) : Prop :=
  pu.1 < 640 ∧ pu.2 < rowsAfter done.length ∧ ∀ f ∈ done, f.switched.isSome = true → pu.1 ≠ f.p

/-- What R287 says of the fences before one and of its own band. -/
theorem band_of_fencesOk {done rest : List Fence} {f : Fence} (h : fencesOk (done ++ f :: rest) = true) :
    done.length < 2 ∧ f.band = done.length ∧ ∀ g ∈ done, g.band ≤ f.band := by
  simp only [fencesOk, Bool.and_eq_true, decide_eq_true_eq, beq_iff_eq] at h
  obtain ⟨⟨⟨hlen, hbands⟩, -⟩, -⟩ := h
  have hband (i : Nat) (hi : i < (done ++ f :: rest).length) : (done ++ f :: rest)[i].band = i := by
    have := List.getElem_of_eq hbands (i := i) (by simpa using hi)
    rwa [List.getElem_map, List.getElem_range] at this
  have hf : f.band = done.length := by simpa using hband done.length (by simp)
  refine ⟨by simp only [List.length_append, List.length_cons] at hlen; omega, hf, fun g hg => ?_⟩
  obtain ⟨i, hi, rfl⟩ := List.getElem_of_mem hg
  have := hband i (by simp only [List.length_append]; omega)
  rw [List.getElem_append_left hi] at this
  omega

section
variable {all done rest : List Fence} {f : Fence} {pu qv : Nat × Nat}

theorem length_le_of_fencesOk (h : fencesOk all = true) : all.length ≤ 2 := by
  simp only [fencesOk, Bool.and_eq_true, decide_eq_true_eq] at h
  exact h.1.1.1

theorem bandBase_of_fencesOk (h : fencesOk (done ++ f :: rest) = true) : bandBase f.band = rowsAfter done.length := by
  obtain ⟨hlen, hband, -⟩ := band_of_fencesOk h
  rw [hband, rowsAfter, if_pos hlen]

/-- The spare band of a fence holds every place that the earlier fences leave on one pseudo-channel. -/
theorem rowsAfter_succ {n : Nat} (h : n < 2) : rowsAfter n + (rowsAfter n - 1) / 638 < rowsAfter (n + 1) := by
  interval_cases n <;> decide

theorem relocate_placedAfter (hok : fencesOk all = true) (hall : all = done ++ f :: rest) (hpu : PlacedAfter done pu) :
    PlacedAfter (done ++ [f]) (relocate all pu f) := by
  have hlen := length_le_of_fencesOk hok
  have hbase := bandBase_of_fencesOk (hall ▸ hok)
  obtain ⟨hdone, -, hearlier⟩ := band_of_fencesOk (hall ▸ hok)
  obtain ⟨hpc, hrow, havoids⟩ := hpu
  have hspace := rowsAfter_succ hdone
  refine ⟨?_, ?_, fun g hg hs => ?_⟩
  · by_cases hmove : f.switched.isSome = true ∧ pu.1 = f.p
    · rw [relocate_of_moved hmove.1 hmove.2]
      exact (mem_healthy.mp (fenceTarget_fst_mem hlen)).1
    · rwa [relocate_of_stays hmove]
  · rw [List.length_append, List.length_singleton]
    by_cases hmove : f.switched.isSome = true ∧ pu.1 = f.p
    · rw [relocate_of_moved hmove.1 hmove.2]
      have := (fenceTarget_snd_bounds (f := f) (i := pu.2) hlen).2
      omega
    · rw [relocate_of_stays hmove]
      omega
  · rcases List.mem_append.mp hg with hg | hg
    · exact relocate_avoids hlen (by simp [hall, hg]) (hearlier g hg) (.inl (havoids g hg hs))
    · obtain rfl := List.mem_singleton.mp hg
      exact relocate_avoids hlen (by simp [hall]) le_rfl (.inr ⟨hs, rfl⟩)

/-- The fences left to apply lead places after the earlier ones to places after all of them, and merge none. -/
theorem foldl_relocate (hok : fencesOk all = true) (hall : all = done ++ rest) (hpu : PlacedAfter done pu) (hqv : PlacedAfter done qv) :
    PlacedAfter all (rest.foldl (relocate all) pu) ∧ (rest.foldl (relocate all) pu = rest.foldl (relocate all) qv → pu = qv) := by
  induction rest generalizing done pu qv with
  | nil =>
    rw [List.append_nil] at hall
    exact ⟨hall ▸ hpu, id⟩
  | cons f rest ih =>
    have hnext : all = (done ++ [f]) ++ rest := by simpa using hall
    obtain ⟨hplaced, hinj⟩ := ih hnext (relocate_placedAfter hok hall hpu) (relocate_placedAfter hok hall hqv)
    have hbase := bandBase_of_fencesOk (hall ▸ hok)
    exact ⟨hplaced, fun h => relocate_inj (length_le_of_fencesOk hok) (hbase ▸ hpu.2.1) (hbase ▸ hqv.2.1) (hinj h)⟩

end

/-! ## The place of an address (R268) -/

section
variable {s : Device} {a b : Nat} {g h : Seg}

theorem finalOf_of_segOf (ha : s.segOf a = some g) : s.finalOf a = s.finalPlace (g.place a).1 (g.place a).2.1 := by
  simp only [Device.finalOf, ha]

/-- A place of the segment table is one before every fence. -/
theorem place_placedAfter (hok : segsOk s.mem.segs = true) (ha : s.segOf a = some g) :
    PlacedAfter [] ((g.place a).1, (g.place a).2.1) ∧ (g.place a).2.2 = a % 256 := by
  obtain ⟨hmem, hlo, hhi⟩ := segOf_some ha
  obtain ⟨-, hrows, -, hpcs, -, -⟩ := Seg.ok_bounds (segsOk_mem hok hmem)
  obtain ⟨⟨-, hpc⟩, ⟨-, hrow⟩, hbyte⟩ := Seg.place_in (segsOk_mem hok hmem) ⟨hlo, hhi⟩
  exact ⟨⟨hpc.trans_le hpcs, hrow.trans_le hrows, nofun⟩, hbyte⟩

/-- The relocations of two addresses: a legal place, and one place for one address. -/
theorem finalOf_placedAfter (hsegs : segsOk s.mem.segs = true) (hfences : fencesOk s.mem.fences = true) (ha : s.segOf a = some g)
    (hb : s.segOf b = some h) : PlacedAfter s.mem.fences (s.finalOf a) ∧ (s.finalOf a = s.finalOf b → a % 256 = b % 256 → a = b) := by
  obtain ⟨hpa, hbytea⟩ := place_placedAfter hsegs ha
  obtain ⟨hpb, hbyteb⟩ := place_placedAfter hsegs hb
  obtain ⟨hplaced, hinj⟩ := foldl_relocate hfences (List.nil_append _).symm hpa hpb
  rw [finalOf_of_segOf ha, finalOf_of_segOf hb]
  refine ⟨hplaced, fun hfinal hbyte => place_apart hsegs ha hb ?_⟩
  obtain ⟨hpc, hrow⟩ := Prod.mk.injEq .. ▸ hinj hfinal
  exact Prod.ext hpc (Prod.ext hrow (hbytea.trans (hbyte.trans hbyteb.symm)))

end

theorem rowsAfter_le (n : Nat) : rowsAfter n ≤ 4394531 := by
  unfold rowsAfter bandBase
  split_ifs <;> omega

/-- Settles O52: the fences, applied in order to the places of the segment table, keep them apart and off the switched pseudo-channels. -/
theorem noSharedPlace : Obligations.NoSharedPlace := by
  intro s a b hsegs hfences ha hb
  obtain ⟨g, hg⟩ := Option.isSome_iff_exists.mp ha
  obtain ⟨h, hh⟩ := Option.isSome_iff_exists.mp hb
  obtain ⟨⟨hpc, hrow, havoids⟩, hinj⟩ := finalOf_placedAfter hsegs hfences hg hh
  exact ⟨hinj, hpc, hrow.trans_le (rowsAfter_le _), havoids⟩

/-- Settles O53: the three modes of Table R268. -/
theorem translation : Obligations.Translation := by
  intro s a g hg
  have hfinal := finalOf_of_segOf hg
  refine ⟨fun hmode => ?_, fun hmode => ?_, fun hmode => ?_, rfl⟩ <;> simp only [hfinal, Seg.place, hmode]

end Sys2Proof.HbmPlaces
end

section
/-! The symbol code of a codeword of HBM (R273, R274). -/

namespace Sys2Proof.SymbolCodes
open Sys2Proof.Machine

/-! ## Products in GF(16) -/

theorem gmul_zero (v : Nat) (hv : v < 16) : gmul v 0 = 0 := by decide +revert
theorem gmul_one (v : Nat) (hv : v < 16) : gmul v 1 = v := by decide +revert
theorem gmul_eight_comm (v : Nat) (hv : v < 16) : gmul v 8 = gmul 8 v := by decide +revert
theorem gmul_lt (v : Nat) (hv : v < 16) (x : Nat) (hx : x < 16) : gmul v x < 16 := by decide +revert

/-- A product divided by one factor, not zero, is the other. -/
theorem gmul_gmul_ginv (v : Nat) (hv : v < 16) (hne : v ≠ 0) (x : Nat) (hx : x < 16) : gmul (gmul v x) (ginv v) = x := by decide +revert

/-! ## Columns and syndromes -/

/-- The four parts of a column or a syndrome are elements of GF(16). -/
def InField (c : Nat × Nat × Nat × Nat) : Prop := c.1 < 16 ∧ c.2.1 < 16 ∧ c.2.2.1 < 16 ∧ c.2.2.2 < 16

theorem inField_column (k : Nat) (hk : k < 36) : InField (column k) := by unfold InField; decide +revert

theorem colMul_inField {v : Nat} {c : Nat × Nat × Nat × Nat} (hv : v < 16) (hc : InField c) : InField (colMul v c) :=
  ⟨gmul_lt v hv _ hc.1, gmul_lt v hv _ hc.2.1, gmul_lt v hv _ hc.2.2.1, gmul_lt v hv _ hc.2.2.2⟩

theorem colAdd_inField {a b : Nat × Nat × Nat × Nat} (ha : InField a) (hb : InField b) : InField (colAdd a b) := by
  obtain ⟨ha₀, ha₁, ha₂, ha₃⟩ := ha
  obtain ⟨hb₀, hb₁, hb₂, hb₃⟩ := hb
  exact ⟨Nat.xor_lt_two_pow (n := 4) ha₀ hb₀, Nat.xor_lt_two_pow (n := 4) ha₁ hb₁, Nat.xor_lt_two_pow (n := 4) ha₂ hb₂,
    Nat.xor_lt_two_pow (n := 4) ha₃ hb₃⟩

theorem colAdd_assoc (a b c : Nat × Nat × Nat × Nat) : colAdd (colAdd a b) c = colAdd a (colAdd b c) := by
  simp only [colAdd, Nat.xor_assoc]

theorem zero_colAdd (a : Nat × Nat × Nat × Nat) : colAdd (0, 0, 0, 0) a = a := by simp only [colAdd, Nat.zero_xor]
theorem colAdd_zero (a : Nat × Nat × Nat × Nat) : colAdd a (0, 0, 0, 0) = a := by simp only [colAdd, Nat.xor_zero]

theorem foldl_colAdd (c : Nat × Nat × Nat × Nat) (e : List (Nat × Nat)) :
    e.foldl (fun a p => colAdd a (colMul p.2 (column p.1))) c = colAdd c (syndrome e) := by
  induction e generalizing c with
  | nil => exact (colAdd_zero c).symm
  | cons p e ih =>
    have hcons : syndrome (p :: e) = colAdd (colMul p.2 (column p.1)) (syndrome e) := (ih _).trans (congrArg (colAdd · (syndrome e)) (zero_colAdd _))
    rw [List.foldl_cons, ih, hcons, colAdd_assoc]

@[simp] theorem syndrome_nil : syndrome [] = (0, 0, 0, 0) := rfl

@[simp] theorem syndrome_cons (p : Nat × Nat) (e : List (Nat × Nat)) :
    syndrome (p :: e) = colAdd (colMul p.2 (column p.1)) (syndrome e) :=
  (foldl_colAdd _ e).trans (congrArg (colAdd · (syndrome e)) (zero_colAdd _))

/-- The code is linear: the syndrome of two patterns together is the sum of theirs. -/
theorem syndrome_append (e f : List (Nat × Nat)) : syndrome (e ++ f) = colAdd (syndrome e) (syndrome f) :=
  List.foldl_append.trans (foldl_colAdd _ f)

theorem syndrome_inField {e : List (Nat × Nat)} (h : ∀ p ∈ e, p.1 < 36 ∧ p.2 < 16) : InField (syndrome e) := by
  induction e with
  | nil => unfold InField; decide
  | cons p e ih =>
    obtain ⟨hp, he⟩ := List.forall_mem_cons.mp h
    rw [syndrome_cons]
    exact colAdd_inField (colMul_inField hp.2 (inField_column _ hp.1)) (ih he)

/-! ## The check symbols of a value -/

/-- The 32 data symbols of a 128-bit value. -/
def dataSymbols (d : Nat) : List (Nat × Nat) := (List.range 32).map fun k => (k, bits d (4 * k + 3) (4 * k))

/-- The four check symbols of 16 check bits. -/
def checkSymbols (c : Nat) : List (Nat × Nat) := (List.range 4).map fun i => (32 + i, bits c (4 * i + 3) (4 * i))

theorem bits_nibble (v i : Nat) : bits v (4 * i + 3) (4 * i) = v / 16 ^ i % 16 := by
  rw [bits, show 4 * i + 3 + 1 - 4 * i = 4 by omega, Nat.pow_mul]
  rfl

theorem dataSymbols_inField (d : Nat) : InField (syndrome (dataSymbols d)) := by
  refine syndrome_inField fun p hp => ?_
  obtain ⟨k, hk, rfl⟩ := List.mem_map.mp hp
  rw [bits_nibble]
  exact ⟨by rw [List.mem_range] at hk; omega, Nat.mod_lt _ (by omega)⟩

theorem checkSymbols_of_nibbles {c₀ c₁ c₂ c₃ : Nat} (h₀ : c₀ < 16) (h₁ : c₁ < 16) (h₂ : c₂ < 16) (h₃ : c₃ < 16) :
    checkSymbols (c₀ + 16 * c₁ + 256 * c₂ + 4096 * c₃) = [(32, c₀), (33, c₁), (34, c₂), (35, c₃)] := by
  have hnibbles : checkSymbols (c₀ + 16 * c₁ + 256 * c₂ + 4096 * c₃) = _ := List.map_congr_left fun i _ => by rw [bits_nibble]
  rw [hnibbles]
  simp only [List.range_succ, List.range_zero, List.nil_append, List.cons_append, List.map_cons, List.map_nil, List.cons.injEq, Prod.mk.injEq,
    true_and, and_true]
  omega

/-- The syndrome of check symbols alone (R273). -/
theorem syndrome_checks {c₀ c₁ c₂ c₃ : Nat} (h₀ : c₀ < 16) (h₁ : c₁ < 16) (h₂ : c₂ < 16) (h₃ : c₃ < 16) :
    syndrome [(32, c₀), (33, c₁), (34, c₂), (35, c₃)] = (c₀ ^^^ c₂ ^^^ c₃, c₁ ^^^ c₂ ^^^ gmul 8 c₃, c₂, c₃) := by
  simp [column, colMul, colAdd, gmul_zero, gmul_one, gmul_eight_comm, h₀, h₁, h₂, h₃, Nat.xor_assoc]

theorem checkBits_of_syndrome {d v₀ v₁ v₂ v₃ : Nat} (hv : syndrome (dataSymbols d) = (v₀, v₁, v₂, v₃)) :
    checkBits d = (v₀ ^^^ v₂ ^^^ v₃) + 16 * (v₁ ^^^ v₂ ^^^ gmul 8 v₃) + 256 * v₂ + 4096 * v₃ := by
  rw [dataSymbols] at hv
  simp only [checkBits, hv]

/-- Adding two terms twice changes nothing. -/
theorem xor_twice (a b c : Nat) : a ^^^ (a ^^^ b ^^^ c ^^^ b ^^^ c) = 0 := by
  rw [Nat.xor_right_comm (a ^^^ b) c b, Nat.xor_xor_cancel_right, Nat.xor_xor_cancel_right, Nat.xor_self]

/-- The check symbols that R274 gives bring the syndrome to 0. -/
theorem syndrome_codeword (d : Nat) : syndrome (dataSymbols d ++ checkSymbols (checkBits d)) = (0, 0, 0, 0) := by
  rcases hv : syndrome (dataSymbols d) with ⟨v₀, v₁, v₂, v₃⟩
  obtain ⟨h₀, h₁, h₂, h₃⟩ : InField (v₀, v₁, v₂, v₃) := hv ▸ dataSymbols_inField d
  have hc₀ := Nat.xor_lt_two_pow (n := 4) (Nat.xor_lt_two_pow (n := 4) h₀ h₂) h₃
  have hc₁ := Nat.xor_lt_two_pow (n := 4) (Nat.xor_lt_two_pow (n := 4) h₁ h₂) (gmul_lt 8 (by decide) v₃ h₃)
  rw [syndrome_append, hv, checkBits_of_syndrome hv, checkSymbols_of_nibbles hc₀ hc₁ h₂ h₃, syndrome_checks hc₀ hc₁ h₂ h₃]
  simp only [colAdd, xor_twice, Nat.xor_self]

/-! ## An error of one symbol -/

/-- Every column but that of check 1 is a point of the quadric, scaled to 1, that names its symbol. -/
theorem column_on_quadric (k : Nat) (hk : k < 36) (hne : k ≠ 33) :
    (column k).1 = 1 ∧ (column k).2.1 = gquad (column k).2.2.1 (column k).2.2.2 ∧ symbolAt (column k).2.2.1 (column k).2.2.2 = some k := by
  decide +revert

theorem syndrome_singleton (k v : Nat) : syndrome [(k, v)] = colMul v (column k) := by rw [syndrome_cons, syndrome_nil, colAdd_zero]

/-- A multiple of a point of the quadric is decoded as the point's symbol and the factor. -/
theorem decodeSyndrome_quadric {k v x y : Nat} (hv : v < 16) (hne : v ≠ 0) (hc : InField (1, gquad x y, x, y))
    (hsym : symbolAt x y = some k) : decodeSyndrome (colMul v (1, gquad x y, x, y)) = .correct k v := by
  obtain ⟨-, hq, hx, hy⟩ := hc
  simp [decodeSyndrome, colMul, gmul_one v hv, hne, gmul_gmul_ginv v hv hne, hq, hx, hy, hsym]

/-- An error of check 1 leaves the first part 0 and the last two. -/
theorem decodeSyndrome_check_one {v : Nat} (hv : v < 16) (hne : v ≠ 0) : decodeSyndrome (colMul v (column 33)) = .correct 33 v := by
  simp [decodeSyndrome, colMul, column, gmul_zero v hv, gmul_one v hv, hne]

/-- Settles O54. -/
theorem symbolCode : Obligations.SymbolCode := by
  refine ⟨syndrome_codeword, fun k v hk hpos hv => ?_⟩
  have hne : v ≠ 0 := by omega
  rw [syndrome_singleton]
  by_cases h33 : k = 33
  · rw [h33]
    exact decodeSyndrome_check_one hv hne
  · obtain ⟨hone, hquad, hsym⟩ := column_on_quadric k hk h33
    have hcol : column k = (1, gquad (column k).2.2.1 (column k).2.2.2, (column k).2.2.1, (column k).2.2.2) := Prod.ext hone (Prod.ext hquad rfl)
    have hfield := inField_column k hk
    rw [hcol] at hfield ⊢
    exact decodeSyndrome_quadric hv hne hfield hsym

end Sys2Proof.SymbolCodes
end

section
/-! What an access to HBM changes and what it leaves: the bytes it stores, and nothing else of any memory (R278, R279, R281). -/

namespace Sys2Proof.HbmFrames
open Sys2Proof.Machine Sys2Proof.Laws

/-- From one device to the next no byte of a memory changes but the k at a of HBM. -/
def Frame (s t : Device) (a k : Nat) : Prop :=
  (∀ x, ¬(a ≤ x ∧ x < a + k) → t.hbmByte x = s.hbmByte x) ∧ t.mem.cm = s.mem.cm ∧ t.mem.clm = s.mem.clm

/-- The bytes b at a of HBM are those given, and no other byte of a memory changes. -/
def Writes (s t : Device) (a : Nat) (b : Bytes) : Prop :=
  (∀ x, a ≤ x → x < a + b.length → t.hbmByte x = b.getD (x - a) 0) ∧ Frame s t a b.length

section
variable {s d t : Device} {m a k : Nat} {b v : Bytes}

theorem unchanged_of_same (h : SameBytes s t) : (∀ x, t.hbmByte x = s.hbmByte x) ∧ t.mem.cm = s.mem.cm ∧ t.mem.clm = s.mem.clm := by
  obtain ⟨-, -, hcm, hclm⟩ := id h
  exact ⟨h.byte, hcm, hclm⟩

theorem frame_of_same (h : SameBytes s t) : Frame s t a k := by
  obtain ⟨hbytes, hcores⟩ := unchanged_of_same h
  exact ⟨fun x _ => hbytes x, hcores⟩

/-- Steps that change no byte, before and after a write of bytes, leave it that write. -/
theorem writes_of_hbmPut (hok : segsOk s.mem.segs = true) (hd : SameBytes s d) (ht : SameBytes (d.hbmPut a b) t) : Writes s t a b := by
  obtain ⟨-, hcm, hclm⟩ := hbmPut_parts d a b
  obtain ⟨-, hsegs, hcmd, hclmd⟩ := id hd
  obtain ⟨-, -, hcmt, hclmt⟩ := id ht
  have hput := hbmByte_hbmPut (hsegs ▸ hok) a b
  refine ⟨fun x hlo hhi => ?_, fun x hx => ?_, hcmt.trans (hcm.trans hcmd), hclmt.trans (hclm.trans hclmd)⟩
  · rw [ht.byte, hput, if_pos ⟨hlo, hhi⟩]
  · rw [ht.byte, hput, if_neg hx, hd.byte]

/-- A committed write, checked against the lines that conservation protects, and answered. -/
theorem writes_of_stored (hok : segsOk s.mem.segs = true) (hd : SameBytes s d) :
    Writes s (((d.stored a k b).outsideWrite m a k).answer m .ok v) a b :=
  writes_of_hbmPut hok (hd.trans (doomRange_same ..)) ((clearLost_same ..).trans ((outsideWrite_same ..).trans (answer_same ..)))

/-- The step at the home die that an atomic begins with: its lines in the cache, its operation counted. -/
theorem touched_same (s : Device) (a n o c : Nat) (w r : Bool) : SameBytes s ((s.cacheTouch a n w r).bump o c) :=
  (cacheTouch_same ..).trans (bump_same ..)

theorem atomic_frame (hok : segsOk s.mem.segs = true) (hd : SameBytes s d) (hb : b.length = k) :
    Frame s (((d.stored a k b).outsideWrite m a k).answer m .ok v) a k := by
  subst hb
  exact (writes_of_stored hok hd).2

end

/-- A command's next state is the one its rule writes out. -/
theorem dev_of_exec {c : Instr} {s t : State} {d : Device} (hd : exec c s = s.to d) (ht : exec c s = .next t) : t.dev = d := by
  rw [hd] at ht
  cases ht
  rfl

/-- What an operation stores of n elements of k bytes is k * n bytes long. -/
theorem length_elements (f : Nat → Nat → Nat) (d : Device) (a k : Nat) {n : Nat} {vals : List Nat} (hn : vals.length = n) :
    (((d.elems a k n).zip vals).flatMap fun p => leBytes k (f p.1 p.2)).length = k * n := by
  simp [List.length_flatMap, Device.elems, hn, Nat.mul_comm]

/-- Settles O55: each access is the next state that its rule writes out (R278 to R281); only the bytes it stores differ there. -/
theorem storeFrame : Obligations.StoreFrame := by
  obtain ⟨hread, hwrite, hfetchAdd, hcas, hcasKeeps, hfadd, hmax, hmin, hcopy, huncachedRead, huncachedWrite, -⟩ := HbmAccesses.memoryAccesses
  intro s t m a errs hok
  refine ⟨fun n h e => ?_, fun data h e => ?_, fun n ⟨hmaster, hfrozen, hon, hruns, hmap, hregion, hmeets, hreach⟩ e => ?_,
    fun n data ⟨hmaster, hfrozen, hon, hruns, hmap, hregion, hmeets, hreach⟩ e => ?_, fun wide v h e => ?_, fun wide cmp new h e => ?_,
    fun ty vals h e => ?_, fun ty vals h e => ?_, fun ty vals h e => ?_, fun src h hmap hsource e => ?_⟩
  · rw [dev_of_exec (hread s m a n errs h) e]
    exact unchanged_of_same ((cacheTouch_same ..).trans (answer_same ..))
  · rw [dev_of_exec (hwrite s m a data errs h) e]
    exact writes_of_stored hok (cacheTouch_same ..)
  · rw [dev_of_exec (huncachedRead s m a n errs hmaster hfrozen hon hruns hmap hregion hmeets hreach) e]
    exact unchanged_of_same ((bump_same ..).trans (answer_same ..))
  · rw [dev_of_exec (huncachedWrite s m a n data errs hmaster hfrozen hon hruns hmap hregion hmeets hreach) e]
    exact writes_of_hbmPut hok (bump_same ..) ((clearLost_same ..).trans ((dirtyHit_same ..).trans (answer_same ..)))
  · rw [dev_of_exec (hfetchAdd s m a wide v errs h) e]
    exact atomic_frame hok (touched_same ..) (Layouts.length_leBytes ..)
  · by_cases heq : leNat ((s.dev.cacheTouch a.toNat (if wide then 8 else 4) true true).cachedGet a.toNat (if wide then 8 else 4)) =
      (if wide then cmp.toNat else cmp.toNat % 4294967296)
    · rw [dev_of_exec (hcas s m a wide cmp new errs h heq) e]
      exact atomic_frame hok (touched_same ..) (Layouts.length_leBytes ..)
    · rw [dev_of_exec (hcasKeeps s m a wide cmp new errs h heq) e]
      exact frame_of_same ((touched_same ..).trans ((outsideWrite_same ..).trans (answer_same ..)))
  · rw [dev_of_exec (hfadd s m a ty vals errs h) e]
    exact atomic_frame hok (touched_same ..) (length_elements (elemAdd ty.val) _ _ _ (List.length_map _))
  · rw [dev_of_exec (hmax s m a ty vals errs h) e]
    exact atomic_frame hok (touched_same ..) (length_elements (elemPick ty.val true) _ _ _ (List.length_map _))
  · rw [dev_of_exec (hmin s m a ty vals errs h) e]
    exact atomic_frame hok (touched_same ..) (length_elements (elemPick ty.val false) _ _ _ (List.length_map _))
  · rw [dev_of_exec (hcopy s m a src errs h hmap hsource) e]
    exact atomic_frame hok ((cacheTouch_same ..).trans (touched_same ..)) (cachedGet_length ..)

end Sys2Proof.HbmFrames
end

section
/-! Refresh, retraining, fences, patrol scrub and the segment table (R267, R277, R284 to R289). -/

namespace Sys2Proof.HbmUnitCommands
open Sys2Proof.Machine Sys2Proof.Laws

section
variable {d : Device} {p : Nat}

/-- A trigger enters the line of its die behind the triggers that come before it (R285). -/
theorem trigger_of_normal {a b : List (Nat × Nat)} (hst : d.pcSt p = 0) (hwaiting : d.retrainWaiting (p / 160) = a ++ b)
    (hnew : ∀ x ∈ a ++ b, x.1 ≠ p) (ha : ∀ x ∈ a, x.2 < d.uptime ∨ x.1 < p) (hb : ∀ x ∈ b, d.uptime ≤ x.2 ∧ p ≤ x.1) :
    d.trigger p = d.setRetrainWaiting (p / 160) (a ++ [(p, d.uptime)] ++ b) := by
  have hmerged : ((a ++ b).any fun x => x.1 == p) = false := List.any_eq_false.mpr fun x hx => by simpa using hnew x hx
  have hbefore : (a ++ b).filter (fun x => decide (x.2 < d.uptime) || decide (x.1 < p)) = a := by
    rw [List.filter_append, List.filter_eq_self.mpr (fun x hx => by simpa using ha x hx),
      List.filter_eq_nil_iff.mpr (fun x hx => by simpa using hb x hx), List.append_nil]
  have hafter : (a ++ b).filter (fun x => !(decide (x.2 < d.uptime) || decide (x.1 < p))) = b := by
    rw [List.filter_append, List.filter_eq_nil_iff.mpr (fun x hx => by simpa [or_iff_not_imp_left] using ha x hx),
      List.filter_eq_self.mpr (fun x hx => by simpa using hb x hx), List.nil_append]
  simp only [Device.trigger, hwaiting, hst, hmerged, hbefore, hafter, ne_eq, not_true_eq_false, decide_false, Bool.or_self, Bool.false_eq_true,
    if_false]

/-- A written segment table that R267 accepts is stored whole, and taken at once in the hold of R462. -/
theorem segTableWrite_of_ok {v : Bytes} (hstate : d.inSafe = true ∨ d.startupCode = suConfigure) (hok : segTableOk v = true) :
    d.segTableWrite v = (let e : Device := (d.setBytes O.segmentTable v).setNum O.segmentCount (beAt v 0 2)
      (if e.domainOn 3 && e.startup.holding then { e with mem := { e.mem with segs := e.segTable } } else e).okay) := by
  have hwhen : ¬(d.startupCode != suConfigure && !d.inSafe) = true := by
    rcases hstate with h | h <;> simp [h]
  rw [Device.segTableWrite, if_neg hwhen, if_neg (by simp [hok])]

end

/-- Settles O29: each command meets the guard of its row and does what the row says. That a pseudo-channel's 1,125,000,000 bytes leave service
already when its fence begins is the model's choice (log entry 82, beside R290). -/
theorem refreshRetrainAndFences : Obligations.RefreshRetrainAndFences := by
  refine ⟨fun s k hruns => ?_, fun s p hruns hdue => ?_, fun s k temp hruns => ?_, fun s p rate hruns hrate => ?_,
    fun _ _ _ _ => trigger_of_normal, fun s q p w r hruns hnone hfirst => ?_, fun s q p t hnow hruns hin => ?_, fun s q p t hnow hruns hlate => ?_,
    fun d p addr cause hfencing hfenced hdead hband => ?_, fun s k f hf hruns hlive hcopy hearlier => ?_,
    fun s k lost f hf hruns hlive hcopy hlocked hroom => ?_, fun s p u errs hruns hrow hst hdone => ?_, fun s v haccept hstate hok => ?_⟩
  · exact congrArg s.to (if_pos hruns)
  · exact congrArg s.to (if_pos (by simp [hruns, hdue]))
  · exact congrArg s.to (if_pos hruns)
  · exact congrArg s.to (if_pos (by simp [hruns, hrate]))
  · simp [exec, execRetrainStart, State.to, hruns, hnone, hfirst]
  · simp [exec, execRetrainSuccess, State.to, hnow, hruns, hin]
  · simp [exec, execRetrainTimeout, State.to, hnow, hruns, hlate]
  · simp [Device.failPc, hfencing, hfenced, hdead, Nat.not_le.mpr hband]
  · have hfirst : (s.dev.mem.fences.all fun g => decide (f.band ≤ g.band) || !g.live) = true :=
      List.all_eq_true.mpr fun g hg => by simpa using hearlier g hg
    simp only [exec, execFenceCopyStart, run_eq, State.to, hf, hruns, hlive, hcopy, hfirst, Bool.and_self, Bool.not_false, if_true]
  · simp [exec, execFenceCopyEnd, State.to, hf, hruns, hlive, hcopy, hlocked, Nat.not_lt.mpr hroom]
  · exact congrArg s.to (if_pos (by simp [hruns, hrow, hst, hdone]))
  · refine ownWrite_ok haccept ?_
    rw [segTableWrite_of_ok hstate hok]
    rfl

end Sys2Proof.HbmUnitCommands
end

section
/-! What every command, every step and every run does: an answer, the queue left alone, the flash left alone but by four commands (R467, R510). -/

namespace Sys2Proof.Steps
open Sys2Proof.Machine Sys2Proof.Laws

section
variable {s t : State} {c : Instr} {rest : List Instr}

/-- A step with a command waiting runs the command at the front of the queue. -/
theorem step_of_pending_cons (h : s.pending = c :: rest) : step s = exec c { s with pending := rest } := by simp [step, h]

/-! ## The four commands of the flash -/

theorem eq_of_touchesFlash (h : c.touchesFlash = true) :
    (∃ ok, c = .flashOpComplete ok) ∨ c = .sysRstNAssert ∨ c = .vddAonLoss ∨ c = .warmResetBegin := by
  unfold Instr.touchesFlash at h
  split at h
  · exact .inl ⟨_, rfl⟩
  · exact .inr (.inl rfl)
  · exact .inr (.inr (.inl rfl))
  · exact .inr (.inr (.inr rfl))
  · cases h

/-- A restart answers, and leaves the queue alone. -/
theorem restart_answers (s : State) (f : Device → Device) (q : List Instr) :
    ∃ d fl, s.restart f = .next { dev := d, flash := fl, pending := s.pending } ∧
      State.restart { s with pending := q } f = .next { dev := d, flash := fl, pending := q } := by
  simp only [State.restart]
  cases s.dev.startup.flashOp with
  | none => exact ⟨_, _, rfl, rfl⟩
  | some op => exact ⟨_, _, rfl, rfl⟩

/-- A command answers a next state, with the queue left alone. -/
theorem exec_answers (c : Instr) (s : State) (q : List Instr) :
    ∃ d fl, exec c s = .next { dev := d, flash := fl, pending := s.pending } ∧
      exec c { s with pending := q } = .next { dev := d, flash := fl, pending := q } := by
  cases h : c.touchesFlash with
  | false =>
    obtain ⟨d, hs, hq⟩ := exec_run c h s
    exact ⟨d, s.flash, hs, hq q⟩
  | true =>
    obtain ⟨ok, rfl⟩ | rfl | rfl | rfl := eq_of_touchesFlash h
    · exact ⟨_, _, rfl, rfl⟩
    · exact restart_answers s _ q
    · exact restart_answers s _ q
    · simp only [exec, execWarmResetBegin]
      split
      · exact restart_answers s _ q
      · exact ⟨_, _, rfl, rfl⟩

theorem exec_pending (h : exec c s = .next t) : t.pending = s.pending := by
  obtain ⟨d, fl, hs, -⟩ := exec_answers c s []
  cases hs.symm.trans h
  rfl

/-- Any other command leaves the flash alone. -/
theorem exec_flash_of_not_touchesFlash (hc : c.touchesFlash = false) (h : exec c s = .next t) : t.flash = s.flash := by
  obtain ⟨d, hs, -⟩ := exec_run c hc s
  cases hs.symm.trans h
  rfl

/-- A command keeps the canonical form of the flash. -/
theorem exec_flashWf (hs : flashWf s.flash = true) (h : exec c s = .next t) : flashWf t.flash = true := by
  cases hc : c.touchesFlash with
  | false => rw [exec_flash_of_not_touchesFlash hc h]; exact hs
  | true => exact (exec_flash hc hs h).1

end

/-! ## Runs -/

theorem step_answers (s : State) : ∃ t, step s = .next t := by
  cases h : s.pending with
  | nil => exact ⟨_, Scope.step_of_pending_nil h⟩
  | cons c rest =>
    obtain ⟨d, fl, hs, -⟩ := exec_answers c { s with pending := rest } []
    exact ⟨_, (step_of_pending_cons h).trans hs⟩

theorem run_answers (k : Nat) (s : State) : ∃ t, Host.Core.run ⟨State, Fault, Refusal, step, State.reset⟩ k s = .next t := by
  induction k generalizing s with
  | zero => exact ⟨s, rfl⟩
  | succ k ih =>
    obtain ⟨t, ht⟩ := step_answers s
    simp only [Host.Core.run, ht]
    exact ih t

/-! ## The obligations -/

/-- Settles O42: the queue loses its first command alone, and each command keeps the form of the flash. -/
theorem invStep : Obligations.InvStep := by
  rintro s t ⟨hflash, hqueue⟩ h
  cases hp : s.pending with
  | nil =>
    cases (Scope.step_of_pending_nil hp).symm.trans h
    exact ⟨hflash, hqueue⟩
  | cons c rest =>
    rw [step_of_pending_cons hp] at h
    rw [hp, List.all_cons, Bool.and_eq_true] at hqueue
    exact ⟨exec_flashWf (s := { s with pending := rest }) hflash h, (exec_pending h).symm ▸ hqueue.2⟩

/-- Settles O43. -/
theorem queueAndOutcome : Obligations.QueueAndOutcome := exec_answers

/-- Settles O44. -/
theorem runsAreSafe : Obligations.RunsAreSafe := fun s _ k _ => run_answers k s

/-- Settles O45. -/
theorem flashFrame : Obligations.FlashFrame := by
  intro c s t h
  cases hc : c.touchesFlash with
  | false => exact .inl (exec_flash_of_not_touchesFlash hc h)
  | true => exact .inr rfl

/-- Settles O39. -/
theorem stepRunsFront : Obligations.StepRunsFront := fun _ _ _ => step_of_pending_cons

end Sys2Proof.Steps
end

section
/-! The motion window of an encoder as it slides along a row, and the vectors that it admits (R371). -/

namespace Sys2Proof.MotionWindows
open Sys2Proof.Machine Sys2Proof.Laws

/-! ## Sliding -/

section
variable (r : RefPic) (k cx cy : Nat)

/-- The window of the next superblock begins a step further right. -/
theorem winX_succ : winX k (cx + 1) = winX k cx + winStep k := by
  unfold winX winStep
  split <;> push_cast <;> ring

/-- Columns of the next superblock's window are those a step further right in this one's. -/
theorem columns_succ (a n : Nat) : r.columns k (cx + 1) cy a n = r.columns k cx cy (winStep k + a) n := by
  have hplace (i : Nat) : winX k (cx + 1) + (a + i : Nat) = winX k cx + (winStep k + a + i : Nat) := by
    rw [winX_succ]; push_cast; ring
  simp only [RefPic.columns, hplace]

/-- Columns side by side. -/
theorem columns_append (a m n : Nat) : r.columns k cx cy a m ++ r.columns k cx cy (a + m) n = r.columns k cx cy a (m + n) := by
  simp [RefPic.columns, List.range_add, Function.comp_def, Nat.add_assoc]

/-- Columns but the leftmost. -/
theorem columns_drop (a m n : Nat) : (r.columns k cx cy a (m + n)).drop m = r.columns k cx cy (a + m) n := by
  rw [← columns_append]
  exact List.drop_left' (by simp [RefPic.columns])

/-- A plane without its leftmost columns and with as many loaded on the right is the plane of the next superblock. -/
theorem columns_slide {w : Nat} (h : winStep k ≤ w) :
    (r.columns k cx cy 0 w).drop (winStep k) ++ r.columns k (cx + 1) cy (w - winStep k) (winStep k) = r.columns k (cx + 1) cy 0 w := by
  obtain ⟨n, rfl⟩ := Nat.exists_eq_add_of_le h
  calc (r.columns k cx cy 0 (winStep k + n)).drop (winStep k) ++ r.columns k (cx + 1) cy (winStep k + n - winStep k) (winStep k)
    _ = r.columns k (cx + 1) cy 0 n ++ r.columns k (cx + 1) cy (0 + n) (winStep k) := by
        rw [columns_drop, columns_succ r k cx cy 0, Nat.add_sub_cancel_left, Nat.zero_add, Nat.zero_add, Nat.add_zero (winStep k)]
    _ = r.columns k (cx + 1) cy 0 (winStep k + n) := by rw [columns_append, Nat.add_comm n]

theorem winStep_le_winW : winStep k ≤ winW k := by
  unfold winStep winW
  split <;> omega

/-- A step from a window loaded whole gives the next one loaded whole. -/
theorem slide_load : r.slide (r.load cx cy) = r.load (cx + 1) cy := by
  have hplane (k : Nat) (hk : k ∈ List.range 3) :
      ((r.load cx cy).planes.getD k []).drop (winStep k) ++ r.columns k (cx + 1) cy (winW k - winStep k) (winStep k) =
        r.columns k (cx + 1) cy 0 (winW k) := by
    rw [← columns_slide r k cx cy (winStep_le_winW k)]
    simp [RefPic.load, List.getD_eq_getElem?_getD, List.mem_range.mp hk]
  simpa [RefPic.slide, RefPic.load] using hplane

end

/-- Settles O56, by induction on the steps along the row. -/
theorem motionWindowSlides : Obligations.MotionWindowSlides := by
  intro r cy n
  induction n with
  | zero => rfl
  | succ n ih => rw [RefPic.along, ih, slide_load]

/-! ## Vectors -/

section
variable {cx cy : Nat} {b : PredBlock} {v : MotionVec}

/-- What a vector that may be chosen keeps to. -/
theorem vecOk_iff : vecOk cx cy b v = true ↔ v.1.natAbs ≤ 1024 ∧ v.2.natAbs ≤ 512 ∧
    64 * (cx : Int) - 256 ≤ b.x + v.1 / 4 - 3 ∧ b.x + v.1 / 4 + b.w + 3 ≤ 64 * cx + 319 ∧
    64 * (cy : Int) - 128 ≤ b.y + v.2 / 4 - 3 ∧ b.y + v.2 / 4 + b.h + 3 ≤ 64 * cy + 191 := by
  simp only [vecOk, inWindow, winX, winY, if_true, Bool.and_eq_true, decide_eq_true_eq]
  omega

/-- A block with its taps in the window may stand still. -/
theorem vecOk_zero (hleft : 64 * cx ≤ b.x + 253) (hright : b.x + b.w ≤ 64 * cx + 316) (htop : 64 * cy ≤ b.y + 125)
    (hbottom : b.y + b.h ≤ 64 * cy + 188) : vecOk cx cy b (0, 0) = true := by
  rw [vecOk_iff]
  simp only [Int.natAbs_zero, Int.zero_ediv]
  omega

end

/-- A vector of a frame is one that its block's search answered. -/
theorem chooseVec_of_mem_frameVectors {c frame : Bytes} {history : List Bytes} {key : Bool} {p : PredBlock × MotionVec}
    (h : p ∈ frameVectors c history frame key) : ∃ cx cy use, chooseVec cx cy p.1 use = some p.2 := by
  unfold frameVectors at h
  split at h
  · cases h
  · simp only [List.mem_flatMap, List.mem_filterMap, Option.map_eq_some_iff] at h
    obtain ⟨cy, -, cx, -, b, -, v, hv, rfl⟩ := h
    exact ⟨cx, cy, _, hv⟩

/-- Settles O57: the search answers only vectors that may be chosen, and the one that stands still is a candidate. -/
theorem vectorLimit : Obligations.VectorLimit := by
  refine ⟨fun c history frame key => List.all_eq_true.mpr fun p hp => ?_, fun cx cy b use => ⟨fun v hv => vecOk_iff.mp (chooseVec_ok hv),
    fun hleft hright htop hbottom => chooseVec_some (vecOk_zero hleft hright htop hbottom)⟩⟩
  obtain ⟨cx, cy, use, hv⟩ := chooseVec_of_mem_frameVectors hp
  obtain ⟨hx, hy, -⟩ := vecOk_iff.mp (chooseVec_ok hv)
  simp [hx, hy]

end Sys2Proof.MotionWindows
end

section
/-! Requests for one staging buffer: the rule that settles them, and what they leave alone (R301). -/

namespace Sys2Proof.StagingPools
open Sys2Proof.Machine Sys2Proof.Laws

/-! ## Objects of a pool and of its channels -/

/-- The objects of a die that show the state of its pool. -/
def poolObjects (q : Nat) : List Nat := [O.poolSharedFree q, O.poolUrgentFree q, O.poolReservedTotal q, O.poolHeld q, O.poolChannelsOpen q]

section
variable {q n q' n' : Nat}

theorem channelHeld_inj (hn : n < 1024) (hn' : n' < 1024) (h : O.channelHeld q' n' = O.channelHeld q n) :
    q' = q ∧ n' = n := by
  unfold O.channelHeld at h; omega

theorem chKey_inj (hn : n < 1024) (hn' : n' < 1024) (h : chKey q' n' = chKey q n) : q' = q ∧ n' = n := by
  unfold chKey at h; omega

theorem channelHeld_notMem_poolObjects (hn : n < 1024) : O.channelHeld q n ∉ poolObjects q' := by
  simp only [poolObjects, List.mem_cons, List.not_mem_nil, or_false, O.channelHeld, O.poolSharedFree, O.poolUrgentFree, O.poolReservedTotal, O.poolHeld,
    O.poolChannelsOpen]
  omega

theorem channelRefusals_notMem_poolObjects (hn : n < 1024) : O.channelRefusals q n ∉ poolObjects q' := by
  simp only [poolObjects, List.mem_cons, List.not_mem_nil, or_false, O.channelRefusals, O.poolSharedFree, O.poolUrgentFree, O.poolReservedTotal,
    O.poolHeld, O.poolChannelsOpen]
  omega

theorem channelHeld_ne_channelRefusals (hn : n < 1024) (hn' : n' < 1024) : O.channelHeld q n ≠ O.channelRefusals q' n' := by
  unfold O.channelHeld O.channelRefusals; omega

theorem channelHeld_ne_poolRefusals (hn : n < 1024) : O.channelHeld q n ≠ O.poolRefusals q' := by
  unfold O.channelHeld O.poolRefusals; omega

theorem channelRefusals_ne_poolRefusals (hn : n < 1024) : O.channelRefusals q n ≠ O.poolRefusals q' := by
  unfold O.channelRefusals O.poolRefusals; omega

/-- The refusals of a channel are a counter that stops (R534). -/
theorem counted_channelRefusals (hq : q < 4) (hn : n < 1024) (c : Nat) :
    counted (O.channelRefusals q n) c 1 = min (c + 1) (tyOf (O.channelRefusals q n)).maxVal :=
  Scope.counted_of_stops (by unfold oidArea O.channelRefusals; omega) (by unfold oidArea O.channelRefusals; omega) c 1

/-- So are those of a pool. -/
theorem counted_poolRefusals (hq : q < 4) (c : Nat) :
    counted (O.poolRefusals q) c 1 = min (c + 1) (tyOf (O.poolRefusals q)).maxVal :=
  Scope.counted_of_stops (by unfold oidArea O.poolRefusals; omega) (by unfold oidArea O.poolRefusals; omega) c 1

end

/-! ## The parts of a request -/

section
variable {s : Device} {q n : Nat}

theorem num_poolView {o : Nat} (h : o ∉ poolObjects q) : (s.poolView q).num o = s.num o := by
  simp only [poolObjects, List.mem_cons, List.not_mem_nil, or_false, not_or] at h
  obtain ⟨hshared, hurgent, hreserved, hheld, hopen⟩ := h
  rw [Device.poolView, num_setNum_ne _ _ hopen, num_setNum_ne _ _ hheld, num_setNum_ne _ _ hreserved, num_setNum_ne _ _ hurgent,
    num_setNum_ne _ _ hshared]

theorem poolCh_setPoolCh_same (c : PoolCh) : (s.setPoolCh q n c).poolCh q n = c := by
  simp [Device.poolCh, Device.setPoolCh, tgetD, tget_tput_same]

theorem poolCh_setPoolCh_ne (c : PoolCh) {q' n' : Nat} (h : chKey q' n' ≠ chKey q n) : (s.setPoolCh q n c).poolCh q' n' = s.poolCh q' n' := by
  simp [Device.poolCh, Device.setPoolCh, tgetD, tget_tput_ne _ _ h]

/-- The channel once a buffer of the pool's part k is charged to it: the urgent slice keeps count. -/
def charged (s : Device) (q n k : Nat) : Device :=
  if k = 4 then s.setPoolCh q n { s.poolCh q n with urgent := (s.poolCh q n).urgent + 1 } else s

theorem num_charged (k o : Nat) : (charged s q n k).num o = s.num o := by unfold charged; split <;> rfl

theorem urgent_charged (k : Nat) : ((charged s q n k).poolCh q n).urgent = (s.poolCh q n).urgent + if k = 4 then 1 else 0 := by
  unfold charged
  split
  · rw [poolCh_setPoolCh_same]
  · rfl

theorem poolCh_charged_ne (k : Nat) {q' n' : Nat} (h : chKey q' n' ≠ chKey q n) : (charged s q n k).poolCh q' n' = s.poolCh q' n' := by
  unfold charged
  split
  · exact poolCh_setPoolCh_ne _ h
  · rfl

/-- A refusal is counted twice, and does nothing else but move the allocator on. -/
theorem poolRequest_of_none (h : s.poolSource q n = none) :
    s.poolRequest q n = (false, ((s.allocServed q n).bump (O.channelRefusals q n)).bump (O.poolRefusals q)) := by
  have hsource : (s.allocServed q n).poolSource q n = none := h
  simp only [Device.poolRequest, hsource]

/-- A grant charges the buffer and adds it to those held. -/
theorem poolRequest_of_some {k : Nat} (h : s.poolSource q n = some k) :
    s.poolRequest q n = (true, ((charged (s.allocServed q n) q n k).setNum (O.channelHeld q n) (s.chHeld q n + 1)).poolView q) := by
  have hsource : (s.allocServed q n).poolSource q n = some k := h
  have hheld : (charged (s.allocServed q n) q n k).chHeld q n = s.chHeld q n := num_charged ..
  rw [← hheld]
  simp only [Device.poolRequest, hsource]
  rfl

/-! ## The rules of R301 -/

theorem poolSource_at_cap (hcap : s.chCap q n ≤ s.chHeld q n) : s.poolSource q n = none := by simp [Device.poolSource, hcap]

theorem poolSource_reserved (hcap : s.chHeld q n < s.chCap q n) (hreserve : s.chHeld q n < s.chReserve q n) : s.poolSource q n = some 2 := by
  simp [Device.poolSource, Nat.not_le.mpr hcap, hreserve]

theorem poolSource_shared (hcap : s.chHeld q n < s.chCap q n) (hreserve : s.chReserve q n ≤ s.chHeld q n) (hshared : 0 < s.sharedFree q) :
    s.poolSource q n = some 3 := by
  simp [Device.poolSource, Nat.not_le.mpr hcap, Nat.not_lt.mpr hreserve, hshared]

theorem poolSource_urgent (hcap : s.chHeld q n < s.chCap q n) (hreserve : s.chReserve q n ≤ s.chHeld q n) (hshared : s.sharedFree q = 0)
    (hclass : s.num (O.channelClass q n) = 1) (hurgent : 0 < s.urgentFree q) : s.poolSource q n = some 4 := by
  simp only [Device.poolSource, Nat.not_le.mpr hcap, Nat.not_lt.mpr hreserve, hshared, hclass, hurgent, if_false, Nat.lt_irrefl, decide_true,
    Bool.and_self, if_true]

theorem poolSource_empty (hcap : s.chHeld q n < s.chCap q n) (hreserve : s.chReserve q n ≤ s.chHeld q n) (hshared : s.sharedFree q = 0)
    (hurgent : s.num (O.channelClass q n) ≠ 1 ∨ s.urgentFree q = 0) : s.poolSource q n = none := by
  have hno : ¬(decide (s.num (O.channelClass q n) = 1) && decide (0 < s.urgentFree q)) = true := by
    rcases hurgent with h | h <;> simp [h]
  simp only [Device.poolSource, Nat.not_le.mpr hcap, Nat.not_lt.mpr hreserve, hshared, hno, if_false, Nat.lt_irrefl, Bool.false_eq_true]

/-! ## What a request leaves -/

section
variable (hn : n < 1024)
include hn

/-- A refusal holds nothing, and is counted (R301). -/
theorem poolRequest_refused (hq : q < 4) (h : s.poolSource q n = none) :
    (s.poolRequest q n).1 = false ∧ (s.poolRequest q n).2.chHeld q n = s.chHeld q n ∧ (s.poolRequest q n).2.poolCh q n = s.poolCh q n ∧
      (s.poolRequest q n).2.num (O.channelRefusals q n) = min (s.num (O.channelRefusals q n) + 1) (tyOf (O.channelRefusals q n)).maxVal ∧
      (s.poolRequest q n).2.num (O.poolRefusals q) = min (s.num (O.poolRefusals q) + 1) (tyOf (O.poolRefusals q)).maxVal := by
  rw [poolRequest_of_none h]
  refine ⟨rfl, ?_, rfl, ?_, ?_⟩
  · exact (num_bump_ne _ _ (channelHeld_ne_poolRefusals hn)).trans (num_bump_ne _ _ (channelHeld_ne_channelRefusals hn hn))
  · rw [num_bump_ne _ _ (channelRefusals_ne_poolRefusals hn), num_bump_same]
    exact counted_channelRefusals hq hn _
  · rw [num_bump_same, num_bump_ne _ _ (channelRefusals_ne_poolRefusals hn).symm]
    exact counted_poolRefusals hq _

/-- A grant adds one buffer, charged to the urgent slice where it comes from there. -/
theorem poolRequest_granted {k : Nat} (h : s.poolSource q n = some k) :
    (s.poolRequest q n).1 = true ∧ (s.poolRequest q n).2.chHeld q n = s.chHeld q n + 1 ∧
      ((s.poolRequest q n).2.poolCh q n).urgent = (s.poolCh q n).urgent + (if k = 4 then 1 else 0) ∧
      (s.poolRequest q n).2.num (O.channelRefusals q n) = s.num (O.channelRefusals q n) := by
  rw [poolRequest_of_some h]
  refine ⟨rfl, ?_, urgent_charged k, ?_⟩
  · exact (num_poolView (channelHeld_notMem_poolObjects hn)).trans (num_setNum_same ..)
  · rw [num_poolView (channelRefusals_notMem_poolObjects hn), num_setNum_ne _ _ (channelHeld_ne_channelRefusals hn hn).symm, num_charged]
    rfl

/-- No other channel's buffers change. -/
theorem poolRequest_frame {q' n' : Nat} (hn' : n' < 1024) (hne : ¬(q' = q ∧ n' = n)) :
    (s.poolRequest q n).2.chHeld q' n' = s.chHeld q' n' ∧ (s.poolRequest q n).2.poolCh q' n' = s.poolCh q' n' := by
  cases h : s.poolSource q n with
  | none =>
    rw [poolRequest_of_none h]
    exact ⟨(num_bump_ne _ _ (channelHeld_ne_poolRefusals hn')).trans (num_bump_ne _ _ (channelHeld_ne_channelRefusals hn' hn)), rfl⟩
  | some k =>
    have hheld : O.channelHeld q' n' ≠ O.channelHeld q n := fun e => hne (channelHeld_inj hn hn' e)
    have hkey : chKey q' n' ≠ chKey q n := fun e => hne (chKey_inj hn hn' e)
    rw [poolRequest_of_some h]
    refine ⟨?_, poolCh_charged_ne k hkey⟩
    exact (num_poolView (channelHeld_notMem_poolObjects hn')).trans ((num_setNum_ne _ _ hheld).trans (num_charged ..))

end

end

/-- Settles O48: the five rules in their order, what a refusal and a grant do, and the frame of the other channels. -/
theorem poolRequest : Obligations.PoolRequest := by
  intro s q n hq hn
  exact ⟨poolSource_at_cap, poolSource_reserved, poolSource_shared, poolSource_urgent, poolSource_empty, poolRequest_refused hn hq,
    fun _ => poolRequest_granted hn, fun _ _ _ => poolRequest_frame hn⟩

end Sys2Proof.StagingPools
end

section
/-! Power domains, clocks and operating points, the thermal and power limits, and the power states (R423 to R447). -/

namespace Sys2Proof.PowerStates
open Sys2Proof.Machine Sys2Proof.Laws Sys2Proof.Architecture

section
variable {s : Device} {d i : Nat}

/-! ## Requests of a domain (R423, R424) -/

theorem domainReq_on (hoff : s.num (O.domainState d) = 0) : s.domainReq d 1 = (s.beginOn d).okay := by simp [Device.domainReq, hoff]

theorem domainReq_off (hon : s.num (O.domainState d) = 2) (hmove : (s.opOf d).move = none) (hblock : s.domainBlocker d = none) :
    s.domainReq d 2 = (s.beginOff d).okay := by
  simp [Device.domainReq, hon, hmove, hblock]

/-! ## Clocks and operating points (R429, R432) -/

/-- A run enable of a link island that is 1 is written 1: no fixed bit changes, and the SerDes PLL is enabled with its island. -/
theorem clockWrite_one (hlo : 12 ≤ i) (hhi : i ≤ 15) (hold : s.num (O.clockEnables i) = 1) :
    s.clockWrite i 1 = ((s.setNum (O.clockEnables i) 1).setNum (O.clockEnables (36 + (i - 12))) 1).okay := by
  simp [Device.clockWrite, hold, hlo, hhi, show bit 1 0 = true from rfl]

theorem opWrite_eq (p : Nat) : s.opWrite (8 + i) p = ((s.setNum (O.opRequest i) p).reevaluate (8 + i)).okay := by
  rw [Device.opWrite, Nat.add_sub_cancel_left]

/-! ## Requests of a power state (R441) -/

variable (htrans : s.power.trans = .none) (hready : s.startupCode = suReady)
include htrans hready

theorem powerRequest_run (hstate : s.num O.powerState = 1) : s.powerRequest 0 = (s.leaveIdle 7).okay := by
  simp [Device.powerRequest, htrans, hready, hstate]

theorem powerRequest_idle (hstate : s.num O.powerState = 0) :
    s.powerRequest 1 = Device.okay { s.setNum O.powerState 1 with power := { s.power with pendingWakes := [], idleSince := [] } } := by
  simp [Device.powerRequest, htrans, hready, hstate, Device.okay]

theorem powerRequest_sleep (hstate : s.num O.powerState = 0) (hblock : s.sleepBlocker = none) : s.powerRequest 2 = (s.beginSleep 2).okay := by
  simp [Device.powerRequest, htrans, hready, hstate, hblock]

theorem powerRequest_deep (hstate : s.num O.powerState = 0) (hblock : s.deepBlocker = none) : s.powerRequest 3 = (s.beginSleep 3).okay := by
  simp [Device.powerRequest, htrans, hready, hstate, hblock]

end

/-! ## The obligations -/

/-- Settles O1: a domain's request finds nothing that stands against it, and a switch, a clock or a move goes on from the state it has reached. -/
theorem domainAndClockCommands : Obligations.DomainAndClockCommands := by
  refine ⟨fun s d hd haccept htrans hstate h1 h2 h3 hoff => ?_, fun s d hd haccept htrans hstate h1 h2 h3 hon hmove hblock => ?_,
    fun s d hd hst => ?_, fun s d hd hst => ?_, fun s off hvalid => if_pos hvalid, fun s d off hd hst => ?_, fun s d off hd hst => ?_,
    fun s hcode hpowered hcrystal => ?_, fun s hcode hpowered hcrystal => ?_, fun s n href hon => ?_,
    fun s i v haccept hlo hhi hv hold => ?_, fun s i p haccept => ?_, fun s i m hmove hlock htime hslower => ?_,
    fun s i m t hmove hstart hramp htime hslower => ?_⟩
  · refine ownWrite_ok haccept ?_
    rw [domainWrite_of_running 1 hd htrans hstate h1 h2 h3, domainReq_on hoff]
    rfl
  · refine ownWrite_ok haccept ?_
    rw [domainWrite_of_running 2 hd htrans hstate h1 h2 h3, domainReq_off hon hmove hblock]
  · exact congrArg s.to (if_pos (by simp [hd, hst]))
  · exact congrArg s.to (if_pos (by simp [hd, hst]))
  · exact congrArg s.to (if_pos (by simp [hd, hst]))
  · exact congrArg s.to (if_pos (by simp [hd, hst]))
  · simp [exec, execCrystalStable, State.run, State.to, hcode, hpowered, hcrystal, suXtal, suAonUp]
  · have hother : O.startupWarnings ≠ O.crystalStatus := by decide
    simp [exec, execCrystalAbsent, State.run, State.to, hcode, hpowered, hcrystal, suXtal, suAonUp, num_setNum_ne _ _ hother]
  · exact congrArg s.to (if_neg (by simp [href, hon]))
  · subst hv
    exact ownWrite_ok haccept (clockWrite_one hlo hhi hold)
  · exact ownWrite_ok haccept (opWrite_eq _)
  · simp [exec, execOpMoveLockDone, State.run, State.to, hmove, hlock, Nat.not_lt.mpr htime, hslower]
  · simp [exec, execOpMoveRampDone, State.run, State.to, hmove, hstart, hramp, Nat.not_lt.mpr htime, hslower]

/-- Settles O2: each evaluation and the trip meet the guard of their row. -/
theorem thermalAndPowerLimits : Obligations.ThermalAndPowerLimits := by
  refine ⟨fun s q l hon => ?_, fun s q k v hhot hon htrip => ?_, fun s mw hlimit => ?_, fun s k temp hon => ?_⟩
  · exact congrArg s.to (if_pos hon)
  · exact congrArg s.to (if_pos (by simp [hhot, hon, htrip]))
  · exact congrArg s.to (if_pos hlimit)
  · exact congrArg s.to (if_pos hon)

/-- Settles O3: a request finds no transition and nothing in use, and an entry or an exit that is complete ends the transition. -/
theorem powerStateRequests : Obligations.PowerStateRequests := by
  refine ⟨fun s haccept htrans hready hstate => ?_, fun s haccept htrans hready hstate => ?_, fun s haccept htrans hready hstate hblock => ?_,
    fun s haccept htrans hready hstate hblock => ?_, fun s i t hstate hon hbusy hxing hidle htime hgated => ?_, fun s i => rfl,
    fun s hset hstate htrans hready hjobs hmedia htime => ?_, fun s htrans hwait => ?_, fun s hstate htrans hwake => ?_,
    fun s k htrans hstate => ?_, fun s htrans hwait => ?_, fun s hstate hwake htrans => ?_⟩
  · exact ownWrite_ok haccept (powerRequest_run htrans hready hstate)
  · exact ownWrite_ok haccept (powerRequest_idle htrans hready hstate)
  · exact ownWrite_ok haccept (powerRequest_sleep htrans hready hstate hblock)
  · exact ownWrite_ok haccept (powerRequest_deep htrans hready hstate hblock)
  · have hruns : 14 + i.val ∉ s.dev.power.gated := by simpa using hgated
    simp [exec, execIslandGate, State.run, State.to, hstate, hon, hbusy, hxing, hidle, hruns, Nat.not_lt.mpr htime, tgetD, tget?]
  · simp [exec, execIdleAutoExpiry, State.run, State.to, hset, hstate, htrans, hready, hjobs, hmedia, Nat.not_lt.mpr htime,
      powerRequest_idle htrans hready hstate, Device.okay]
  · simp [exec, execSleepEntryComplete, State.run, State.to, htrans, hwait]
  · exact congrArg s.to (if_pos (by simp [hstate, htrans, hwake]))
  · simp [exec, execSleepExitComplete, State.run, State.to, htrans, hstate]
  · simp [exec, execDeepEntryComplete, State.run, State.to, htrans, hwait]
  · exact congrArg s.to (if_pos (by simp [hstate, htrans, hwake]))

end Sys2Proof.PowerStates
end

section
/-! Start-up, resets and the configuration flash, and Signet's fuses, reports, tokens and entropy source (R455 to R516). -/

namespace Sys2Proof.StartUp
open Sys2Proof.Machine Sys2Proof.Laws

section
variable {s : Device}

/-! ## The trim of the RC oscillator (R426) -/

theorem trimReference_setRcTrimReference (v : Nat) : (s.setNum O.rcTrimReference v).trimReference = s.trimReference := by
  have hcrystal : O.crystalStatus ≠ O.rcTrimReference := by decide
  have hclock : O.refclkPresent ≠ O.rcTrimReference := by decide
  simp only [Device.trimReference, num_setNum_ne _ _ hcrystal, num_setNum_ne _ _ hclock]

/-! ## The configuration image (R459) -/

/-- The slot now tried, of a flash that is supported, is used where it passes; where it fails, its code is reported and the other is next. -/
theorem slotChecked_of_next {k m : Nat} {b : Bytes} {ok : Bool} {flash : FlashId} (hcode : s.startupCode = suImageLoad)
    (hbytes : 0x4000000 ≤ flash.bytes.toNat) (hsupported : flash.unsupported = false) (hleft : s.startup.slotsLeft = [k, m]) :
    s.slotChecked k b ok flash =
      (let d := s.setNum O.flashBytes flash.bytes.toNat
       let code := d.slotCode b ok
       let d := if code = 3 then d else d.reportSlot k b
       if code = 0 then d.useSlot k (b.take (imgLength b))
       else
         let d := d.setNum (O.slotStatus k) code
         let d := d.setNum O.startupWarnings (setBit (d.num O.startupWarnings) 1)
         { d with startup := { d.startup with slotsLeft := [m] } }) := by
  simp [Device.slotChecked, hcode, Nat.not_lt.mpr hbytes, hsupported, hleft]

/-- A slot that IMAGE_LOAD did not reach and whose check fails with code 3 reports no header. -/
theorem slotBackground_of_unmarked {k : Nat} {b : Bytes} {ok : Bool} (hready : s.startupCode = suReady) (hleft : k ∈ s.startup.slotsLeft)
    (hcode : s.slotCode b ok = 3) :
    s.slotBackground k b ok =
      ({ s with startup := { s.startup with slotsLeft := s.startup.slotsLeft.filter (· ≠ k) } } : Device).setNum (O.slotStatus k) 3 := by
  have hsame (l : List Nat) : Device.slotCode { s with startup := { s.startup with slotsLeft := l } } b ok = 3 := hcode
  simp only [Device.slotBackground, hready, hleft, hsame, List.contains_eq_mem, decide_true, Bool.and_self, if_true]
  rfl

/-- CONFIGURE without a hold ends its records at the first that fails. -/
theorem exec_configureComplete_of_fails {s : State} {d : Device} {n : Nat} (hcode : s.dev.startupCode = suConfigure)
    (hhold : s.dev.startup.holding = false) (hrecords : applyRecords s.dev 0 (imgRecords s.dev.startup.image).1 = (d, some n)) :
    exec .configureComplete s = s.to (d.releasePins.enterSafe 0x20 n) := by
  simp [exec, execConfigureComplete, State.run, State.to, hcode, hhold, hrecords]

/-! ## Resets and the flash (R467, R468) -/

/-- A reset with a new nonce, of a device that is ready and changes no power state, is accepted. -/
theorem resetWrite_of_ready {kind nonce : Nat} (hkind : 1 ≤ kind ∧ kind ≤ 3) (hnonce : nonce ≠ 0) (hready : s.startupCode = suReady)
    (htrans : s.power.trans = .none) (hnew : nonce ≠ s.num O.lastResetNonce) :
    s.resetWrite kind nonce =
      Device.okay { s with startup := { s.startup with resetReq := some { kind := kind, nonce := nonce, at_ := s.uptime } } } := by
  simp [Device.resetWrite, hnonce, Nat.not_lt.mpr hkind.1, Nat.not_lt.mpr hkind.2, hready, htrans, hnew, Device.okay]

theorem toNat_ne_zero {w : Nat} {n : BitVec w} (h : n ≠ 0) : n.toNat ≠ 0 := fun e => h (BitVec.eq_of_toNat_eq (by simpa using e))

/-- The three rows of a warm reset differ in its kind alone. -/
theorem warmResetRow_ok {row : BitVec 32 → Instr} {kind : Nat}
    (hrow : ∀ n s, exec (row n) s = s.run fun d => d.ownWrite O.resetRequest fun d => d.resetWrite kind n.toNat) (hkind : 1 ≤ kind ∧ kind ≤ 3)
    (s : State) (n : BitVec 32) (haccept : s.dev.accepts O.resetRequest) (hnonce : n ≠ 0) (hready : s.dev.startupCode = suReady)
    (htrans : s.dev.power.trans = .none) (hnew : n.toNat ≠ s.dev.num O.lastResetNonce) :
    exec (row n) s = s.wrote O.resetRequest
      { s.dev with startup := { s.dev.startup with resetReq := some { kind := kind, nonce := n.toNat, at_ := s.dev.uptime } } } := by
  rw [hrow]
  exact ownWrite_ok haccept (resetWrite_of_ready hkind (toNat_ne_zero hnonce) hready htrans hnew)

/-- A program that the flash is free for begins. -/
theorem flashWrite_begins {b : Bytes} (hcode : s.startupCode = suConfigure) (hne : b ≠ []) (hlength : b.length ≤ 4096)
    (hlimit : s.num O.flashOffset + b.length ≤ s.flashLimit) (hfree : s.startup.flashOp = none) : ∃ d : Device, s.flashWrite b = d.okay := by
  have hempty : b.isEmpty = false := by simpa using hne
  simp only [Device.flashWrite, hcode, hempty, Nat.not_lt.mpr hlength, Nat.not_lt.mpr hlimit, hfree]
  exact ⟨_, rfl⟩

/-- So does an erase. -/
theorem flashEraseWrite_begins {a : Nat} (hcode : s.startupCode = suConfigure) (hlimit : a < s.flashLimit) (hfree : s.startup.flashOp = none) :
    ∃ d : Device, s.flashEraseWrite a = d.okay := by
  simp only [Device.flashEraseWrite, hcode, Nat.not_le.mpr hlimit, hfree]
  exact ⟨_, rfl⟩

end

/-- A write that its object's rule takes and that is measured is done. -/
theorem ownWrite_measured {s : State} {oid : Nat} {v : Bytes} {f : Device → Ans} (haccept : s.dev.accepts oid) (h : ∃ d : Device, f s.dev = d.okay) :
    s.run (fun d => d.ownWrite oid fun d => (f d).measured oid v) = s.wrote oid ((f s.dev).measured oid v).s := by
  obtain ⟨d, hd⟩ := h
  refine ownWrite_ok haccept ?_
  rw [hd, ← HostQueues.measured_okay]

/-! ## Tokens and the rollback counter (R491, R496) -/

section
variable {s : Device}

theorem rollbackWrite_burns {n : Nat} (hmore : s.num O.rollbackCounter < n) (himage : n ≤ s.imageRollback) :
    s.rollbackWrite n none = (Device.burnRollback { s with signet := { s.signet with rollbackBits := n } } n).okay := by
  simp [Device.rollbackWrite, hmore.ne', Nat.not_lt.mpr hmore.le, Nat.not_lt.mpr himage]

theorem attest_ok {ch : Chan} {n : Bytes} (hlength : n.length = 32) :
    s.attest ch n = ((s.setChanSt ch { s.chanSt ch with
      report := some (s.reportBody ch n ++ s.identitySign (sha3 (s.reportBody ch n))) }).bump O.attestCount).okay := by
  simp [Device.attest, hlength]

theorem debugToken_taken {t : Bytes} (h : s.tokenCheck t = none) : s.debugToken t = (s.tokenTaken t).okay := by simp [Device.debugToken, h]

theorem debugToken_resent {t : Bytes} (h : s.tokenCheck t = some .ok) : s.debugToken t = s.okay := by simp [Device.debugToken, h]

theorem debugToken_refused {t : Bytes} {st : Status} (hst : st ≠ .ok) (h : s.tokenCheck t = some st) :
    s.debugToken t = (s.bump O.debugTokenRefusals).deny st O.debugToken := by
  unfold Device.debugToken
  split
  · next hok =>
    cases h.symm.trans hok
    exact absurd rfl hst
  · next hsome =>
    cases h.symm.trans hsome
    rfl
  · next hnone => cases h.symm.trans hnone

end

/-- DEBUG_TOKEN: what the token's check gives is the answer. -/
theorem exec_debugToken {s : State} {t : Bytes} (haccept : s.dev.accepts O.debugToken) :
    exec (.debugToken t) s =
      if s.dev.tokenCheck t = none then s.wrote O.debugToken ((s.dev.tokenTaken t).extendM 2
        (itemBytes { oid := BitVec.ofNat 32 O.debugToken, ty := BitVec.ofNat 8 (tyOf O.debugToken).code, value := t }))
      else if s.dev.tokenCheck t = some .ok then s.wrote O.debugToken s.dev
      else s.to ((s.dev.bump O.debugTokenRefusals).emit (.reply ((s.dev.tokenCheck t).getD .ok) O.debugToken)) := by
  rcases hcheck : s.dev.tokenCheck t with _ | st
  · refine ownWrite_ok haccept ?_
    simp only [debugToken_taken hcheck, hcheck]
    rfl
  · by_cases hst : st = .ok
    · subst hst
      refine ownWrite_ok haccept ?_
      simp only [debugToken_resent hcheck, hcheck]
      rfl
    · obtain ⟨hruns, hchecks⟩ := haccept
      simp [exec, execDebugToken, State.to, Device.ownWrite, hruns, hchecks, debugToken_refused hst hcheck, Device.deny, Ans.wrote, Ans.out, Ans.reply, hst]

/-- A restart with no operation of the flash under way touches the device alone. -/
theorem restart_of_idle {s : State} (h : s.dev.startup.flashOp = none) (f : Device → Device) : s.restart f = s.run f := by
  simp [State.restart, h]

/-! ## The obligations -/

/-- Settles O5: each step of start-up finds the state that the step before it entered. -/
theorem startUpCommands : Obligations.StartUpCommands := by
  refine ⟨fun s hpowered hlow => ?_, fun s mv hpowered => ?_, fun s hrails hpowered hlow hcode hcrystal => ?_, fun s n hcode hon href => ?_,
    fun s w hcode hgood hversion => ?_, fun s w i hcode hbad => ?_, fun s k n hcode hbytes hsupported hleft => ?_,
    fun s k hready hleft hcode => ?_, fun s d hcode hhold hwhole hrecords hcount => ?_, fun s d n => exec_configureComplete_of_fails,
    fun s haccept hhold => ?_, fun s ids hcode htrained => ?_⟩
  · exact congrArg s.to ((if_neg (by simp [hpowered])).trans (if_neg (show ¬ s.dev.startup.sysRstLow = true by simp [hlow])))
  · exact congrArg s.to (if_pos hpowered)
  · simp [exec, execRailsGood, State.to, hrails, hpowered, hlow, hcode, hcrystal]
  · simp [exec, execRcTrimComplete, State.to, hcode, hon, trimReference_setRcTrimReference, href]
  · simp [exec, execFuseLoadComplete, State.to, hcode, hgood, hversion]
  · simp [exec, execFuseLoadComplete, State.to, hcode, hbad]
  · exact congrArg s.to (slotChecked_of_next hcode hbytes hsupported hleft)
  · exact congrArg s.to (slotBackground_of_unmarked hready hleft hcode)
  · simp [exec, execConfigureComplete, State.to, hcode, hhold, hwhole, hrecords, hcount]
  · refine ownWrite_ok haccept ?_
    simp [Device.configureReleaseWrite, hhold]
  · simp [exec, execTrainComplete, State.to, hcode, htrained]

/-- Settles O6: with no operation of the flash under way a reset acts on the device alone, and a request that finds the device ready is taken. -/
theorem resetAndFlashCommands : Obligations.ResetAndFlashCommands := by
  refine ⟨fun s hidle => restart_of_idle hidle _, fun s hidle hpowered => ?_, fun s hlow hpowered hrise => ?_,
    warmResetRow_ok (fun _ _ => rfl) (by decide), warmResetRow_ok (fun _ _ => rfl) (by decide), warmResetRow_ok (fun _ _ => rfl) (by decide),
    fun s r hdue hkind hwait => ?_, fun s b haccept hcode hne hlength hlimit hfree => ?_, fun s a haccept hcode hlimit hfree => ?_,
    fun s op hop => ?_⟩
  · exact (restart_of_idle hidle _).trans (congrArg s.to (if_pos hpowered))
  · simp [exec, execSysRstNRelease, State.to, hlow, hpowered, hrise]
  · simp [exec, execWarmResetBegin, Device.warmResetBegin, State.to, hdue, hkind, hwait]
  · exact ownWrite_measured haccept (flashWrite_begins hcode hne hlength hlimit hfree)
  · exact ownWrite_measured haccept (flashEraseWrite_begins hcode hlimit hfree)
  · simp [exec, execFlashOpComplete, Device.flashDone, hop]

/-- Settles O13. -/
theorem securityCommands : Obligations.SecurityCommands := by
  refine ⟨fun s w r i hburns hfree => ?_, fun s ch n haccept hlength => ?_, fun s n haccept hmore himage => ?_, fun s t => exec_debugToken,
    fun s haccept => ?_, fun s hset hpast => ?_, fun s => rfl, fun s hstopped hpasses => ?_⟩
  · have hsame (l : List Nat) : (List.range 48).find? (fun i => Device.fuse { s.dev with errs := { s.dev.errs with burns := l } } (96 + i) == 0) = some i :=
      hfree
    simp [exec, execFuseBurnComplete, State.to, hburns, hsame]
  · exact ownWrite_ok haccept (attest_ok hlength)
  · refine ownWrite_ok haccept ?_
    simp only [Option.map_none, rollbackWrite_burns hmore himage]
    rw [← HostQueues.measured_okay]
  · refine ownWrite_ok haccept ?_
    rw [← HostQueues.measured_okay]
  · exact congrArg s.to (if_pos (by simp [hset, hpast]))
  · simp [exec, execEntropyHealthTest, State.to, hstopped, hpasses]

end Sys2Proof.StartUp
end

section
/-! The pins of the board and the host port: I3C, JTAG, GPIO and clocks, resets of the port, interrupts, and receive slots (R400 to R420, R498 to
R517). -/

namespace Sys2Proof.BoardAndHost
open Sys2Proof.Machine Sys2Proof.Laws

/-! ## JTAG (R514, R515) -/

section
variable {s : State}

/-- The TAP acts while D0 is powered. -/
theorem run_tap (hpowered : s.dev.startup.powered = true) (f : Device → Device) : s.run (fun d => d.tap f) = s.to (f s.dev) :=
  congrArg s.to (if_pos hpowered)

/-- The five rows of instructions that take the pins differ in the code alone. -/
theorem takePinsRow {c : Instr} {code : Nat} (hrow : ∀ s, exec c s = s.run fun d => d.tap fun d => d.takePins code) (s : State)
    (hpowered : s.dev.startup.powered = true) (hscan : s.dev.scanAvailable = true) (hpins : s.dev.pinsMayBeTaken = true)
    (hlow : s.dev.startup.sysRstLow = false) :
    exec c s = s.to (({ s.dev.tapInstr code true with board := { (s.dev.tapInstr code true).board with scanHeld := true } } : Device).setBool
      O.boundaryScanActive true) := by
  rw [hrow, run_tap hpowered]
  simp [Device.takePins, hscan, hpins, hlow]

/-- An instruction that its scope makes available is in force. -/
theorem run_tapInstr {code : Nat} {ok : Device → Bool} (hpowered : s.dev.startup.powered = true) (hok : ok s.dev = true) :
    s.run (fun d => d.tap fun d => d.tapInstr code (ok d)) = s.to (s.dev.returnPins.setNum O.tapInstruction code) := by
  rw [run_tap hpowered, hok]
  rfl

end

/-! ## GPIO (R517) -/

section
variable {s : Device}

/-- A pin that is held takes another function. -/
theorem gpioWrite_of_held {n f sid : Nat} (hle : f ≤ 7) (hf : f ≠ 0) (hheld : s.num (O.gpioFunction n) ≠ 0) :
    s.gpioWrite n f sid = (s.setNum (O.gpioFunction n) f).okay := by
  simp [Device.gpioWrite, Nat.not_lt.mpr hle, hf, hheld]

end

/-! ## The obligations -/

/-- Settles O7: the target, the TAP and the pads answer while the device is powered and no instruction holds the pins. -/
theorem boardCommands : Obligations.BoardCommands := by
  refine ⟨fun s o hup => ?_, fun s hup hlow => ?_, fun s b hup hlength hwake => ?_, fun s a hup => ?_, fun s a hup => ?_,
    fun s hup henabled haddr hevents hfirst => ?_, fun s hon hup => ?_, takePinsRow fun _ => rfl, takePinsRow fun _ => rfl,
    takePinsRow fun _ => rfl, takePinsRow fun _ => rfl, takePinsRow fun _ => rfl, fun s hpowered => run_tap hpowered _,
    fun s hpowered => run_tap hpowered _, fun s hpowered hscan => run_tapInstr hpowered hscan, fun s c hpowered hscope => ?_,
    fun s hpowered hscope => run_tapInstr (ok := fun d => bit (d.num O.debugScope) 4) hpowered hscope,
    fun s hpowered hscope => run_tapInstr (ok := fun d => bit (d.num O.debugScope) 5) hpowered hscope,
    fun s hpowered => run_tap hpowered _, fun s n f haccept hle hf hheld => ?_, fun s n hfunction hruns => ?_, fun s i => ?_⟩
  · exact congrArg s.to (if_pos hup)
  · exact congrArg s.to (if_pos (by simp [hup, hlow]))
  · exact congrArg s.to (if_pos (by simp [hup, hlength, hwake]))
  · exact congrArg s.to (if_pos hup)
  · exact congrArg s.to (if_pos hup)
  · simp [exec, execI3cIbi, State.to, hup, henabled, haddr, hevents, hfirst]
  · simp [exec, execI3cRead, State.to, hup]
  · refine (run_tap hpowered _).trans ?_
    simp [Device.debugAccess, Device.tapInstr, hscope]
  · exact ownWrite_ok haccept (gpioWrite_of_held hle (StartUp.toNat_ne_zero hf) hheld)
  · have hcounts : (s.dev.num (O.gpioFunction n) = 6 && s.dev.managerRuns) = true := by simp [hfunction, hruns]
    exact congrArg s.to (if_pos hcounts)
  · simp [exec, execReferenceClockPresenceChange, State.to]

/-- Settles O8: a reset of the port, the link, a configuration request, and each write of the host, where its row's conditions are met. -/
theorem hostPortCommands : Obligations.HostPortCommands := by
  refine ⟨fun s hon => ?_, fun s hended hon hpowered => ?_, fun s hon => ?_, fun s hon => ?_, fun s r w htraining hclock => ?_,
    fun s hlink hreleased => ?_, fun s hlink hretry hsafe hfirst => ?_, fun s v a d hpending => ?_, fun s v => rfl, fun s v hgains => ?_,
    fun s r v => rfl, fun s r v hgains => ?_, fun s v => rfl⟩
  · simp [exec, execPerstNAssert, State.to, hon]
  · simp [exec, execPerstNDeassert, State.to, hended, hon, hpowered]
  · exact congrArg s.to (if_pos hon)
  · exact congrArg s.to (if_pos hon)
  · exact congrArg s.to (if_pos (by simp [htraining, hclock]))
  · simp [exec, execPcieConfigurationRequest, State.to, hlink, hreleased]
  · simp [exec, execPcieConfigurationRequest, State.to, hlink, hretry, hsafe, hfirst]
  · exact congrArg s.to (if_pos (by simpa using hpending))
  · exact congrArg s.to (if_pos hgains)
  · exact congrArg s.to (if_pos hgains)

/-- Settles O10: the slot's channel decides (Table 17.9). -/
theorem mailboxReceiveSlots : Obligations.MailboxReceiveSlots := by
  refine ⟨fun s r b n hbound => ?_, fun s r => rfl, fun s r b hfree => ?_, fun s r b n hbound => ?_, fun s r => rfl, fun s r b hfree => ?_⟩
  · simp only [exec, execMailboxConsume, run_eq, State.to, hbound]
  · simp only [exec, execMailboxConsume, run_eq, State.to, hfree]
  · simp only [exec, execMailboxFlagClear, run_eq, State.to, hbound]
  · simp only [exec, execMailboxFlagClear, run_eq, State.to, hfree]

end Sys2Proof.BoardAndHost
end

section
/-! Handoffs between staging channels, and the audits of the conservation ledgers (R302, R307 to R309). -/

namespace Sys2Proof.LedgerAudits
open Sys2Proof.Machine Sys2Proof.Laws

/-- Settles O31: an audit that is due begins, and its marker, its reply or its stall finds the audit at its stage. -/
theorem ledgerAudits : Obligations.LedgerAudits := by
  refine ⟨fun s q a b r d hqueue hon hturn htry => ?_, fun s kind inst l hledger hidle hruns hsides hdue => ?_,
    fun s kind inst l hledger hidle hruns hsides hsum hdue => ?_, fun s kind inst l hledger hidle hruns hsides hsum hdue => ?_,
    fun s kind inst l m t hledger haudit hislands hreceived hthrough => ?_,
    fun s kind inst l m f t hledger haudit hislands hback htotal hkind hthrough => ?_, fun s kind inst l m t hledger haudit hislands hlate => ?_⟩
  · simp [exec, execHandoffRetry, State.to, hqueue, hon, hturn, htry]
  · simp [exec, execLedgerAudit, State.to, hledger, hidle, hruns, hsides, Nat.not_lt.mpr hdue]
  · simp [exec, execLedgerAudit, State.to, hledger, hidle, hruns, hsides, Nat.not_lt.mpr hdue, hsum]
  · simp [exec, execLedgerAudit, State.to, hledger, hidle, hruns, hsides, Nat.not_lt.mpr hdue, hsum]
  · simp only [exec, execAuditMarkerArrival, run_eq, State.to, hledger, haudit, hislands, hthrough, Nat.not_lt.mpr hreceived]
    rfl
  · simp only [exec, execAuditReplyArrival, run_eq, State.to, hledger, haudit, hislands, hthrough, Nat.not_lt.mpr hback, Nat.not_lt.mpr htotal, hkind,
      Option.map_none, Option.getD_none, ne_eq, not_true_eq_false, decide_false, Bool.not_true, Bool.or_self, Bool.false_eq_true, if_false]
  · simp only [exec, execAuditStall, run_eq, State.to, hledger, haudit, hislands, hlate]
    rfl

end Sys2Proof.LedgerAudits
end

section
/-! The Brodlu transport: packets received and sent, contexts with their timers, and the steps of collective plans (R320 to R338). -/

namespace Sys2Proof.Transport
open Sys2Proof.Machine Sys2Proof.Laws Sys2Proof.Architecture

/-! ## Packets received (R324 to R326, R332, R338) -/

section
variable {s d : Device} {l n : Nat} {r : RxIn}

/-- A data packet that passes every check is accepted. -/
theorem dataIn_of_receives (h : s.receives l r) : s.dataIn l r = (s.packetSeen r).accept l r.pkt.dst r := by
  obtain ⟨hcontext, hopen, hnew, hheld, hcredit, hwindow, hrights, hmapped, hregion⟩ := h
  simp [Device.dataIn, hcontext, hopen, hnew, hheld, hcredit, hwindow, hrights, hmapped, hregion]

/-- The packet at the head of a port that is up is received once packets that were held up have been tried again. -/
theorem rxData_of_rxHead {type : Nat} (hup : s.portUp l = true) (hhead : ((s.linkResumes l).drainPort l).rxHead l type = some (r, d)) :
    s.rxData l type = d.dataIn l r := by
  simp only [Device.rxData, hup, if_true, hhead]

/-- The five rows of data packets differ in the type alone. -/
theorem dataRow {row : Fin 96 → Instr} {type : Nat} (hrow : ∀ l s, exec (row l) s = s.to ((s.dev.rxData l type).passDict l)) (s : State)
    (l : Fin 96) (r : RxIn) (d : Device) (hup : s.dev.portUp l = true)
    (hhead : ((s.dev.linkResumes l).drainPort l).rxHead l type = some (r, d)) (h : d.receives l r) :
    exec (row l) s = s.to (((d.packetSeen r).accept l r.pkt.dst r).passDict l) := by
  rw [hrow, rxData_of_rxHead hup hhead, dataIn_of_receives h]

/-! ## Packets sent (R327, R330) -/

/-- With no frame waiting none leaves. -/
theorem portFlush_of_outq_nil (h : (s.port l).outq = []) : s.portFlush l = s := by simp [Device.portFlush, h]

/-! ## Contexts (R321 to R323, R332) -/

/-- A closed context on a port that is on opens; a reliable one sends SYNC. -/
theorem ctxOpen_reliable {ch sid : Nat} (hclosed : s.ctxSt n = 0) (hquiet : (s.ctx n).closedAt = none) (hport : s.portOn (s.ctxPort n) = true)
    (hkind : s.ctxDatagram n = false)
    (hopen : s.poolOpen (s.ctxPort n / 24) 2 (s.ctxCfg n 34 2) (s.ctxCfg n 36 2) (s.ctxCfg n 3 1) (O.ctxControl n) sid = .inr (ch, d)) :
    s.ctxOpen n sid =
      ((((d.setStat (O.ctxStats n) 7 (s.rateMax n)).setCtx n
        { gen := ((s.ctx n).gen + 1) % 16, consumed := (s.ctx n).consumed, msgNo := (s.ctx n).msgNo,
          pool := some ch, openedAt := d.uptime, lastSync := d.uptime }).setNum (O.ctxState n) 1).syncSend n true).okay := by
  simp only [Device.ctxOpen, hclosed, hquiet, hport, hkind, hopen]
  rfl

theorem ctxOpen_datagram {ch sid : Nat} (hclosed : s.ctxSt n = 0) (hquiet : (s.ctx n).closedAt = none) (hport : s.portOn (s.ctxPort n) = true)
    (hkind : s.ctxDatagram n = true)
    (hopen : s.poolOpen (s.ctxPort n / 24) 2 (s.ctxCfg n 34 2) (s.ctxCfg n 36 2) (s.ctxCfg n 3 1) (O.ctxControl n) sid = .inr (ch, d)) :
    s.ctxOpen n sid =
      (((d.setStat (O.ctxStats n) 7 (s.rateMax n)).setCtx n
        { gen := (s.ctx n).gen, consumed := (s.ctx n).consumed, msgNo := (s.ctx n).msgNo,
          pool := some ch, openedAt := d.uptime }).setNum (O.ctxState n) 2).okay := by
  simp only [Device.ctxOpen, hclosed, hquiet, hport, hkind, hopen]
  rfl

theorem ctxClose_of_open (h : s.ctxSt n = 2) : s.ctxClose n = ((s.setCtx n { s.ctx n with closing := true }).closeIfDone n).okay := by
  simp [Device.ctxClose, h]

theorem ctxClose_of_failed (h : s.ctxSt n = 3) : s.ctxClose n = (s.ctxClosed n).okay := by simp [Device.ctxClose, h]

theorem ctxThaw_of_frozen (h : s.ctxSt n = 4) : s.ctxThaw n = s.thaw (masterId 4 n) := if_pos h

/-! ## Plan steps (R334) -/

/-- A step whose source is neither locked, off nor lost queues its message. -/
theorem planSend_of_ready {id op : Nat} {p : PlanRun} {x : Job} {t : PlanStep}
    (hready : s.planReady id (fun t => t.op == op && !t.isLocal) = some (p, x, t)) (hwaits : s.bufWaits (x.buf t.src) t.srcOff t.length false = false)
    (hon : s.bufOn (x.buf t.src) = true) (hblocked : s.bufBlocked (x.buf t.src) t.srcOff t.length false = false) :
    s.planSend id op = s.putMessage p x t := by
  simp only [Device.planSend, hready, hwaits, hon, hblocked]
  rfl

end

/-! ## The obligations -/

/-- Settles O33: a packet that its checks pass is taken as its type says, and a port with no frame waiting sends. -/
theorem brodluPackets : Obligations.BrodluPackets := by
  refine ⟨dataRow fun _ _ => rfl, dataRow fun _ _ => rfl, dataRow fun _ _ => rfl, dataRow fun _ _ => rfl, dataRow fun _ _ => rfl,
    fun s l r d hhead hcontext => ?_, fun s l r d hhead hopen hport hpeer => ?_, fun s l r d hhead hstate hkind hport hpeer => ?_,
    fun s l hup hheld hout hmay => ?_, fun d n p rest ch e hqueue hpool hkind htake hkind' => ?_⟩
  · simp [exec, execBrodluAck, Device.ackIn, State.to, hhead, hcontext]
  · simp [exec, execBrodluNak, State.to, hhead, hopen, hport, hpeer]
  · rcases hstate with hstate | hstate <;> simp [exec, execBrodluSync, State.to, hhead, hstate, hkind, hport, hpeer]
  · simp [exec, execPacketTransmit, State.to, hup, linkResumes_of_held_nil hheld, portFlush_of_outq_nil hout, hout, hmay]
  · simp [Device.transmit, hqueue, hpool, hkind, htake, hkind']

/-- Settles O34. That a SYNC without an answer ends with E_TIMEOUT, and that an opened context keeps what it has consumed and its message number,
is the model's choice (log entry 94; R322 states neither). -/
theorem contextsAndPlans : Obligations.ContextsAndPlans := by
  refine ⟨fun s n haccept hclosed hquiet hport hfree hkind => ?_, fun s n haccept hclosed hquiet hport hfree hkind => ?_, fun s n haccept hopen => ?_,
    fun s n haccept hfailed => ?_, fun s n d haccept hfrozen hthaw => ?_, fun s n hruns hopening htime => ?_, fun s n hruns hopening htime => ?_,
    fun s n t hdue hruns hopen htime => ?_, fun s n u rest hunacked hruns hopen hepisode htime htries => ?_,
    fun s n u rest hunacked hruns hopen hepisode htime htries => ?_, fun s n u hdue hruns hopen => ?_, fun s hruns htime => ?_,
    fun s id p x t hready hwaits hon hblocked => ?_, fun s id p x t hready hwaits hon hblocked => ?_,
    fun s id p x t hready hwaits hon hblocked hwaits' hon' hblocked' => ?_, fun s id p x t hready => ?_, fun s id i p hplan hworks hruns => ?_⟩
  · obtain ⟨⟨ch, d⟩, hopen⟩ := poolOpen_of_channelFree hfree 2 (s.dev.ctxCfg n 36 2) (s.dev.ctxCfg n 3 1) (O.ctxControl n) 0xFFFFFFFF
    rw [hopen]
    exact ownWrite_ok haccept (ctxOpen_reliable hclosed hquiet hport hkind hopen)
  · obtain ⟨⟨ch, d⟩, hopen⟩ := poolOpen_of_channelFree hfree 2 (s.dev.ctxCfg n 36 2) (s.dev.ctxCfg n 3 1) (O.ctxControl n) 0xFFFFFFFF
    rw [hopen]
    exact ownWrite_ok haccept (ctxOpen_datagram hclosed hquiet hport hkind hopen)
  · exact ownWrite_ok haccept (ctxClose_of_open hopen)
  · exact ownWrite_ok haccept (ctxClose_of_failed hfailed)
  · refine ownWrite_ok haccept ?_
    rw [ctxThaw_of_frozen hfrozen, hthaw, ← HostQueues.measured_okay]
  · exact congrArg s.to (if_pos (by simp [hruns, hopening, htime]))
  · exact congrArg s.to (if_pos (by simp [hruns, hopening, htime]))
  · simp [exec, execAckDelayTimer, State.to, hdue, hruns, hopen, htime]
  · simp [exec, execRetransmitTimeout, State.to, hunacked, hruns, hopen, hepisode, Nat.not_lt.mpr htime, Nat.not_le.mpr htries]
  · simp [exec, execRetransmitTimeout, State.to, hunacked, hruns, hopen, hepisode, Nat.not_lt.mpr htime, htries]
  · simp [exec, execNoBufferRetry, State.to, hdue, hruns, hopen]
  · simp [exec, execRateControlPeriod, State.to, hruns, htime]
  · exact congrArg s.to (planSend_of_ready hready hwaits hon hblocked)
  · exact congrArg s.to (planSend_of_ready hready hwaits hon hblocked)
  · simp only [exec, execLocalStep, run_eq, State.to, hready, hwaits, hon, hblocked, hwaits', hon', hblocked']
    rfl
  · simp only [exec, execWaitIn, run_eq, State.to, hready]
  · simp [exec, execPlanStepComplete, State.to, hplan, hworks, hruns]

end Sys2Proof.Transport
end

section
/-! Input streams with their records and Strands, and the decode and encode engines (R341 to R374). -/

namespace Sys2Proof.MediaPipeline
open Sys2Proof.Machine Sys2Proof.Laws Sys2Proof.Architecture

/-! ## Streams by complex and number -/

theorem stream_div (m : Nat) (n : Fin 64) : (64 * m + n.val) / 64 = m := by omega
theorem stream_mod (m : Nat) (n : Fin 64) : (64 * m + n.val) % 64 = n.val := by omega

section
variable {s : Device} {m k : Nat} {n : Fin 64}

/-! ## Open, close, flush and thaw (R341, R356, R358, R476) -/

/-- A configuration that passes the checks of R341 claims its context and its IN channel. -/
theorem streamOpen_ok {x : Job} {c : Bytes} {d t : Device} {ch sid : Nat} (hc : c = s.sCfg (64 * m + n.val)) (hresident : s.resident (leAt c 2 1) = true)
    (hclosed : s.streamSt (64 * m + n.val) = 0) (hjob : s.job? (leAt c 2 1) = some x) (hok : streamCfgOk c = true)
    (hdelivery : s.ctxDelivery (leAt c 4 2) = 2) (hport : s.ctxPort (leAt c 4 2) / 24 = m) (howner : s.ctxJob (leAt c 4 2) = leAt c 2 1)
    (hsize : largestSize c ≤ leAt c 136 4)
    (hextents : (s.plainExtent x (leAt c 104 8) (4096 + leAt c 112 4 * strandStride c) && s.plainExtent x (leAt c 128 8) (leAt c 3 1 * leAt c 136 4) &&
      (leAt c 120 8 == 0 || s.plainExtent x (leAt c 120 8) (16 * 139264))) = true)
    (hclaim : s.claim [O.ctxState (leAt c 4 2), O.streamState m n] (O.streamControl m n) sid = (d, none))
    (hopen : d.poolOpen m 4 (leAt c 6 2) (leAt c 8 2) (leAt c 1 1) (O.streamControl m n) sid = .inr (ch, t)) :
    s.streamOpen (64 * m + n.val) sid =
      (((t.setStream (64 * m + n.val) { pool := ch, ctx := leAt c 4 2 }).setNum (O.streamState m n) 1).setNum (O.strandHead m n) 0).okay := by
  subst hc
  simp only [Device.streamOpen, stream_div, stream_mod, hresident, hclosed, beq_self_eq_true, Bool.and_self, if_true, hjob, hok, hdelivery, hport,
    howner, ne_eq, not_true_eq_false, decide_false, Bool.or_self, Nat.not_lt.mpr hsize, hextents, Bool.not_true, Bool.false_eq_true, if_false, hclaim,
    hopen]

theorem streamClose_of_open (h : s.streamSt (64 * m + n.val) = 1) :
    s.streamClose (64 * m + n.val) = (((s.setStream (64 * m + n.val) { s.stream (64 * m + n.val) with closing := true }).setNum
      (O.streamState m n) 2).flushView (64 * m + n.val)).okay := by
  simp only [Device.streamClose, stream_div, stream_mod, h, if_true]

theorem streamFlush_of_open (h : s.streamSt (64 * m + n.val) = 1) :
    s.streamFlush (64 * m + n.val) = ((s.setStream (64 * m + n.val) { s.stream (64 * m + n.val) with
      flushAt := some (s.num (O.nextSampleSeq m n)) }).flushView (64 * m + n.val)).okay := by
  simp only [Device.streamFlush, stream_div, stream_mod, h]
  rfl

theorem streamThaw_of_frozen (h : s.streamSt k = 3) : s.streamThaw k = s.thaw (masterId 6 k) := if_pos h

/-! ## Records (R343) -/

theorem recordBegin_taken {p : Piece} (hempty : (s.stream k).records = []) (hgood : s.structural k p.data = none) :
    s.recordBegin k p =
      (let o := O.nextSampleSeq (k / 64) (k % 64)
       let d : Device := (s.setNum o ((s.num o + 1) % 2 ^ 32)).workArrives
       (d.setStream k { d.stream k with
          records := (d.stream k).records ++ [{ seq := s.num o, hdr := p.data.take 32, body := p.data.drop 32, bufs := p.bufs, ended := p.last }]
          discarding := false }).advanceRecord k (s.num o)) := by
  simp only [Device.recordBegin, hempty, List.getLast?_nil, hgood]

theorem recordBegin_refused {p : Piece} {st : Status} {code : Nat} (hempty : (s.stream k).records = [])
    (hbad : s.structural k p.data = some (st, code)) :
    s.recordBegin k p =
      (let d : Device := s.poolRelease (k / 64) (s.stream k).pool p.bufs
       ((d.setStream k { s.stream k with discarding := !p.last }).sStat k 2).rejectRow (k / 64) (leAt p.data 14 2) st 0 (leAt p.data 0 4) code) := by
  simp only [Device.recordBegin, hempty, List.getLast?_nil, hbad]

/-! ## Encode streams (R368, R374, R476) -/

/-- A claim takes no time. -/
theorem claim_uptime (res : List Nat) (enable sid : Nat) : (s.claim res enable sid).1.uptime = s.uptime := by
  unfold Device.claim
  split <;> rfl

/-- A configuration that passes the checks of R368 and whose output is a ring claims its stream number. -/
theorem encOpen_ok {x : Job} {c : Bytes} {d : Device} {sid : Nat} (hc : c = s.eCfg (64 * m + n.val)) (hresident : s.resident (leAt c 2 1) = true)
    (hclosed : s.encSt (64 * m + n.val) = 0) (hjob : s.job? (leAt c 2 1) = some x) (hok : encCfgOk c = true)
    (hcodec : bit (s.num O.encodeCodecs) (leAt c 0 1) = true) (hring : leAt c 60 1 = 0)
    (hextents : (s.plainExtent x (leAt c 32 8) (4096 + leAt c 40 4 * encStride c) && s.plainExtent x (leAt c 48 8) (leAt c 56 4 + 64)) = true)
    (hclaim : s.claim [O.streamState m n] (O.encodeControl m n) sid = (d, none)) :
    s.encOpen (64 * m + n.val) sid = ((d.setEnc (64 * m + n.val) { srcWait := some d.uptime }).setNum (O.encodeState m n) 1).okay := by
  subst hc
  have htime : d.uptime = s.uptime := by rw [← claim_uptime (s := s) [O.streamState m n] (O.encodeControl m n) sid, hclaim]
  simp only [Device.encOpen, stream_div, stream_mod, hresident, hclosed, beq_self_eq_true, Bool.and_self, if_true, hjob, hok, hcodec, hring, hextents,
    Bool.not_true, Bool.false_eq_true, zero_ne_one, decide_false, Bool.false_and, Bool.or_self, if_false, hclaim, htime]

theorem encClose_of_open (h : s.encSt (64 * m + n.val) = 1) :
    s.encClose (64 * m + n.val) = (((s.setEnc (64 * m + n.val) { s.enc (64 * m + n.val) with closing := true }).setNum
      (O.encodeState m n) 2).encCloseView (64 * m + n.val)).okay := by
  simp only [Device.encClose, stream_div, stream_mod, h, if_true]

theorem encThaw_of_frozen (h : s.encSt k = 3) : s.encThaw k = s.thaw (masterId 6 k) := if_pos h

end

/-! ## The obligations -/

/-- Settles O35: a write of a stream's object meets the stream in its state, and a record or a Strand goes on in a stream that works. -/
theorem inputStreams : Obligations.InputStreams := by
  refine ⟨fun s m n x c d haccept hresident hclosed hc hjob hok hdelivery hport howner hsize hextents hd hnone hfree => ?_,
    fun s m n haccept hopen => ?_, fun s m n haccept hopen => ?_, fun s m n d haccept hfrozen hthaw => ?_,
    fun s m n hworks hclosing hrecords hstrand hwritten => ?_, fun s m n p rest hqueue hneed hworks hfirst => ?_,
    fun s m n p rest hqueue hneed hworks hfirst => ?_, fun d k p => recordBegin_taken, fun d k code p st => recordBegin_refused,
    fun s m n y i hwaiter hslot hworks => ?_, fun s m n y rest hrecords hstage hworks => ?_, fun s m n d hstrand hlimit hworks hlive htime => ?_,
    fun s m n d rest x t hstrands hjob hworks htail hlast hle hroom => ?_, fun s m hworks htime => ?_⟩
  · obtain ⟨⟨ch, t⟩, hopen⟩ := poolOpen_of_channelFree hfree 4 (leAt c 8 2) (leAt c 1 1) (O.streamControl m n) 0xFFFFFFFF
    rw [hopen]
    exact ownWrite_ok haccept (streamOpen_ok hc (hc ▸ hresident) hclosed hjob hok hdelivery hport howner hsize hextents (Prod.ext hd hnone) hopen)
  · exact ownWrite_ok haccept (streamClose_of_open hopen)
  · exact ownWrite_ok haccept (streamFlush_of_open hopen)
  · refine ownWrite_ok haccept ?_
    rw [streamThaw_of_frozen hfrozen, hthaw, ← HostQueues.measured_okay]
  · exact congrArg s.to (if_pos (by simp [hworks, hclosing, hrecords, hstrand, hwritten]))
  · simp [exec, execRecordArrival, State.to, hqueue, hneed, hworks, hfirst]
  · simp [exec, execRecordArrival, State.to, hqueue, hneed, hworks, hfirst]
  · simp only [exec, execWorkSlotGrant, run_eq, State.to, hwaiter, hslot, hworks, if_true]
  · have hplaces : (y.stage == SampStage.ready || y.stage == SampStage.failed) = true := by simpa using hstage
    simp only [exec, execSamplePlace, run_eq, State.to, hrecords, hplaces, hworks, Bool.and_self, if_true]
  · simp [exec, execPackTimeout, State.to, hstrand, hlimit, hworks, hlive, htime]
  · simp [exec, execStrandWrite, State.to, hstrands, hjob, hworks, htail, Nat.not_lt.mpr hlast, Nat.not_lt.mpr hle, Nat.not_lt.mpr hroom.le,
      Nat.not_le.mpr hroom]
  · exact congrArg s.to (if_neg (by simp [hworks, htime]))

/-- Settles O36: an engine takes, finishes or gives up the job that stands first for it, in a complex that works. -/
theorem mediaEngines : Obligations.MediaEngines := by
  refine ⟨fun s m k e hfree hworks => ?_, fun d m kind e p hhead => ?_, fun s m e d u j y hjob hsample hworks hlive htime hdone => ?_,
    fun s m n q y t hsample hdeadline hworks hstage htime => ?_, fun s m e j p hjob hkind hbatch hworks hhead => ?_,
    fun s m n x c d haccept hc hresident hclosed hjob hok hcodec hring hextents hd hnone => ?_, fun s m n haccept hopen => ?_,
    fun s m n d haccept hfrozen hthaw => ?_, fun s m n x h hjob hworks hopen hhead hnew hroom => ?_, fun s m k e f hpick hfree hworks hnext hread => ?_,
    fun s m n f hworks hstate hencoding => ?_, fun s m n f hnext hworks hlate hread => ?_⟩
  · simp only [exec, execDecodeDispatch, run_eq, State.to, hfree, hworks, if_true]
  · simp only [Device.engineNext, hhead]
  · simp only [exec, execDecodeComplete, run_eq, State.to, hjob, hsample, hworks, bne_iff_ne.mpr hlive, htime, hdone, Bool.and_self, if_true]
  · simp [exec, execDecodeDeadline, State.to, hsample, hdeadline, hworks, hstage, htime]
  · have hrange : (decide (8 ≤ e.val) && decide (e.val < 16)) = false := by
      rcases hkind with h | h <;> simp <;> omega
    simp only [exec, execLcSwitch, run_eq, State.to, hjob, hrange, hbatch, hworks, hhead]
    rfl
  · exact ownWrite_ok haccept (encOpen_ok hc hresident hclosed hjob hok hcodec hring hextents (Prod.ext hd hnone))
  · exact ownWrite_ok haccept (encClose_of_open hopen)
  · refine ownWrite_ok haccept ?_
    rw [encThaw_of_frozen hfrozen, hthaw, ← HostQueues.measured_okay]
  · simp [exec, execSourceHeadPoll, State.to, hjob, hworks, hopen, hhead, Nat.not_lt.mpr hnew.le, hnew.ne', Nat.not_lt.mpr hroom]
  · obtain ⟨g, hg⟩ := Option.isSome_iff_exists.mp hread
    simp [exec, execEncodeFrameStart, State.to, hpick, hfree, hworks, hnext, hg]
  · rcases hstate with hstate | hstate <;> simp [exec, execEncodeFrameEnd, State.to, hworks, hstate, hencoding]
  · obtain ⟨g, hg⟩ := Option.isSome_iff_exists.mp hread
    simp [exec, execFrameDeadline, State.to, hnext, hworks, hlate, hg]

end Sys2Proof.MediaPipeline
end

section
/-! The occupancy of cores: slices, the steps of a hand-over, and commands that run too long (R383 to R395). -/

namespace Sys2Proof.CoreOccupancy
open Sys2Proof.Machine Sys2Proof.Laws

/-- A core may be saved: at its cheap point, or, forced, once it stands and the transactions of its job have ended. -/
theorem saveReady {s : Device} {n : Nat} {h : Hand}
    (hstage : h.stage = .saving ∨ (h.stage = .full ∧ s.coreStill n = true ∧ (match h.out with | some a => s.jobTxnsOver a | none => true) = true)) :
    (h.stage == HandStage.saving ||
      (h.stage == HandStage.full && s.coreStill n && (match h.out with | some a => s.jobTxnsOver a | none => true))) = true := by
  rcases hstage with hsaving | ⟨hfull, hstill, hover⟩
  · simp [hsaving]
  · rw [hfull, hstill, hover]
    rfl

/-- Settles O38: each step of a hand-over finds the core at the stage before it. -/
theorem coreOccupancyCommands : Obligations.CoreOccupancyCommands := by
  refine ⟨fun s j x hjob hover hstays => ?_, fun s c k h a hhand hout hstage hcheap hrests hbanks htxns hruns hdomain hvalid => ?_,
    fun s c k h a hhand hout hstage hcheap hrests hbanks htxns hruns hdomain hvalid => ?_, fun s c k h a hhand hout hstage htime hruns => ?_,
    fun s c k h hhand hstage hruns hmemory => ?_, fun s c k h a hhand hout hstage hruns hdomain => ?_,
    fun s c k h b hhand hinto hstage hruns hmemory hdomain => ?_, fun s u st rows j t hrunning htime => ?_⟩
  · simp [exec, execSliceEnd, State.to, hjob, hover, hstays]
  · simp [exec, execCheapPointReached, State.to, hhand, hout, hstage, hcheap, hrests, hbanks, htxns, hruns, hdomain, hvalid]
  · simp [exec, execCheapPointReached, State.to, hhand, hout, hstage, hcheap, hrests, hbanks, htxns, hruns, hdomain, hvalid]
  · simp [exec, execCheapPointTimeout, State.to, hhand, hout, hstage, htime, hruns]
  · simp only [exec, execCoreSaveComplete, run_eq, State.to, hhand]
    exact congrArg s.to (if_pos (by rw [hruns, hmemory, Bool.and_true, Bool.and_true]; exact saveReady hstage))
  · simp [exec, execCoreClearComplete, State.to, hhand, hout, hstage, hruns, hdomain]
  · simp [exec, execCoreRestoreComplete, State.to, hhand, hinto, hstage, hruns, hmemory, hdomain]
  · simp only [exec, execCommandRunLimit, run_eq, State.to, hrunning]
    exact congrArg s.to (if_pos htime)

end Sys2Proof.CoreOccupancy
end
